-- ==== Sys2Proof/Word.lean ====
section
/-! DEFINITION. The plain word types of the model (R7). -/

namespace Sys2Proof

/-- A byte (R7). -/
abbrev Byte := BitVec 8

/-- A 32-bit word (R7). -/
abbrev Word := BitVec 32

/-- The three access shapes of a host access through a BAR: a read of `n` bytes or a write of data. -/
inductive Access where
  | read (n : Nat)
  | write (data : List Byte)
deriving DecidableEq, Repr

/-- Who writes a register: a host function (function 0 is PF0) or the supervisor firmware (R255, R449). -/
inductive Writer where
  | host (fn : Fin 16)
  | firmware
deriving DecidableEq, Repr

end Sys2Proof
end

