-- ==== Sys2Proof/Syntax.lean ====
section
/-! DEFINITION. The commands of the block: one constructor of `Instr` per row of the table of operations and events. Operands of a
host command are its parameters at their widths; an event carries what the outside decides (which instance, what arrived). -/

namespace Sys2Proof

/-- Where a host command came from and the header fields its reply carries (R266, R268): the function, its command ring, TAG and SEQ. -/
structure Hdr where
  fn : Fin 16
  ring : BitVec 13
  tag : BitVec 12
  seq : Word
deriving DecidableEq, Repr

/-- Which range register of a function a write names (R256). -/
inductive FnReg where
  | ring | tag | vec
deriving DecidableEq, Repr

/-- What causes a warm reset (R488): WARM_RST_N, PWR_RESET_REQ, the firmware. -/
inductive PwrCause where
  | pin | request | firmware
deriving DecidableEq, Repr

/-- What a Tyben flit or training event reports: the cause of an entry to RETRAIN (R387). -/
inductive RetrainCause where
  | naks | lostLock | silence
deriving DecidableEq, Repr

/-- A CSI-2 packet header and data as its port delivers it (R290). -/
structure CsiPkt where
  vc : BitVec 5
  dt : BitVec 6
  data : List Byte
  crcOk : Bool
  /-- Header ECC: 0 good, 1 corrected, 2 uncorrectable. -/
  ecc : Fin 3
deriving DecidableEq, Repr

/-- A CAN frame on the bus (R370). -/
structure CanFrame where
  ide : Bool
  rtr : Bool
  fdf : Bool
  brs : Bool
  esi : Bool
  id : BitVec 29
  dlc : BitVec 4
  data : List Byte
deriving DecidableEq, Repr

/-- How an attempt to send a CAN frame ends (R380). -/
inductive CanTx where
  | sent | failed | lost
deriving DecidableEq, Repr

/-- A bus error as ISO 11898-1 sorts them (R382): a transmit error, a receive error, a dominant bit after a receiver's error flag,
a loop delay out of range (R371), a protocol exception (R367). -/
inductive CanErr where
  | transmit | receive | dominant | delay | exception
deriving DecidableEq, Repr

/-- A comparator of R350 that has an event of its own: a pin output, a CAN launch, an Ethernet launch entry, a posted frame with a launch time. -/
inductive Comparator where
  | pin (p : Fin 6)
  | can (c : Fin 16) (b : Fin 64)
  | launch (m : Fin 8) (e : Fin 64)
  | post (m : Fin 8) (cls : Fin 8) (i : Nat)
deriving DecidableEq, Repr

/-- What the UCIe link trains to (R288, Table 20): rate code, half width, lanes replaced. -/
structure UcieLink where
  rate : BitVec 3
  narrow : Bool
  repaired : Byte
deriving DecidableEq, Repr

/-- What the fitted LPDDR5 devices answer when their mode registers are read (R426): LPDDR5X, and the density code. -/
structure MemDev where
  lp5x : Bool
  density : BitVec 2
deriving DecidableEq, Repr

/-- A JTAG instruction (R466). -/
inductive JtagIr where
  | idcode | bypass | other
deriving DecidableEq, Repr

/-- The instructions and events. -/
inductive Instr where
  -- registers and host link (chapters 00, 10)
  | registerWrite (by_ : Writer) (addr : BitVec 48) (value : Word)
  | hostUnmappedAccess (fn : Fin 16) (addr : BitVec 48)
  | bar4Access (fn : Fin 16) (off : BitVec 36) (acc : Access)
  | hifFnWrite (fn : Fin 16) (f : Fin 16) (reg : FnReg) (value : Word)
  | ringDescWrite (fn : Fin 16) (r : BitVec 14) (word : Fin 8) (value : Word)
  | doorbell (fn : Fin 16) (off : BitVec 16) (size : Nat) (value : BitVec 64)
  | commandTake (fn : Fin 16) (ring : BitVec 13)
  | eventsLostRecord (fn : Fin 16)
  | openSession (h : Hdr) (low high : Byte) (resultBase : BitVec 64)
  | closeSession (h : Hdr)
  | eventBind (h : Hdr) (ring : BitVec 16)
  | nop (h : Hdr) (echo : Word)
  | deviceQuery (h : Hdr)
  | dmaCopy (h : Hdr) (engine : Byte) (src dst : BitVec 64) (bytes : Word)
  | dmaFill (h : Hdr) (engine : Byte) (pattern : Word) (dst : BitVec 64) (bytes : Word)
  | hostDmaDone (i : Nat)
  | bar4Set (h : Hdr) (base : BitVec 64)
  | tallyAdd (h : Hdr) (tally : BitVec 16) (value : Word)
  | tallySet (h : Hdr) (tally : BitVec 16) (value : Word)
  | tallyRead (h : Hdr) (tally : BitVec 16)
  | tallyWait (h : Hdr) (tally : BitVec 16) (target timeoutUs : Word)
  | tallyApply (t : BitVec 14)
  | tallyWaitSatisfied (i : Nat)
  | tallyWaitTimeout (i : Nat)
  | tallyRemoteAdd (h : Hdr) (tally node : BitVec 16) (value : Word)
  | tallyRemoteSet (h : Hdr) (tally node : BitVec 16) (value : Word)
  | tallyRemoteRead (h : Hdr) (tally node : BitVec 16)
  | tallyRemoteWait (h : Hdr) (tally node : BitVec 16) (target timeoutUs : Word)
  | remoteResponseTimeout (i : Nat)
  | functionLevelReset (fn : Fin 16)
  | hotReset
  -- plans and jobs (chapter 08)
  | loadPlan (h : Hdr) (addr : BitVec 64) (bytes : Word)
  | startPlan (h : Hdr) (mode pin : Byte) (at_ : BitVec 64)
  | planStartFire
  | stopPlan (h : Hdr) (mode : Byte)
  | planStopFrameEnd
  | unloadPlan (h : Hdr)
  | planQuery (h : Hdr)
  | jobStart (h : Hdr) (job : BitVec 16)
  | jobQuery (h : Hdr) (job : BitVec 16)
  | partitionHalt (h : Hdr) (p : Byte)
  | partitionResume (h : Hdr) (p : Byte)
  | selftestQuery (h : Hdr) (rod : Byte)
  | beam (w : Byte)
  | preemptRequest
  | jobRunStart (j : BitVec 10)
  | contextSaveDone (j : BitVec 10)
  | contextRestoreDone (j : BitVec 10)
  | reloadComplete (j : BitVec 10)
  | selftestSliceStop (rod : Fin 64)
  | selftestSegmentDone (rod : Fin 64) (pass last : Bool)
  -- sequencer (chapter 04)
  | issue (rod : Fin 64)
  | scanIssueResume (rod : Fin 64)
  | loop (rod : Fin 64)
  | loopi (rod : Fin 64)
  | addi (rod : Fin 64)
  | alu (rod : Fin 64)
  | lui (rod : Fin 64)
  | ldw (rod : Fin 64)
  | br (rod : Fin 64)
  | wait (rod : Fin 64)
  | waitSatisfied (rod : Fin 64)
  | signal (rod : Fin 64)
  | fence (rod : Fin 64)
  | tileEnd (rod : Fin 64)
  | align (rod : Fin 64)
  | rds (rod : Fin 64)
  | setb (rod : Fin 64)
  | halt (rod : Fin 64)
  | trap (rod : Fin 64)
  | tileOverrun (rod : Fin 64)
  | descOverrun (rod : Fin 64) (unit : Fin 4)
  | descEnd (rod : Fin 64) (unit : Fin 4)
  | matmul (rod : Fin 64)
  | conv (rod : Fin 64)
  | elemwise (rod : Fin 64)
  | pool (rod : Fin 64)
  | cropResize (rod : Fin 64)
  | chArgmax (rod : Fin 64)
  | attnScore (rod : Fin 64)
  | attnMerge (rod : Fin 64)
  | scan (rod : Fin 64)
  | convert (rod : Fin 64)
  | dmaMove (rod : Fin 64)
  -- rods and pairs (chapter 03)
  | rodPairCtlWrite (by_ : Writer) (rod : Fin 64) (value : Word)
  | lockHandover (pair : Fin 32)
  | splitHandover (pair : Fin 32)
  | ceClear (by_ : Writer) (rod : Fin 64)
  | scrubGap (rod : Fin 64)
  -- page keeper (chapter 06)
  | kvSeqOpen (h : Hdr) (params : BitVec 384)
  | kvSeqFork (h : Hdr) (params : BitVec 384)
  | kvAppend (h : Hdr) (params : BitVec 384)
  | kvSeqClose (h : Hdr) (params : BitVec 384)
  | kvSeqQuery (h : Hdr) (params : BitVec 384)
  | kvPoolQuery (h : Hdr) (params : BitVec 384)
  | kvRingOpen (h : Hdr) (params : BitVec 384)
  | kvRingStep (h : Hdr) (params : BitVec 384)
  | kvPartialSend (h : Hdr) (params : BitVec 384)
  | kvRingClose (h : Hdr) (params : BitVec 384)
  | kvJobPortRequest (rod : Fin 64) (port : Fin 16) (data : List Byte)
  | pageTakeResume (p : Fin 16)
  | ringArrival (ctx : Fin 16)
  | ringSendDone (ctx : Fin 16)
  | partialArrival (ctx : Fin 16)
  | kvTableUe
  -- recurrent streams (chapter 07)
  | carryOpen (h : Hdr) (params : BitVec 384)
  | carryClose (h : Hdr) (params : BitVec 384)
  | carrySwapOut (h : Hdr) (params : BitVec 384)
  | carrySwapIn (h : Hdr) (params : BitVec 384)
  | carrySwapDone (stream : BitVec 12)
  | carryReset (h : Hdr) (params : BitVec 384)
  | carryQuery (h : Hdr) (params : BitVec 384)
  | carryExport (h : Hdr) (params : BitVec 384)
  | carryImport (h : Hdr) (params : BitVec 384)
  -- journal and replay (chapter 09)
  | inputAdmit (point : Byte)
  | journalGapRecord
  | crossingLate (kind inst : Byte) (job : Option (BitVec 10)) (point : Option Byte)
  | journalOpen (h : Hdr) (ring : BitVec 16) (base bytes : BitVec 64)
  | journalClose (h : Hdr)
  | replayOpen (h : Hdr) (ring : BitVec 16) (base bytes : BitVec 64)
  | replayClose (h : Hdr)
  | crossingQuery (h : Hdr) (kind inst : Byte)
  | replayAdmit
  -- sensor intake (chapter 11)
  | portConfig (h : Hdr) (port phy lanes : Byte) (rate : BitVec 16)
  | streamConfig (h : Hdr) (point : Byte) (desc : BitVec 2048)
  | streamEnable (h : Hdr) (point : Byte)
  | streamDisable (h : Hdr) (point : Byte)
  | recordConfig (h : Hdr) (point : Byte) (desc : BitVec 2048)
  | recordSubmit (h : Hdr) (point : Byte) (addr : BitVec 64) (bytes : Word)
  | streamQuery (h : Hdr) (point clear : Byte)
  | csiFrameStart (port : Fin 16) (vc : BitVec 2) (num : BitVec 16) (ecc : Fin 3)
  | csiLine (port : Fin 16) (pkt : CsiPkt)
  | csiFrameEnd (port : Fin 16) (vc : BitVec 2) (ecc : Fin 3)
  | patternInjection (port : Fin 16)
  | snsRoiWrite (rod : Fin 64) (stream : Fin 32) (data : List Byte)
  | recordDecodeStart (dec : Fin 3) (n : Fin 32)
  | recordDecodeEnd (n : Fin 32)
  | decodeBudget (n : Fin 32)
  -- control loop engine (chapter 12)
  | cleLoopConfig (h : Hdr) (loop : Byte) (rec_ : BitVec 2048)
  | cleCoefSet (h : Hdr) (loop set : Byte) (coef : BitVec 512)
  | cleLoopEnable (h : Hdr) (loop : Byte)
  | cleLoopDisable (h : Hdr) (loop : Byte)
  | cleLoopResume (h : Hdr) (loop : Byte)
  | cleMailboxWrite (h : Hdr) (loop : Byte) (setpoint accel sched : Word)
  | cleMailboxPortWrite (rod : Fin 64) (loop : Fin 128) (data : List Byte)
  | cleInputConfig (h : Hdr) (kind index : Byte) (fields : BitVec 112)
  | clePwmConfig (h : Hdr) (pair : Byte) (period : Word) (mode update : Byte) (dtRise dtFall : BitVec 16) (polA polB safeA safeB group : Byte)
  | clePwmRelease (h : Hdr) (pair : Byte)
  | cleStart (h : Hdr) (mode pin : Byte) (at_ : BitVec 64)
  | cleStartFire
  | cleStop (h : Hdr)
  | cleInject (h : Hdr) (gen kind loop point : Byte) (amp length : Word) (hold : BitVec 16) (f0 df seed : Word)
  | cleCapture (h : Hdr) (ch loop start gen : Byte) (decim : BitVec 16) (count : Word) (dest : BitVec 64)
  | cleQuery (h : Hdr) (loop : Byte)
  | clePeriodStart
  | loopEvaluation (n : Fin 128)
  | spiFrame (p : Fin 8) (words : List Word)
  | encoderUpdate (e : Fin 32) (a b z : Bool)
  | sdDecimation (c : Fin 32) (bits : List Bool)
  | cleSdClock (c : Fin 32)
  | safeEnForce (i : Fin 2) (low : Bool)
  | pwmLoadPoint (q : Fin 48) (top : Bool)
  -- time base and Ethernet (chapter 13)
  | timeSet (h : Hdr) (frac : BitVec 16) (ns : Word) (sec : BitVec 64)
  | timeStep (h : Hdr) (frac : BitVec 16) (ns : Word) (sec : BitVec 64)
  | timeRate (h : Hdr) (incr : BitVec 64)
  | timeSlew (h : Hdr) (rate count : Word)
  | slewEnd
  | timeRead (h : Hdr)
  | timePinConfig (h : Hdr) (pin mode edge : Byte) (at_ : BitVec 64) (period width : Word)
  | timeCapture (h : Hdr) (pin : Byte)
  | timeJumpLimit (h : Hdr) (limit : Word)
  | timNowFracRead (fn : Fin 16)
  | comparatorFire (c : Comparator)
  | timePinEdge (p : Fin 6) (level : Bool)
  | ppsOutPulse
  | ethPortConfig (h : Hdr) (mac speed enable : Byte) (maxFrame : BitVec 16) (txDelay rxDelay lateNs : Word)
  | ethRxqConfig (h : Hdr) (mac queue mode log2 : Byte) (minGap : Word) (base wb : BitVec 64)
  | ethFilterSet (h : Hdr) (mac index queue tests : Byte) (etype vid : BitVec 16) (da : BitVec 48)
  | ethGclSet (h : Hdr) (mac : Byte) (len : BitVec 16) (cycle : Word) (baseTime : BitVec 64) (entries : List (BitVec 64))
  | ethTxPost (h : Hdr) (mac cls launch : Byte) (length : BitVec 16) (addr at_ : BitVec 64)
  | ethLaunchSet (h : Hdr) (mac entry cls mode : Byte) (length : BitVec 16) (src at_ : BitVec 64)
  | ethLaunchQuery (h : Hdr) (mac entry : Byte)
  | ethQuery (h : Hdr) (mac : Byte)
  | ethRxqHeadWrite (m : Fin 8) (q : Fin 4) (value : Word)
  | ethFrameReceive (m : Fin 8) (frame : List Byte)
  | ethTxStart (m : Fin 8)
  | ethTxDone (m : Fin 8)
  | ethGateChange (m : Fin 8)
  | ethGclSwitch (m : Fin 8)
  | ethLaunchDiscard (c : Comparator)
  -- CAN FD (chapter 14)
  | canConfig (h : Hdr) (ctrl mode : Byte) (lateNs minGap : Word)
  | canTiming (h : Hdr) (ctrl : Byte) (nBrp nTseg1 nTseg2 nSjw : BitVec 16) (dBrp dTseg1 dTseg2 dSjw tdco tdcEn : Byte)
  | canFilterSet (h : Hdr) (ctrl index target buf ide : Byte) (value mask : Word)
  | canMbSet (h : Hdr) (ctrl buf kind mode oneShot : Byte) (at_ src : BitVec 64)
  | canMbSend (h : Hdr) (ctrl buf : Byte)
  | canMbAbort (h : Hdr) (ctrl buf : Byte)
  | canRxfConfig (h : Hdr) (ctrl fifo depth : Byte)
  | canRecover (h : Hdr) (ctrl : Byte)
  | canQuery (h : Hdr) (ctrl : Byte)
  | canMbWord0Read (c : Fin 16) (i : Nat)
  | canMbWord23Read (c : Fin 16) (i : Nat)
  | canFrameReceive (c : Fin 16) (f : CanFrame) (age : Nat)
  | canArbitration (c : Fin 16)
  | canTxDone (c : Fin 16) (r : CanTx) (delay : Option (BitVec 7))
  | canLaunchWithdraw (c : Fin 16) (b : Fin 64)
  | canError (c : Fin 16) (e : CanErr)
  | canRecoveryDone (c : Fin 16)
  -- Tyben links (chapter 15)
  | tybNodeSet (h : Hdr) (node : BitVec 16)
  | tybPortConfig (h : Hdr) (port enable medium maxRate mac cls flits : Byte) (peerMac : BitVec 48)
  | tybRouteSet (h : Hdr) (index prefix_ : BitVec 16) (len port valid : Byte)
  | tybMsgSend (h : Hdr) (node : BitVec 16) (data : BitVec 224)
  | tybOffsetMeasure (h : Hdr) (port : Byte)
  | tybPartnerConfig (h : Hdr) (port enable hbMiss : Byte) (hbUs tolNs : Word) (peer : BitVec 16)
  | tybSigConfig (h : Hdr) (slot part enable : Byte)
  | tybQuery (h : Hdr) (port : Byte)
  | tybPeerDetect (p : Fin 2)
  | tybTrainDone (p : Fin 2) (lock : Option (BitVec 2 × BitVec 2))
  | tybDetectRetry (p : Fin 2)
  | tybConfigFlitSend (p : Fin 2)
  | tybConfigFlitRx (p : Fin 2) (flit : List Byte)
  | tybFlitRx (p : Fin 2) (flit : List Byte)
  | tybRetrainEntry (p : Fin 2) (c : RetrainCause)
  | tybRetrainDone (p : Fin 2) (rate width : BitVec 2)
  | tybRetrainTimeout (p : Fin 2)
  | tybMsgRx (p : Fin 2)
  | tallyReqRx (p : Fin 2)
  | tallyRespRx (p : Fin 2)
  | hostMsgRx (p : Fin 2)
  | offsetProbeRx (p : Fin 2)
  | offsetReplyRx (p : Fin 2)
  | heartbeatSend
  | heartbeatRx (p : Fin 2)
  | partnerLost
  | tybSigWrite (rod : Fin 64) (slot : BitVec 4) (data : List Byte)
  | signatureRx (p : Fin 2)
  | witnessRx (p : Fin 2)
  -- memory (chapter 16)
  | memDataSlot (island : Fin 4) (j : Nat)
  | memRefresh (channel : Fin 32) (temp : Byte) (high : Bool) (wrCe : Word) (wrUe : Bool)
  | memScrub (channel : Fin 32) (bank : Fin 16)
  | memInitSequence (dev : MemDev) (fail : Option (Fin 32 × Fin 7))
  -- safety (chapter 17)
  | safReactSet (h : Hdr) (code : BitVec 16) (cls reaction : Byte)
  | safReactQuery (h : Hdr) (code : BitVec 16) (cls : Byte)
  | safGoldenSet (h : Hdr) (index : Byte) (expect : BitVec 64)
  | safFaultInject (h : Hdr) (code : BitVec 16) (device : Byte) (job : BitVec 16)
  | safQuery (h : Hdr)
  | safCtlRelease (by_ : Writer) (value : Word)
  | supLockstep (disagree : Bool)
  | safDisagree
  | wdgLate (i : Byte) (ticks : Word) (job : Option (BitVec 10))
  -- security (chapter 18)
  | otpCommit (h : Hdr) (block : BitVec 1024)
  | otpQuery (h : Hdr) (first rows : BitVec 16)
  | svnAdvance (h : Hdr) (counter target : Byte)
  | ownerProvision (h : Hdr) (params : List Byte)
  | ownerKeyLoad (h : Hdr) (slot : Byte) (key : List Byte)
  | ownerKeyRevoke (h : Hdr) (slot : Byte)
  | lcRetire (h : Hdr)
  | settingsOverride (h : Hdr) (block : BitVec 2048)
  | attest (h : Hdr) (nonce : BitVec 384) (dest : BitVec 64)
  | debugChallenge (h : Hdr)
  | debugUnlock (h : Hdr) (token : List Byte)
  | ledgerOpen (h : Hdr) (record : List Byte)
  | ledgerNew (h : Hdr)
  | ledgerFetch (h : Hdr)
  | ledgerAck (h : Hdr) (seq : BitVec 64)
  | ledgerNote (h : Hdr) (note : List Byte)
  | otpSuspendTimeout
  | secBootWindowWrite (fn : Fin 16) (off : BitVec 19) (data : List Byte)
  | secBootGo (fn : Fin 16) (value : Word)
  | bootRom (marks : List (BitVec 10 × Fin 4)) (link : UcieLink)
  | overrideWaitExpiry
  | bootReady
  | wearRecord (age : BitVec 384) (temps : BitVec 128)
  | jtagInstruction (ir : JtagIr)
  -- power and reset (chapter 19)
  | pwrPlanWrite (fn : Fin 16) (value : Word)
  | pwrThermWarnWrite (fn : Fin 16) (value : Word)
  | pwrResetReq (fn : Fin 16) (value : Word)
  | pwrSupClear (fn : Fin 16) (value : Word)
  | guardSample (avg : List Word)
  | thermSample (temps : List (BitVec 16))
  | supplyWarn (r : Fin 4) (low : BitVec 16)
  | supplyUnderSpec (r : Fin 4) (low : BitVec 16)
  | otpHoldExpiry (r : Fin 4)
  | supplyReset (r : Fin 4) (ioHeld : Bool)
  | clockLossReset
  | powerOnReset
  | warmReset (c : PwrCause)
  | jtagTestReset
  -- trace (chapter 20)
  | traceConfig (h : Hdr) (params : BitVec 384)
  | traceSources (h : Hdr) (params : BitVec 384)
  | traceStart (h : Hdr)
  | traceStop (h : Hdr)
  | traceTrigger (h : Hdr)
  | traceDump (h : Hdr)
  | cntRead (h : Hdr) (rod bank : Byte)
  | traceMerge
  | traceGapRecord
  | traceSync
  | dbgTraceRptrWrite (fn : Fin 16) (value : Word)
  | cntLoRead (fn : Fin 16) (rod : Fin 64) (bank : Fin 3) (k : Fin 32)
  | dbgStampLoRead (fn : Fin 16)
  -- completions
  | kvCommandDone (p : Fin 16)
  | otpProgramDone (bad : Option (BitVec 10 × Word))
  | planLoadDone
  | canBusIntegrationDone (c : Fin 16)
  | sdClockRestored (c : Fin 32)
  | supplyWarnClear (r : Fin 4) (low level : BitVec 16)
  | csiPhyLockChange (port : Fin 16) (locked : Bool)
  | ethLinkChange (m : Fin 8) (up : Bool)
  | ucieLinkRetrain (link : UcieLink)
deriving DecidableEq, Repr

end Sys2Proof
end

