-- ==== Sys2Proof/Config.lean ====
section
/-! DEFINITION. The values the manual leaves open: constants without a body, so that no proof can see what they are. -/

namespace Sys2Proof

/-- A fresh value of width `w`, the `k`-th that a run draws: the manual says the value is not defined (R16) or states
no result. `k` is the counter `State.free`, which each draw advances (log entry 1). -/
opaque Config.free (w k : Nat) : BitVec w

/-- Where the buffer of CAN controller `c`'s intake point lies: the manual gives the point slots (R378) and no command or field that
sets their base (log entry 8). -/
opaque Config.canBase (c : Nat) : BitVec 48

/-- The source address of MAC `m`'s own frames: a tunnel frame carries it (R397), and no command or register gives it (log entry 10). -/
opaque Config.macAddr (m : Nat) : BitVec 48

/-- Field `k` of a KV_POOL entry of a plan image: the manual lists the fields (R160) and gives them no bit positions (log entry 11).
0 partition, 1 POOL_BASE, 2 PAGE_FIRST, 3 PAGE_COUNT, 4 PLANES, 5 PLANE_ROW, 6 SEQ_FIRST, 7 SEQ_COUNT, 8 PT_FIRST, 9 PT_STRIDE. -/
opaque Config.poolField (entry : BitVec 256) (k : Nat) : Nat

/-- Field `k` of a CARRY entry of a plan image, as above (R185; log entry 11). 0 partition, 1 STREAM_FIRST, 2 STREAM_COUNT, 3 MAX_WIDTH,
4 SWAP_BASE, 5 number of areas; area i: 6 + 3i rod, 7 + 3i offset, 8 + 3i lines. -/
opaque Config.carryField (entry : BitVec 256) (k : Nat) : Nat

/-- NEXT in the count-store entry of a page that no page follows on a free list: Table 7 of chapter 06 gives it no value (log entry 101). -/
opaque Config.pageNext (page : Nat) : BitVec 20

end Sys2Proof
end

