-- ==== Sys2Proof/Machine/Bits.lean ====
section
/-! DEFINITION. Bit fields, little-endian byte strings (R5, R6), the wrap-around comparison (R15) and saturating counts. -/

namespace Sys2Proof.Machine

/-- Bits `[lo + w - 1 : lo]` of a record read as one number (R5). -/
def fld (x lo w : Nat) : Nat := x / 2 ^ lo % 2 ^ w

/-- One bit of a record (R5). -/
def bit (x lo : Nat) : Bool := x / 2 ^ lo % 2 == 1

/-- A Bool as a bit. -/
def b2n (b : Bool) : Nat := if b then 1 else 0

/-- The number a little-endian byte string spells: the byte at the lowest address holds bits [7:0] (R6). -/
def leNat : List Byte → Nat
  | [] => 0
  | b :: bs => b.toNat + 256 * leNat bs

/-- The `n` bytes of a number, lowest first (R6). -/
def leBytes : Nat → Nat → List Byte
  | 0, _ => []
  | n + 1, x => BitVec.ofNat 8 x :: leBytes n (x / 256)

/-- The number a big-endian byte string spells (the standards of chapter 18 fix that order). -/
def beNat (bs : List Byte) : Nat := bs.foldl (fun a b => a * 256 + b.toNat) 0

/-- The `n` bytes of a number, highest first. -/
def beBytes (n x : Nat) : List Byte := (leBytes n x).reverse

/-- Signed value of an `n`-bit number. -/
def sgn (n x : Nat) : Int :=
  let m := x % 2 ^ n
  if 2 * m < 2 ^ n then (m : Int) else (m : Int) - (2 ^ n : Nat)

/-- The `n`-bit two's-complement pattern of an integer. -/
def wrap (n : Nat) (i : Int) : Nat := (i % ((2 ^ n : Nat) : Int)).toNat

/-- The signed difference of two `n`-bit values (R15). -/
def wdiff (n a b : Nat) : Int := sgn n (wrap n ((a : Int) - (b : Int)))

/-- `a` is later than or equal to `b` on `n` bits (R15). -/
def atOrLater (n a b : Nat) : Bool := 0 ≤ wdiff n a b

/-- A 32-bit counter that saturates at 2^32 - 1. -/
def satInc (x : Word) : Word := if x = BitVec.allOnes 32 then x else x + 1

/-- Saturating addition on a number kept at most `m`. -/
def satAdd (m a b : Nat) : Nat := min m (a + b)

/-- Packs (offset, width, value) fields into one number. -/
def pack (fs : List (Nat × Nat × Nat)) : Nat :=
  fs.foldl (fun a f => a + (f.2.2 % 2 ^ f.2.1) * 2 ^ f.1) 0

/-- The first index at which a predicate holds. -/
def findIdx {α : Type} (p : α → Bool) : List α → Nat → Option Nat
  | [], _ => none
  | a :: as, i => if p a then some i else findIdx p as (i + 1)

/-- The list with its `i`-th entry removed. -/
def dropAt {α : Type} : Nat → List α → List α
  | _, [] => []
  | 0, _ :: as => as
  | i + 1, a :: as => a :: dropAt i as

/-- A list padded with zeros (or cut) to `n` bytes. -/
def padTo (n : Nat) (bs : List Byte) : List Byte := (bs ++ List.replicate (n - bs.length) 0).take n

/-- Ceiling division. -/
def cdiv (a b : Nat) : Nat := (a + b - 1) / b

/-- Is the address aligned to a 64-byte line (R7)? -/
def lineAligned (a : Nat) : Bool := a % 64 == 0

/-- A field lies in a range. -/
def within (lo hi x : Nat) : Bool := decide (lo ≤ x) && decide (x ≤ hi)

end Sys2Proof.Machine
end

