-- ==== Sys2Proof/Machine/Num.lean ====
section
/-! DEFINITION. Number formats, exact values and the one rounding of the output stage (R30 to R36, R49 to R58). -/

namespace Sys2Proof.Machine

/-- The exact value of an element: finite with its sign (which a zero keeps), infinite or NaN (R34). -/
inductive Val where
  | fin (x : ℚ) (neg : Bool)
  | inf (neg : Bool)
  | nan
deriving DecidableEq, Repr, Inhabited

/-- 2 to an integer power. -/
def pow2 (k : Int) : ℚ := if 0 ≤ k then mkRat (2 ^ k.toNat) 1 else mkRat 1 (2 ^ (-k).toNat)

/-- A finite value with the sign of its number. -/
def Val.ofRat (x : ℚ) : Val := .fin x (decide (x < 0))

def Val.isNan : Val → Bool | .nan => true | _ => false
def Val.isFin : Val → Bool | .fin .. => true | _ => false

/-- The number of a finite value, else zero. -/
def Val.rat : Val → ℚ | .fin x _ => x | _ => 0

/-- The sign bit of a value. -/
def Val.sign : Val → Bool | .fin _ n => n | .inf n => n | .nan => false

def Val.neg : Val → Val | .fin x n => .fin (-x) (!n) | .inf n => .inf (!n) | .nan => .nan

/-- Exact product (R46): infinity times zero is NaN. -/
def Val.mul : Val → Val → Val
  | .nan, _ => .nan
  | _, .nan => .nan
  | .fin x m, .fin y n => .fin (x * y) (m != n)
  | .inf m, .inf n => .inf (m != n)
  | .inf m, .fin y n => if y = 0 then .nan else .inf (m != n)
  | .fin x m, .inf n => if x = 0 then .nan else .inf (m != n)

/-- Exact sum (R46): infinities of both signs give NaN; a zero sum of zeros of one sign keeps it. -/
def Val.add : Val → Val → Val
  | .nan, _ => .nan
  | _, .nan => .nan
  | .inf m, .inf n => if m = n then .inf m else .nan
  | .inf m, _ => .inf m
  | _, .inf n => .inf n
  | .fin x m, .fin y n => let z := x + y; .fin z (if z = 0 then x = 0 && y = 0 && m && n else decide (z < 0))

/-! ### Rounding -/

/-- To the nearest integer, ties to even (R49). -/
def roundNE (x : ℚ) : Int :=
  let f := x.floor
  let r := x - f
  if r < 1 / 2 then f else if 1 / 2 < r then f + 1 else if f % 2 = 0 then f else f + 1

/-- Toward zero (R42, R58). -/
def truncZ (x : ℚ) : Int := if 0 ≤ x then x.floor else -((-x).floor)

/-- floor(log2 |x|) of a nonzero number (R44). -/
def floorLog2 (x : ℚ) : Int :=
  let k : Int := (Nat.log2 x.num.natAbs : Int) - (Nat.log2 x.den : Int)
  let a : ℚ := if x < 0 then -x else x
  if a < pow2 k then k - 1 else k

/-! ### Formats -/

/-- A floating-point format (R33, Table 2): exponent bits, bias, fraction bits, whether it has infinities, canonical NaN. -/
structure FloatFmt where
  ebits : Nat
  bias : Nat
  fbits : Nat
  hasInf : Bool
  nan : Nat
deriving DecidableEq, Repr

def FloatFmt.width (f : FloatFmt) : Nat := 1 + f.ebits + f.fbits

def e4m3 : FloatFmt := ⟨4, 7, 3, false, 0x7F⟩
def e5m2 : FloatFmt := ⟨5, 15, 2, true, 0x7E⟩
def fp16 : FloatFmt := ⟨5, 15, 10, true, 0x7E00⟩
def bf16 : FloatFmt := ⟨8, 127, 7, true, 0x7FC0⟩
def fp32 : FloatFmt := ⟨8, 127, 23, true, 0x7FC00000⟩
/-- IEEE 754 binary64, which CBOR numbers may use (R313). -/
def fp64 : FloatFmt := ⟨11, 1023, 52, true, 0x7FF8000000000000⟩

/-- The floating-point format of a format code (R30). -/
def floatOf : Nat → Option FloatFmt
  | 5 => some e4m3
  | 6 => some e5m2
  | 7 => some fp16
  | 8 => some bf16
  | 9 => some fp32
  | _ => none

/-- Width and signedness of an integer format code (R31); BS4 and BS8 elements are INT4 and INT8 (R36). -/
def intOf : Nat → Option (Nat × Bool)
  | 0 => some (4, true)
  | 1 => some (8, true)
  | 2 => some (8, false)
  | 3 => some (16, true)
  | 4 => some (32, true)
  | 10 => some (4, true)
  | 11 => some (8, true)
  | _ => none

/-- Bits of one element (R30, Table 1). -/
def fmtBits : Nat → Nat
  | 0 => 4
  | 1 => 8
  | 2 => 8
  | 3 => 16
  | 4 => 32
  | 5 => 8
  | 6 => 8
  | 7 => 16
  | 8 => 16
  | 9 => 32
  | 10 => 4
  | 11 => 8
  | _ => 8

def isBlock (c : Nat) : Bool := c == 10 || c == 11
def isInt (c : Nat) : Bool := decide (c ≤ 4)

/-- The value an encoding holds (R34). -/
def FloatFmt.decode (f : FloatFmt) (w : Nat) : Val :=
  let s := bit w (f.ebits + f.fbits)
  let e := fld w f.fbits f.ebits
  let m := w % 2 ^ f.fbits
  let sg : ℚ := if s then -1 else 1
  if f.hasInf && e + 1 == 2 ^ f.ebits then (if m = 0 then .inf s else .nan)
  else if !f.hasInf && e + 1 == 2 ^ f.ebits && m + 1 == 2 ^ f.fbits then .nan
  else if e = 0 then .fin (sg * (m : ℚ) * pow2 (1 - (f.bias : Int) - f.fbits)) s
  else .fin (sg * ((2 ^ f.fbits + m : Nat) : ℚ) * pow2 ((e : Int) - f.bias - f.fbits)) s

/-- The encoding of the largest finite magnitude (R33, Table 2). -/
def FloatFmt.maxCode (f : FloatFmt) : Nat := if f.hasInf then (2 ^ f.ebits - 1) * 2 ^ f.fbits - 1 else 2 ^ (f.ebits + f.fbits) - 2

/-- The encoding of infinity. -/
def FloatFmt.infCode (f : FloatFmt) : Nat := (2 ^ f.ebits - 1) * 2 ^ f.fbits

/-- A stored element: its bits, whether it counts as saturated, and the value the bits represent. -/
structure Stored where
  bits : Nat
  sat : Bool
  v : Val
deriving DecidableEq, Repr

/-- Rounds a value once into a floating-point format (R51, R53, R55). -/
def FloatFmt.store (f : FloatFmt) (satBit : Bool) (x : Val) : Stored :=
  let sb := fun (n : Bool) => if n then 2 ^ (f.ebits + f.fbits) else 0
  let big := fun (n : Bool) =>
    if satBit || !f.hasInf then { bits := sb n + f.maxCode, sat := true, v := f.decode (sb n + f.maxCode) : Stored }
    else { bits := sb n + f.infCode, sat := true, v := .inf n }
  match x with
  | .nan => { bits := f.nan, sat := false, v := .nan }
  | .inf n => if satBit || !f.hasInf then big n else { bits := sb n + f.infCode, sat := false, v := .inf n }
  | .fin q n =>
    if q = 0 then { bits := sb n, sat := false, v := .fin 0 n }
    else
      let a : ℚ := if q < 0 then -q else q
      let e := max (floorLog2 q) (1 - (f.bias : Int))
      let k := (roundNE (a * pow2 ((f.fbits : Int) - e))).toNat
      let code := (e + f.bias - 1).toNat * 2 ^ f.fbits + k
      if f.maxCode < code then big (decide (q < 0))
      else { bits := sb (decide (q < 0)) + code, sat := false, v := f.decode (sb (decide (q < 0)) + code) }

/-- Smallest and largest value of an integer width. -/
def intRange (w : Nat) (signed : Bool) : Int × Int := if signed then (-(2 ^ (w - 1) : Nat), (2 ^ (w - 1) : Nat) - 1) else (0, (2 ^ w : Nat) - 1)

/-- Rounds a value once into an integer format with its zero point (R52, R55). -/
def storeInt (w : Nat) (signed : Bool) (zp : Int) (x : Val) : Stored :=
  let (lo, hi) := intRange w signed
  match x with
  | .nan => { bits := 0, sat := false, v := .ofRat (0 - zp) }
  | .inf n => let q := if n then lo else hi; { bits := wrap w q, sat := true, v := .ofRat ((q - zp : Int) : ℚ) }
  | .fin r _ =>
    let q0 := roundNE r + zp
    let q := max lo (min hi q0)
    { bits := wrap w q, sat := q != q0, v := .ofRat ((q - zp : Int) : ℚ) }

/-- Rounds a value once into a scalar format (R49). -/
def store (code : Nat) (satBit : Bool) (zp : Int) (x : Val) : Stored :=
  match floatOf code with
  | some f => f.store satBit x
  | none => match intOf code with
    | some (w, sg) => storeInt w sg zp x
    | none => { bits := 0, sat := false, v := .nan }

/-- The value of a scalar element (R31, R34). -/
def load (code w : Nat) : Val :=
  match floatOf code with
  | some f => f.decode w
  | none => match intOf code with
    | some (n, true) => .ofRat ((sgn n w : Int) : ℚ)
    | some (n, false) => .ofRat ((w % 2 ^ n : Nat) : ℚ)
    | none => .nan

/-- An FP32 word's value. -/
def fpVal (w : Nat) : Val := fp32.decode w

/-- A word is a finite FP32 number. -/
def fpFinite (w : Nat) : Bool := (fpVal w).isFin

/-- The value of a block-scaled element with its scale byte (R36). -/
def loadBlock (code w scale : Nat) : Val :=
  if scale = 255 then .nan
  else match load code w with
    | .fin x n => .fin (x * pow2 ((scale : Int) - 127)) n
    | v => v

/-- The exponent of a block by R54: the smallest e from -127 whose rounded elements fit L, else 127. -/
def blockExp (m : ℚ) (l : Int) : Nat → Int → Int
  | 0, e => min e 127
  | n + 1, e => if roundNE (m * pow2 (-e)) ≤ l then e else blockExp m l n (e + 1)

/-- Converts a block of exact values (R54): the scale byte and the stored elements. In a NaN block every q is 0, and so is the value q × 2^e
that R58 compares a finite element with (log entry 52). -/
def storeBlock (code : Nat) (xs : List Val) : Nat × List Stored :=
  let l : Int := if code = 10 then 7 else 127
  if xs.any Val.isNan then (255, xs.map fun _ => { bits := 0, sat := false, v := .ofRat 0 })
  else
    let m := xs.foldl (fun a v => max a (|v.rat|)) 0
    let e := if xs.any (fun v => !v.isFin) then 127 else blockExp m l 255 (-127)
    let w := fmtBits code
    ((e + 127).toNat, xs.map fun v =>
      match v with
      | .fin x _ =>
        let q0 := roundNE (x * pow2 (-e))
        let q := max (-l) (min l q0)
        { bits := wrap w q, sat := q != q0, v := .ofRat ((q : ℚ) * pow2 e) }
      | .inf n => let q := if n then -l else l; { bits := wrap w q, sat := true, v := .ofRat ((q : ℚ) * pow2 e) }
      | .nan => { bits := 0, sat := false, v := .nan })

/-! ### Conversion statistics (R57 to R60) -/

/-- The figures of one statistics record. -/
structure Stat where
  sse : Nat := 0
  maxErr : Nat := 0
  satCount : Nat := 0
  elems : Nat := 0
  special : Nat := 0
  clip : Bool := false
deriving DecidableEq, Repr, Inhabited

/-- The error term of an element and whether it was clamped (R58). -/
def errTerm (exp : Int) (x v : Val) : Option (Int × Bool) :=
  match x, v with
  | .fin a _, .fin b _ =>
    let e := truncZ ((a - b) * pow2 (-exp))
    let m : Int := 2 ^ 31 - 1
    if m < e then some (m, true) else if e < -m then some (-m, true) else some (e, false)
  | .fin _ _, .inf n => some (if n then 2 ^ 31 - 1 else -(2 ^ 31 - 1), true)
  | _, _ => none

/-- A record with one element's figures added (R58). -/
def Stat.add (t : Stat) (exp : Int) (x : Val) (st : Stored) : Stat :=
  let t := { t with elems := t.elems + 1, satCount := satAdd 0xFFFFFFFF t.satCount (b2n st.sat) }
  match errTerm exp x st.v with
  | some (e, c) => { t with sse := satAdd (2 ^ 64 - 1) t.sse (e.natAbs * e.natAbs), maxErr := max t.maxErr e.natAbs, clip := t.clip || c }
  | none => { t with special := satAdd 0xFFFFFFFF t.special 1 }

/-- Two records' figures combined (R60). -/
def Stat.merge (a b : Stat) : Stat :=
  { sse := satAdd (2 ^ 64 - 1) a.sse b.sse, maxErr := max a.maxErr b.maxErr, satCount := satAdd 0xFFFFFFFF a.satCount b.satCount,
    elems := satAdd (2 ^ 64 - 1) a.elems b.elems, special := satAdd 0xFFFFFFFF a.special b.special, clip := a.clip || b.clip }

/-- The 32 bytes of a record (R59, Table 5); `sseSat` is that SSE reached its largest value. -/
def Stat.bytes (t : Stat) (exp : Int) (sseSat : Bool) : List Byte :=
  leBytes 32 (pack [(0, 64, t.sse), (64, 32, t.maxErr), (96, 32, t.satCount), (128, 64, t.elems), (192, 32, t.special),
    (224, 1, b2n (sseSat || t.sse == 2 ^ 64 - 1)), (225, 1, b2n t.clip), (232, 8, wrap 8 exp)])

/-- The figures a stored record holds. -/
def Stat.ofNat (w : Nat) : Stat :=
  { sse := fld w 0 64, maxErr := fld w 64 32, satCount := fld w 96 32, elems := fld w 128 64, special := fld w 192 32, clip := bit w 225 }

end Sys2Proof.Machine
end

