-- ==== Sys2Proof/Machine/Desc.lean ====
section
/-! DEFINITION. Operation descriptors, access-pattern records and their checks (R37 to R39, R62, R63, R115 to R126, R130, R134 to R149,
R186), as admission and setup both make them. -/

namespace Sys2Proof.Machine

/-! ### Status codes of a failed check (R228, Table 14) -/

def stCode : Nat := 0x1010
def stPair : Nat := 0x1011
def stField : Nat := 0x1012
def stBlock : Nat := 0x1013
def stLength : Nat := 0x1014
def stDesc : Nat := 0x1016

/-! ### The descriptor (R115, Table 5) -/

/-- An operand slot (R116). -/
structure OpSlot where
  base : Nat
  rec_ : Nat
  scale : Nat
  raw : Nat
deriving DecidableEq, Repr

def slotOf (w lo : Nat) : OpSlot := { base := fld w lo 48, rec_ := fld w (lo + 48) 12, scale := fld w (lo + 64) 48, raw := fld w lo 128 }

/-- A descriptor's fields. `arith` is bits [383:128] as a number; `rsvd` says that a reserved bit is set. -/
structure Desc where
  op : Nat
  keep : Bool
  add : Bool
  fuse : Bool
  opt : Bool
  aFmt : Nat
  bFmt : Nat
  outFmt : Nat
  ticks : Nat
  id : Nat
  anchorMode : Nat
  anchor : Int
  winPolicy : Bool
  sat : Bool
  scaleMode : Nat
  biasMode : Nat
  statMode : Nat
  statAxis : Nat
  statAcc : Bool
  statExp : Int
  scale : Nat
  zp : Int
  scaleAddr : Nat
  biasAddr : Nat
  statAddr : Nat
  a : OpSlot
  b : OpSlot
  c : OpSlot
  d : OpSlot
  p : Nat
  arith : Nat
  rsvd : Bool
deriving DecidableEq, Repr

def Desc.ofNat (w : Nat) : Desc :=
  { op := fld w 0 8, keep := bit w 8, add := bit w 9, fuse := bit w 10, opt := bit w 11, aFmt := fld w 16 5, bFmt := fld w 21 5, outFmt := fld w 26 5,
    ticks := fld w 32 32, id := fld w 64 16, anchorMode := fld w 128 2, anchor := sgn 10 (fld w 130 10), winPolicy := bit w 140, sat := bit w 141,
    scaleMode := fld w 142 2, biasMode := fld w 144 2, statMode := fld w 146 2, statAxis := fld w 148 3, statAcc := bit w 151,
    statExp := sgn 8 (fld w 152 8), scale := fld w 160 32, zp := sgn 16 (fld w 192 16), scaleAddr := fld w 208 48, biasAddr := fld w 256 48,
    statAddr := fld w 304 48, a := slotOf w 384, b := slotOf w 512, c := slotOf w 640, d := slotOf w 896, p := fld w 768 128,
    arith := fld w 128 256, rsvd := fld w 12 4 != 0 || bit w 31 || fld w 80 48 != 0 || fld w 352 32 != 0 }

/-! P fields (R117, Table 7). -/

def Desc.chain (d : Desc) : Nat := fld d.p 0 12
def Desc.chainFmt (d : Desc) : Nat := fld d.p 16 5
def Desc.redDims (d : Desc) : Nat := fld d.p 32 3
def Desc.groups (d : Desc) : Nat := fld d.p 48 16
def Desc.poolMode (d : Desc) : Nat := fld d.p 0 2
def Desc.poolMask (d : Desc) : Nat := fld d.p 8 6
def Desc.boxCount (d : Desc) : Nat := fld d.p 0 13
def Desc.nearest (d : Desc) : Bool := bit d.p 13
def Desc.outW (d : Desc) : Nat := fld d.p 16 16
def Desc.outH (d : Desc) : Nat := fld d.p 32 16
def Desc.chDim (d : Desc) : Nat := fld d.p 0 3
def Desc.seq (d : Desc) : Nat := fld d.p 0 12
/-- REF_MAX of ATTN_SCORE and of ATTN_MERGE. -/
def Desc.scoreRef (d : Desc) : Bool := bit d.p 12
def Desc.mergeRef (d : Desc) : Bool := bit d.p 5
def Desc.tokFirst (d : Desc) : Nat := fld d.p 32 32
def Desc.tokCount (d : Desc) : Nat := fld d.p 64 32
def Desc.parts (d : Desc) : Nat := fld d.p 0 5
def Desc.steps (d : Desc) : Nat := fld d.p 0 11
def Desc.stream (d : Desc) : Nat := fld d.p 16 12
def Desc.engine (d : Desc) : Nat := fld d.p 0 4

/-- The bits of P that an operation has fields in. -/
def pMask (op : Nat) : Nat :=
  match op with
  | 1 | 2 => pack [(0, 12, 0xFFF), (16, 5, 31), (32, 3, 7), (48, 16, 0xFFFF)]
  | 3 => 0xFFF
  | 4 => pack [(0, 2, 3), (8, 6, 63)]
  | 5 => pack [(0, 14, 0x3FFF), (16, 32, 0xFFFFFFFF)]
  | 6 => 7
  | 7 => pack [(0, 13, 0x1FFF), (32, 64, 2 ^ 64 - 1)]
  | 8 => 0x3F
  | 9 => pack [(0, 11, 0x7FF), (16, 12, 0xFFF)]
  | 11 => 15
  | _ => 0

/-! ### Access patterns (R120 to R122) -/

/-- An access-pattern record: the logical dimensions in use, then the six stored axes. -/
structure Pat where
  ext : List Nat
  mul : List Int
  axis : List Nat
  pad : Nat
  size : List Nat
  stride : List Int
  lo : List Nat
  hi : List Nat
deriving DecidableEq, Repr

/-- The six fields of `n` bits from bit `at_`. -/
def six (w at_ n : Nat) : List Nat := (List.range 6).map fun i => fld w (at_ + n * i) n

/-- An access-pattern record with a legal encoding (R120, Table 8). -/
def Pat.ofRec (w : Nat) : Option Pat :=
  let nd := fld w 216 3
  let ext := six w 0 16
  let mul := six w 96 16
  let ax := six w 192 4
  let size := six w 256 16
  let clean := ((ext.drop nd) ++ (mul.drop nd) ++ (ax.drop nd)).all (· == 0)
  if fld w 1016 8 = 1 && within 1 6 nd && fld w 219 5 == 0 && fld w 736 280 == 0 && clean && ax.all (fun a => decide (a < 6)) && size.all (· != 0) then
    some { ext := ext.take nd, mul := (mul.take nd).map (sgn 16), axis := ax.take nd, pad := fld w 224 32, size := size,
           stride := (six w 352 32).map (sgn 32), lo := six w 544 16, hi := six w 640 16 }
  else none

/-- Elements of the walk. -/
def Pat.count (p : Pat) : Nat := p.ext.foldl (· * ·) 1

/-- The index vector of walk element `i`, dimension 0 fastest. -/
def digits : List Nat → Nat → List Nat
  | [], _ => []
  | e :: es, i => i % e :: digits es (i / e)

/-- The coordinates of walk element `i` on the six axes, less the low padding (R121). -/
def Pat.coords (p : Pat) (i : Nat) : List Int :=
  let ix := digits p.ext i
  (List.range 6).map fun a =>
    (p.axis.zip (p.mul.zip ix)).foldl (fun c t => if t.1 = a then c + t.2.1 * (t.2.2 : Int) else c) 0 - (p.lo.getD a 0 : Int)

/-- Walk element `i` stays in the padded axes (R121). -/
def Pat.inBounds (p : Pat) (i : Nat) : Bool :=
  ((p.coords i).zip (p.lo.zip (p.size.zip p.hi))).all fun t => decide (-(t.2.1 : Int) ≤ t.1) && decide (t.1 < (t.2.2.1 : Int) + (t.2.2.2 : Int))

/-- The element offset of walk element `i`; none when it is padded (R121). -/
def Pat.off (p : Pat) (i : Nat) : Option Int :=
  let cs := p.coords i
  if (cs.zip p.size).any fun t => decide (t.1 < 0) || decide ((t.2 : Int) ≤ t.1) then none
  else some ((cs.zip p.stride).foldl (fun o t => o + t.1 * t.2) 0)

/-- No element of the walk breaks R121. -/
def Pat.bounded (p : Pat) : Bool := (List.range p.count).all p.inBounds

/-- The stored axis that dimension 0 steps along. -/
def Pat.axis0 (p : Pat) : Nat := p.axis.headD 0

/-- A block-scaled operand's pattern and base (R37, R122). -/
def Pat.blockOk (p : Pat) (fmt base : Nat) : Bool :=
  p.size.getD p.axis0 1 % 32 == 0 && base % (if fmt = 10 then 16 else 32) == 0 && (p.lo ++ p.hi).all (· == 0) &&
    (List.range 6).all fun a => if a = p.axis0 then p.stride.getD a 0 == 1 else p.stride.getD a 0 % 32 == 0

/-- An operand: where its walk reads or writes elements of a format. -/
structure Opnd where
  pat : Pat
  base : Nat
  scale : Nat
  fmt : Nat
deriving DecidableEq, Repr

/-- The byte of element offset `e` (R122). -/
def Opnd.byte (o : Opnd) (e : Int) : Int := if fmtBits o.fmt = 4 then o.base + e / 2 else o.base + e * ((fmtBits o.fmt / 8 : Nat) : Int)

/-- The scale byte of element offset `e` (R122). -/
def Opnd.scaleByte (o : Opnd) (e : Int) : Int := o.scale + e / 32

/-- Bytes of an element. -/
def fmtBytes (fmt : Nat) : Nat := max 1 (fmtBits fmt / 8)

/-- What some elements of the walk touch: addresses and lengths. -/
def Opnd.touchesAt (o : Opnd) (is : List Nat) : List (Int × Nat) :=
  is.flatMap fun i =>
    match o.pat.off i with
    | none => []
    | some e => (o.byte e, fmtBytes o.fmt) :: (if isBlock o.fmt then [(o.scaleByte e, 1)] else [])

/-- What the whole walk touches. -/
def Opnd.touches (o : Opnd) : List (Int × Nat) := o.touchesAt (List.range o.pat.count)

/-- The lowest and the highest byte of a list of ranges. -/
def spanOf (ts : List (Int × Nat)) : Option (Int × Int) :=
  match ts with
  | [] => none
  | t :: ts => some (ts.foldl (fun b x => (min b.1 x.1, max b.2 (x.1 + (x.2 : Int) - 1))) (t.1, t.1 + (t.2 : Int) - 1))

/-! ### What a check needs to know -/

/-- The job, rod and plan around a descriptor: the records in the job's scratchpad range, those of its record region, its engines, the
PLANE_ROW and planes of a sequence number of its partition, ranges of its scratchpad, and the streams it may name. -/
structure DescEnv where
  rec_ : Nat → Option Nat
  chain : Nat → Option Nat
  engine : Nat → Bool
  seq : Nat → Option (Nat × Nat)
  spad : Nat → Nat → Bool
  stream : Nat → Bool

def DescEnv.pat (e : DescEnv) (s : OpSlot) : Option Pat := (e.rec_ s.rec_).bind Pat.ofRec

/-- The operand of a slot with an access pattern. -/
def DescEnv.opnd (e : DescEnv) (s : OpSlot) (fmt : Nat) : Option Opnd :=
  (e.pat s).map fun p => { pat := p, base := s.base, scale := s.scale, fmt := fmt }

/-! ### Gate-chain records (R125, R127) -/

/-- A stage (Table 9). -/
structure Stage where
  sop : Nat
  dst : Nat
  sa : Nat
  sb : Nat
  sc : Nat
  int : Bool
  imm : Nat
deriving DecidableEq, Repr

def stageOf (w i : Nat) : Stage :=
  let x := fld w (64 * i) 64
  { sop := fld x 0 8, dst := fld x 8 4, sa := fld x 12 4, sb := fld x 16 4, sc := fld x 20 4, int := bit x 24, imm := fld x 32 32 }

/-- TYPE allowed for an SOP (R127, Table 10). -/
def stageOk (w i : Nat) : Bool :=
  let t := stageOf w i
  fld w (64 * i + 25) 7 == 0 &&
    match t.sop with
    | 0x01 | 0x02 | 0x03 | 0x04 | 0x05 | 0x06 | 0x07 | 0x08 | 0x09 | 0x0F => true
    | 0x0A | 0x0B | 0x0C | 0x0D | 0x0E => !t.int
    | 0x10 => t.int
    | _ => false

/-- Stages before the first whose SOP is 0. -/
def chainLen (w : Nat) : Nat := ((List.range 8).find? fun i => fld w (64 * i) 8 == 0).getD 8

/-- A legal gate-chain record (R125). -/
def chainOk (w : Nat) : Bool :=
  let n := chainLen w
  fld w 1016 8 == 2 && fld w 516 500 == 0 && (List.range n).all (stageOk w) && fld w (64 * n) (512 - 64 * n) == 0

def chainStages (w : Nat) : List Stage := (List.range (chainLen w)).map (stageOf w)
def chainOut (w : Nat) : Nat := fld w 512 4

/-! ### Arithmetic paths (R38, Table 3) -/

/-- The path of a pair: 0 integer, 1 long, 2 windowed. -/
def pairPath (a b : Nat) : Option Nat :=
  if a ≤ 2 && b ≤ 2 then some 0
  else if (a == 5 || a == 6) && (b == 5 || b == 6) then some 1
  else if ((a == 7 || a == 8) && (b == 7 || b == 8)) || (a == 9 && b == 9) || (isBlock a && isBlock b) then some 2
  else none

/-- The path of a format summed with itself, as POOL and CONVERT take it. -/
def fmtPath (a : Nat) : Nat := if isInt a then 0 else if a == 5 || a == 6 then 1 else 2

/-- Output formats that keep statistics (R57). -/
def statFmt (f : Nat) : Bool := [0, 1, 2, 5, 6, 10, 11].contains f

/-- FORMAT_FIELD in the arithmetic fields of an operation with an output stage: it sums on `path` when there is one (else it has no
anchor), takes INT32 biases when `intBias`, and writes walk `c` (R43, R50, R52, R57, R62). WIN_POLICY is used on the windowed path only, and what
belongs to the output is unused with ACC_KEEP = 1, WIN_POLICY apart (R62). -/
def Desc.arithBad (d : Desc) (path : Option Nat) (intBias stats : Bool) (c : Option Pat) : Bool :=
  let win := path == some 2
  d.scaleMode == 3 || d.biasMode == 3 || d.statMode == 3 ||
  (d.scaleMode == 1 && !fpFinite d.scale) || (d.scaleMode != 1 && d.scale != 0) || (d.scaleMode != 2 && d.scaleAddr != 0) ||
  (d.biasMode == 1 && !intBias) || (d.biasMode == 2 && intBias) || (d.biasMode == 0 && d.biasAddr != 0) ||
  decide (1 < d.anchorMode) || (!win && (d.anchorMode != 0 || d.anchor != 0)) || (win && d.anchorMode == 1 && d.anchor != 0 && !d.add) ||
  (d.winPolicy && !win && !d.keep) || (d.zp != 0 && !isInt d.outFmt) ||
  (d.keep && (d.outFmt != 0 || d.scaleMode != 0 || d.biasMode != 0 || d.zp != 0 || d.statMode != 0)) ||
  (d.statMode != 0 && (!stats || !statFmt d.outFmt)) || decide (5 < d.statAxis) || (d.statMode != 2 && d.statAxis != 0) ||
  (d.statMode == 0 && (d.statExp != 0 || d.statAcc || d.statAddr != 0)) ||
  (d.statMode == 2 && decide (4096 < (c.map fun p => p.ext.getD d.statAxis 1).getD 1))

/-! ### Shapes -/

/-- K, M, N and groups of a MATMUL or CONV (R118, R130). -/
structure Shape where
  k : Nat
  m : Nat
  n : Nat
  g : Nat
deriving DecidableEq, Repr

def prodOf (l : List Nat) : Nat := l.foldl (· * ·) 1

def Desc.shape (d : Desc) (pa pb : Pat) : Option Shape :=
  let r := d.redDims
  let g := d.groups
  let ga := if g = 1 then 0 else 1
  let na := pa.ext.length - ga
  let nb := pb.ext.length - ga
  if (d.op == 1 && g != 1) || g == 0 || !within 1 5 r || decide (na < r) || decide (nb < r) || pa.ext.take r != pb.ext.take r then none
  else if g != 1 && (pa.ext.getLastD 0 != g || pb.ext.getLastD 0 != g) then none
  else some { k := prodOf (pa.ext.take r), m := prodOf ((pa.ext.take na).drop r), n := prodOf ((pb.ext.take nb).drop r), g := g }

/-- Maximal runs of neighbours with one key. -/
def runsBy {α β : Type} [DecidableEq β] (key : α → β) : List α → List (List α)
  | [] => []
  | x :: xs =>
    match runsBy key xs with
    | [] => [[x]]
    | [] :: rs => [x] :: rs
    | (y :: ys) :: rs => if key x = key y then (x :: y :: ys) :: rs else [x] :: (y :: ys) :: rs

/-- The blocks that element `i` of the walks of A and B lie in. -/
def blockPair (pa pb : Pat) (ia ib : Nat) : Int × Int := ((pa.off ia).getD 0 / 32, (pb.off ib).getD 0 / 32)

/-- The scalar products of an output element, 32 for each block pair (R39). Each descriptor is held to the limit by itself: a sum that
ACC_KEEP and ACC_ADD spread over several descriptors is not added up (DESIGN CHOICE, log entry 84). -/
def reductionLength (block : Bool) (sh : Shape) (pa pb : Pat) : Nat :=
  if block then 32 * (runsBy (fun k => blockPair pa pb k k) (List.range sh.k)).length else sh.k

/-- The logical dimensions that a mask does, or does not, select. -/
def maskDims (mask : Nat) (sel : Bool) (p : Pat) : List Nat := (List.range p.ext.length).filter fun i => bit mask i == sel

/-- Elements over some of the dimensions. -/
def Pat.over_ (p : Pat) (ds : List Nat) : Nat := prodOf (ds.map fun i => p.ext.getD i 0)

/-- A BS copy in whole blocks (R119). -/
def Pat.wholeBlocks (p : Pat) : Bool :=
  p.count % 32 == 0 && (List.range (p.count / 32)).all fun g =>
    (List.range 32).all fun i => ((p.off (32 * g + i)).getD 0) / 32 == ((p.off (32 * g)).getD 0) / 32

/-- Width and staging of an attention record (R149, Table 1). -/
structure AttnRec where
  stage : Nat
  qTok : Nat
  causal : Bool
deriving DecidableEq, Repr

def AttnRec.ofRec (w : Nat) : Option AttnRec :=
  if fld w 1016 8 = 3 && fld w 22 10 == 0 && fld w 41 975 == 0 && within 1 128 (fld w 32 8) && fld w 0 6 == 0 then
    some { stage := fld w 0 22, qTok := fld w 32 8, causal := bit w 40 }
  else none

/-- Head dimension and rows of slot A's record of ATTN_MERGE: NDIM 2, two extents, every other field zero (R156). -/
def mergeRec (w : Nat) : Option (Nat × Nat) :=
  let dd := fld w 0 16
  let q := fld w 16 16
  if w = pack [(0, 16, dd), (16, 16, q), (216, 3, 2), (1016, 8, 1)] && dd % 16 == 0 && within 16 256 dd && within 1 128 q then some (dd, q) else none

/-! ### The checks -/

/-- The slots an operation walks, with their formats. -/
def Desc.walks (d : Desc) : List (OpSlot × Nat) :=
  let c := (d.c, d.outFmt)
  match d.op with
  | 1 | 2 =>
    let st := if d.fuse then d.chainFmt else d.outFmt
    [(d.a, d.aFmt), (d.b, d.bFmt)] ++ (if d.keep then [] else [(d.c, st)]) ++ (if d.fuse && d.opt then [(d.d, d.chainFmt)] else [])
  | 3 => [(d.a, d.aFmt), c] ++ if d.opt then [(d.b, d.bFmt)] else []
  | 4 | 5 | 10 => [(d.a, d.aFmt), c]
  | 6 => [(d.a, d.aFmt), (d.c, 3)] ++ if d.opt then [(d.d, d.aFmt)] else []
  | 7 => [(d.a, d.aFmt)]
  | 8 => [c]
  | 9 => [(d.a, d.aFmt), (d.b, d.bFmt), c] ++ if d.opt then [(d.d, 2)] else []
  | 11 => [(d.a, d.aFmt), (d.c, d.aFmt)]
  | _ => []

/-- Slots the operation does not use (R116). -/
def Desc.unusedSlots (d : Desc) : List OpSlot :=
  match d.op with
  | 1 | 2 => (if d.keep then [d.c] else []) ++ if d.fuse && d.opt then [] else [d.d]
  | 3 => [d.d] ++ if d.opt then [] else [d.b]
  | 4 | 8 | 10 | 11 => [d.b, d.d]
  | 5 => [d.d]
  | 6 => [d.b] ++ if d.opt then [] else [d.d]
  | 7 | 9 => if d.opt then [] else [d.d]
  | _ => []

/-- The slots that name no walk of their own: reserved bits zero, no scale bytes, and REC zero where there is no record. -/
def bareSlot (s : OpSlot) (rec_ : Bool) : Bool := fld s.raw 60 4 == 0 && fld s.raw 64 64 == 0 && (rec_ || s.rec_ == 0)

/-- The checks of a slot that walks (R37, R116, R120, R122). -/
def slotFails (e : DescEnv) (w : OpSlot × Nat) : List (Bool × Nat) :=
  let (s, f) := w
  match e.pat s with
  | none => [(true, stDesc)]
  | some p =>
    [(fld s.raw 60 4 != 0 || fld s.raw 112 16 != 0 || (!isBlock f && s.scale != 0), stDesc), (decide (2 ^ fmtBits f ≤ p.pad), stDesc),
     (isBlock f && !p.blockOk f s.base, stBlock)]

/-- Equal element counts of two slots' walks. -/
def sameCount (e : DescEnv) (s t : OpSlot) : Bool :=
  match e.pat s, e.pat t with
  | some p, some q => p.count == q.count
  | _, _ => false

/-- The checks that belong to one operation. That the width of a SCAN's walks, EXTENT[0], is one that R182 and MAX_WIDTH allow is not among them: it
is held to the stream's WIDTH at setup alone (DESIGN CHOICE, log entry 90). -/
def Desc.opFails (d : Desc) (e : DescEnv) : List (Bool × Nat) :=
  let pa := e.pat d.a
  let pc := e.pat d.c
  let countC := fun (n : Nat) => (pc.map fun p => p.count != n).getD true
  match d.op with
  | 1 | 2 =>
    let path := pairPath d.aFmt d.bFmt
    let common := [(path == none, stPair), (d.fuse && d.outFmt != 4 && d.outFmt != 9, stField), (d.fuse && d.opt && isBlock d.chainFmt, stField),
      (d.opt && !d.fuse, stDesc), (!d.fuse && (d.chain != 0 || d.chainFmt != 0), stDesc),
      (d.fuse && !((e.chain d.chain).map chainOk).getD false, stDesc),
      (path != none && d.arithBad path (path == some 0) true (if d.keep then none else pc), stField)]
    match pa, e.pat d.b with
    | some a, some b =>
      match d.shape a b with
      | none => (true, stDesc) :: common
      | some sh =>
        common ++ [(!d.keep && countC (sh.n * sh.m * sh.g), stDesc), (d.fuse && d.opt && ((e.pat d.d).map fun p => p.count != sh.n * sh.m * sh.g).getD true, stDesc),
          ((d.add || d.keep) && (decide (128 < sh.m) || decide (64 < sh.n) || sh.g != 1), stDesc),
          (decide (2 ^ 22 < reductionLength (isBlock d.aFmt) sh a b), stLength)]
    | _, _ => common
  | 3 => [(isBlock d.aFmt || (d.opt && isBlock d.bFmt) || (!d.opt && d.bFmt != 0), stField), (d.arithBad none false true pc, stField),
      (!((e.chain d.chain).map chainOk).getD false, stDesc), (!sameCount e d.a d.c || (d.opt && !sameCount e d.a d.b), stDesc)]
  | 4 =>
    let path := if d.poolMode = 0 then none else some (fmtPath d.aFmt)
    [(isBlock d.aFmt || isBlock d.outFmt || d.bFmt != 0, stField), (d.arithBad path false true pc, stField), (d.opt || d.poolMode == 3, stDesc)] ++
    match pa with
    | some a => [(decide (2 ^ a.ext.length ≤ d.poolMask), stDesc), (countC (a.over_ (maskDims d.poolMask false a)), stDesc),
        (d.poolMode != 0 && decide (2 ^ 22 < a.over_ (maskDims d.poolMask true a)), stLength)]
    | none => []
  | 5 =>
    [(isBlock d.aFmt || isBlock d.outFmt || d.bFmt != 0, stField), (d.arithBad none false true pc, stField),
     (d.opt || decide (4096 < d.boxCount) || d.outW == 0 || d.outH == 0 || !bareSlot d.b false || d.b.base % 32 != 0, stDesc)] ++
    match pa with
    | some a => [(!within 3 4 a.ext.length || a.axis != List.range a.ext.length || a.mul.any (· != 1) || (a.lo ++ a.hi).any (· != 0), stDesc),
        (countC (a.ext.getD 0 0 * d.outW * d.outH * d.boxCount), stDesc)]
    | none => []
  | 6 =>
    [(isBlock d.aFmt || d.bFmt != 0 || d.outFmt != 3 || d.arith != 0, stField)] ++
    match pa with
    | some a =>
      let n := a.over_ ((List.range a.ext.length).filter (· != d.chDim))
      [(decide (a.ext.length ≤ d.chDim), stDesc), (countC n, stDesc), (d.opt && ((e.pat d.d).map fun p => p.count != n).getD true, stDesc)]
    | none => []
  | 7 =>
    let f8 := fun f => f == 5 || f == 6
    let f16 := fun f => f == 7 || f == 8
    let fs := [d.aFmt, d.bFmt, d.outFmt]
    let any8 := fs.any f8
    let any16 := fs.any f16
    [(any8 && any16, stPair), (!(fs.all fun f => f8 f || f16 f), stField),
     (d.scaleMode != 1 || !fpFinite d.scale || d.biasMode != 0 || d.biasAddr != 0 || d.scaleAddr != 0 || d.statMode != 0 || d.statAxis != 0 || d.statAcc ||
       d.statExp != 0 || d.statAddr != 0 || d.zp != 0 || d.sat || d.anchorMode != 0 || (any8 && (d.anchor != 0 || d.winPolicy)), stField),
     (!bareSlot d.b true || !bareSlot d.c false || (d.opt && !bareSlot d.d false) || d.c.base % 64 != 0, stDesc),
     ((!d.scoreRef && (d.add || !d.opt)), stDesc),
     (d.tokFirst % 64 != 0 || d.tokCount % 64 != 0 || !within 64 4096 d.tokCount, stDesc)] ++
    match pa, (e.rec_ d.b.rec_).bind AttnRec.ofRec, e.seq d.seq with
    | some a, some r, some (row, planes) =>
      let dd := a.ext.getD 0 0
      let q := a.ext.getD 1 0
      [(a.ext.length != 2 || dd % 16 != 0 || !within 16 256 dd || !within 1 128 q || q % r.qTok != 0, stDesc), (decide (row < dd * fmtBytes d.bFmt), stDesc),
       (!e.spad r.stage (256 * row), stDesc),
       ([d.b] ++ (if d.opt then [d.d] else []) |>.any fun x => x.base % (64 * row) != 0 || decide (planes ≤ x.base / (64 * row)), stDesc)]
    | _, _, _ => [(true, stDesc)]
  | 8 =>
    [(isBlock d.outFmt || (d.aFmt != 0 && !within 5 8 d.aFmt) || d.bFmt != 0, stField), (d.arithBad none false false pc, stField),
     (d.opt || !within 1 16 d.parts || !bareSlot d.a true, stDesc)] ++
    match (e.rec_ d.a.rec_).bind mergeRec with
    | some (dd, q) => [(countC (dd * q), stDesc)]
    | none => [(true, stDesc)]
  | 9 =>
    [(!within 7 9 d.aFmt || !within 7 9 d.bFmt || isBlock d.outFmt, stField), (d.arithBad none false true pc, stField),
     (!within 1 1024 d.steps || !e.stream d.stream, stDesc)] ++
    match pa, e.pat d.b with
    | some a, some b =>
      [(a.ext.length != 2 || b.ext != a.ext || a.ext.getD 1 0 != d.steps, stDesc), (countC (a.ext.getD 0 0 * d.steps), stDesc),
       (d.opt && ((e.pat d.d).map fun p => p.ext != [d.steps]).getD true, stDesc)]
    | _, _ => []
  | 10 => [(d.bFmt != 0, stField), (d.arithBad none (isInt d.aFmt) true pc, stField), (d.opt, stDesc), (!sameCount e d.a d.c, stDesc)]
  | 11 => [(d.outFmt != d.aFmt || d.bFmt != 0 || d.arith != 0 || d.opt || !e.engine d.engine || !sameCount e d.a d.c, stDesc),
      (isBlock d.aFmt && !((pa.map Pat.wholeBlocks).getD false && (pc.map Pat.wholeBlocks).getD false), stDesc)]
  | _ => []

/-- Every status that the descriptor draws, walks' bounds and addresses apart. -/
def Desc.fails (d : Desc) (e : DescEnv) : List Nat :=
  let unit := d.op == 1 || d.op == 2 || d.op == 7
  let fmts := [d.aFmt, d.bFmt, d.outFmt] ++ if d.op == 1 || d.op == 2 then [d.chainFmt] else []
  let cs := [(d.op == 0 || decide (11 < d.op) || d.ticks == 0 || d.rsvd || d.p &&& pMask d.op != d.p, stDesc), (fmts.any fun f => decide (11 < f), stCode),
      (!unit && (d.keep || d.add || d.fuse), stDesc), (d.op == 7 && (d.keep || d.fuse), stDesc), (d.unusedSlots.any fun s => s.raw != 0, stDesc)] ++
    d.walks.flatMap (slotFails e) ++ d.opFails e
  (cs.filter (·.1)).map (·.2)

/-- The operands that walk (R121). -/
def Desc.opnds (d : Desc) (e : DescEnv) : List (OpSlot × Opnd) := d.walks.filterMap fun w => (e.opnd w.1 w.2).map fun o => (w.1, o)

/-- Some walk breaks R121. -/
def Desc.outOfBounds (d : Desc) (e : DescEnv) : Bool := (d.opnds e).any fun o => !o.2.pat.bounded

/-- Arrays that the arithmetic fields address: address, bytes and alignment (R63), for `ch` channels and `st` statistics records. -/
def Desc.arrays (d : Desc) (ch st : Nat) : List (Nat × Nat × Nat) :=
  (if d.scaleMode = 2 then [(d.scaleAddr, 4 * ch, 64)] else []) ++ (if d.biasMode = 0 then [] else [(d.biasAddr, 4 * ch, 64)]) ++
    if d.statMode = 0 then [] else [(d.statAddr, 32 * st, 32)]

/-- Channels of the per-channel arrays (R50), and statistics records (R57). -/
def Desc.channels (d : Desc) (e : DescEnv) : Nat :=
  match d.op with
  | 1 | 2 => match e.pat d.a, e.pat d.b with
    | some a, some b => ((d.shape a b).map fun s => s.n * s.g).getD 0
    | _, _ => 0
  | 8 => (((e.rec_ d.a.rec_).bind mergeRec).map (·.1)).getD 0
  | 5 | 9 => ((e.pat d.a).map fun p => p.ext.getD 0 0).getD 0
  | _ => ((e.pat d.c).map fun p => p.ext.getD 0 0).getD 0

def Desc.statRecs (d : Desc) (e : DescEnv) : Nat := if d.statMode = 2 then ((e.pat d.c).map fun p => p.ext.getD d.statAxis 1).getD 1 else 1

end Sys2Proof.Machine
end

