-- ==== Sys2Proof/Machine/Gate.lean ====
section
/-! DEFINITION. The gate pipeline's arithmetic: FP32 and INT32 stages, elementary functions and gate chains (R35, R125 to R128). -/

namespace Sys2Proof.Machine

/-! ### Elementary functions, to far more bits than one rounding to FP32 needs (DEDUCED, log entry 16) -/

/-- 2^256, the scale of the fixed-point sums. -/
def fixOne : Nat := 2 ^ 256

/-- The natural logarithm of 2 at that scale. -/
def fixLn2 : Nat := 80260960185991308862233904206310070533990667611589946606122867505419956976171

/-- 1 + t / k (1 + t / (k + 1) …) of the exponential series, from term `k` inward. -/
def expTerms (t : Nat) : Nat → Nat → Nat
  | 0, acc => acc
  | k + 1, acc => expTerms t k (fixOne + t * acc / ((k + 1) * fixOne))

/-- `n` squarings. -/
def squares : Nat → Nat → Nat
  | 0, v => v
  | n + 1, v => squares n (v * v / fixOne)

/-- e to a number of at most 256, from its fixed-point value. -/
def expFix (t : Nat) : ℚ := mkRat (squares 10 (expTerms (t / 1024) 40 fixOne) : Nat) fixOne

/-- e^x for |x| at most 256. -/
def expQ (x : ℚ) : ℚ :=
  if x < 0 then 1 / expFix ((-x) * (fixOne : ℚ)).floor.toNat else expFix (x * (fixOne : ℚ)).floor.toNat

/-- 2^y for y at most 0; below -400 it is smaller than any format's half step. -/
def exp2Q (y : ℚ) : ℚ :=
  let k := y.floor
  if k < -400 then pow2 (-400) else pow2 k * expFix ((y - k) * (fixLn2 : ℚ)).floor.toNat

/-- 1 / √x of a positive number. -/
def rsqrtQ (x : ℚ) : ℚ := mkRat (Nat.sqrt (((2 ^ 512 : Nat) : ℚ) / x).floor.toNat : Nat) (2 ^ 256)

/-! ### FP32 words -/

/-- A value rounded once to FP32; an overflow gives infinity, a NaN the canonical one (R35, R127). -/
def fpBits (v : Val) : Nat := (fp32.store false v).bits

/-- Real order of two values that are no NaN. -/
def Val.lt : Val → Val → Bool
  | .fin x _, .fin y _ => decide (x < y)
  | .inf true, .inf false => true
  | .inf true, .fin .. => true
  | .fin .., .inf false => true
  | _, _ => false

/-- The larger of two values: NaN wins over every number, +0 is above -0 (R127, R135). -/
def Val.max (a b : Val) : Val :=
  if a.isNan || b.isNan then .nan else if a.lt b then b else if b.lt a then a else if a.sign then b else a

/-- The smaller, by the same rules. -/
def Val.min (a b : Val) : Val :=
  if a.isNan || b.isNan then .nan else if a.lt b then a else if b.lt a then b else if a.sign then a else b

def sigmoid : Val → Val
  | .nan => .nan
  | .inf n => if n then .fin 0 false else .ofRat 1
  | .fin x _ => if x < -200 then .fin (pow2 (-200)) false else if 200 < x then .ofRat 1 else .ofRat (1 / (1 + expQ (-x)))

def tanh_ : Val → Val
  | .nan => .nan
  | .inf n => .ofRat (if n then -1 else 1)
  | .fin x n =>
    if |x| < pow2 (-40) then .fin x n
    else if 16 < |x| then .ofRat (if n then -1 else 1)
    else let e := expQ (2 * x); .ofRat ((e - 1) / (e + 1))

def exp_ : Val → Val
  | .nan => .nan
  | .inf n => if n then .fin 0 false else .inf false
  | .fin x _ => if x < -200 then .fin (pow2 (-200)) false else if 200 < x then .fin (pow2 200) false else .ofRat (expQ x)

def recip : Val → Val
  | .nan => .nan
  | .inf n => .fin 0 n
  | .fin x n => if x = 0 then .inf n else .ofRat (1 / x)

def rsqrt : Val → Val
  | .nan => .nan
  | .inf n => if n then .nan else .fin 0 false
  | .fin x n => if x = 0 then .inf n else if x < 0 then .nan else .ofRat (rsqrtQ x)

/-! ### Stages (R127, Table 10) -/

/-- An FP32 stage's result. -/
def Stage.fp (t : Stage) (a b c : Nat) : Nat :=
  let x := fpVal a
  let y := fpVal b
  let z := fpVal c
  match t.sop with
  | 0x01 => fpBits (x.add y)
  | 0x02 => fpBits (x.add y.neg)
  | 0x03 => fpBits (x.mul y)
  | 0x04 => fpBits ((x.mul y).add z)
  | 0x05 => fpBits (x.max y)
  | 0x06 => fpBits (x.min y)
  | 0x07 => fpBits (x.add (fpVal t.imm))
  | 0x08 => fpBits (x.mul (fpVal t.imm))
  | 0x09 => fpBits (if Val.lt (.fin 0 false) x then y else z)
  | 0x0A => fpBits (sigmoid x)
  | 0x0B => fpBits (tanh_ x)
  | 0x0C => fpBits (exp_ x)
  | 0x0D => fpBits (recip x)
  | 0x0E => fpBits (rsqrt x)
  | _ => fpBits (.ofRat ((sgn 32 a : Int) : ℚ))

/-- An INT32 stage's result. -/
def Stage.ints (t : Stage) (a b c : Nat) : Nat :=
  let x := sgn 32 a
  let y := sgn 32 b
  let z := sgn 32 c
  let i := sgn 32 t.imm
  match t.sop with
  | 0x01 => wrap 32 (x + y)
  | 0x02 => wrap 32 (x - y)
  | 0x03 => wrap 32 (x * y)
  | 0x04 => wrap 32 (x * y + z)
  | 0x05 => wrap 32 (max x y)
  | 0x06 => wrap 32 (min x y)
  | 0x07 => wrap 32 (x + i)
  | 0x08 => wrap 32 (x * i)
  | 0x09 => if 0 < x then b else c
  | 0x0F => (storeInt 32 true 0 (fpVal a)).bits
  | _ => wrap 32 (x / (2 ^ (t.imm % 32) : Nat))

/-- A lane while a chain runs: sixteen registers, and what kind each holds once something has said so (true INT32). -/
structure Lane where
  regs : List Nat
  kinds : List (Option Bool)
deriving DecidableEq, Repr

def Lane.put (l : Lane) (r v : Nat) (int : Bool) : Lane := { regs := l.regs.set r v, kinds := l.kinds.set r (some int) }

def Stage.run (t : Stage) (l : Lane) : Lane :=
  let g := fun i => l.regs.getD i 0
  l.put t.dst (if t.int then t.ints (g t.sa) (g t.sb) (g t.sc) else t.fp (g t.sa) (g t.sb) (g t.sc)) t.int

/-- An element as it loads into a lane register (R126): integers as INT32, the rest as FP32; whether it is an INT32. -/
def laneIn (fmt : Nat) (v : Val) : Nat × Bool := if isInt fmt then (wrap 32 v.rat.floor, true) else (fpBits v, false)

/-- The value of a register of a kind. -/
def laneVal (w : Nat) (int : Bool) : Val := if int then .ofRat ((sgn 32 w : Int) : ℚ) else fpVal w

end Sys2Proof.Machine
end

