-- ==== Sys2Proof/Machine/Crc.lean ====
section
/-! DEFINITION. The cyclic redundancy checks: CRC-32C (R243, R453), CRC-32 of IEEE 802.3 (R355) and the 64-bit CRC of the golden signature (R443). -/

namespace Sys2Proof.Machine

/-- One bit of a reflected CRC of polynomial `p`. -/
def crcBitR (p c : Nat) : Nat := if c % 2 = 1 then (c / 2) ^^^ p else c / 2

/-- One byte of a reflected CRC. -/
def crcByteR (p c : Nat) (b : Byte) : Nat :=
  let f := crcBitR p
  f (f (f (f (f (f (f (f (c ^^^ b.toNat))))))))

/-- CRC-32C: the Castagnoli polynomial, reflected, start and final exclusive-or of all ones. -/
def crc32c (bs : List Byte) : Nat := (bs.foldl (crcByteR 0x82F63B78) 0xFFFFFFFF) ^^^ 0xFFFFFFFF

/-- The frame check sequence of IEEE 802.3 (R355). -/
def crc32 (bs : List Byte) : Nat := (bs.foldl (crcByteR 0xEDB88320) 0xFFFFFFFF) ^^^ 0xFFFFFFFF

/-- One bit of a most-significant-bit-first CRC of width `w` and polynomial `p`. -/
def crcBitM (w p c : Nat) : Nat := if c / 2 ^ (w - 1) % 2 = 1 then (c * 2 % 2 ^ w) ^^^ p else c * 2 % 2 ^ w

/-- One byte of a most-significant-bit-first CRC. -/
def crcByteM (w p c : Nat) (b : Byte) : Nat :=
  let f := crcBitM w p
  f (f (f (f (f (f (f (f (c ^^^ (b.toNat * 2 ^ (w - 8))))))))))

/-- A most-significant-bit-first CRC over bytes, from `c`. -/
def crcM (w p c : Nat) (bs : List Byte) : Nat := bs.foldl (crcByteM w p) c

/-- The golden signature's fold of some bytes into the CRC in hand (R443). -/
def crc64 (c : Nat) (bs : List Byte) : Nat := crcM 64 0x42F0E1EBA9EA3693 c bs

end Sys2Proof.Machine
end

