-- ==== Sys2Proof/Machine/Tab.lean ====
section
/-! DEFINITION. Sparse tables in one canonical form: keys strictly rising, no entry equal to what an unlisted key reads as. -/

namespace Sys2Proof.Machine

/-- A table of `α` by number. A key that is not listed reads as `default`. -/
structure Tab (α : Type) where
  cells : List (Nat × α) := []
deriving DecidableEq, Repr, Inhabited

/-- The entry listed at `k`, or `default`. -/
def Tab.look {α : Type} [Inhabited α] (k : Nat) : List (Nat × α) → α
  | [] => default
  | (j, v) :: t => if j = k then v else Tab.look k t

/-- What the table reads at `k`. -/
def Tab.get {α : Type} [Inhabited α] (t : Tab α) (k : Nat) : α := Tab.look k t.cells

/-- The list with `v` put at `k` in rising order; the default is never listed. -/
def Tab.put {α : Type} [Inhabited α] [DecidableEq α] (k : Nat) (v : α) : List (Nat × α) → List (Nat × α)
  | [] => if v = default then [] else [(k, v)]
  | (j, u) :: t =>
    if j < k then (j, u) :: Tab.put k v t
    else if j = k then (if v = default then Tab.put k v t else (k, v) :: t)
    else if v = default then (j, u) :: Tab.put k v t
    else (k, v) :: (j, u) :: t

/-- The table with `v` at `k`. -/
def Tab.set {α : Type} [Inhabited α] [DecidableEq α] (t : Tab α) (k : Nat) (v : α) : Tab α := ⟨Tab.put k v t.cells⟩

/-- The table with its entry at `k` changed by `f`. -/
def Tab.upd {α : Type} [Inhabited α] [DecidableEq α] (t : Tab α) (k : Nat) (f : α → α) : Tab α := t.set k (f (t.get k))

/-- Keys strictly rise from above `lo`, and no listed value is the default. -/
def Tab.wfFrom {α : Type} [Inhabited α] [DecidableEq α] : Option Nat → List (Nat × α) → Bool
  | _, [] => true
  | lo, (j, v) :: t => (match lo with | none => true | some l => decide (l < j)) && decide (v ≠ default) && Tab.wfFrom (some j) t

/-- The table is in canonical form. -/
def Tab.wf {α : Type} [Inhabited α] [DecidableEq α] (t : Tab α) : Bool := Tab.wfFrom none t.cells

/-- The listed keys whose entry satisfies `p`. -/
def Tab.keys {α : Type} (t : Tab α) (p : α → Bool) : List Nat := (t.cells.filter (fun c => p c.2)).map (·.1)

/-- Every listed entry changed by `f` (an entry that becomes the default is dropped). -/
def Tab.mapV {α : Type} [Inhabited α] [DecidableEq α] (t : Tab α) (f : α → α) : Tab α :=
  ⟨(t.cells.map (fun c => (c.1, f c.2))).filter (fun c => decide (c.2 ≠ default))⟩

/-- Byte-addressed memory: every address the manual maps to storage (R21), in canonical form. An unlisted byte reads 0 (log entry 2). -/
abbrev Memory := Tab Byte

/-- The `n` bytes from address `a`. -/
def Memory.read (m : Memory) : Nat → Nat → List Byte
  | _, 0 => []
  | a, n + 1 => m.get a :: Memory.read m (a + 1) n

/-- The bytes `bs` written from address `a` upward. -/
def Memory.write (m : Memory) : Nat → List Byte → Memory
  | _, [] => m
  | a, b :: bs => Memory.write (m.set a b) (a + 1) bs

/-- The memory with every byte of `[lo, hi)` made to read 0. -/
def Memory.zero (m : Memory) (lo hi : Nat) : Memory := ⟨m.cells.filter (fun c => !(decide (lo ≤ c.1) && decide (c.1 < hi)))⟩

end Sys2Proof.Machine
end

