-- ==== Sys2Proof/Machine/State.lean ====
section
/-! DEFINITION. The state of the block: every register, queue, table, mode and pin the manual gives it, as plain data, with the value
of each field after a power-on reset as the field's default. -/

namespace Sys2Proof.Machine

/-- Why a step stops with a fault: the manual calls the outcome not defined and gives it no effect. -/
inductive Fault where
  /-- A part whose lifecycle is TEST runs past the boot ROM: 'the behaviour of a part in TEST is not defined' (R454). Raised by BOOT_ROM. Safe. -/
  | lifecycleTest
deriving DecidableEq, Repr

/-- Why a step refuses. -/
inductive Refusal where
  /-- No meaning given yet to the command with this mnemonic. Safe. -/
  | notModelled (mnemonic : String)
  /-- A JTAG instruction other than IDCODE and BYPASS while debug is open: it acts on the debug unit, and the manual does not say what
  it does there (R466). Raised by JTAG_INSTRUCTION. Safe. -/
  | debugUnit
deriving DecidableEq, Repr

/-! ### Host link (chapter 10) -/

/-- A ring descriptor (R260, Table 4) with the event ring's sequence number and losses (R276, R277). -/
structure Ring where
  base : BitVec 48 := 0
  wb : BitVec 48 := 0
  type : BitVec 3 := 0
  log2 : BitVec 5 := 0
  enable : Bool := false
  irqEn : Bool := false
  armed : Bool := false
  state : BitVec 2 := 0
  vector : BitVec 11 := 0
  pair : BitVec 13 := 0
  head : Word := 0
  tail : Word := 0
  /-- Sequence number of the next event record (R276). -/
  eseq : Word := 0
deriving DecidableEq, Repr, Inhabited

/-- A session on a command ring (R270, R273). -/
structure Session where
  isOpen : Bool := false
  version : Byte := 0
  /-- SEQ of the OPEN_SESSION. -/
  base : Word := 0
  /-- Commands taken after it. -/
  taken : Word := 0
  resultBase : BitVec 64 := 0
  /-- The CLOSE_SESSION that waits for earlier replies (R274). -/
  closing : Option Hdr := none
  /-- The ring was disabled: the session closes once earlier replies are written (R274). -/
  draining : Bool := false
deriving DecidableEq, Repr, Inhabited

/-- The range and event registers and the BAR4 window of a function (R256, R258). The Reset column's PF0 values stand in `Hif.fns`. -/
structure Fn where
  ringFirst : BitVec 14 := 0
  ringCount : BitVec 14 := 0
  tagFirst : BitVec 12 := 0
  tagCount : BitVec 13 := 0
  vecFirst : BitVec 11 := 0
  vecCount : BitVec 12 := 0
  eventRing : BitVec 13 := 0
  bound : Bool := false
  window : BitVec 64 := 0
  /-- Losses since the last events-lost record of the function (R277): count, FRAME and FRAME_TICK of the first and the last. -/
  lost : Nat := 0
  lostFirst : Nat := 0
  lostLast : Nat := 0
deriving DecidableEq, Repr, Inhabited

/-- An MSI-X table entry; `unmasked` is the complement of the mask bit, which PCIe sets at reset (log entry 4). -/
structure MsixEntry where
  addr : BitVec 64 := 0
  data : Word := 0
  unmasked : Bool := false
  pend : Bool := false
deriving DecidableEq, Repr, Inhabited

/-- A command taken from a ring that has no reply yet (R269); `h.ring` is its ring. -/
structure Held where
  h : Hdr
deriving DecidableEq, Repr

/-- A host DMA command that runs (R284): fill pattern or source. -/
structure HostDma where
  h : Hdr
  fill : Option Word
  src : Nat
  dst : Nat
  bytes : Nat
  engine : Nat := 0
deriving DecidableEq, Repr

/-- How the latest host access through a BAR completed: the data a read returned, or Unsupported Request (R21). -/
structure Completion where
  unsupported : Bool := false
  /-- Completer Abort (R425). -/
  aborted : Bool := false
  data : List Byte := []
deriving DecidableEq, Repr, Inhabited

/-- The host-link adapter (R288) and the commands in flight. -/
structure Hif where
  linkUp : Bool := false
  cfgReject : Bool := false
  dbBad : Bool := false
  ringError : Bool := false
  rate : BitVec 3 := 0
  width : Bool := false
  repaired : Byte := 0
  retrains : BitVec 16 := 0
  fns : Tab Fn := ⟨[(0, { ringCount := 256, tagCount := 256, vecCount := 64 })]⟩
  rings : Tab Ring := {}
  sessions : Tab Session := {}
  msix : Tab MsixEntry := {}
  /-- MSI-X messages sent, oldest first: address and data. -/
  msgs : List (BitVec 64 × Word) := []
  held : List Held := []
  dma : List HostDma := []
  vfEnable : Bool := false
  cpl : Completion := {}
deriving DecidableEq, Repr, Inhabited

/-! ### Tallies (chapter 10) -/

/-- A tally change admitted and not yet applied (R279). -/
structure TallyOp where
  tally : Nat
  isSet : Bool
  value : Word
  /-- The model's tick at whose end it applies. -/
  due : Nat
  /-- Where it was admitted: 0 by the host-link adapter, 1 plus the port by a Tyben port. The SETs of one tick follow this order (R244, R279). -/
  src : Nat := 0
  /-- The host command it answers (R279). -/
  h : Option Hdr := none
  /-- Node and REQ_ID of the remote request that its final response answers (R398). -/
  resp : Option (Nat × Nat) := none
deriving DecidableEq, Repr

/-- Who waits on a tally (R280, R398): a host command, or a remote request of a node. -/
inductive Waiter where
  | host (h : Hdr)
  | remote (node reqId : Nat)
deriving DecidableEq, Repr

/-- A wait-table entry (R280). -/
structure WaitEnt where
  who : Waiter
  tally : Nat
  target : Word
  timeoutUs : Word
  /-- The tick of its admission, and NOW then. -/
  since : Nat := 0
  from_ : BitVec 64 := 0
  /-- The starting value of the first tick that satisfied it. -/
  hit : Option Word := none
deriving DecidableEq, Repr

/-- A remote command that waits for its response (R281, R398). -/
structure RemoteCmd where
  h : Hdr
  node : Nat
  reqId : Nat
  op : Nat
  /-- The port its request left by: a message already routed keeps its port (R395). -/
  port : Option Nat := none
  /-- A WAIT whose acceptance arrived, so that its final response is due (R398). -/
  accepted : Bool := false
deriving DecidableEq, Repr

/-- The tally block (R278, R289). -/
structure Tly where
  values : Tab Word := {}
  ops : List TallyOp := []
  waits : List WaitEnt := []
  maxUsed : Nat := 0
  waitFull : Word := 0
  remoteFirst : BitVec 14 := 0
  remoteCount : BitVec 15 := 0
  remote : List RemoteCmd := []
  nextReq : Nat := 0
  /-- The first tick in which the host-link adapter has admitted no ADD or SET yet (R279). -/
  hostNext : Nat := 0
deriving DecidableEq, Repr, Inhabited

/-! ### The plan (chapter 08): its decoded sections -/

/-- A partition entry (R202). -/
structure PartEnt where
  cls : Nat := 0
  escalate : Nat := 0
  jobFirst : Nat := 0
  jobCount : Nat := 0
deriving DecidableEq, Repr, Inhabited

/-- One rod's byte of a window's ROD_OWNER (R204, R205). -/
structure Owner where
  part : Nat := 0
  owned : Bool := false
  gap : Bool := false
deriving DecidableEq, Repr, Inhabited

/-- A window entry (R204). -/
structure WinEnt where
  start : Nat := 0
  lead : Nat := 0
  power : Nat := 0
  golden : Bool := false
  goldenIdx : Nat := 0
  owners : List Owner := []
deriving DecidableEq, Repr, Inhabited

/-- A SPAD_RANGE entry (R200). -/
structure SpadRange where
  rod : Nat := 0
  part : Nat := 0
  test : Bool := false
  off : Nat := 0
  lines : Nat := 0
deriving DecidableEq, Repr, Inhabited

/-- A MEM_REGION entry (R421). -/
structure MemRegion where
  part : Nat := 0
  prot : Bool := false
  base : Nat := 0
  len : Nat := 0
deriving DecidableEq, Repr, Inhabited

/-- A slot table of a memory island, engine, mesh link or rod's banks in one window (R200, R207, R414); entries as numbers. -/
structure SlotTab where
  which : Nat := 0
  window : Nat := 0
  speed : Nat := 0
  slots : List Nat := []
deriving DecidableEq, Repr, Inhabited

/-- A job record (R210). -/
structure JobRec where
  job : Nat := 0
  part : Nat := 0
  onDemand : Bool := false
  golden : Bool := false
  locked : Bool := false
  restartLimit : Nat := 0
  releaseWin : Nat := 0
  deadlineWin : Nat := 0
  rodMask : Nat := 0
  startOffset : Nat := 0
  maxTile : Nat := 0
  wcet : Nat := 0
  rodFirst : Nat := 0
  loadFirst : Nat := 0
  loadCount : Nat := 0
  tallyFirst : Nat := 0
  tallyCount : Nat := 0
deriving DecidableEq, Repr, Inhabited

/-- A job rod entry (R210, Table 8). -/
structure JobRod where
  rod : Nat := 0
  pc : Nat := 0
  codeBase : Nat := 0
  codeLen : Nat := 0
  descCount : Nat := 0
  descBase : Nat := 0
  recBase : Nat := 0
  recCount : Nat := 0
  ctxSave : Nat := 0
deriving DecidableEq, Repr, Inhabited

/-- A load set (R200). -/
structure LoadSet where
  rod : Nat := 0
  zero : Bool := false
  off : Nat := 0
  lines : Nat := 0
  src : Nat := 0
deriving DecidableEq, Repr, Inhabited

/-- A tally declaration (R200). -/
structure TallyDecl where
  tally : Nat := 0
  part : Nat := 0
  init : Nat := 0
deriving DecidableEq, Repr, Inhabited

/-- A tally use of a job (R211). -/
structure TallyUse where
  tally : Nat := 0
  wait : Bool := false
  signal : Bool := false
deriving DecidableEq, Repr, Inhabited

/-- An intake binding (R200, R214). -/
structure Binding where
  point : Nat := 0
  job : Nat := 0
  policy : Nat := 0
  goldenSrc : Bool := false
  depth : Nat := 0
  goldenAddr : Nat := 0
deriving DecidableEq, Repr, Inhabited

/-- A key-value pool (R160). -/
structure KvPool where
  part : Nat := 0
  base : Nat := 0
  pageFirst : Nat := 0
  pageCount : Nat := 0
  planes : Nat := 0
  planeRow : Nat := 0
  seqFirst : Nat := 0
  seqCount : Nat := 0
  ptFirst : Nat := 0
  ptStride : Nat := 0
deriving DecidableEq, Repr, Inhabited

/-- A carry area (R185): a rod, an offset and a length in lines. -/
structure CarryArea where
  rod : Nat := 0
  off : Nat := 0
  lines : Nat := 0
deriving DecidableEq, Repr, Inhabited

/-- A stream declaration (R185). -/
structure CarryDecl where
  part : Nat := 0
  streamFirst : Nat := 0
  streamCount : Nat := 0
  maxWidth : Nat := 0
  swapBase : Nat := 0
  areas : List CarryArea := []
deriving DecidableEq, Repr, Inhabited

/-- A pair lock (R200). -/
structure PairLock where
  pair : Nat := 0
  first : Nat := 0
  last : Nat := 0
deriving DecidableEq, Repr, Inhabited

/-- A golden entry (R221). -/
structure GoldenEnt where
  index : Nat := 0
  window : Nat := 0
  period : Nat := 0
  phase : Nat := 0
deriving DecidableEq, Repr, Inhabited

/-- A self-test entry (R224). -/
structure SelfTest where
  rod : Nat := 0
  enable : Bool := false
  base : Nat := 0
  lines : Nat := 0
  sliceMax : Nat := 0
deriving DecidableEq, Repr, Inhabited

/-- A crossing slack (R239). -/
structure CrossSlack where
  kind : Nat := 0
  inst : Nat := 0
  slack : Nat := 0
deriving DecidableEq, Repr, Inhabited

/-- A window watchdog (R439). -/
structure WdgEnt where
  index : Nat := 0
  kind : Nat := 0
  target : Nat := 0
  early : Nat := 0
  late : Nat := 0
deriving DecidableEq, Repr, Inhabited

/-- The installed plan (R199, R200). -/
structure Plan where
  addr : Nat := 0
  bytes : Nat := 0
  planId : Word := 0
  version : BitVec 16 := 0
  svn : Nat := 0
  frameTicks : Nat := 0
  powerMin : Nat := 0
  hash : BitVec 384 := 0
  parts : List PartEnt := []
  wins : List WinEnt := []
  spads : List SpadRange := []
  regions : List MemRegion := []
  memSlots : List SlotTab := []
  engSlots : List SlotTab := []
  meshSlots : List SlotTab := []
  bankSlots : List SlotTab := []
  jobs : List JobRec := []
  jobRods : List JobRod := []
  loads : List LoadSet := []
  tallies : List TallyDecl := []
  tallyUses : List TallyUse := []
  bindings : List Binding := []
  pools : List KvPool := []
  carries : List CarryDecl := []
  locks : List PairLock := []
  goldens : List GoldenEnt := []
  selftests : List SelfTest := []
  crossings : List CrossSlack := []
  watchdogs : List WdgEnt := []
  cleOwners : List Owner := []
deriving DecidableEq, Repr, Inhabited

/-! ### Plan island (chapter 08) -/

/-- The plan states in the order of PLN_STATUS.STATE (R230). -/
inductive PlanState where
  | none | loading | loaded | running | stopping | starting
deriving DecidableEq, Repr, Inhabited

/-- The job states in the order of the job run entry (R230, Table 18). -/
inductive JobState where
  | idle | released | running | preempted | teardown | failed | halted
deriving DecidableEq, Repr, Inhabited

/-- A job's run entry (R230) and run state (R212 to R218). -/
structure JobRun where
  state : JobState := .idle
  restarts : Nat := 0
  gen : BitVec 16 := 0
  runs : Word := 0
  missed : Word := 0
  skips : Word := 0
  lastEnd : Word := 0
  lastStatus : BitVec 16 := 0
  /-- A JOB_START was admitted and its release is pending (R229). -/
  requested : Bool := false
  /-- The tick in which that JOB_START was admitted (R235). -/
  requestedAt : Nat := 0
  /-- The model's tick, and the frame, of the release beam of the run. -/
  releaseTick : Nat := 0
  releaseFrame : Nat := 0
  /-- The run waits to start again after a restart (R213). -/
  restarted : Bool := false
  /-- Order of pre-emption (R213): the count at which the job was pre-empted. -/
  preemptAt : Nat := 0
  /-- The plan island's pre-emption request (R216). -/
  preemptReq : Bool := false
  /-- Context saves in this run (R113). -/
  saves : Nat := 0
  /-- Halted rods and their EXIT (R110). -/
  exits : Tab (Option Nat) := {}
  /-- What the run has added to each tally (R218). -/
  signalled : Tab Word := {}
  /-- Teardown follows LOCKSTEP_MISMATCH, so the lock hand-over runs again (R218). -/
  relock : Bool := false
  /-- A fault or restart happened in this run (R444). -/
  disturbed : Bool := false
  /-- Some run has taken inputs since START_PLAN (R214). -/
  hadRun : Bool := false
deriving DecidableEq, Repr, Inhabited

/-- What a binding of the plan holds (R214): a buffer slot of its point, or the fill. -/
structure Bound where
  slot : Option Nat := none
  srcSeq : Nat := 0
deriving DecidableEq, Repr, Inhabited

/-- A pending START_PLAN (R229). -/
structure PendStart where
  h : Option Hdr
  mode : Nat
  pin : Nat
  at_ : BitVec 64
  /-- The pin's rising edge was seen (R353). -/
  seen : Bool := false
deriving DecidableEq, Repr

/-- A LOAD_PLAN that runs (R227, R229): its parameters, the plan state it came from and the power plan at its start (R478). -/
structure PendLoad where
  h : Option Hdr
  addr : Nat
  bytes : Nat
  from_ : PlanState
  power : Nat
deriving DecidableEq, Repr

/-- The self-test state of a rod (R230, Table 19; R225). -/
structure SelfTestRun where
  result : BitVec 2 := 0
  segment : BitVec 6 := 0
  passes : BitVec 16 := 0
  running : Bool := false
deriving DecidableEq, Repr, Inhabited

/-- The plan island. -/
structure Pln where
  state : PlanState := .none
  plan : Option Plan := none
  window : Nat := 0
  frameTick : Nat := 0
  frameCount : BitVec 64 := 0
  jobSel : BitVec 10 := 0
  jobs : Tab JobRun := {}
  bounds : Tab Bound := {}
  halted : Tab Bool := {}
  /-- Partitions whose PARTITION_RESUME waits for beam 0 (R229). -/
  resuming : Tab Bool := {}
  selftest : Tab SelfTestRun := {}
  start : Option PendStart := none
  load : Option PendLoad := none
  /-- The STOP_PLAN that waits for the frame end (R229). -/
  stop : Option (Option Hdr) := none
  preempts : Nat := 0
  /-- The time base at the start of the plan (R399). -/
  startTime : BitVec 64 := 0
  /-- The frame in hand has a golden run, by golden entry index (R221). -/
  goldenOn : Tab Bool := {}
deriving DecidableEq, Repr, Inhabited

/-! ### Journal, replay and crossings (chapter 09) -/

/-- A record of the tick in hand that is not written yet (R242 to R244): `sub` is its point, tally, port, job or rod, and `at_` its admission tick. -/
structure JRec where
  kind : Nat
  sub : Nat
  srcSeq : Nat
  fields : Nat
  data : Option (List Byte)
  at_ : Nat
deriving DecidableEq, Repr

/-- The journal (R242 to R245, R251). -/
structure Journal where
  isOpen : Bool := false
  started : Bool := false
  /-- JOURNAL_CLOSE was accepted, and the next tick writes STOP (R251). -/
  closing : Bool := false
  /-- Records that their tick's end writes, in the order of R244. -/
  batch : List JRec := []
  ring : Nat := 0
  base : Nat := 0
  bytes : Nat := 0
  wpos : Nat := 0
  /-- Payloads in the data area whose record the host may not have consumed: ring index of the record and bytes. -/
  held : List (Nat × Nat) := []
  jseq : Word := 0
  lost : Nat := 0
  lostFirst : Nat := 0
  lostLast : Nat := 0
  /-- The longest payload among the lost records. -/
  lostBytes : Nat := 0
deriving DecidableEq, Repr, Inhabited

/-- A record read ahead (R247): its bits, its payload, and the slot that holds it already. -/
structure Ahead where
  rec_ : Nat
  data : List Byte
  slot : Option Nat
deriving DecidableEq, Repr

/-- Replay (R246 to R249). -/
structure Replay where
  armed : Bool := false
  running : Bool := false
  ring : Nat := 0
  base : Nat := 0
  bytes : Nat := 0
  jseq : Word := 0
  /-- The records read ahead and not admitted yet, at most 64 (R247). -/
  ahead : List Ahead := []
  /-- Time values of TIME_READ records admitted for a rod and not yet read (R107). -/
  times : Tab (List (BitVec 96)) := {}
deriving DecidableEq, Repr, Inhabited

/-- A crossing monitor (R240); `seen` is false before its first transfer (log entry 5). -/
structure CrossMon where
  seen : Bool := false
  margin : Nat := 0
  late : Word := 0
deriving DecidableEq, Repr, Inhabited

structure Jrn where
  j : Journal := {}
  r : Replay := {}
  cross : Tab CrossMon := {}
deriving DecidableEq, Repr, Inhabited

/-! ### Rods (chapters 03, 04) -/

/-- A level of the loop stack (R93, R113). -/
structure LoopLvl where
  first : BitVec 16 := 0
  last : BitVec 16 := 0
  count : Word := 0
  next : Word := 0
  li : BitVec 4 := 0
deriving DecidableEq, Repr, Inhabited

/-- An accumulator (R66, R69). -/
structure Acc where
  val : Int := 0
  above : Nat := 0
  below : Nat := 0
  special : Nat := 0
  anchor : Int := 0
  holding : Bool := false
  /-- Arithmetic path of the descriptor that left it holding: 0 integer, 1 long, 2 windowed (R66). -/
  path : Nat := 0
deriving DecidableEq, Repr, Inhabited

/-- An issued descriptor (R97, R100): what ISSUE fixes; every other field is read at setup from `off`. -/
structure Issued where
  op : Nat
  ticks : Nat
  off : Nat
  la : Int
  lc : Int
deriving DecidableEq, Repr

/-- A unit of a rod (R95): the descriptor that runs, whether setup has run it, the pages it pins (R169), and the queue of four. -/
structure UnitSt where
  run : Option Issued := none
  /-- DESC_ID of the descriptor that runs, as setup read it. -/
  id : Nat := 0
  pins : List Nat := []
  queue : List Issued := []
  /-- Faults to raise at the end of the operation (R47, R70). -/
  atEnd : List Nat := []
  /-- The statistics records that the descriptor that runs has updated (R61). -/
  stats : List Nat := []
deriving DecidableEq, Repr, Inhabited

/-- What a sequencer is doing. -/
inductive SeqState where
  | stopped                 -- no job, or stopped by a fault (R112)
  | ready                   -- executes the instruction at PC next
  | waiting                 -- the instruction at PC waits (R100, R104 to R106, R109, R110, R193)
  | halted                  -- HALT has ended (R110)
  | saving | saved | restoring  -- context save and restore (R79, R111)
deriving DecidableEq, Repr, Inhabited

/-- The run counters of a segment and their banks (R505, R507). -/
structure Counters where
  run : Tab (BitVec 64) := {}
  shadow : Tab (BitVec 64) := {}
  total : Tab (BitVec 64) := {}
  shadowJob : BitVec 16 := 0
  shadowGen : BitVec 16 := 0
  shadowEnd : BitVec 3 := 0
  shadowStamp : BitVec 48 := 0
  hiLatch : Word := 0
  boundary : Bool := false
  /-- The sampled tick is the rod's boundary tick (R508). -/
  atBoundary : Bool := false
  /-- The counts of the tick in hand, which no read of that tick shows (R508). -/
  fresh : Tab (BitVec 64) := {}
  /-- The segment whose last tick is the tick in hand: its job, generation and end kind (R507). -/
  closing : Option (BitVec 16 × BitVec 16 × BitVec 3) := none
deriving DecidableEq, Repr, Inhabited

/-- Hardware faults of a rod that no command sets (log entry 92): banks whose slots a second port also takes (R74), and the comparators, C0 and C1,
that report the opposite of what they see (R83). -/
structure Upset where
  banks : List Nat := []
  cmp : BitVec 2 := 0
deriving DecidableEq, Repr, Inhabited

/-- A rod: sequencer (R93), units, accumulators, lane registers, ROD registers (R91). Pair fields are those of the even rod. -/
structure Rod where
  state : BitVec 2 := 0
  locked : Bool := false
  part : BitVec 4 := 0
  ctxSaved : Bool := false
  job : Option Nat := none
  seq : SeqState := .stopped
  /-- The instruction that waits is a WAIT or an ALIGN (R505). -/
  waitCounts : Bool := false
  pc : BitVec 16 := 0
  prevPc : BitVec 16 := 0
  l : Tab Word := {}
  stack : List LoopLvl := []
  codeBase : Nat := 0
  codeLen : Nat := 0
  descBase : Word := 0
  recBase : Word := 0
  recCount : Nat := 0
  tileTicks : Nat := 0
  latchSec : BitVec 48 := 0
  latchFrac : BitVec 16 := 0
  units : Tab UnitSt := {}
  acc : Tab Acc := {}
  lanes : Tab Word := {}
  req : BitVec 2 := 0
  pairState : BitVec 2 := 0
  lockFailed : Bool := false
  mismatch : Bool := false
  cmpDisagree : Bool := false
  mismatchCount : BitVec 16 := 0
  fault : Word := 0
  ceCount : Word := 0
  mismatchAddr : Word := 0
  ctxSaveBase : Word := 0
  cnt : Counters := {}
  /-- The code lines held, by line number, and their bytes (R94). -/
  code : List (Nat × List Byte) := []
  /-- The FRAME_TICK that a waiting ALIGN waits for (R106). -/
  alignAt : Option Nat := none
  /-- The lock hand-over is to run again once the pair is free (R84, R218). -/
  again : Bool := false
  upset : Upset := {}
deriving DecidableEq, Repr, Inhabited

/-! ### Safety (chapter 17) -/

/-- A fault raised in the step in hand, waiting for its reaction (R433). -/
structure Raise where
  code : Nat
  job : Option Nat := none
  rod : Option Nat := none
  detail : Word := 0
  detail2 : Word := 0
  injected : Bool := false
deriving DecidableEq, Repr

/-- A watchdog's run state (R441, R449). -/
structure WdgRun where
  state : BitVec 2 := 0
  lateSeen : Bool := false
  earlySeen : Bool := false
  trips : BitVec 16 := 0
  last : Nat := 0
deriving DecidableEq, Repr, Inhabited

/-- A golden entry's run state (R443, R444, R449); the CRC in hand is kept complemented, so that its start value is the default. -/
structure GoldenRun where
  expect : Option (BitVec 64) := none
  sig : BitVec 64 := 0
  status : BitVec 2 := 0
  runs : BitVec 16 := 0
  crcInv : BitVec 64 := 0
deriving DecidableEq, Repr, Inhabited

/-- The SAF block. Reactions set by SAF_REACT_SET are kept by 8 × code + class, one more than the reaction. -/
structure Saf where
  safe : Bool := false
  pins : Bool := true
  supHalted : Bool := false
  deviceFault : Bool := false
  jobFault : Bool := false
  injected : Bool := false
  lastFault : Word := 0
  firstDevice : BitVec 16 := 0
  reactCount : Tab Word := {}
  supMismatch : Word := 0
  wdgSel : Byte := 0
  goldenSel : Byte := 0
  reacts : Tab Nat := {}
  occur : Tab Word := {}
  summary : Nat := 0
  wdgs : Tab WdgRun := {}
  goldens : Tab GoldenRun := {}
  raised : List Raise := []
  /-- The tick of the device's latest SIGNAL_ONLY, which is carried out once in a tick (R433). -/
  signalAt : Option Nat := none
deriving DecidableEq, Repr, Inhabited

/-! ### Security (chapter 18) -/

/-- The settings fields in force (R461, Table 5). -/
structure Settings where
  memRate : Bool := false
  density : BitVec 2 := 0
  twoRanks : Bool := false
  lp5x : Bool := false
  powerPlan : BitVec 2 := 0
  overrideWait : Byte := 0xC8
  jumpLimit : Word := 0
  debugPolicy : BitVec 2 := 0
  overrideAllow : Bool := true
deriving DecidableEq, Repr, Inhabited

/-- The boot states (R457, R474). -/
inductive Boot where
  | rom | bootWait | verify | awaitSettings | memInit | ready
deriving DecidableEq, Repr, Inhabited

/-- The lifecycle states (R454, R474). -/
inductive Lifecycle where
  | test | shipped | owned | retired
deriving DecidableEq, Repr, Inhabited

/-- What an OTP-writing command in progress still has to program (R462): row writes in order, the commit word last. -/
structure OtpJob where
  h : Option Hdr
  /-- 1 commit, 2 counter advance, 3 provision, 4 revocation, 5 retire, 6 LEDGER_NEW. -/
  kind : Nat
  /-- Slot, counter or key slot. -/
  which : Nat
  /-- New counter value. -/
  value : Nat
  rows : List (Nat × Word)
  commit : List (Nat × Word)
deriving DecidableEq, Repr

/-- A waiting ledger record (R468, R470): type, time it was raised, payload, and its number, chain hash and seal once numbered. -/
structure LedgerRec where
  type : Nat
  time : BitVec 64
  payload : BitVec 1024
  bytes : Option (List Byte)
  seq : Nat
deriving DecidableEq, Repr

/-- The wear counts of the hour (R472). -/
structure Wear where
  hour : Word := 0
  /-- The counts at the end of the last hour: SUPPLY_WARN latches, retrains, corrections, uncorrectable errors. -/
  supplyWarns : Nat := 0
  retrains : Nat := 0
  ces : Nat := 0
  ues : Nat := 0
deriving DecidableEq, Repr, Inhabited

/-- The security block. The OTP persists over every reset; `otpBad` is a row's check class (1 corrected, 2 uncorrectable) and `weak` a margin failure. -/
structure Sec where
  otp : Tab Word := ⟨[(77, 1), (78, 1), (79, 1)]⟩
  otpBad : Tab Nat := {}
  weak : Tab Bool := {}
  lifecycle : Lifecycle := .test
  boot : Boot := .rom
  debugOpen : Bool := false
  overrideOn : Option Settings := none
  overrideSvn : Nat := 0
  keys : Tab (Option (BitVec 768)) := {}
  ledgerOpen : Bool := false
  marginal : Bool := false
  activeGen : BitVec 3 := 0
  pendingGen : BitVec 3 := 0
  result : BitVec 4 := 0
  failures : Byte := 0
  fwMeasure : BitVec 384 := 0
  fwVersion : Word := 0
  fwSvn : Nat := 0
  window : Tab Byte := {}
  settings : Settings := {}
  job : Option OtpJob := none
  suspended : Bool := false
  head : Option (List Byte) := none
  headSeq : BitVec 64 := 0
  epoch : Word := 0
  queue : List LedgerRec := []
  fetched : Option Nat := none
  lostNow : Nat := 0
  lostOpen : BitVec 16 := 0
  wear : Wear := {}
  /-- What the JTAG data register that the instruction selects reads (R466); a test reset selects IDCODE. -/
  jtag : Word := 0x2064A0E9
deriving DecidableEq, Repr, Inhabited

/-! ### Power (chapter 19) -/

structure Pwr where
  planReject : Bool := false
  cfgReject : Bool := false
  guardTrip : Bool := false
  thermWarn : Bool := false
  thermCrit : Bool := false
  cold : Bool := false
  supplyWarn : Bool := false
  underSpec : Bool := false
  plan : BitVec 2 := 0
  cause : BitVec 3 := 0
  rail : BitVec 2 := 0
  warmCount : BitVec 16 := 0
  warnTime : BitVec 64 := 0
  powerNow : Word := 0
  powerPeak : Word := 0
  thermNow : Word := 0
  thermMax : Word := 0
  thermSeen : Bool := false
  warnAt : Byte := 0x73
  supMin : Tab (BitVec 16) := ⟨[(0, 0xFFFF), (1, 0xFFFF), (2, 0xFFFF), (3, 0xFFFF)]⟩
  level : Tab (BitVec 16) := ⟨[(0, 650), (1, 750), (2, 500), (3, 1800)]⟩
  below : BitVec 4 := 0
  warn : BitVec 4 := 0
  under : BitVec 4 := 0
  hold : BitVec 4 := 0
  warnCount : Word := 0
  trips : Tab Word := {}
  tripped : Tab Bool := {}
  warnArmed : Bool := true
  critArmed : Bool := true
  /-- Rails whose SUPPLY_UNDER_SPEC waits for a return above warning (R485). -/
  underHeld : BitVec 4 := 0
  /-- MEM_STATUS.STATE has reached 2 since power-on (R490). -/
  memOnce : Bool := false
deriving DecidableEq, Repr, Inhabited

/-! ### Trace (chapter 20) -/

/-- A trace record (R494): type, source, stamp, words A and B. -/
structure TraceRec where
  type : Nat
  source : Nat
  stamp : BitVec 48
  a : Word
  b : Word
deriving DecidableEq, Repr

/-- A trace source: level, FIFO, and losses waiting for a GAP record (R497). -/
structure TraceSrc where
  level : BitVec 2 := 0
  lossSeen : Bool := false
  fifo : List TraceRec := []
  lost : Nat := 0
  lostFirst : BitVec 48 := 0
  lostLast : BitVec 48 := 0
deriving DecidableEq, Repr, Inhabited

/-- The trace states (R510, Table 7). -/
inductive TraceState where
  | off | armed | post | frozen
deriving DecidableEq, Repr, Inhabited

/-- The DBG block. -/
structure Trc where
  mode : BitVec 2 := 0
  state : TraceState := .off
  cfgMode : BitVec 2 := 0
  trigMask : Byte := 0
  trigFault : BitVec 16 := 0
  postCount : Nat := 0
  trigSrc : Nat := 0
  trigWindow : Nat := 0
  trigPc : Word := 0
  trigPin : Nat := 0
  dest : Nat := 0
  destBytes : Nat := 0
  srcs : Tab TraceSrc := {}
  /-- The history: in mode 1 the records not drained, in mode 2 the newest 65,535. -/
  hist : List TraceRec := []
  wrapped : Bool := false
  trig : Option TraceRec := none
  trigCause : Byte := 0
  trigCount : Word := 0
  trigStamp : BitVec 48 := 0
  postLeft : Nat := 0
  /-- The tick of the latest trigger: conditions met in one tick make one trigger (R500). -/
  lastTrig : Option Nat := none
  bufLost : Nat := 0
  bufFirst : BitVec 48 := 0
  bufLast : BitVec 48 := 0
  lostBit : Bool := false
  rptrBad : Bool := false
  w : Word := 0
  r : Word := 0
  lost : Word := 0
  stamp : BitVec 48 := 0
  stampHi : BitVec 16 := 0
  stopping : Option (Option Hdr) := none
  /-- The model's tick at which the stamp was last zero (R496). -/
  startTick : Nat := 0
deriving DecidableEq, Repr, Inhabited

/-! ### Time base (chapter 13) -/

/-- A time pin (R352, R353): 0 to 3 TIME_TRIG, 4 PPS_IN, 5 PPS_OUT. -/
structure PinSt where
  mode : BitVec 2 := 0
  edge : Bool := false
  at_ : BitVec 64 := 0
  period : Word := 0
  width : Word := 0
  level : Bool := false
  /-- A pulse output whose next edge is armed, and that edge's target. -/
  armed : Bool := false
  target : BitVec 64 := 0
  /-- Captured times, oldest first, in units of 2^-40 ns. -/
  fifo : List Nat := []
  lost : Word := 0
deriving DecidableEq, Repr, Inhabited

/-- The time base (R343): `time` counts 2^-40 ns from zero, seconds wrapping at 2^48. -/
structure Tim where
  time : Nat := 0
  /-- The values at the starts of the last six ticks, newest first: the crossing of kind 0x09 releases them six ticks later (R107, R238). -/
  past : List Nat := []
  incr : BitVec 48 := 0x020000000000
  slewRate : BitVec 32 := 0
  slewLeft : Word := 0
  jumpLimit : Word := 0
  stepped : Bool := false
  jumpRefused : Bool := false
  capLost : Bool := false
  cmpLate : Bool := false
  latch : BitVec 96 := 0
  refused : Word := 0
  pins : Tab PinSt := {}
deriving DecidableEq, Repr, Inhabited


/-! ### Memory system (chapter 16) -/

/-- A request of one line in an island's queue (R416): a read of `len` bytes or a write, of a partition and port, and the function a BAR4 access came from. -/
structure MemReq where
  part : Nat
  port : Nat
  addr : Nat
  len : Nat
  wr : Option (List Byte)
  arrival : Nat
  fn : Option (Fin 16)
  /-- Where its bytes stand in the BAR4 access it is part of. -/
  at_ : Nat := 0
  /-- Data slots its access still takes, once it is opened (R417). -/
  left : Nat := 0
deriving DecidableEq, Repr

/-- MEM_TRAIN of a channel (R428). -/
structure Train where
  step : BitVec 3 := 0
  failed : Bool := false
  hottest : Byte := 0
  /-- The channel's latest report is above the highest refresh band. -/
  high : Bool := false
deriving DecidableEq, Repr, Inhabited

/-- The MEM block (R428), the request queues (R416) by 512 × island + 32 × partition + port, the protected regions in force (R422) and the scrub pointers (R424). -/
structure Memc where
  state : BitVec 2 := 0
  ue : Bool := false
  rate : Bool := false
  density : BitVec 2 := 0
  ranks : Bool := false
  lp5x : Bool := false
  size : Nat := 0
  ueAddr : BitVec 48 := 0
  passes : Word := 0
  rdCe : Tab Word := {}
  wrCe : Tab Word := {}
  inlineCe : Tab Word := {}
  ueCount : Tab Word := {}
  train : Tab Train := {}
  queues : Tab (List MemReq) := {}
  prot : List MemRegion := []
  /-- Lines scrubbed since the regions came into force, by 16 × channel + bank. -/
  scrub : Tab Nat := {}
deriving DecidableEq, Repr, Inhabited


/-! ### Tyben links (chapter 15) -/

/-- A message (R392, Table 4); `replayed` says that it arrived in a resent flit (R399). -/
structure Msg where
  dst : Nat
  src : Nat
  type : Nat
  hops : Nat
  mseq : Nat
  payload : List Byte
  replayed : Bool := false
  /-- Flits of the receive buffer it still holds (R390). -/
  held : Nat := 0
  /-- Local stamp of its header flit, for probes and heartbeats (R399, R402). -/
  stamp : BitVec 64 := 0
deriving DecidableEq, Repr

/-- A DATA flit on its way: VC, whether it opens or ends a message, payload, and the command its ACK answers (R405). -/
structure Flit where
  vc : Nat
  som : Bool
  eom : Bool
  fseq : Nat := 0
  payload : List Byte
  reply : Option Hdr := none
  /-- The port whose receive buffer it leaves as it goes, of a forwarded message (R390, R396). -/
  from_ : Option Nat := none
  /-- It carries the probe of a running offset measurement (R399). -/
  probe : Bool := false
deriving DecidableEq, Repr

/-- The port states in the order of TYB_PORT_STATUS.STATE (R407). -/
inductive TybState where
  | disabled | detect | train | config | active | retrain
deriving DecidableEq, Repr, Inhabited

/-- A Tyben port (R386 to R391, R407). -/
structure TybPort where
  state : TybState := .disabled
  rate : BitVec 2 := 0
  width : BitVec 2 := 0
  tunnel : Bool := false
  error : BitVec 3 := 0
  /-- Training failed, and detection is not retried yet (R387). -/
  retry : Bool := false
  maxRate : BitVec 2 := 0
  mac : Nat := 0
  cls : Nat := 0
  flits : Nat := 0
  peerMac : BitVec 48 := 0
  /-- In CONFIG: a CONFIG flit was sent, and a good one received (R387). -/
  cfgSent : Bool := false
  cfgGot : Bool := false
  neighbour : BitVec 14 := 0
  crcErrors : Word := 0
  replays : Word := 0
  retrains : Word := 0
  losses : Word := 0
  txMsgs : Word := 0
  rxMsgs : Word := 0
  rxDiscard : Word := 0
  /-- Credits the sender holds, by VC. -/
  credit : Tab Nat := {}
  /-- Credits to return, by VC: flits that left the receive buffer. -/
  owed : Tab Nat := {}
  nextSeq : Nat := 0
  expect : Nat := 0
  nak : Bool := false
  /-- A DATA flit came that no outgoing flit has acknowledged yet (R388, R389). -/
  ackDue : Bool := false
  /-- A NAK was sent for the gap in hand (R389). -/
  gap : Bool := false
  naks : Nat := 0
  /-- Flits sent and not acknowledged (R389). -/
  replay : List Flit := []
  txq : List Flit := []
  /-- The message partly received, by VC: its bytes, flits, whether its header flit was a resend, and that flit's stamp. -/
  part : Tab (Option (List Byte × Nat × Bool × BitVec 64)) := {}
  /-- Messages received whole and not yet handled, as bytes. -/
  arrived : List (List Byte × Nat × Bool × BitVec 64) := []
  /-- Messages delivered to this device that wait for their block. -/
  inbox : List Msg := []
  /-- The tick in which the port admitted its latest remote ADD or SET (R279). -/
  lastReq : Option Nat := none
  /-- Flits handed to the serialiser or the tunnel, oldest first: 256 bytes each. -/
  wire : List (List Byte) := []
deriving DecidableEq, Repr, Inhabited

/-- A route (R395). -/
structure Route where
  prefix_ : BitVec 14 := 0
  len : BitVec 4 := 0
  port : Bool := false
  valid : Bool := false
deriving DecidableEq, Repr, Inhabited

/-- A running offset measurement (R399). -/
structure OffsetRun where
  h : Option Hdr
  port : Nat
  repeated : Bool
  /-- The probe's flit was resent. -/
  spoiled : Bool := false
  t1 : BitVec 64
deriving DecidableEq, Repr

/-- The partner protocol (R400 to R402). -/
structure Partner where
  enable : Bool := false
  port : Nat := 0
  hbMiss : Nat := 0
  hbUs : Nat := 0
  tol : Nat := 0
  peer : Nat := 0
  seq : Word := 0
  up : Bool := false
  lastSend : BitVec 64 := 0
  lastRecv : BitVec 64 := 0
  /-- PARTNER_LOST was raised and no heartbeat has come since (R401). -/
  lostSeen : Bool := false
  /-- PARTNER_TIME was raised and no offset within tolerance has come since (R402). -/
  timeSeen : Bool := false
deriving DecidableEq, Repr, Inhabited

/-- A signature entry (R403). -/
structure SigEnt where
  key : Word
  value : BitVec 448
  matched : Bool
deriving DecidableEq, Repr

/-- A signature slot (R403). -/
structure SigSlot where
  part : Nat := 0
  enable : Bool := false
  here : List SigEnt := []
  there : List SigEnt := []
deriving DecidableEq, Repr, Inhabited

structure Tyb where
  node : BitVec 14 := 0
  lost : Bool := false
  mismatch : Bool := false
  timeBad : Bool := false
  conflict : Bool := false
  noRoute : Word := 0
  hopsExpired : Word := 0
  routeSel : BitVec 10 := 0
  routes : Tab Route := {}
  partnerOffset : Word := 0
  partnerDelay : Word := 0
  hbRxSeq : Word := 0
  unmatched : Word := 0
  witness : BitVec 480 := 0
  ports : Tab TybPort := {}
  mseq : Nat := 0
  offs : Option OffsetRun := none
  partner : Partner := {}
  sigs : Tab SigSlot := {}
deriving DecidableEq, Repr, Inhabited


/-! ### Sensor intake (chapter 11) -/

/-- An input released toward the plan island, or admitted there (R234): its slot, none for an absent-input marker (R235), sequence number, reason and time of admission. -/
structure Arrival where
  slot : Option Nat
  seq : Nat
  reason : Nat := 0
  frame : Nat := 0
  tick : Nat := 0
  /-- The model's tick of its admission. -/
  at_ : Nat := 0
  /-- Its decoding stopped early (R314). -/
  trunc : Bool := false
deriving DecidableEq, Repr, Inhabited

/-- A queued record (R310). -/
structure RecordJob where
  addr : Nat
  bytes : Nat
  seq : Nat
deriving DecidableEq, Repr

/-- A camera frame in progress (R295, R296): its slot while it is not marked for drop, the drop causes met, and the lines received. -/
structure FrameRun where
  slot : Option Nat
  /-- Bit c: drop cause c + 1 of R296 applies. -/
  causes : Nat := 0
  csiNo : Nat
  rois : Nat
  /-- Unpacked lines, newest first. -/
  raw : List (List Nat) := []
  lines : Nat := 0
  emb : List (List Byte) := []
deriving DecidableEq, Repr

/-- A record in its decoder (R311 to R315). -/
structure DecodeRun where
  job : RecordJob
  slot : Nat
  dec : Nat
deriving DecidableEq, Repr

/-- A CSI-2 port (R291, R317). -/
structure CsiPort where
  phy : Bool := false
  lanes : BitVec 3 := 0
  rate : BitVec 16 := 0
  locked : Bool := false
  corrected : Bool := false
  failed : Bool := false
  unknown : Bool := false
  unmatched : Bool := false
  discarded : BitVec 16 := 0
deriving DecidableEq, Repr, Inhabited

/-- An intake point (R292, R317 Table 10): points 0 to 31 cameras, 32 to 63 records; the others use the counts, slots and arrivals only. -/
structure Point where
  configured : Bool := false
  desc : BitVec 2048 := 0
  enabled : Bool := false
  srcSeq : Word := 0
  admitted : Word := 0
  superseded : Word := 0
  dropFull : Word := 0
  dropCrc : Word := 0
  dropGeometry : Word := 0
  dropRate : Word := 0
  dropPattern : Word := 0
  dropOther : Word := 0
  absent : Word := 0
  truncated : Word := 0
  injPass : Word := 0
  injFail : Word := 0
  injSkipped : Word := 0
  /-- Consecutive skipped injections (R308). -/
  skips : Nat := 0
  /-- An injection is due after a frame end (R308). -/
  injDue : Bool := false
  /-- The previous checked frame's counter byte (R307). -/
  embCnt : Option Byte := none
  /-- Tick of the previous frame start (R296). -/
  lastStart : Option Nat := none
  rois : BitVec 512 := 0
  frame : Option FrameRun := none
  queue : List RecordJob := []
  lastSubmit : Option (BitVec 64) := none
  decode : Option DecodeRun := none
  /-- Inputs written whole that wait for their admission tick (R234). -/
  waiting : List Arrival := []
  /-- Inputs and markers admitted since the last release beam of the bound job (R214). -/
  arrivals : List Arrival := []
  /-- The tick of the latest admission: a point admits one input in a tick (R234). -/
  lastAdm : Option Nat := none
  /-- Slots that become free in the tick after the one named (R295, R297). -/
  freed : List (Nat × Nat) := []
  /-- The tick of the latest SNS_ROI_WRITE, and the regions before it (R306). -/
  roisAt : Option Nat := none
  roisOld : BitVec 512 := 0
deriving DecidableEq, Repr, Inhabited

structure Sns where
  ready : Bool := false
  slotMiss : Bool := false
  sel : Byte := 0
  ports : Tab CsiPort := {}
  points : Tab Point := {}
deriving DecidableEq, Repr, Inhabited

/-! ### Ethernet (chapter 13) -/

/-- A receive filter (R357). -/
structure EthFilter where
  /-- ETH_FILTER_SET has set it; one never set matches nothing. -/
  used : Bool := false
  queue : BitVec 3 := 0
  tests : BitVec 3 := 0
  etype : BitVec 16 := 0
  vid : BitVec 12 := 0
  da : BitVec 48 := 0
deriving DecidableEq, Repr, Inhabited

/-- A receive queue (R358). -/
structure EthQueue where
  mode : BitVec 2 := 0
  log2 : Nat := 0
  minGap : Nat := 0
  base : Nat := 0
  wb : Nat := 0
  head : Word := 0
  tail : Word := 0
  seq : Word := 0
  drops : Word := 0
  /-- Tick of the previous admitted frame (R358). -/
  last : Option Nat := none
deriving DecidableEq, Repr, Inhabited

/-- A posted frame (R359): its bytes, its launch time if it has one and whether that has come, and the command it answers. -/
structure EthPost where
  frame : List Byte
  at_ : Option (BitVec 64)
  due : Bool
  h : Option Hdr
deriving DecidableEq, Repr

/-- A launch entry (R360): its frame, class and mode, and the launch in hand. -/
structure EthLaunch where
  mode : BitVec 2 := 0
  cls : Nat := 0
  frame : List Byte := []
  at_ : Option (BitVec 64) := none
  due : Bool := false
  sent : Word := 0
  stamp : BitVec 96 := 0
deriving DecidableEq, Repr, Inhabited

/-- A gate control list (R361). -/
structure Gcl where
  entries : List (Nat × Nat) := []
  cycle : Nat := 0
  /-- Time (NOW) at which the list becomes or became operational, a start of its cycle. -/
  start : Nat := 0
deriving DecidableEq, Repr, Inhabited

/-- What a frame in progress came from. -/
inductive TxFrom where
  | post (h : Option Hdr)
  | launch (i : Nat)
  | tunnel (p : Nat)
deriving DecidableEq, Repr

/-- The frame a MAC is sending (R362), with its transmit time-stamp (R356). -/
structure TxRun where
  frame : List Byte
  from_ : TxFrom
  stamp : BitVec 96
deriving DecidableEq, Repr

/-- A MAC (R355 to R366). -/
structure Mac where
  enabled : Bool := false
  link : Bool := false
  speed : BitVec 2 := 0
  maxFrame : Nat := 0
  txDelay : Word := 0
  rxDelay : Word := 0
  lateNs : Nat := 1000
  filters : Tab EthFilter := {}
  queues : Tab EthQueue := {}
  classes : Tab (List EthPost) := {}
  launches : Tab EthLaunch := {}
  gcl : Option Gcl := none
  pendGcl : Option Gcl := none
  entry : Nat := 0
  tx : Option TxRun := none
  txFrames : Word := 0
  rxFrames : Word := 0
  rxFcs : Word := 0
  rxControl : Word := 0
  rxUnqueued : Word := 0
  launchLate : Word := 0
  gateDiscard : Word := 0
  /-- Frames sent, oldest first, with their FCS. -/
  wire : List (List Byte) := []
deriving DecidableEq, Repr, Inhabited

structure Eth where
  macs : Tab Mac := {}
deriving DecidableEq, Repr, Inhabited


/-! ### CAN FD (chapter 14) -/

/-- An acceptance filter (R376). -/
structure CanFilter where
  target : Nat := 0
  buf : Nat := 0
  ide : Bool := false
  value : Word := 0
  mask : Word := 0
deriving DecidableEq, Repr, Inhabited

/-- A message buffer (R372 to R374, R379 to R381): its kind and mode, its image, what waits to be sent and who is to be answered. -/
structure CanMb where
  kind : BitVec 2 := 0
  mode : BitVec 2 := 0
  oneShot : Bool := false
  full : Bool := false
  img : BitVec 768 := 0
  shadow : Option (BitVec 768) := none
  /-- A send is requested, or a launch has come due. -/
  pend : Bool := false
  /-- A launch armed or due (modes 1 and 2). -/
  at_ : Option (BitVec 64) := none
  /-- CAN_MB_SEND to answer. -/
  h : Option Hdr := none
  /-- The CAN_MB_ABORTs that wait for the frame on the bus; `stopping` bars a resend. -/
  abort : List Hdr := []
  stopping : Bool := false
  /-- A launch handed over while the frame was on the bus: its image and time. -/
  next : Option (BitVec 768 × BitVec 64) := none
deriving DecidableEq, Repr, Inhabited

/-- A controller (R367 to R385). -/
structure CanCtl where
  mode : BitVec 2 := 0
  err : BitVec 2 := 0
  synced : Bool := false
  tdcFail : Bool := false
  tec : Nat := 0
  rec_ : Nat := 0
  nbt : Word := 0
  dbt : Word := 0
  tdco : BitVec 7 := 0
  delay : BitVec 7 := 0
  rxSeq : Word := 0
  rxDiscard : Word := 0
  rxOverrun : Word := 0
  rxfDrops : Tab Word := {}
  launchLate : Word := 0
  txFrames : Word := 0
  rxFrames : Word := 0
  busOffs : Word := 0
  lock : Option Nat := none
  lateNs : Nat := 1000000
  minGap : Nat := 0
  filters : Tab CanFilter := {}
  mbs : Tab CanMb := {}
  fifos : Tab (List (BitVec 768)) := {}
  /-- FIFO depths less one (log entry 6). -/
  depths : Tab Nat := {}
  /-- The buffer whose frame is on the bus, and the time-stamp of its start of frame. -/
  bus : Option (Nat × BitVec 96) := none
  /-- Tick of the previous admitted frame (R378). -/
  last : Option Nat := none
deriving DecidableEq, Repr, Inhabited

structure Can where
  ctls : Tab CanCtl := {}
deriving DecidableEq, Repr, Inhabited


/-! ### Control loop engine (chapter 12) -/

/-- An encoder (R328, R329): accepted levels, position, latched position, illegal transitions. -/
structure CleEnc where
  configured : Bool := false
  filt : Nat := 0
  indexMode : Nat := 0
  dir : Bool := false
  a : Bool := false
  b : Bool := false
  z : Bool := false
  pos : Word := 0
  latch : Word := 0
  errors : Word := 0
  fault : Bool := false
deriving DecidableEq, Repr, Inhabited

/-- A sigma-delta channel (R330). -/
structure CleSd where
  configured : Bool := false
  clkMode : Bool := false
  clkDiv : Nat := 0
  osr : Nat := 0
  out : Word := 0
  lost : Bool := false
deriving DecidableEq, Repr, Inhabited

/-- An SPI port (R331) and the words latched by its latest frame. -/
structure CleSpi where
  configured : Bool := false
  sckDiv : Nat := 0
  cpol : Bool := false
  cpha : Bool := false
  bits : Nat := 0
  words : Nat := 0
  trig : Nat := 0
  lead : Nat := 0
  vals : Tab Word := {}
deriving DecidableEq, Repr, Inhabited

/-- A mailbox (R332). -/
structure CleMail where
  setpoint : Word := 0
  accel : Word := 0
  sched : Word := 0
  seq : Word := 0
  written : Bool := false
deriving DecidableEq, Repr, Inhabited

/-- A control loop (R319 to R327, R333, R334): record, coefficient sets and stored state. -/
structure CleLoop where
  configured : Bool := false
  desc : BitVec 2048 := 0
  sets : Tab (BitVec 512) := {}
  enabled : Bool := false
  stopped : Bool := false
  /-- The next evaluation is a first one (R326). -/
  first : Bool := false
  /-- Evaluated since the latest enable or resume (R338). -/
  live : Bool := false
  /-- Evaluated since the latest enable (R324, R532). -/
  evaled : Bool := false
  evalSeq : Word := 0
  out : Int := 0
  i : Int := 0
  d : Int := 0
  x : Int := 0
  lim : Int := 0
  k : Nat := 0
  stale : Bool := false
  staleCount : Nat := 0
  mbSeen : Word := 0
  heldSp : Int := 0
  /-- Encoder positions at the previous evaluation, by encoder (R324). -/
  encPrev : Tab Word := {}
  evals : Nat := 0
  snapDrops : Word := 0
  snap : BitVec 512 := 0
deriving DecidableEq, Repr, Inhabited

/-- A PWM pair (R335 to R338): settings, compare value and shadow, force, and its counter with how long the ideal signal has held its level. -/
structure Pwm where
  configured : Bool := false
  period : Nat := 0
  centre : Bool := false
  update : Nat := 0
  dtRise : Nat := 0
  dtFall : Nat := 0
  polA : Bool := false
  polB : Bool := false
  safeA : Bool := false
  safeB : Bool := false
  group : Nat := 0
  cmp : Nat := 0
  shadow : Option Nat := none
  latched : Bool := false
  forced : Bool := false
  count : Nat := 0
  down : Bool := false
  level : Bool := false
  held : Nat := 0
deriving DecidableEq, Repr, Inhabited

/-- A test generator (R339). -/
structure CleGen where
  running : Bool := false
  kind : Nat := 0
  loop : Nat := 0
  point : Nat := 0
  amp : Int := 0
  left : Nat := 0
  hold : Nat := 0
  held : Nat := 0
  phi : Word := 0
  inc : Word := 0
  df : Word := 0
  lfsr : Word := 0
  /-- It has made its first step. -/
  begun : Bool := false
deriving DecidableEq, Repr, Inhabited

/-- A capture channel (R340). -/
structure CleCap where
  running : Bool := false
  loop : Nat := 0
  /-- Waits for this generator's first step. -/
  gen : Option Nat := none
  begun : Bool := false
  decim : Nat := 0
  skip : Nat := 0
  left : Nat := 0
  dest : Nat := 0
  lost : Nat := 0
  fn : Nat := 0
  /-- Records that wait for the host link, at most 64, with their addresses. -/
  queue : List (Nat × List Byte) := []
deriving DecidableEq, Repr, Inhabited

/-- A pending CLE_START (R531). -/
structure CleStart where
  h : Option Hdr
  mode : Nat
  pin : Nat
  at_ : BitVec 64
  /-- The pin's rising edge was seen (R353). -/
  seen : Bool := false
deriving DecidableEq, Repr

/-- The engine. `state`: 0 stopped, 1 period 0, 2 running, 3 stop pending. -/
structure Cle where
  state : BitVec 2 := 0
  safeIn : BitVec 2 := 0
  period : BitVec 64 := 0
  /-- The time base at the start of the period (R318). -/
  periodTime : Nat := 0
  start : Option CleStart := none
  stop : Option (Option Hdr) := none
  loops : Tab CleLoop := {}
  mails : Tab CleMail := {}
  encs : Tab CleEnc := {}
  sds : Tab CleSd := {}
  spis : Tab CleSpi := {}
  pwms : Tab Pwm := {}
  gens : Tab CleGen := {}
  caps : Tab CleCap := {}
deriving DecidableEq, Repr, Inhabited


/-! ### Page keeper (chapter 06) -/

/-- A sequence entry (R161, Table 6). -/
structure KvSeq where
  isOpen : Bool := false
  exhausted : Bool := false
  sliding : Bool := false
  guest : Bool := false
  part : Nat := 0
  gen : BitVec 16 := 0
  len : Nat := 0
  tokBase : Nat := 0
  qposLast : Word := 0
  maxLen : Nat := 0
  resv : Nat := 0
deriving DecidableEq, Repr, Inhabited

/-- A count-store entry (R161, Table 7): a page is on its free list unless `taken`. -/
structure PageCnt where
  refs : Nat := 0
  pins : Nat := 0
  taken : Bool := false
deriving DecidableEq, Repr, Inhabited

/-- A pool's free list: the pages from `next` upward that were never taken, then the returned ones, oldest first (R161, R163). -/
structure PoolSt where
  next : Nat := 0
  back : List Nat := []
  /-- How many of the last pages of `back` came in the tick `freshAt`: those of one tick stand in ascending order (R170). -/
  fresh : Nat := 0
  freshAt : Nat := 0
  waits : Word := 0
deriving DecidableEq, Repr, Inhabited

/-- Who posted a keeper command (R178): a host ring, or a job with its reply address and tally. -/
inductive KvFrom where
  | host (h : Option Hdr)
  | job (job : Nat) (tag : BitVec 12) (seq : Word) (replyAddr : Nat) (tally : Nat)
deriving DecidableEq, Repr

/-- A keeper command (R179): opcode and parameter area. -/
structure KvCmd where
  from_ : KvFrom
  op : Nat
  params : BitVec 384
  /-- The generic check that a job-port packet fails: status and DETAIL (R271). -/
  bad : Option (Nat × Nat) := none
  /-- The tick of its arrival (R171). -/
  came : Nat := 0
deriving DecidableEq, Repr

/-- The command a partition's keeper runs: how far it has come, whether it waits for a page (R163), and its result once it has one. -/
structure KvRun where
  cmd : KvCmd
  /-- Tokens written, pages taken, the first block dropped. -/
  at_ : Nat := 0
  taken : Nat := 0
  dropped : Option Nat := none
  started : Bool := false
  /-- The append passes MAX_LEN (R165). -/
  limit : Bool := false
  waiting : Bool := false
  res : Option (Nat × Nat × Nat × Nat) := none
  ext : Option (List Byte) := none
deriving DecidableEq, Repr

/-- A ring context (R172 to R176). `state`: 0 closed, 1 open, 2 failed. -/
structure RingCtx where
  state : BitVec 2 := 0
  error : BitVec 2 := 0
  part : Nat := 0
  n : Nat := 0
  pos : Nat := 0
  east : Nat := 0
  west : Nat := 0
  eastNode : Nat := 0
  westNode : Nat := 0
  home : Nat := 0
  guest0 : Nat := 0
  guest1 : Nat := 0
  arrive : Nat := 0
  sent : Nat := 0
  recvBase : Nat := 0
  recvStride : Nat := 0
  lastArrived : Nat := 0
  lastSent : Nat := 0
  /-- Guest k holds an arrived shard not yet sent onward (R174). -/
  unsent0 : Bool := false
  unsent1 : Bool := false
  /-- The step being sent, its sequence and the pages it pins. -/
  sending : Option (Nat × Nat × List Nat) := none
  /-- An arrival waits for a page, and its wait is counted (R163). -/
  starved : Bool := false
deriving DecidableEq, Repr, Inhabited

/-- A ring message admitted in the tick `at_`, which takes effect in the next one (R235): `kind` 2 a shard, 3 partial records. -/
structure Landing where
  ring : Nat
  kind : Nat
  payload : List Byte
  at_ : Nat
deriving DecidableEq, Repr

structure Pgk where
  ready : Bool := false
  landing : List Landing := []
  tableUe : Bool := false
  seqSel : BitVec 12 := 0
  pageSel : BitVec 20 := 0
  seqs : Tab KvSeq := {}
  /-- Page-table entries: one more than the page, 0 when invalid. -/
  table : Tab Nat := {}
  pages : Tab PageCnt := {}
  pools : Tab PoolSt := {}
  queues : Tab (List KvCmd) := {}
  runs : Tab (Option KvRun) := {}
  rings : Tab RingCtx := {}
deriving DecidableEq, Repr, Inhabited



/-! ### Recurrent streams (chapter 07) -/

/-- A stream entry (R198, Table 6) with what the run in hand has pending (R190 to R192). -/
structure Stream where
  isOpen : Bool := false
  resident : Bool := false
  motion : BitVec 2 := 0
  executing : Bool := false
  active : Bool := false
  pending : Bool := false
  part : Nat := 0
  gen : BitVec 16 := 0
  width : Nat := 0
  rod : Nat := 0
  slot : Nat := 0
  resTally : Nat := 0
  stepsDone : BitVec 64 := 0
  chunks : Word := 0
  lastReset : Word := 0xFFFFFFFF
  /-- The job whose run claimed the stream, its pending steps and chunks, and the step number of its latest mark. -/
  job : Option Nat := none
  pendSteps : Nat := 0
  pendChunks : Nat := 0
  pendMark : Option Nat := none
deriving DecidableEq, Repr, Inhabited

structure Cry where
  sel : BitVec 12 := 0
  streams : Tab Stream := {}
deriving DecidableEq, Repr, Inhabited


/-- The machine. -/
structure State where
  /-- Commands that wait, first in, first out. -/
  pending : List Instr := []
  /-- Free values drawn so far (the model's own, log entry 1). -/
  free : Nat := 0
  /-- Ticks of the arithmetic clock that have passed (the model's own, log entry 3). -/
  tick : Nat := 0
  /-- LPDDR5, scratchpads and host memory behind the aperture (R21). -/
  mem : Memory := {}
  /-- Error marks of scratchpad words and memory words by word number: 1 correctable, 2 uncorrectable (R75, R422, R425). -/
  errs : Tab Nat := {}
  hif : Hif := {}
  tly : Tly := {}
  pln : Pln := {}
  jrn : Jrn := {}
  rods : Tab Rod := {}
  saf : Saf := {}
  sec : Sec := {}
  pwr : Pwr := {}
  trc : Trc := {}
  tim : Tim := {}
  memc : Memc := {}
  tyb : Tyb := {}
  sns : Sns := {}
  eth : Eth := {}
  can : Can := {}
  cle : Cle := {}
  pgk : Pgk := {}
  cry : Cry := {}
  /-- The writes of the operation in hand, while a locked pair's two copies are compared (the model's own, log entry 91). -/
  watch : Option (List (Nat × List Byte)) := none
deriving DecidableEq, Repr, Inhabited

/-- The machine right after a power-on reset: every register at its Reset value, and the values log entries 1 to 6 name where the manual gives none. -/
def State.reset : State := {}

/-- What a step answers. -/
abbrev Out := Host.Outcome State Fault Refusal

end Sys2Proof.Machine
end

