-- ==== Sys2Proof/Machine/Ops.lean ====
section
/-! DEFINITION. Operations that every family shares: the time base, addresses and memory, free values, raising a fault, rings, events,
status replies, MSI-X. -/

namespace Sys2Proof.Machine

/-! ### Time -/

/-- NOW, in nanoseconds modulo 2^64 (R350). -/
def timeNow (t : Nat) : BitVec 64 := BitVec.ofNat 64 (t / 2 ^ 40)

/-- NOW at present. -/
def State.now (s : State) : BitVec 64 := timeNow s.tim.time

/-- The 96-bit time value: fraction[15:0], nanoseconds, seconds (R343). -/
def time96 (t : Nat) : BitVec 96 :=
  let ns := t / 2 ^ 40
  BitVec.ofNat 96 (t % 2 ^ 40 / 2 ^ 24 + ns % 1000000000 * 2 ^ 16 + ns / 1000000000 % 2 ^ 48 * 2 ^ 48)

/-- The largest time value plus one, at which seconds wrap (R343). -/
def timeMod : Nat := 2 ^ 48 * 1000000000 * 2 ^ 40

/-- FRAME_COUNT[31:0] and FRAME_TICK as an event carries them: 0 when no plan runs (R276). -/
def State.frameNow (s : State) : Nat × Nat :=
  match s.pln.state with
  | .running | .stopping => (s.pln.frameCount.toNat % 2 ^ 32, s.pln.frameTick)
  | _ => (0, 0)

/-! ### Free values -/

/-- Draws a free value of width `w` (R16; log entry 1). -/
def State.draw (s : State) (w : Nat) : BitVec w × State := (Config.free w s.free, { s with free := s.free + 1 })

/-! ### The address map (R21) -/

/-- Bases and sizes of the address map. -/
def spadBase : Nat := 0x010000000000
def spadSize : Nat := 0x400000
def apertureBase : Nat := 0x800000000000

/-- The device address of offset `o` of rod `n`'s scratchpad (R71). -/
def spadAddr (n o : Nat) : Nat := spadBase + n * spadSize + o

/-- `[a, a + n)` lies in the aperture to host memory. -/
def inAperture (a n : Nat) : Bool := decide (apertureBase ≤ a) && decide (a + n ≤ 2 ^ 48)

/-- `[a, a + n)` lies in populated LPDDR5 (R410). -/
def State.inDram (s : State) (a n : Nat) : Bool := decide (a + n ≤ s.memc.size)

/-- `[a, a + n)` lies in the rod scratchpads. -/
def inSpads (a n : Nat) : Bool := decide (spadBase ≤ a) && decide (a + n ≤ spadBase + 64 * spadSize)

/-- The check lines of a protected region: the last 128 KiB of each 1 MiB block (R422). -/
def checkLine (a n : Nat) : Bool :=
  decide (0xE0000 ≤ a % 0x100000) || decide (0xE0000 < a % 0x100000 + n)

/-- Every address from `a` below `b` lies in one of some ranges, each given by its first address and the one past its last. -/
def coveredBy (rs : List (Nat × Nat)) : Nat → Nat → Nat → Bool
  | 0, _, _ => false
  | k + 1, a, b =>
    decide (b ≤ a) || match rs.find? fun r => decide (r.1 ≤ a) && decide (a < r.2) with
      | some r => coveredBy rs k r.2 b
      | none => false

/-- Every address of `[a, a + n)`, and `a` itself, lies in one of some ranges: adjacent ranges count together. -/
def covered (rs : List (Nat × Nat)) (a n : Nat) : Bool := coveredBy rs (rs.length + 1) a (a + max 1 n)

/-- The first and the last address of `[a, a + n)` in a region, one past it (empty where they do not meet). -/
def MemRegion.meet (r : MemRegion) (a n : Nat) : Nat × Nat := (max a r.base, min (a + n) (r.base + r.len))

/-- `[a, a + n)` lies in the memory regions of partition `p`, outside their check lines (R421, R422). -/
def Plan.inRegion (pl : Plan) (p a n : Nat) : Bool :=
  let rs := pl.regions.filter fun r => r.part == p
  covered (rs.map fun r => (r.base, r.base + r.len)) a n &&
    rs.all fun r => let m := r.meet a (max 1 n); !(r.prot && decide (m.1 < m.2) && checkLine m.1 (m.2 - m.1))

/-- `[a, a + n)` lies in the scratchpad ranges of partition `p`, of one rod if it is named (R200). -/
def Plan.inSpad (pl : Plan) (p : Nat) (rod : Option Nat) (a n : Nat) : Bool :=
  covered ((pl.spads.filter fun r => r.part == p && !r.test && (match rod with | none => true | some k => r.rod == k)).map fun r =>
    (spadAddr r.rod r.off, spadAddr r.rod r.off + 64 * r.lines)) a n

/-- Partition `p`'s LPDDR5 while a plan is loaded; without one, PF0's is all populated LPDDR5 (R258, R259; log entry 7). -/
def State.partMem (s : State) (p a n : Nat) : Bool :=
  match s.pln.plan with
  | some pl => pl.inRegion p a n && s.inDram a n
  | none => p == 0 && s.inDram a n

/-- Memory a ring, parameter block or result area of function `f` may lie in: the aperture or the partition's LPDDR5 (R259, R267, R273). -/
def State.hostMem (s : State) (f : Fin 16) (a n : Nat) : Bool := inAperture a n || s.partMem f.val a n

/-- Reads `n` bytes at a device address. -/
def State.rd (s : State) (a n : Nat) : List Byte := s.mem.read a n

/-- Reads a little-endian number of `n` bytes. -/
def State.rdN (s : State) (a n : Nat) : Nat := leNat (s.mem.read a n)

/-- Writes bytes at a device address; an overwritten word loses its error mark. -/
def State.wr (s : State) (a : Nat) (bs : List Byte) : State :=
  { s with mem := s.mem.write a bs,
           errs := ⟨s.errs.cells.filter fun c => !(decide (a ≤ c.1 * 4) && decide (c.1 * 4 + 4 ≤ a + bs.length))⟩ }

/-- Writes a number of `n` bytes, little-endian. -/
def State.wrN (s : State) (a n x : Nat) : State := s.wr a (leBytes n x)

/-- The worst error mark of the words that `[a, a + n)` touches: 0 none, 1 correctable, 2 uncorrectable. -/
def State.errIn (s : State) (a n : Nat) : Nat :=
  s.errs.cells.foldl (fun m c => if decide (a < c.1 * 4 + 4) && decide (c.1 * 4 < a + n) then max m c.2 else m) 0

/-- An uncorrectable memory error is counted for its channel, and the first one recorded (R425). -/
def State.noteUe (s : State) (a : Nat) : State :=
  let c := a / 64 % 32
  { s with memc.ueCount := s.memc.ueCount.upd c satInc, memc.ue := true,
           memc.ueAddr := if s.memc.ue then s.memc.ueAddr else BitVec.ofNat 48 a }

/-- `a` lies in a protected region in force (R422). -/
def State.protectedAt (s : State) (a : Nat) : Bool := s.memc.prot.any fun r => decide (r.base ≤ a) && decide (a < r.base + r.len)

/-- A read of `[a, a + n)` counts its corrections: scratchpad words at their rod (R75), memory lines at their channel (R420, R422). -/
def State.noteRead (s : State) (a n : Nat) : State :=
  let hits := s.errs.cells.filter fun c => c.2 == 1 && decide (a < c.1 * 4 + 4) && decide (c.1 * 4 < a + n)
  hits.foldl (fun s c =>
    let x := c.1 * 4
    if inSpads x 4 then { s with rods := s.rods.upd ((x - spadBase) / spadSize) fun r => { r with ceCount := satInc r.ceCount } }
    else if s.protectedAt x then { s with memc.inlineCe := s.memc.inlineCe.upd (x / 64 % 32) satInc }
    else { s with memc.rdCe := s.memc.rdCe.upd (x / 64 % 32) satInc }) s

/-- The rod whose scratchpad `[a, a + n)` meets while a lock or split hand-over holds it (R88). -/
def State.heldRod (s : State) (a n : Nat) : Option Nat :=
  (List.range 64).find? fun k =>
    let st := (s.rods.get (k / 2 * 2)).pairState
    (st == 1 || (st == 3 && k % 2 == 1)) && decide (a < spadAddr k 0 + spadSize) && decide (spadAddr k 0 < a + n)

/-- The copy that a locked pair's follower holds of `[a, a + n)` of its leader's scratchpad, if there is one (R80). -/
def State.copyOf (s : State) (a n : Nat) : Option Nat :=
  let k := (a - spadBase) / spadSize
  if inSpads a n && k % 2 == 0 && (s.rods.get k).locked then some (a + spadSize) else none

/-- The worst error mark of `[a, a + n)` in both copies of a locked pair, which read their own (R75, R80). -/
def State.errBoth (s : State) (a n : Nat) : Nat := max (s.errIn a n) (match s.copyOf a n with | some b => s.errIn b n | none => 0)

/-- A read by both copies of a locked pair counts the corrections of each. -/
def State.noteBoth (s : State) (a n : Nat) : State :=
  let t := s.noteRead a n
  match s.copyOf a n with | some b => t.noteRead b n | none => t

/-- `[a, a + n)` meets a bank of a scratchpad whose slots a second port also takes (R71, R74). -/
def State.jammed (s : State) (a n : Nat) : Bool :=
  inSpads a 1 && (s.rods.get ((a - spadBase) / spadSize)).upset.banks.any fun b =>
    decide ((a - spadBase) % spadSize < 0x20000 * (b + 1)) && decide (0x20000 * b < (a - spadBase) % spadSize + n)

/-- Some byte of `[a, a + n)` lies in a scratchpad in hand-over. -/
def State.inHandover (s : State) (a n : Nat) : Bool := (s.heldRod a n).isSome

/-! ### Faults -/

/-- Raises a fault: it is recorded in the step, and its reaction follows when the step settles (R433). -/
def State.raise (s : State) (r : Raise) : State := { s with saf.raised := s.saf.raised ++ [r] }

/-- Raises a fault against a job on a rod. -/
def State.raiseJob (s : State) (code : Nat) (job : Nat) (rod : Option Nat := none) (detail : Word := 0) : State :=
  s.raise { code := code, job := some job, rod := rod, detail := detail }

/-- Raises a fault against the device. -/
def State.raiseDev (s : State) (code : Nat) (detail : Word := 0) (detail2 : Word := 0) : State :=
  s.raise { code := code, detail := detail, detail2 := detail2 }

/-- A fault of a rod, raised against a job and latched in bit `k` of its ROD_FAULT. -/
def State.latched (s : State) (n k code j : Nat) : State :=
  { s with rods := s.rods.upd n fun r => { r with fault := r.fault ||| BitVec.ofNat 32 (2 ^ k) } }.raiseJob code j (some n)

/-- An access that a hand-over of rod `n`'s scratchpad discards raises HANDOVER_ACCESS against the job it is for, if any. No rod issues the accesses
of the blocks around the rods: the rod in hand-over latches it (DESIGN CHOICE, log entry 88). -/
def State.handoverAccess (s : State) (n : Nat) (job : Option Nat) : State := match job with | some j => s.latched n 6 0x0109 j | none => s

/-- A block of the device reads `n` bytes for a job or for itself (R75, R88, R425): corrections are counted; an uncorrectable word of memory raises
MEM_UE against the job or the device, one of a scratchpad SPAD_UE against the job; and that data, as that of a scratchpad in hand-over, is a free value. -/
def State.blockRead (s : State) (a n : Nat) (job : Option Nat := none) : List Byte × State :=
  match s.heldRod a n, s.errIn a n == 2 with
  | none, false => (s.rd a n, s.noteRead a n)
  | held, _ =>
    let (x, s) := s.draw (8 * n)
    (leBytes n x.toNat, match held, job with
      | some k, _ => s.handoverAccess k job
      | none, some j => if inSpads a n then s.latched ((a - spadBase) / spadSize) 0 0x0103 j else (s.noteUe a).raise { code := 0x1001, job := job }
      | none, none => if inSpads a n then s else (s.noteUe a).raise { code := 0x1001 })

/-- A write that a locked pair's follower takes as its leader does (R80, R81). -/
def State.wrBoth (s : State) (a : Nat) (bs : List Byte) : State :=
  let s' := { s.wr a bs with watch := s.watch.map (· ++ [(a, bs)]) }
  match s.copyOf a bs.length with | some b => s'.wr b bs | none => s'

/-- A write of a block of the device, for a job or for itself: a scratchpad in hand-over does not take it (R88). -/
def State.putFor (s : State) (job : Option Nat) (a : Nat) (bs : List Byte) : State :=
  match s.heldRod a bs.length with
  | some k => s.handoverAccess k job
  | none => s.wrBoth a bs

/-- `[a, a + n)` lies in partition `p`'s memory: its LPDDR5 and its scratchpad ranges. -/
def State.partAll (s : State) (p a n : Nat) : Bool :=
  s.partMem p a n || match s.pln.plan with | some pl => pl.inSpad p none a n | none => false

/-- Shared engine `g` serves work of partition `p` in the window in force (R207, R208): for a job, in slots that name it; else in slots with
JOB_VALID = 0. Tables apply from the beam that starts the plan: before it, an engine serves at once (DESIGN CHOICE, log entry 99). -/
def State.engineServes (s : State) (g p : Nat) (job : Option Nat) : Bool :=
  let in_ := fun (pl : Plan) => pl.engSlots.any fun t => t.which == g && t.window == s.pln.window &&
    t.slots.any fun x => fld x 0 4 == p && bit x 4 && match job with | none => !bit x 5 | some j => bit x 5 && fld x 6 10 == j
  match s.pln.state, s.pln.plan with
  | .running, some pl => in_ pl
  | .stopping, some pl => in_ pl
  | _, _ => true

/-- The job record of a job of the loaded plan. -/
def State.jobRec (s : State) (j : Nat) : Option JobRec := s.pln.plan.bind fun pl => pl.jobs.find? fun r => r.job == j

/-- The tally uses of a job (R211). -/
def Plan.usesOf (pl : Plan) (r : JobRec) : List TallyUse := (pl.tallyUses.drop r.tallyFirst).take r.tallyCount

/-- Job `j` lists tally `t` with SIGNAL = 1 (R211). -/
def State.jobSignals (s : State) (j t : Nat) : Bool :=
  match s.pln.plan, s.jobRec j with
  | some pl, some r => (pl.usesOf r).any fun u => u.tally == t && u.signal
  | _, _ => false

/-! ### MSI-X (R265, R288) -/

/-- The physical vector is signalled: its message is sent, or its pending bit is set while it is masked, as PCIe's MSI-X gives. -/
def State.sendVector (s : State) (v : Nat) : State :=
  let e := s.hif.msix.get v
  if e.unmasked then { s with hif.msgs := s.hif.msgs ++ [(e.addr, e.data)] }
  else { s with hif.msix := s.hif.msix.set v { e with pend := true } }

/-! ### Rings (R259 to R265) -/

/-- The device ring of function ring `i` of `f` (R256). -/
def State.devRing (s : State) (f : Fin 16) (i : Nat) : Nat := (s.hif.fns.get f.val).ringFirst.toNat + i

/-- Entry size of a ring type (R259, Table 3). -/
def entryBytes (type : BitVec 3) : Nat := if type = 2 then 32 else 64

/-- SIZE of a ring. -/
def Ring.size (r : Ring) : Nat := 2 ^ r.log2.toNat

/-- Entries in use (R261). -/
def Ring.used (r : Ring) : Nat := (r.tail - r.head).toNat

/-- Device address of the entry of index `n` (R261). -/
def Ring.entry (r : Ring) (n : Word) : Nat := r.base.toNat + entryBytes r.type * (n.toNat % r.size)

/-- The function that owns device ring `r` (R256). -/
def State.ringOwner (s : State) (r : Nat) : Option (Fin 16) :=
  (List.finRange 16).find? fun f =>
    let n := s.hif.fns.get f.val
    decide (n.ringFirst.toNat ≤ r) && decide (r < n.ringFirst.toNat + n.ringCount.toNat)

/-- Kreham writes its own index to WB_ADDR (R263). -/
def State.writeBack (s : State) (r : Ring) (idx : Word) : State :=
  if r.wb = 0 then s else s.wrN r.wb.toNat 4 idx.toNat

/-- After an entry is written and its index written back, an armed ring with IRQ_EN sends its vector once (R265). -/
def State.ringIrq (s : State) (k : Nat) : State :=
  let r := s.hif.rings.get k
  if r.irqEn && r.armed then
    let s := { s with hif.rings := s.hif.rings.set k { r with armed := false } }
    match s.ringOwner k with
    | some f => s.sendVector ((s.hif.fns.get f.val).vecFirst.toNat + r.vector.toNat)
    | none => s
  else s

/-- Can Kreham write a record to the ring: enabled, active and not full (R261, R262)? -/
def Ring.canPost (r : Ring) : Bool := r.enable && r.state == 1 && decide (r.used < r.size)

/-- Writes one entry at TAIL, advances TAIL, writes it back and signals (R263, R265). -/
def State.postEntry (s : State) (k : Nat) (bs : List Byte) : State :=
  let r := s.hif.rings.get k
  let s := s.wr (r.entry r.tail) bs
  let r' := { r with tail := r.tail + 1 }
  let s := { s with hif.rings := s.hif.rings.set k r' }
  (s.writeBack r' r'.tail).ringIrq k

/-! ### Event records (R276, R277) -/

/-- The 64 bytes of an event record. -/
def eventBytes (s : State) (kind part code : Nat) (eseq : Word) (payload : Nat) : List Byte :=
  let (fr, ft) := s.frameNow
  leBytes 64 (pack [(0, 8, kind), (8, 4, part), (16, 16, code), (32, 32, eseq.toNat), (64, 64, s.now.toNat),
    (128, 32, fr), (160, 32, ft), (256, 256, payload)])

/-- FRAME and FRAME_TICK in one number, as records of losses carry them. -/
def State.frameStamp (s : State) : Nat := let (f, t) := s.frameNow; f + t * 2 ^ 32

/-- The ring that takes function `f`'s events, when there is one with room (R277). -/
def State.eventRing (s : State) (f : Fin 16) : Option Nat :=
  let n := s.hif.fns.get f.val
  let k := s.devRing f n.eventRing.toNat
  let r := s.hif.rings.get k
  if n.bound && r.type == 3 && r.canPost then some k else none

/-- Writes one record to event ring `k` and advances its ESEQ (R276). -/
def State.postEvent (s : State) (k kind part code payload : Nat) : State :=
  let s' := s.postEntry k (eventBytes s kind part code (s.hif.rings.get k).eseq payload)
  { s' with hif.rings := s'.hif.rings.upd k fun r => { r with eseq := r.eseq + 1 } }

/-- Once the ring has room, one events-lost record covers every loss of the function (R277). -/
def State.flushLost (s : State) (f : Fin 16) : State :=
  let n := s.hif.fns.get f.val
  match s.eventRing f with
  | some k =>
    if n.lost == 0 then s
    else
      let s' := s.postEvent k 0x04 0 0 (n.lost + n.lostFirst * 2 ^ 32 + n.lostLast * 2 ^ 96)
      { s' with hif.fns := s'.hif.fns.upd f.val fun n => { n with lost := 0, lostFirst := 0, lostLast := 0 } }
  | none => s

/-- Writes an event record to function `f`'s bound event ring, or counts it lost (R277). -/
def State.event (s0 : State) (f : Fin 16) (kind part code payload : Nat) : State :=
  let s := s0.flushLost f
  match s.eventRing f with
  | some k => s.postEvent k kind part code payload
  | none =>
    { s with hif.fns := s.hif.fns.upd f.val fun n =>
        { n with lost := satAdd 0xFFFFFFFF n.lost 1,
                 lostFirst := if n.lost == 0 then s.frameStamp else n.lostFirst,
                 lostLast := s.frameStamp } }

/-- A block event of a device block on PF0's event ring (KIND 0x07); a payload that the block's chapter does not give is a free value (log entry 9). -/
def State.blockEvent (s : State) (code : Nat) (payload : Option Nat := none) : State :=
  match payload with
  | some x => s.event 0 0x07 0 code x
  | none => let (x, s) := s.draw 256; s.event 0 0x07 0 code x.toNat

/-- The function that serves partition `p` (R255). -/
def partFn (p : Nat) : Fin 16 := Fin.ofNat 16 p

/-! ### Status replies (R266 to R269) -/

/-- What a command answers: status, DETAIL and result words, and an extended result where its chapter names one. -/
structure Rep where
  status : Nat := 0
  detail : Nat := 0
  r0 : Nat := 0
  r1 : Nat := 0
  r2 : Nat := 0
  ext : Option (List Byte) := none
deriving DecidableEq, Repr, Inhabited

/-- The 32 bytes of a status reply (R268, Table 7). -/
def replyBytes (s : State) (h : Hdr) (r : Rep) : List Byte :=
  leBytes 32 (pack [(0, 12, h.tag.toNat), (16, 16, r.status), (32, 32, h.seq.toNat), (64, 32, r.detail),
    (96, 64, s.now.toNat), (160, 32, r.r0), (192, 32, r.r1), (224, 32, r.r2)])

/-- The status ring paired with the command ring of `h`. -/
def State.statusRing (s : State) (h : Hdr) : Nat := s.devRing h.fn (s.hif.rings.get (s.devRing h.fn h.ring.toNat)).pair.toNat

/-- Writes the status entry, if the paired status ring can take it; a ring in error or disabled takes nothing (R262). -/
def State.postReply (s : State) (h : Hdr) (r : Rep) : State :=
  let k := s.statusRing h
  let g := s.hif.rings.get k
  if g.type == 2 && g.canPost then s.postEntry k (replyBytes s h r) else s

/-- The commands of the ring of `h` that have no reply yet. -/
def State.heldOn (s : State) (h : Hdr) : List Held := s.hif.held.filter fun c => c.h.fn == h.fn && c.h.ring == h.ring

/-- A session that stops is closed once every earlier command is answered; a waiting CLOSE_SESSION is then answered (R274). -/
def State.closeDrained (s : State) (h : Hdr) : State :=
  let k := s.devRing h.fn h.ring.toNat
  let e := s.hif.sessions.get k
  match e.closing with
  | some c =>
    if (s.heldOn h).all fun x => x.h == c then
      let s := { s with hif.held := s.hif.held.filter (fun x => !(x.h == c)), hif.sessions := s.hif.sessions.set k {} }
      s.postReply c {}
    else s
  | none => if e.draining && (s.heldOn h).isEmpty then { s with hif.sessions := s.hif.sessions.set k {} } else s

/-- The command's reply is written (its extended result before it), its tag becomes free, and a waiting CLOSE_SESSION may end (R268, R269, R274). -/
def State.reply (s : State) (h : Hdr) (r : Rep) : State :=
  let k := s.devRing h.fn h.ring.toNat
  let s := match r.ext with
    | some bs => s.wr ((s.hif.sessions.get k).resultBase.toNat + 256 * h.tag.toNat) (padTo 256 bs)
    | none => s
  let s := s.postReply h r
  ({ s with hif.held := s.hif.held.filter fun x => !(x.h == h) }).closeDrained h

/-- A reply to a command that may have none left: one abandoned by a Function Level Reset (R275). -/
def State.replyOpt (s : State) (h : Option Hdr) (r : Rep) : State :=
  match h with
  | some h => s.reply h r
  | none => s

/-- What a command comes to: an effect with its reply, a refusal with a status and DETAIL, or an effect whose reply follows later. -/
inductive Ans where
  | ok (s : State) (r : Rep)
  | no (status : Nat) (detail : Nat)
  | later (s : State)

/-- RESULT_AREA (R273). -/
def stResultArea : Nat := 0x0003

/-- The session of the command's ring has a result area. -/
def State.hasResult (s : State) (h : Hdr) : Bool :=
  (s.hif.sessions.get (s.devRing h.fn h.ring.toNat)).resultBase != 0

/-- Carries out a command's answer: a refusal changes nothing but its reply. After SUP_HALTED a command of the firmware gets no reply (R437). -/
def finish (h : Hdr) (fast : Bool) (s : State) (a : Ans) : Out :=
  if s.saf.supHalted && !fast then .next s
  else match a with
    | .ok s' r => if r.ext.isSome && !s.hasResult h then .next (s.reply h { status := stResultArea }) else .next (s'.reply h r)
    | .no st d => .next (s.reply h { status := st, detail := d })
    | .later s' => .next s'

/-- A command carried out by the firmware (R272). -/
def firmware (h : Hdr) (s : State) (a : Ans) : Out := finish h false s a

/-- A command carried out by the hardware fast path (R272). -/
def fastPath (h : Hdr) (s : State) (a : Ans) : Out := finish h true s a

/-- Chooses the first refusal whose condition holds, else the effect (R533). -/
def checks (cs : List (Bool × Nat)) (k : Ans) : Ans :=
  match cs.find? (·.1) with
  | some c => .no c.2 0
  | none => k

end Sys2Proof.Machine
end

