-- ==== Sys2Proof/Machine/Record.lean ====
section
/-! DEFINITION. The journal's records (R242 to R245) and the capture of trace records and triggers (R493 to R501). -/

namespace Sys2Proof.Machine

/-! ### Journal -/

/-- Bytes of the data area whose record the host has not consumed (R245). -/
def State.journalHeld (s : State) : Nat :=
  let g := s.hif.rings.get s.jrn.j.ring
  (s.jrn.j.held.filter fun p => decide ((BitVec.ofNat 32 p.1 - g.head).toNat < 2 ^ 31)).foldl (fun a p => a + p.2) 0

/-- A record and a payload of `n` bytes find room. -/
def State.journalRoom (s : State) (n : Nat) : Bool :=
  let g := s.hif.rings.get s.jrn.j.ring
  g.type == 4 && g.canPost && decide (s.journalHeld + n ≤ s.jrn.j.bytes)

/-- The payload written at the data area's write position, wrapping at its end. -/
def State.journalData (s : State) (bs : List Byte) : State :=
  let j := s.jrn.j
  let n := min bs.length (j.bytes - j.wpos)
  let s := (s.wr (j.base + j.wpos) (bs.take n)).wr j.base (bs.drop n)
  { s with jrn.j.wpos := if j.bytes = 0 then 0 else (j.wpos + bs.length) % j.bytes }

/-- Writes one journal record with its payload; the room is there (R243). -/
def State.journalPost (s : State) (kind point srcSeq fields : Nat) (data : List Byte) (hasData : Bool) : State :=
  let j := s.jrn.j
  let g := s.hif.rings.get j.ring
  let crc := if hasData then crc32c data else 0
  let df := if hasData then j.wpos * 2 ^ 256 + data.length * 2 ^ 320 else 0
  let rec_ := pack [(0, 8, kind), (8, 8, point), (32, 32, j.jseq.toNat), (64, 32, s.pln.frameCount.toNat), (96, 32, s.pln.frameTick),
    (128, 32, srcSeq), (160, 32, crc)] + fields * 2 ^ 256 + df
  let s := if hasData then s.journalData data else s
  let s := s.postEntry j.ring (leBytes 64 rec_)
  { s with jrn.j.jseq := j.jseq + 1,
           jrn.j.held := (j.held.filter fun p => decide ((BitVec.ofNat 32 p.1 - g.head).toNat < 2 ^ 31)) ++
             (if hasData then [(g.tail.toNat, data.length)] else []) }

/-- Once the ring has room, and the data area room for the longest payload that was lost, one GAP record covers every loss, with a JOURNAL_LOST event
(R245, R251). R245 gives no amount of room (DESIGN CHOICE, log entry 102). -/
def State.journalGap (s : State) : State :=
  let j := s.jrn.j
  if j.isOpen && j.lost != 0 && s.journalRoom (min j.lostBytes j.bytes) then
    let s := s.journalPost 0x08 0 0 (j.lost + j.lostFirst * 2 ^ 32 + j.lostLast * 2 ^ 96) [] false
    let s := { s with jrn.j.lost := 0, jrn.j.lostFirst := 0, jrn.j.lostLast := 0, jrn.j.lostBytes := 0 }
    s.event 0 0x05 0 0x0047 j.jseq.toNat
  else s

/-- POINT of a record (R243). -/
def JRec.point (r : JRec) : Nat := if r.kind = 4 || r.kind = 5 then 0 else r.sub

/-- Bytes of the mirrored payload. -/
def JRec.bytes (r : JRec) : Nat := (r.data.map List.length).getD 0

/-- A record's place among those of its tick (R244): inputs and markers by point, tally operations by tally, remote records by port, job starts by job,
time reads by rod. -/
def JRec.rank (r : JRec) : Nat := (match r.kind with | 2 | 3 => 0 | 4 => 1 | 7 => 2 | 5 => 3 | _ => 4) * 2 ^ 16 + r.sub

/-- A record is written, or lost (R242, R245). -/
def State.journalOut (s0 : State) (r : JRec) : State :=
  let s := s0.journalGap
  let j := s.jrn.j
  if j.lost == 0 && s.journalRoom r.bytes then s.journalPost r.kind r.point r.srcSeq r.fields (r.data.getD []) r.data.isSome
  else
    let st := s.pln.frameCount.toNat % 2 ^ 32 + s.pln.frameTick * 2 ^ 32
    { s with jrn.j := { j with lost := satAdd 0xFFFFFFFF j.lost 1, lostFirst := if j.lost == 0 then st else j.lostFirst, lostLast := st,
                               lostBytes := max j.lostBytes r.bytes } }

/-- An influence admitted in tick `at_` gets its record, which that tick's end writes (R242, R244). `data` is the mirrored payload, if it has one.
Nothing is recorded before START or after STOP. -/
def State.journalAt (s : State) (at_ kind sub srcSeq fields : Nat) (data : Option (List Byte) := none) : State :=
  if s.jrn.j.isOpen && s.jrn.j.started then
    { s with jrn.j.batch := s.jrn.j.batch ++ [{ kind := kind, sub := sub, srcSeq := srcSeq, fields := fields, data := data, at_ := at_ }] }
  else s

def State.journal (s : State) (kind sub srcSeq fields : Nat) (data : Option (List Byte) := none) : State := s.journalAt s.tick kind sub srcSeq fields data

/-- The records of the tick in hand are written in the order of R244. -/
def State.journalFlush (s : State) : State :=
  let b := s.jrn.j.batch
  let s := { s with jrn.j.batch := b.filter fun r => decide (s.tick < r.at_) }
  ((b.filter fun r => decide (r.at_ ≤ s.tick)).insertionSort fun x y => x.rank ≤ y.rank).foldl State.journalOut s

/-- A record of no influence: START, STOP. -/
def State.journalMark (s : State) (kind fields : Nat) : State :=
  if s.jrn.j.isOpen && s.jrn.j.started then s.journalOut { kind := kind, sub := 0, srcSeq := 0, fields := fields, data := none, at_ := s.tick } else s

/-- The plan stops: the records of its last tick, then STOP; what is admitted for a later tick gets no record (R242, R244). -/
def State.journalStop (s : State) : State :=
  let s := s.journalFlush.journalMark 0x09 0
  { s with jrn.j.started := false, jrn.j.batch := [] }

/-- The tick after JOURNAL_CLOSE writes STOP, and the journal is closed (R251). -/
def State.journalEnd (s : State) : State :=
  if s.jrn.j.closing then { ({ s with jrn.j.started := true }.journalStop) with jrn.j := {} } else s

/-! ### Trace -/

/-- Trace captures records: it is on and not frozen. -/
def Trc.capturing (t : Trc) : Bool := t.state == .armed || t.state == .post

/-- The GAP record a source owes (R497). -/
def TraceSrc.gap (q : TraceSrc) (src : Nat) : TraceRec :=
  { type := 8, source := src, stamp := q.lostLast, a := BitVec.ofNat 32 q.lost,
    b := BitVec.ofNat 32 (min 0xFFFFFFFF (q.lostLast - q.lostFirst).toNat) }

/-- A source whose FIFO has room again first writes its GAP record (R497). -/
def TraceSrc.flush (q : TraceSrc) (src : Nat) : TraceSrc :=
  if q.lost != 0 && decide (q.fifo.length < 64) then { q with fifo := q.fifo ++ [q.gap src], lost := 0 } else q

/-- A record put into its source's FIFO, or lost when the FIFO is full (R497). -/
def TraceSrc.push (q0 : TraceSrc) (r : TraceRec) : TraceSrc :=
  let q := q0.flush r.source
  if q.lost == 0 && decide (q.fifo.length < 64) then { q with fifo := q.fifo ++ [r] }
  else { q with lost := satAdd 0xFFFFFFFF q.lost 1, lossSeen := true,
                lostFirst := if q.lost == 0 then r.stamp else q.lostFirst, lostLast := r.stamp }

/-- A source at `level` or above captures a record in the tick in hand (R495, R496). -/
def State.trace (s : State) (src level type : Nat) (a b : Nat) : State :=
  let q := s.trc.srcs.get src
  if s.trc.capturing && decide (level ≤ q.level.toNat) then
    let q' := q.push { type := type, source := src, stamp := s.trc.stamp, a := BitVec.ofNat 32 a, b := BitVec.ofNat 32 b }
    let newLoss := decide (q.lost < q'.lost) || (q.lost != 0 && q'.lost != 0)
    { s with trc.srcs := s.trc.srcs.set src q',
             trc.lost := if newLoss then satInc s.trc.lost else s.trc.lost, trc.lostBit := s.trc.lostBit || newLoss }
  else s

/-- The buffer freezes, with a TRACE_FROZEN event (R501). -/
def State.traceFreeze (s : State) : State := ({ s with trc.state := .frozen }).blockEvent 0xB006

/-- Another condition of the tick of the latest trigger: the trigger's cause is the lowest bit among them (R500). -/
def Trc.joinTrigger (t : Trc) (c code : Nat) : Trc :=
  match t.trig with
  | some r =>
    if r.stamp == t.stamp && decide (c < t.trigCause.toNat) then
      { t with trig := some { r with a := BitVec.ofNat 32 (c + code * 2 ^ 16) }, trigCause := BitVec.ofNat 8 c }
    else t
  | none => t

/-- A post phase of no records ends in the tick after the trigger (R501). -/
def State.traceDue (s : State) : State := if s.trc.state == .post && s.trc.postLeft == 0 then s.traceFreeze else s

/-- A trigger condition of cause bit `c` is met, with a fault code where the cause is a fault (R500, R501). -/
def State.trigger (s : State) (c code : Nat) : State :=
  let t := s.trc
  if t.state == .off || !bit t.trigMask.toNat c then s
  else if t.lastTrig == some s.tick then { s with trc := t.joinTrigger c code }
  else
    let cnt := t.trigCount + 1
    let rec_ : TraceRec := { type := 7, source := 127, stamp := t.stamp, a := BitVec.ofNat 32 (c + code * 2 ^ 16), b := cnt }
    let s := { s with trc.trigCount := cnt, trc.lastTrig := some s.tick }
    if t.mode == 2 then
      if t.state == .armed then
        { s with trc.trig := some rec_, trc.trigCause := BitVec.ofNat 8 c, trc.trigStamp := t.stamp, trc.state := .post, trc.postLeft := t.postCount }
      else s
    else if t.trig.isNone then { s with trc.trig := some rec_, trc.trigCause := BitVec.ofNat 8 c }
    else s

end Sys2Proof.Machine
end

