-- ==== Sys2Proof/Machine/Intake.lean ====
section
/-! DEFINITION. Intake points: buffers and slots, admission, absent-input markers, fill (R233 to R235, R297 to R301), and the watchdogs that
watch admissions and evaluations (R441). -/

namespace Sys2Proof.Machine

/-! ### Watchdogs -/

/-- Watchdog `e` trips, early or late, with the measured ticks (R440 to R442, R446). -/
def State.wdgTrip (s : State) (e : WdgEnt) (late : Bool) (ticks : Nat) (job : Option Nat := none) : State :=
  let s := { s with saf.wdgs := s.saf.wdgs.upd e.index fun r =>
    { r with lateSeen := r.lateSeen || late, earlySeen := r.earlySeen || !late, trips := if r.trips = 0xFFFF then r.trips else r.trips + 1 } }
  s.raise { code := if late then 0x0404 else 0x0403, job := job, detail := BitVec.ofNat 32 e.index, detail2 := BitVec.ofNat 32 ticks }

/-- An event that watchdogs of a kind and target watch: the gap since the previous one is judged, and the next is measured from it (R441). -/
def State.watchEvent (s : State) (kind target : Nat) : State :=
  ((s.pln.plan.map Plan.watchdogs).getD []).foldl (fun s e =>
    if e.kind == kind && e.target == target then
      let r := s.saf.wdgs.get e.index
      let s' := { s with saf.wdgs := s.saf.wdgs.set e.index { r with state := 2, last := s.tick } }
      if r.state == 2 && decide (s.tick - r.last < e.early) then s'.wdgTrip e false (s.tick - r.last)
      else if r.state == 0 then s else s'
    else s) s

/-! ### Points and slots -/

def State.point (s : State) (p : Nat) : Point := s.sns.points.get p
def State.updPoint (s : State) (p : Nat) (f : Point → Point) : State := { s with sns.points := s.sns.points.upd p f }

/-- The binding of a point in the loaded plan (R297). -/
def State.binding (s : State) (p : Nat) : Option Binding :=
  match s.pln.plan with
  | some pl => pl.bindings.find? fun b => b.point == p
  | none => none

/-- Bytes rounded up to whole lines. -/
def upLine (n : Nat) : Nat := cdiv n 64 * 64

/-- The downscale of a DS code (R292). -/
def dsOf (n : Nat) : Nat := 2 ^ n

/-- Fields of a camera descriptor (R292). -/
def camW (d : Nat) : Nat := fld d 32 16
def camH (d : Nat) : Nat := fld d 48 16
def camDs (d : Nat) : Nat := dsOf (fld d 23 2)
def camRois (d : Nat) : Nat := fld d 25 4
def camFmt (d : Nat) : Nat := fld d 18 5
/-- Bytes of a main plane and of a region plane (R300). -/
def camP (d : Nat) : Nat := upLine ((camW d / camDs d) * (camH d / camDs d) * (fmtBits (camFmt d) / 8))
def camQ (d : Nat) : Nat := upLine (fld d 96 16 * fld d 112 16 * (fmtBits (camFmt d) / 8))

/-- Bytes of the two lines injected for a data type (R308). -/
def injBytes (d : Nat) : Nat := if fld d 6 6 = 0x18 then 360 else 480

/-- Fields of a record descriptor (R309). -/
def recCbor (d : Nat) : Bool := bit d 0
def recFmt (d : Nat) : Nat := fld d 8 5
/-- Bytes of one plane of a record slot (R309). -/
def recP (d : Nat) : Nat := upLine (fld d 16 16 * fld d 32 16 * (fmtBits (recFmt d) / 8))

/-- SLOT_BYTES of a point (R300, R309, R334, R358, R378). -/
def State.slotBytes (s : State) (p : Nat) : Nat :=
  let d := (s.point p).desc.toNat
  if p < 32 then (if (s.point p).configured then 128 + 3 * camP d + 3 * camRois d * camQ d else 0)
  else if p < 64 then (if !(s.point p).configured then 0 else if recCbor d then 128 + recP d else 128 + 3 * recP d)
  else if p < 192 then 192
  else if p < 208 then 256
  else upLine (192 + (s.eth.macs.get ((p - 208) / 4)).maxFrame)

/-- The address of a point's slot 0 (R297). -/
def State.slotBase (s : State) (p : Nat) : Nat :=
  let d := (s.point p).desc.toNat
  if p < 32 then fld d 128 48
  else if p < 64 then fld d 768 48
  else if p < 192 then fld (s.cle.loops.get (p - 64)).desc.toNat 832 48
  else if p < 208 then (Config.canBase (p - 192)).toNat
  else ((s.eth.macs.get ((p - 208) / 4)).queues.get ((p - 208) % 4)).base

/-- The address of slot `k` of point `p` (R297). -/
def State.slotAddr (s : State) (p k : Nat) : Nat := s.slotBase p + k * s.slotBytes p

/-- Slots in use: written, waiting for admission, admitted and not taken, held by the bound job, or free from the next tick only (R295, R297); and
in replay those placed ahead (R247). -/
def State.slotsUsed (s : State) (p : Nat) : List Nat :=
  let q := s.point p
  (q.frame.bind FrameRun.slot).toList ++ (q.decode.map DecodeRun.slot).toList ++ q.waiting.filterMap Arrival.slot ++
    q.arrivals.filterMap Arrival.slot ++ (s.pln.bounds.get p).slot.toList ++ (q.freed.filter fun f => f.2 == s.tick).map Prod.fst ++
    s.jrn.r.ahead.filterMap fun a => if fld a.rec_ 8 8 = p then a.slot else none

/-- Slots of a point become free in the next tick (R295, R297). -/
def State.freeNext (s : State) (p : Nat) (ks : List Nat) : State :=
  if ks = [] then s
  else s.updPoint p fun q => { q with freed := (q.freed.filter fun f => f.2 == s.tick) ++ ks.map fun k => (k, s.tick) }

/-- The lowest free slot (R297). -/
def State.freeSlot (s : State) (p : Nat) : Option Nat :=
  match s.binding p with
  | some b => (List.range b.depth).find? fun k => !(s.slotsUsed p).contains k
  | none => none

/-- Inputs of the point may be admitted: the plan runs, binds the point, and is not in replay (R234, R247, R298). -/
def State.pointLive (s : State) (p : Nat) : Bool := s.pln.state == .running && (s.binding p).isSome && !s.jrn.r.running

/-- The slot header (R300, Table 4). -/
def slotHeader (p : Nat) (trunc filled : Bool) (roiValid seq frame tick missing w h csi rois : Nat) : List Byte :=
  leBytes 128 (pack [(0, 8, p), (8, 1, b2n trunc), (9, 1, b2n filled), (16, 8, roiValid), (32, 32, seq), (64, 32, frame), (96, 32, tick),
    (128, 32, missing), (160, 16, w), (176, 16, h), (192, 16, csi), (512, 512, rois)])

/-- A dropped snapshot of a loop is counted in its SNAP_DROPS (R298, R334). -/
def State.dropSnap (s : State) (p : Nat) : State := { s with cle.loops := s.cle.loops.upd (p - 64) fun l => { l with snapDrops := satInc l.snapDrops } }

/-- A counted drop of a point. -/
def State.dropOther (s : State) (p : Nat) : State :=
  if within 64 191 p then s.dropSnap p else s.updPoint p fun q => { q with dropOther := satInc q.dropOther }
def State.dropFull (s : State) (p : Nat) : State :=
  if within 64 191 p then s.dropSnap p else s.updPoint p fun q => { q with dropFull := satInc q.dropFull }
def State.dropRate (s : State) (p : Nat) : State := s.updPoint p fun q => { q with dropRate := satInc q.dropRate }

/-- An input written whole into slot `k` goes toward the plan island (R234). -/
def State.release (s : State) (p k seq : Nat) : State :=
  s.updPoint p fun q => { q with waiting := q.waiting ++ [{ slot := some k, seq := seq }], srcSeq := BitVec.ofNat 32 seq }

/-- A whole input of a point outside the cameras and records: a slot is claimed and written, or the drop counted (R298, R334, R358, R378).
`body` is what follows the slot header. -/
def State.offer (s : State) (p seq w : Nat) (body : List Byte) : Bool × State :=
  let s := s.updPoint p fun q => { q with srcSeq := BitVec.ofNat 32 seq }
  if !s.pointLive p then (false, s.dropOther p)
  else match s.freeSlot p with
    | none => (false, s.dropFull p)
    | some k =>
      let s := s.wr (s.slotAddr p k) (slotHeader p false false 0 seq 0 0 0 w 0 0 0 ++ padTo (s.slotBytes p - 128) body)
      (true, s.release p k seq)

/-- An absent-input marker is admitted (R235, R311, R315). -/
def State.absent (s : State) (p seq reason : Nat) : State :=
  if s.pointLive p then
    let s := s.updPoint p fun q => { q with absent := satInc q.absent, arrivals := q.arrivals ++ [{ slot := none, seq := seq, reason := reason, at_ := s.tick }] }
    s.journal 0x03 p seq (reason % 65536)
  else s.dropOther p

/-- An admitted input's stamp in its slot, its place among the arrivals, its journal record and its watchdogs (R234, R242, R314, R441). -/
def State.admitAt (s : State) (p : Nat) (a : Arrival) : State :=
  let fr := s.pln.frameCount.toNat % 2 ^ 32
  let s := match a.slot with
    | some k => s.wr (s.slotAddr p k + 8) (leBytes 4 fr ++ leBytes 4 s.pln.frameTick)
    | none => s
  let s := s.updPoint p fun q =>
    { q with admitted := satInc q.admitted, arrivals := q.arrivals ++ [{ a with frame := fr, tick := s.pln.frameTick, at_ := s.tick }], lastAdm := some s.tick,
             truncated := if a.trunc then satInc q.truncated else q.truncated }
  let data := match a.slot with | some k => s.rd (s.slotAddr p k + 128) (s.slotBytes p - 128) | none => []
  (s.journal 0x02 p a.seq 0 (some data)).watchEvent 2 p

/-- The input that waits longest at the point is admitted, or dropped while the plan is not RUNNING; a point admits one input in a tick (R234). -/
def State.admitInput (s : State) (p : Nat) : State :=
  let q := s.point p
  match q.waiting with
  | [] => s
  | a :: t =>
    let s' := s.updPoint p fun q => { q with waiting := t }
    if !s.pointLive p then s'.dropOther p
    else if q.lastAdm = some s.tick then s
    else s'.admitAt p a

/-- Elements of FILL[c] over a plane of `n` bytes. -/
def fillPlane (fmt v n : Nat) : List Byte := (List.replicate (n / (fmtBits fmt / 8)) (leBytes (fmtBits fmt / 8) v)).flatten ++ List.replicate (n % (fmtBits fmt / 8)) 0

/-- The body of a filled slot (R301). -/
def State.fillBody (s : State) (p : Nat) : List Byte :=
  let d := (s.point p).desc.toNat
  let f := fun c => fld d (704 + 16 * c) 16
  if p < 32 then
    (List.range 3).flatMap (fun c => fillPlane (camFmt d) (f c) (camP d)) ++
      ((List.range (camRois d)).flatMap fun _ => (List.range 3).flatMap fun c => fillPlane (camFmt d) (f c) (camQ d))
  else if p < 64 then
    if recCbor d then fillPlane (recFmt d) (fld d 704 (fmtBits (recFmt d))) (recP d) else (List.range 3).flatMap fun c => fillPlane (recFmt d) (f c) (recP d)
  else List.replicate (s.slotBytes p - 128) 0

/-- The bound job holds another input of the point: the slot held until now is free from the next tick (R214, R297). -/
def State.holdInput (s : State) (p : Nat) (b : Bound) : State :=
  ({ s with pln.bounds := s.pln.bounds.set p b }).freeNext p ((s.pln.bounds.get p).slot.toList.filter fun k => b.slot != some k)

/-- The fill policy writes the lowest free slot of the point, which the run then holds (R214, R301). -/
def State.fillSlot (s : State) (p : Nat) : State :=
  match s.freeSlot p with
  | none => s
  | some k =>
    let seq := (s.point p).srcSeq.toNat
    let s := s.wr (s.slotAddr p k) (slotHeader p false true 0 seq s.frameNow.1 s.frameNow.2 0 0 0 0 0 ++ s.fillBody p)
    s.holdInput p { slot := some k, srcSeq := seq }

/-- The inputs and markers that a release at this beam may take: those admitted before the beam's tick (R214, R234). -/
def State.taken (s : State) (p : Nat) : List Arrival := (s.point p).arrivals.filter fun a => decide (a.at_ < s.tick)

/-- Slot and sequence number of the newest of them; none where it is an absent-input marker. -/
def State.newest (s : State) (p : Nat) : Option (Nat × Nat) := (s.taken p).getLast?.bind fun a => a.slot.map fun k => (k, a.seq)

/-- A binding resolves to skip (R214). -/
def State.skips (s : State) (b : Binding) : Bool := (s.newest b.point).isNone && b.policy == 2

/-- The inputs of the interval leave the point; those but `keep` are superseded, and their slots free from the next tick (R214, R297). -/
def State.supersede (s : State) (p : Nat) (keep : Option Nat) : State :=
  let gone := ((s.taken p).filterMap Arrival.slot).filter fun k => keep != some k
  (s.updPoint p fun q =>
    { q with arrivals := q.arrivals.filter (fun a => decide (s.tick ≤ a.at_)),
             superseded := BitVec.ofNat 32 (satAdd 0xFFFFFFFF q.superseded.toNat gone.length) }).freeNext p gone

/-- A binding at a skipped release: the held input stays held. The newest input of another binding is not bound either, and is superseded with
the older ones: R214 does not say what becomes of it (DESIGN CHOICE, log entry 103). -/
def State.skipInput (s : State) (b : Binding) : State := s.supersede b.point none

/-- A binding at a release that runs (R214): it takes the newest input, reuses the held one, or holds a fill. -/
def State.resolve (s : State) (b : Binding) (hadRun : Bool) : State :=
  let p := b.point
  match s.newest p with
  | some (k, seq) => (s.supersede p (some k)).holdInput p { slot := some k, srcSeq := seq }
  | none =>
    let s := s.supersede p none
    if b.policy == 0 && hadRun then s else s.fillSlot p

end Sys2Proof.Machine
end

