-- ==== Sys2Proof/Machine/TimeBase.lean ====
section
/-! DEFINITION. The time base: steps, rate, slew, pins and captures (R343 to R353, R364). -/

namespace Sys2Proof.Machine

/-- A time value as TIME_READ's three result words (R364). -/
def timeRep (t : BitVec 96) : Rep := { r0 := fld t.toNat 0 16, r1 := fld t.toNat 16 32, r2 := fld t.toNat 48 32 }

/-- Seconds, nanoseconds and a 16-bit fraction in units of 2^-40 ns (R343, R346). -/
def timeUnits (sec : Int) (ns frac : Nat) : Int := (sec * 1000000000 + ns) * 2 ^ 40 + frac * 2 ^ 24

/-- The comparators' late rule (R350): a target at or before NOW as it is armed sets CMP_LATE. -/
def State.armLate (s : State) (t : BitVec 64) : State :=
  if atOrLater 64 s.now.toNat t.toNat then { s with tim.cmpLate := true } else s

/-- A step by `off` (R346): the first is free; a later one above JUMP_LIMIT is refused and reported. -/
def State.stepTime (s : State) (off : Int) : Bool × State :=
  if s.tim.stepped && decide ((s.tim.jumpLimit.toNat : Int) * 2 ^ 40 < |off|) then
    (false, ({ s with tim.jumpRefused := true, tim.refused := satInc s.tim.refused }).blockEvent 0x7002)
  else (true, { s with tim.time := (((s.tim.time : Int) + off) % (timeMod : Int)).toNat, tim.stepped := true })

/-- A step command's answer. -/
def stepAns (r : Bool × State) : Ans := if r.1 then .ok r.2 {} else .ok r.2 { status := 0x7002 }

/-- TIME_SET (R346, R364). -/
def doTimeSet (h : Hdr) (frac : BitVec 16) (ns : Word) (sec : BitVec 64) (s : State) : Ans :=
  checks [(h.fn != 0, 0x7001), (decide (1000000000 ≤ ns.toNat), 0x7005)]
    (stepAns (s.stepTime (timeUnits (sec.toNat % 2 ^ 48) ns.toNat frac.toNat - s.tim.time)))

def execTimeSet (h : Hdr) (frac : BitVec 16) (ns : Word) (sec : BitVec 64) (s : State) : Out := firmware h s (doTimeSet h frac ns sec s)

/-- TIME_STEP (R346, R364). -/
def doTimeStep (h : Hdr) (frac : BitVec 16) (ns : Word) (sec : BitVec 64) (s : State) : Ans :=
  checks [(h.fn != 0, 0x7001), (decide (1000000000 ≤ ns.toNat) || decide (sec.toInt < -(2 ^ 47)) || decide (2 ^ 47 ≤ sec.toInt), 0x7005)]
    (stepAns (s.stepTime (timeUnits sec.toInt ns.toNat frac.toNat)))

def execTimeStep (h : Hdr) (frac : BitVec 16) (ns : Word) (sec : BitVec 64) (s : State) : Out := firmware h s (doTimeStep h frac ns sec s)

/-- An increment within 1,000 ppm (R344). -/
def rateOk (x : Int) : Bool := decide (|x - 2 ^ 41| ≤ 2199023255)

/-- TIME_RATE (R344, R345). -/
def doTimeRate (h : Hdr) (incr : BitVec 64) (s : State) : Ans :=
  checks [(h.fn != 0, 0x7001),
          (!rateOk incr.toNat || (s.tim.slewLeft != 0 && !rateOk (incr.toNat + s.tim.slewRate.toInt)), 0x7003)]
    (.ok { s with tim.incr := incr.setWidth 48 } {})

def execTimeRate (h : Hdr) (incr : BitVec 64) (s : State) : Out := firmware h s (doTimeRate h incr s)

/-- TIME_SLEW (R345): COUNT = 0 ends the slew that runs. -/
def doTimeSlew (h : Hdr) (rate count : Word) (s : State) : Ans :=
  if h.fn ≠ 0 then .no 0x7001 0
  else if count = 0 then .ok { s with tim.slewLeft := 0 } {}
  else checks [(!rateOk (s.tim.incr.toNat + rate.toInt), 0x7003), (s.tim.slewLeft != 0, 0x7004)]
    (.ok { s with tim.slewRate := rate, tim.slewLeft := count } {})

def execTimeSlew (h : Hdr) (rate count : Word) (s : State) : Out := firmware h s (doTimeSlew h rate count s)

/-- SLEW_END (R345): the slew's COUNT cycles are over, and it has moved the time by SLEW_RATE × COUNT in all. -/
def execSlewEnd (s : State) : Out :=
  .next { s with tim.time := (((s.tim.time : Int) + s.tim.slewRate.toInt * s.tim.slewLeft.toNat) % (timeMod : Int)).toNat, tim.slewLeft := 0 }

/-- TIME_READ (R349). -/
def execTimeRead (h : Hdr) (s : State) : Out := firmware h s (.ok s (timeRep (time96 s.tim.time)))

/-- The parameters a pin and mode allow (R352, Table 1). -/
def pinParamsOk (pin mode edge : Nat) (at_ period width : Nat) : Bool :=
  let widthOk := decide (10 ≤ width) && decide (width ≤ 999999990)
  if pin ≤ 3 then
    decide (mode ≤ 3) && (mode != 1 || decide (edge ≤ 1)) && (mode != 2 || widthOk) &&
      (mode != 3 || (decide (1000 ≤ period) && decide (period ≤ 1000000000) && decide (10 ≤ width) && decide (width + 10 ≤ period)))
  else if pin = 4 then decide (mode ≤ 1) && (mode != 1 || decide (edge ≤ 1)) && at_ == 0 && period == 0 && width == 0
  else pin == 5 && decide (mode ≤ 1) && edge == 0 && at_ == 0 && period == 0 && (mode == 0 || widthOk)

/-- TIME_PIN_CONFIG (R352): a pulse mode arms its comparator, an output that is off is low. -/
def doTimePinConfig (h : Hdr) (pin mode edge : Byte) (at_ : BitVec 64) (period width : Word) (s : State) : Ans :=
  let pulse := decide (pin.toNat ≤ 3) && decide (2 ≤ mode.toNat)
  checks [(h.fn != 0, 0x7001), (!pinParamsOk pin.toNat mode.toNat edge.toNat at_.toNat period.toNat width.toNat, 0x7005)]
    (let s := if pulse then s.armLate at_ else s
     .ok { s with tim.pins := s.tim.pins.upd pin.toNat fun q =>
            { q with mode := mode.setWidth 2, edge := edge = 1, at_ := at_, period := period, width := width,
                     level := false, armed := pulse, target := at_ } } {})

def execTimePinConfig (h : Hdr) (pin mode edge : Byte) (at_ : BitVec 64) (period width : Word) (s : State) : Out :=
  firmware h s (doTimePinConfig h pin mode edge at_ period width s)

/-- TIME_CAPTURE (R353, R364): the oldest capture of an input pin. -/
def doTimeCapture (h : Hdr) (pin : Byte) (s : State) : Ans :=
  let q := s.tim.pins.get pin.toNat
  checks [(h.fn != 0, 0x7001), (decide (4 < pin.toNat), 0x7005)]
    (match q.fifo with
     | [] => .no 0x7006 0
     | t :: rest => .ok { s with tim.pins := s.tim.pins.set pin.toNat { q with fifo := rest } } { timeRep (time96 t) with detail := rest.length })

def execTimeCapture (h : Hdr) (pin : Byte) (s : State) : Out := firmware h s (doTimeCapture h pin s)

/-- The reset that completed last was a warm one (R488, Table 9). -/
def Pwr.warm (p : Pwr) : Bool := decide (2 ≤ p.cause.toNat) && decide (p.cause.toNat ≤ 4)

/-- JUMP_LIMIT as settings that become active leave it (R347): theirs after a power-on reset, the lower of the two after a warm one. -/
def State.settledLimit (s : State) (l : Word) : Word := if s.pwr.warm && decide (s.tim.jumpLimit.toNat ≤ l.toNat) then s.tim.jumpLimit else l

/-- TIME_JUMP_LIMIT (R347): the limit may only fall. -/
def doTimeJumpLimit (h : Hdr) (limit : Word) (s : State) : Ans :=
  checks [(h.fn != 0, 0x7001), (decide (s.tim.jumpLimit.toNat < limit.toNat), 0x7005)] (.ok { s with tim.jumpLimit := limit } {})

def execTimeJumpLimit (h : Hdr) (limit : Word) (s : State) : Out := firmware h s (doTimeJumpLimit h limit s)

/-- TIM_NOW_FRAC_READ (R349): the read latches all 96 bits and returns the fraction. A VF's BAR0 does not hold the register (R257). -/
def execTimNowFracRead (fn : Fin 16) (s : State) : Out :=
  let t := time96 s.tim.time
  if fn ≠ 0 then .next { s with hif.cpl := { data := leBytes 4 0 } } else .next { s with tim.latch := t, hif.cpl := { data := leBytes 4 (fld t.toNat 0 16) } }

/-- A pin output's comparator fires (R350, R352): a pulse rises at its target and falls WIDTH later; mode 3 arms the next rise. -/
def State.pinFire (s : State) (p : Nat) : State :=
  let q := s.tim.pins.get p
  if q.armed && atOrLater 64 s.now.toNat q.target.toNat then
    let w := BitVec.ofNat 64 q.width.toNat
    let q' := if !q.level then { q with level := true, target := q.target + w }
      else if p ≤ 3 && q.mode == 3 then { q with level := false, target := q.target - w + BitVec.ofNat 64 q.period.toNat }
      else { q with level := false, armed := false }
    { s with tim.pins := s.tim.pins.set p q' }
  else s

/-- PPS_OUT_PULSE (R352): at a second boundary PPS_OUT rises for WIDTH. -/
def execPpsOutPulse (s : State) : Out :=
  let q := s.tim.pins.get 5
  if q.mode = 1 then
    .next { s with tim.pins := s.tim.pins.set 5 { q with level := true, armed := true, target := s.now + BitVec.ofNat 64 q.width.toNat } }
  else .next s

/-- The time of the first of the two cycles after which a pin change is accepted (R353): one time-clock cycle ago. -/
def State.edgeTime (s : State) : Nat :=
  let d : Int := s.tim.incr.toNat + (if s.tim.slewLeft = 0 then 0 else s.tim.slewRate.toInt)
  (((s.tim.time : Int) - d) % (timeMod : Int)).toNat

/-- A pending START_PLAN or CLE_START of mode 2 sees a rising edge of its pin, whatever the pin's MODE (R353). -/
def State.seeEdge (s : State) (p : Nat) : State :=
  { s with pln.start := s.pln.start.map (fun q => if q.mode = 2 && q.pin = p then { q with seen := true } else q),
           cle.start := s.cle.start.map (fun q => if q.mode = 2 && q.pin = p then { q with seen := true } else q) }

/-- TIME_PIN_EDGE (R353, R500): a stable change on a pin is captured by an input pin of that edge, and a rising edge of the
trigger pin triggers the trace. -/
def execTimePinEdge (p : Fin 6) (level : Bool) (s : State) : Out :=
  let q := s.tim.pins.get p.val
  let s := if p.val ≤ 4 && q.mode == 1 && q.edge != level then
      if q.fifo.length < 4 then { s with tim.pins := s.tim.pins.set p.val { q with fifo := q.fifo ++ [s.edgeTime] } }
      else { s with tim.pins := s.tim.pins.set p.val { q with lost := satInc q.lost }, tim.capLost := true }
    else s
  let s := if level then s.seeEdge p.val else s
  .next (if level && p.val ≤ 3 && s.trc.trigPin == p.val then s.trigger 5 0 else s)

end Sys2Proof.Machine
end

