-- ==== Sys2Proof/Machine/Can.lean ====
section
/-! DEFINITION. CAN FD controllers (R367 to R385). -/

namespace Sys2Proof.Machine

def State.ctl (s : State) (c : Nat) : CanCtl := s.can.ctls.get c
def State.updCtl (s : State) (c : Nat) (f : CanCtl → CanCtl) : State := { s with can.ctls := s.can.ctls.upd c f }
def CanCtl.updMb (q : CanCtl) (b : Nat) (f : CanMb → CanMb) : CanCtl := { q with mbs := q.mbs.upd b f }

/-- Data bytes of a DLC code (R372). -/
def dlcLen (fdf : Bool) (dlc : Nat) : Nat :=
  if dlc ≤ 8 then dlc
  else if !fdf then 8
  else match dlc with | 9 => 12 | 10 => 16 | 11 => 20 | 12 => 24 | 13 => 32 | 14 => 48 | _ => 64

/-- A 96-byte message buffer image (R372, Table 3). -/
def canImage (f : CanFrame) (overrun : Bool) (seq : Nat) (stamp : BitVec 96) : BitVec 768 :=
  let n := dlcLen f.fdf f.dlc.toNat
  let id := if f.ide then f.id.toNat else f.id.toNat / 2 ^ 18 * 2 ^ 18
  BitVec.ofNat 768 (pack [(0, 29, id), (29, 1, b2n f.ide), (30, 1, b2n f.fdf), (31, 1, b2n f.brs), (32, 4, f.dlc.toNat), (36, 1, b2n f.esi),
    (37, 1, b2n overrun), (64, 32, seq), (96, 16, fld stamp.toNat 0 16), (128, 32, fld stamp.toNat 16 32), (160, 48, fld stamp.toNat 48 48),
    (256, 512, leNat (f.data.take n))])

/-- A configured loop of the CLE drives buffer or entry `b` of controller or MAC `x` (R335): output kind 2 CAN, 3 Ethernet. -/
def State.loopNames (s : State) (kind x b : Nat) (enabledOnly : Bool) : Bool :=
  s.cle.loops.cells.any fun c =>
    let d := c.2.desc.toNat
    c.2.configured && (c.2.enabled || !enabledOnly) && fld d 104 2 == kind && fld d 106 6 == x && fld d 736 16 == b

/-! ### Commands (R384) -/

/-- A launch handed over while the buffer's frame was on the bus takes the buffer, due at once when its time has come (R360, R379). -/
def State.canNext (s : State) (c b : Nat) : State :=
  match ((s.ctl c).mbs.get b).next with
  | none => s
  | some (img, t) =>
    let due := atOrLater 64 s.now.toNat t.toNat
    if due && s.jrn.r.running then
      s.updCtl c fun q => { (q.updMb b fun m => { m with img := img, next := none, pend := false, at_ := none }) with launchLate := satInc q.launchLate }
    else s.updCtl c fun q => q.updMb b fun m => { m with img := img, next := none, pend := due, at_ := some t }

/-- A launch's time plus LATE_NS has come (R380). -/
def State.launchOver (s : State) (c : Nat) (m : CanMb) : Bool :=
  m.at_.any fun t => atOrLater 64 s.now.toNat (t + BitVec.ofNat 64 (s.ctl c).lateNs).toNat

/-- A launch is withdrawn and counted (R380). -/
def State.withdraw (s : State) (c b : Nat) : State :=
  s.updCtl c fun q => { (q.updMb b fun m => { m with at_ := none, pend := false }) with launchLate := satInc q.launchLate }

/-- A frame on the bus is abandoned: it stays pending unless it is sent once only, its deadline has passed, or a newer launch waits, which counts it
late (R379, R380, R384). -/
def State.canFail (s : State) (c : Nat) : State :=
  match (s.ctl c).bus with
  | none => s
  | some (b, _) =>
    let m := (s.ctl c).mbs.get b
    let s := s.updCtl c fun q => { q with bus := none }
    if m.oneShot || m.stopping then
      let s := s.updCtl c fun q => q.updMb b fun m => { m with pend := false, at_ := none, h := none, abort := [], stopping := false }
      let s := match m.h with | some h => s.reply h { status := 0x7045 } | none => s
      (m.abort.foldl (fun s h => s.reply h { status := 0x7045 }) s).canNext c b
    else if m.next.isSome then
      (s.updCtl c fun q => { q with launchLate := if m.at_.isSome then satInc q.launchLate else q.launchLate }).canNext c b
    else if s.launchOver c m then s.withdraw c b
    else s

/-- CAN_CONFIG (R384): a change of mode abandons the frame on the bus, and modes 1 to 3 start bus integration. -/
def doCanConfig (h : Hdr) (ctrl mode : Byte) (lateNs minGap : Word) (s : State) : Ans :=
  let c := ctrl.toNat
  checks [(h.fn != 0, 0x7040), (decide (15 < c) || decide (3 < mode.toNat) || decide (10000000 < lateNs.toNat), 0x7041)]
    (let s := if (s.ctl c).mode.toNat = mode.toNat then s
        else (s.canFail c).updCtl c fun q => { q with mode := mode.setWidth 2, synced := false }
     .ok (s.updCtl c fun q => { q with lateNs := lateNs.toNat, minGap := minGap.toNat }) {})

def execCanConfig (h : Hdr) (ctrl mode : Byte) (lateNs minGap : Word) (s : State) : Out := firmware h s (doCanConfig h ctrl mode lateNs minGap s)

/-- Bit timing that R369 accepts: bit times in CAN cycles of 80 MHz. -/
def timingOk (nb n1 n2 nj db d1 d2 dj : Nat) : Bool :=
  let n := nb * (1 + n1 + n2)
  let d := db * (1 + d1 + d2)
  within 1 256 nb && within 2 256 n1 && within 2 128 n2 && within 1 128 nj && within 1 32 db && within 1 32 d1 && within 1 16 d2 && within 1 16 dj &&
    decide (nj ≤ n2) && decide (dj ≤ d2) && decide (80 ≤ n) && decide (10 ≤ d) && decide (d ≤ n)

/-- CAN_TIMING (R369, R371). -/
def doCanTiming (h : Hdr) (ctrl : Byte) (nBrp nTseg1 nTseg2 nSjw : BitVec 16) (dBrp dTseg1 dTseg2 dSjw tdco tdcEn : Byte) (s : State) : Ans :=
  let c := ctrl.toNat
  checks [(h.fn != 0, 0x7040),
          (decide (15 < c) || !timingOk nBrp.toNat nTseg1.toNat nTseg2.toNat nSjw.toNat dBrp.toNat dTseg1.toNat dTseg2.toNat dSjw.toNat ||
            decide (127 < tdco.toNat) || decide (1 < tdcEn.toNat), 0x7041),
          ((s.ctl c).mode != 0, 0x7042)]
    (.ok (s.updCtl c fun q => { q with
        nbt := BitVec.ofNat 32 (pack [(0, 8, nBrp.toNat - 1), (8, 8, nTseg1.toNat - 1), (16, 7, nTseg2.toNat - 1), (24, 7, nSjw.toNat - 1)]),
        dbt := BitVec.ofNat 32 (pack [(0, 5, dBrp.toNat - 1), (8, 5, dTseg1.toNat - 1), (16, 4, dTseg2.toNat - 1), (24, 4, dSjw.toNat - 1), (31, 1, tdcEn.toNat)]),
        tdco := tdco.setWidth 7, tdcFail := false }) {})

def execCanTiming (h : Hdr) (ctrl : Byte) (nBrp nTseg1 nTseg2 nSjw : BitVec 16) (dBrp dTseg1 dTseg2 dSjw tdco tdcEn : Byte) (s : State) : Out :=
  firmware h s (doCanTiming h ctrl nBrp nTseg1 nTseg2 nSjw dBrp dTseg1 dTseg2 dSjw tdco tdcEn s)

/-- CAN_FILTER_SET (R376). -/
def doCanFilterSet (h : Hdr) (ctrl index target buf ide : Byte) (value mask : Word) (s : State) : Ans :=
  checks [(h.fn != 0, 0x7040),
          (decide (15 < ctrl.toNat) || decide (31 < index.toNat) || decide (4 < target.toNat) || decide (63 < buf.toNat) || decide (1 < ide.toNat), 0x7041)]
    (.ok (s.updCtl ctrl.toNat fun q => { q with
        filters := q.filters.set index.toNat { target := target.toNat, buf := buf.toNat, ide := ide = 1, value := value, mask := mask } }) {})

def execCanFilterSet (h : Hdr) (ctrl index target buf ide : Byte) (value mask : Word) (s : State) : Out :=
  firmware h s (doCanFilterSet h ctrl index target buf ide value mask s)

/-- A transmit image that CAN_MB_SET accepts (R384). -/
def canImageOk (x : Nat) : Bool :=
  fld x 38 26 == 0 && fld x 112 16 == 0 && fld x 208 48 == 0 && (bit x 30 || (decide (fld x 32 4 ≤ 8) && !bit x 31))

/-- A transmit image as the buffer holds it: no sequence number, stamp or overrun, and no data beyond the length (R372). -/
def txImage (x : Nat) : BitVec 768 :=
  BitVec.ofNat 768 (x % 2 ^ 37 + fld x 256 (8 * dlcLen (bit x 30) (fld x 32 4)) * 2 ^ 256)

/-- CAN_MB_SET (R372, R379, R381). -/
def doCanMbSet (h : Hdr) (ctrl buf kind mode oneShot : Byte) (at_ src : BitVec 64) (s : State) : Ans :=
  let c := ctrl.toNat; let b := buf.toNat
  let img := s.rdN src.toNat 96
  let tx := kind = 2
  checks [(h.fn != 0, 0x7040),
          (decide (15 < c) || decide (63 < b) || decide (2 < kind.toNat) || decide (2 < mode.toNat) || decide (1 < oneShot.toNat), 0x7041),
          (tx && !(lineAligned src.toNat && s.hostMem 0 src.toNat 96), 0x7043),
          (tx && !canImageOk img, 0x7041),
          (s.loopNames 2 c b false || (s.ctl c).bus.any (fun x => x.1 == b), 0x7044)]
    (let old := (s.ctl c).mbs.get b
     let s := s.updCtl c fun q => { q with
        mbs := q.mbs.set b { kind := kind.setWidth 2, mode := mode.setWidth 2, oneShot := oneShot = 1, img := if tx then txImage img else 0,
                             at_ := if tx && mode = 1 then some at_ else none },
        lock := if q.lock = some b then none else q.lock }
     let s := if tx && mode = 1 then s.armLate at_ else s
     .ok (match old.h with | some g => s.reply g { status := 0x7045 } | none => s) {})

def execCanMbSet (h : Hdr) (ctrl buf kind mode oneShot : Byte) (at_ src : BitVec 64) (s : State) : Out :=
  firmware h s (doCanMbSet h ctrl buf kind mode oneShot at_ src s)

/-- CAN_MB_SEND (R379, R384). -/
def doCanMbSend (h : Hdr) (ctrl buf : Byte) (s : State) : Ans :=
  let m := (s.ctl ctrl.toNat).mbs.get buf.toNat
  checks [(h.fn != 0, 0x7040), (decide (15 < ctrl.toNat) || decide (63 < buf.toNat), 0x7041), (m.kind != 2 || m.mode != 0 || m.pend, 0x7042)]
    (.later (s.updCtl ctrl.toNat fun q => q.updMb buf.toNat fun m => { m with pend := true, h := some h }))

def execCanMbSend (h : Hdr) (ctrl buf : Byte) (s : State) : Out := firmware h s (doCanMbSend h ctrl buf s)

/-- CAN_MB_ABORT (R381). -/
def doCanMbAbort (h : Hdr) (ctrl buf : Byte) (s : State) : Ans :=
  let c := ctrl.toNat; let b := buf.toNat
  let m := (s.ctl c).mbs.get b
  checks [(h.fn != 0, 0x7040), (decide (15 < c) || decide (63 < b), 0x7041)]
    (if (s.ctl c).bus.any (fun x => x.1 == b) then
       .later (s.updCtl c fun q => q.updMb b fun m => { m with stopping := true, abort := m.abort ++ [h], next := none })
     else if m.pend || m.at_.isSome then
       let s := s.updCtl c fun q => q.updMb b fun m => { m with pend := false, at_ := none, h := none }
       .ok (match m.h with | some g => s.reply g { status := 0x7045 } | none => s) { status := 0x7045 }
     else .ok s {})

def execCanMbAbort (h : Hdr) (ctrl buf : Byte) (s : State) : Out := firmware h s (doCanMbAbort h ctrl buf s)

/-- CAN_RXF_CONFIG (R375). -/
def doCanRxfConfig (h : Hdr) (ctrl fifo depth : Byte) (s : State) : Ans :=
  checks [(h.fn != 0, 0x7040), (decide (15 < ctrl.toNat) || decide (1 < fifo.toNat) || !within 1 32 depth.toNat, 0x7041)]
    (.ok (s.updCtl ctrl.toNat fun q => { q with
        fifos := q.fifos.set fifo.toNat [], depths := q.depths.set fifo.toNat (depth.toNat - 1),
        lock := if q.lock = some (64 + fifo.toNat) then none else q.lock }) {})

def execCanRxfConfig (h : Hdr) (ctrl fifo depth : Byte) (s : State) : Out := firmware h s (doCanRxfConfig h ctrl fifo depth s)

/-- CAN_RECOVER (R383). -/
def doCanRecover (h : Hdr) (ctrl : Byte) (s : State) : Ans :=
  checks [(h.fn != 0, 0x7040), (decide (15 < ctrl.toNat), 0x7041), ((s.ctl ctrl.toNat).err != 2, 0x7042)]
    (.ok (s.updCtl ctrl.toNat fun q => { q with err := 3 }) {})

def execCanRecover (h : Hdr) (ctrl : Byte) (s : State) : Out := firmware h s (doCanRecover h ctrl s)

/-- A controller's registers 0x0000 to 0x003C (R385, Table 6). -/
def CanCtl.word (q : CanCtl) (i : Nat) : Word :=
  match i with
  | 0 => BitVec.ofNat 32 (pack [(0, 2, q.mode.toNat), (2, 2, q.err.toNat), (4, 1, b2n q.synced), (5, 1, b2n q.tdcFail),
      (6, 1, b2n (decide (96 ≤ q.tec) || decide (96 ≤ q.rec_)))])
  | 1 => BitVec.ofNat 32 (pack [(0, 9, q.tec), (16, 8, q.rec_)])
  | 2 => q.nbt
  | 3 => q.dbt
  | 4 => BitVec.ofNat 32 (pack [(0, 7, q.tdco.toNat), (8, 7, q.delay.toNat)])
  | 5 => q.rxSeq
  | 6 => q.rxDiscard
  | 7 => q.rxOverrun
  | 8 => q.rxfDrops.get 0
  | 9 => q.rxfDrops.get 1
  | 10 => q.launchLate
  | 11 => q.txFrames
  | 12 => q.rxFrames
  | 13 => q.busOffs
  | 14 => match q.lock with | some k => BitVec.ofNat 32 (k % 128 + 128) | none => 0
  | 15 => BitVec.ofNat 32 (pack [(0, 6, (q.fifos.get 0).length), (16, 6, (q.fifos.get 1).length)])
  | _ => 0

/-- CAN_QUERY (R384). -/
def doCanQuery (h : Hdr) (ctrl : Byte) (s : State) : Ans :=
  checks [(h.fn != 0, 0x7040), (decide (15 < ctrl.toNat), 0x7041)]
    (.ok s { ext := some ((List.range 16).flatMap fun i => leBytes 4 ((s.ctl ctrl.toNat).word i).toNat) })

def execCanQuery (h : Hdr) (ctrl : Byte) (s : State) : Out := firmware h s (doCanQuery h ctrl s)

/-! ### Windows (R374, R375) -/

/-- The lock leaves a buffer: a frame in its shadow moves in. -/
def CanCtl.unlock (q : CanCtl) : CanCtl :=
  match q.lock with
  | none => q
  | some k =>
    { (q.updMb k fun m => match m.shadow with | some x => { m with img := x, shadow := none, full := true } | none => m) with lock := none }

/-- The 768 bits a window shows: buffer `i`, or FIFO `i - 64`'s oldest entry. -/
def CanCtl.window (q : CanCtl) (i : Nat) : BitVec 768 :=
  if i < 64 then (q.mbs.get i).img else ((q.fifos.get (i - 64)).head?).getD 0

/-- CAN_MB_WORD0_READ (R374): the read locks the window it names. -/
def execCanMbWord0Read (c : Fin 16) (i : Nat) (s : State) : Out :=
  if 66 ≤ i then .next s
  else
    let q := s.ctl c.val
    let q := if q.lock = some i then q else q.unlock
    .next { (s.updCtl c.val fun _ => { q with lock := some i }) with hif.cpl := { data := leBytes 4 (fld (q.window i).toNat 0 32) } }

/-- CAN_MB_WORD23_READ (R374, R375): the read releases a buffer, or removes a FIFO's oldest entry. -/
def execCanMbWord23Read (c : Fin 16) (i : Nat) (s : State) : Out :=
  if 66 ≤ i then .next s
  else
    let q := s.ctl c.val
    let data := leBytes 4 (fld (q.window i).toNat 736 32)
    let q := if i < 64 then q.updMb i (fun m => { m with full := false }) else { q with fifos := q.fifos.upd (i - 64) List.tail }
    let q := if q.lock = some i then q.unlock else q
    .next { (s.updCtl c.val fun _ => q) with hif.cpl := { data := data } }

/-! ### Errors (R382, R383) -/

/-- The counters change: warning, error-passive and bus-off follow, each with its event. -/
def State.canCount (s : State) (c tec rc : Nat) : State :=
  let q := s.ctl c
  let s := s.updCtl c fun q => { q with tec := min 511 tec, rec_ := min 255 rc }
  let s := if (decide (q.tec < 96) && decide (96 ≤ tec)) || (decide (q.rec_ < 96) && decide (96 ≤ rc)) then s.blockEvent 0x7047 else s
  if q.err == 2 || q.err == 3 then s
  else if 255 < tec then
    ((s.canFail c).updCtl c fun q => { q with err := 2, busOffs := satInc q.busOffs }).blockEvent 0x7049
  else if decide (128 ≤ tec) || decide (128 ≤ rc) then
    let s' := s.updCtl c fun q => { q with err := 1 }
    if q.err == 1 then s' else s'.blockEvent 0x7048
  else s.updCtl c fun q => { q with err := 0 }

/-- Transmitter delay compensation applies: TDC_EN with a data BRP of 1 or 2 (R371). -/
def CanCtl.tdcOn (q : CanCtl) : Bool := bit q.dbt.toNat 31 && decide (fld q.dbt.toNat 0 5 ≤ 1)

/-- CAN_ERROR (R371, R382): the counters by ISO 11898-1, and a frame of the controller's own on the bus fails. -/
def execCanError (c : Fin 16) (e : CanErr) (s : State) : Out :=
  let q := s.ctl c.val
  if q.mode = 0 then .next s
  else match e with
    | .exception => .next ((s.canFail c.val).updCtl c.val fun q => { q with synced := false })
    | .transmit => .next ((s.canFail c.val).canCount c.val (q.tec + 8) q.rec_)
    | .delay => .next (((s.updCtl c.val fun q => { q with tdcFail := q.tdcFail || q.tdcOn }).canFail c.val).canCount c.val (q.tec + 8) q.rec_)
    | .receive => .next (s.canCount c.val q.tec (q.rec_ + 1))
    | .dominant => .next (s.canCount c.val q.tec (q.rec_ + 8))

/-- CAN_RECOVERY_DONE (R383). -/
def execCanRecoveryDone (c : Fin 16) (s : State) : Out :=
  if (s.ctl c.val).err = 3 then .next (s.updCtl c.val fun q => { q with tec := 0, rec_ := 0, err := 0 }) else .next s

/-- CAN_BUS_INTEGRATION_DONE (R384). -/
def execCanBusIntegrationDone (c : Fin 16) (s : State) : Out :=
  if (s.ctl c.val).mode ≠ 0 then .next (s.updCtl c.val fun q => { q with synced := true }) else .next s

/-! ### Sending (R379 to R381) -/

/-- The arbitration rank of an image: the upper 11 identifier bits, then base before extended, then the rest (R380). -/
def canRank (x : Nat) : Nat := fld x 18 11 * 2 ^ 19 + (if bit x 29 then 2 ^ 18 + fld x 0 18 else 0)

/-- The buffer a controller offers: the lowest rank, then the lowest number (R380). -/
def CanCtl.offer (q : CanCtl) : Option Nat :=
  q.mbs.cells.foldl (fun best c =>
    if c.2.pend && c.2.kind == (2 : BitVec 2) then
      match best with
      | none => some c.1
      | some b => if canRank c.2.img.toNat < canRank (q.mbs.get b).img.toNat then some c.1 else best
    else best) none

/-- CAN_ARBITRATION (R380): at a start of frame the offered frame goes on the bus, and its stamp is taken (R373). -/
def execCanArbitration (c : Fin 16) (s : State) : Out :=
  let q := s.ctl c.val
  if q.synced && (q.mode == 1 || q.mode == 3) && decide (q.err.toNat < 2) && q.bus.isNone then
    match q.offer with
    | some b => .next (s.updCtl c.val fun q => { q with bus := some (b, time96 s.tim.time) })
    | none => .next s
  else .next s

/-- A sent frame leaves its buffer with its time-stamp (R373), and CAN_MB_SEND and CAN_MB_ABORT are answered (R381, R384). -/
def State.canSent (s : State) (c b : Nat) (stamp : BitVec 96) : State :=
  let m := (s.ctl c).mbs.get b
  let x := m.img.toNat
  let img := x % 2 ^ 96 + x / 2 ^ 256 * 2 ^ 256 + pack [(96, 16, fld stamp.toNat 0 16), (128, 32, fld stamp.toNat 16 32), (160, 48, fld stamp.toNat 48 48)]
  let s := s.updCtl c fun q =>
    { (q.updMb b fun m => { m with img := BitVec.ofNat 768 img, pend := false, at_ := none, h := none, abort := [], stopping := false }) with
      bus := none, txFrames := satInc q.txFrames }
  let s := s.canCount c ((s.ctl c).tec - 1) (s.ctl c).rec_
  let s := match m.h with | some h => s.reply h (timeRep stamp) | none => s
  (m.abort.foldl (fun s h => s.reply h {}) s).canNext c b

/-- CAN_TX_DONE (R371, R380): the frame on the bus is sent, fails or loses arbitration; the loop delay measured is kept where compensation applies. -/
def execCanTxDone (c : Fin 16) (r : CanTx) (delay : Option (BitVec 7)) (s : State) : Out :=
  match (s.ctl c.val).bus with
  | none => .next s
  | some (b, stamp) =>
    let tdc := (s.ctl c.val).tdcOn
    let s := match delay with | some d => if tdc then s.updCtl c.val (fun q => { q with delay := d }) else s | none => s
    match r with
    | .sent => .next (s.canSent c.val b stamp)
    | .failed => .next (s.canFail c.val)
    | .lost => .next (s.canFail c.val)

/-- A CAN launch's comparator fires (R350, R379): the frame becomes pending; in replay it is discarded and counted (R248). -/
def State.canFire (s : State) (c b : Nat) : State :=
  let m := (s.ctl c).mbs.get b
  match m.at_ with
  | some t =>
    if m.pend || !atOrLater 64 s.now.toNat t.toNat then s
    else if s.jrn.r.running then
      s.updCtl c fun q => { (q.updMb b fun m => { m with at_ := none }) with launchLate := satInc q.launchLate }
    else s.updCtl c fun q => q.updMb b fun m => { m with pend := true }
  | none => s

/-- A loop hands over a value's launch (R360, R379): an older unsent launch is discarded and counted, and one already on time is due at once. A
launch handed over while the frame is on the bus waits for its end (log entry 32). -/
def State.canHandover (s : State) (c b : Nat) (img : BitVec 768) (t : BitVec 64) : State :=
  let q := s.ctl c
  let m := q.mbs.get b
  let s := if m.kind ≠ 2 || m.mode ≠ 2 then s else s.armLate t
  if m.kind ≠ 2 || m.mode ≠ 2 then s.updCtl c fun q => q.updMb b fun m => { m with img := img }
  else if q.bus.any (fun x => x.1 == b) then
    s.updCtl c fun q =>
      { (q.updMb b fun m => { m with next := some (img, t) }) with launchLate := if m.next.isSome then satInc q.launchLate else q.launchLate }
  else
    let s := s.updCtl c fun q =>
      { (q.updMb b fun m => { m with img := img, at_ := some t, pend := false }) with launchLate := if m.at_.isSome then satInc q.launchLate else q.launchLate }
    if atOrLater 64 s.now.toNat t.toNat then s.canFire c b else s

/-- CAN_LAUNCH_WITHDRAW (R380): a launch not completed by its time plus LATE_NS is withdrawn, unless its frame is on the bus. -/
def execCanLaunchWithdraw (c : Fin 16) (b : Fin 64) (s : State) : Out :=
  let q := s.ctl c.val
  let m := q.mbs.get b.val
  .next (if s.launchOver c.val m && !q.bus.any (fun x => x.1 == b.val) then s.withdraw c.val b.val else s)

/-- The device safe state withdraws every launch (R434). -/
def State.canWithdrawAll (s : State) : State :=
  { s with can.ctls := s.can.ctls.mapV fun q =>
      let n := (q.mbs.keys fun m => m.at_.isSome).length + (q.mbs.keys fun m => m.next.isSome).length
      { q with launchLate := BitVec.ofNat 32 (satAdd 0xFFFFFFFF q.launchLate.toNat n),
               mbs := q.mbs.mapV fun m => if m.at_.isSome then { m with at_ := none, pend := false, next := none } else { m with next := none } } }

/-! ### Receiving (R373 to R378) -/

/-- A receive buffer takes a frame: into its shadow while locked, else over what it holds (R374). -/
def CanCtl.storeMb (q : CanCtl) (b : Nat) (img : Bool → BitVec 768) : CanCtl :=
  let m := q.mbs.get b
  if q.lock = some b then
    match m.shadow with
    | none => q.updMb b fun m => { m with shadow := some (img false) }
    | some _ => { (q.updMb b fun m => { m with shadow := some (img true) }) with rxOverrun := satInc q.rxOverrun }
  else q.updMb b fun m => { m with img := img m.full, full := true }

/-- A receive FIFO takes a frame, or drops it when full (R375). -/
def CanCtl.storeFifo (q : CanCtl) (f : Nat) (img : BitVec 768) : CanCtl :=
  if (q.fifos.get f).length < q.depths.get f + 1 then { q with fifos := q.fifos.upd f (· ++ [img]) }
  else { q with rxfDrops := q.rxfDrops.upd f satInc }

/-- The first filter that matches a frame (R376). -/
def CanCtl.match_ (q : CanCtl) (f : CanFrame) : Option CanFilter :=
  let id := if f.ide then f.id.toNat else f.id.toNat / 2 ^ 18 * 2 ^ 18
  ((List.range 32).map q.filters.get).find? fun g => (id ^^^ g.value.toNat) &&& g.mask.toNat == 0 && g.ide == f.ide

/-- A frame enters its intake point (R378): at least MIN_GAP_US after the previous one, and into a free slot. -/
def State.canIntake (s : State) (c seq n : Nat) (img : BitVec 768) : State :=
  let q := s.ctl c
  if s.pointLive (192 + c) && q.last.any (fun t => decide (s.tick - t < 600 * q.minGap)) then s.dropRate (192 + c)
  else
    let (ok, s) := s.offer (192 + c) seq n (leBytes 96 img.toNat)
    if ok then s.updCtl c fun q => { q with last := some s.tick } else s

/-- CAN_FRAME_RECEIVE (R367, R373, R376 to R378): `age` is how many CAN clock cycles ago the start-of-frame bit was sampled. A frame of the
controller's own on the bus has lost arbitration, unless it loops back. -/
def execCanFrameReceive (c : Fin 16) (f : CanFrame) (age : Nat) (s : State) : Out :=
  let q := s.ctl c.val
  if q.mode = 0 || !q.synced || decide (2 ≤ q.err.toNat) then .next s
  else
    let s := if q.mode = 3 then s else s.canFail c.val
    let stamp := time96 ((((s.tim.time : Int) - age * 25 * 2 ^ 39) % (timeMod : Int)).toNat)
    let s := s.updCtl c.val fun q => { q with rxFrames := satInc q.rxFrames }
    let s := s.canCount c.val (s.ctl c.val).tec (let r := (s.ctl c.val).rec_; if 127 < r then 127 else r - 1)
    let discard := s.updCtl c.val fun q => { q with rxDiscard := satInc q.rxDiscard }
    if f.rtr then .next discard
    else match (s.ctl c.val).match_ f with
      | none => .next discard
      | some g =>
        if g.target = 0 || (g.target = 1 && ((s.ctl c.val).mbs.get g.buf).kind ≠ 1) then .next discard
        else
          let s := s.updCtl c.val fun q => { q with rxSeq := q.rxSeq + 1 }
          let seq := (s.ctl c.val).rxSeq.toNat
          let img := fun o => canImage f o seq stamp
          match g.target with
          | 1 => .next (s.updCtl c.val fun q => q.storeMb g.buf img)
          | 2 => .next (s.updCtl c.val fun q => q.storeFifo 0 (img false))
          | 3 => .next (s.updCtl c.val fun q => q.storeFifo 1 (img false))
          | _ => .next (s.canIntake c.val seq (dlcLen f.fdf f.dlc.toNat) (img false))

end Sys2Proof.Machine
end

