-- ==== Sys2Proof/Machine/Tyben.lean ====
section
/-! DEFINITION. Tyben links: routing, messages, flits, credits and retry (R386 to R396). -/

namespace Sys2Proof.Machine

/-- The version Kreham implements (R27). -/
def ifaceVersion : Nat := 0x10

/-- Port `p`. -/
def State.port (s : State) (p : Nat) : TybPort := s.tyb.ports.get p

/-- Port `p` changed by `f`. -/
def State.updPort (s : State) (p : Nat) (f : TybPort → TybPort) : State := { s with tyb.ports := s.tyb.ports.upd p f }

/-- The virtual channel of a message type (R390, Table 3). -/
def vcOf (type : Nat) : Nat :=
  if type = 2 then 1 else if type = 3 then 2 else if type = 8 ∨ type = 9 ∨ type = 10 then 3 else 0

/-- Receive credits of a virtual channel (R390, Table 3). -/
def vcCredits : Nat → Nat
  | 0 => 64
  | 1 => 1024
  | 2 => 256
  | _ => 32

/-- A route matches a node: the top LEN bits of PREFIX are those of the node (R395). -/
def Route.matches (r : Route) (dst : Nat) : Bool :=
  r.valid && r.prefix_.toNat / 2 ^ (14 - r.len.toNat) == dst / 2 ^ (14 - r.len.toNat)

/-- The route a destination takes: the longest LEN, and the lowest index among equals (R395). -/
def State.route (s : State) (dst : Nat) : Option Route :=
  s.tyb.routes.cells.foldl (fun best c =>
    if c.2.matches dst then
      match best with
      | none => some c.2
      | some b => if b.len.toNat < c.2.len.toNat then some c.2 else best
    else best) none

/-- The port number of a route. -/
def Route.portNo (r : Route) : Nat := if r.port then 1 else 0

/-- The port a message of this device to `dst` leaves by: none to this device itself (R395). -/
def State.portTo (s : State) (dst : Nat) : Option Nat := if dst = s.tyb.node.toNat then none else (s.route dst).map Route.portNo

/-- The 16-byte header and payload of a message (R392). -/
def Msg.bytes (m : Msg) : List Byte :=
  leBytes 16 (pack [(0, 14, m.dst), (16, 14, m.src), (32, 8, m.type), (40, 6, m.hops), (64, 32, m.payload.length), (96, 32, m.mseq)]) ++ m.payload

/-- Bytes cut into flit payloads of 244, the last padded with zeros (R388). -/
def chunks244 : Nat → List Byte → List (List Byte)
  | 0, _ => []
  | fuel + 1, bs => if bs.isEmpty then [] else padTo 244 bs :: chunks244 fuel (bs.drop 244)

/-- The DATA flits of a message (R388). -/
def Msg.flits (m : Msg) (reply : Option Hdr) (probe : Bool := false) : List Flit :=
  let bs := m.bytes
  let cs := chunks244 (bs.length / 244 + 1) bs
  (cs.zipIdx).map fun c =>
    { vc := vcOf m.type, som := c.2 == 0, eom := c.2 + 1 == cs.length, payload := c.1, reply := if c.2 + 1 == cs.length then reply else none, probe := probe }

/-- The credits an outgoing flit returns: the lowest VC that owes some (R388, R390). -/
def TybPort.creditsBack (q : TybPort) : Option (Nat × Nat) :=
  match q.owed.cells with
  | [] => none
  | c :: _ => some (c.1, min c.2 8191)

/-- The 256 bytes of a flit with the port's ACK, NAK and credits (R388, Table 2). -/
def TybPort.flitBytes (q : TybPort) (type vc : Nat) (som replayed : Bool) (fseq : Nat) (payload : List Byte) : List Byte :=
  let cr := q.creditsBack.getD (0, 0)
  let head := leBytes 8 (pack [(0, 4, type), (4, 2, vc), (6, 1, b2n som), (7, 1, b2n replayed), (8, 12, fseq),
    (20, 12, q.expect + 4095), (32, 1, b2n q.nak), (33, 2, cr.1), (35, 13, cr.2)])
  let body := head ++ padTo 244 payload
  body ++ leBytes 4 (crc32c body)

/-- The port after a flit went out: its NAK and the credits it returned are gone. -/
def TybPort.emit (q : TybPort) (flit : List Byte) : TybPort :=
  let owed := match q.creditsBack with | some c => q.owed.upd c.1 (· - c.2) | none => q.owed
  { q with wire := q.wire ++ [flit], nak := false, ackDue := false, owed := owed }

/-- Where a message of this device holds the stamp of its sending: t1 of a probe, t3 of a reply, T_SEND of a heartbeat (R399, R401). -/
def stampAt (type : Nat) : Option Nat := if type = 9 then some 16 else if type = 10 then some 32 else if type = 5 then some 36 else none

/-- The payload of a flit that goes out at time `now`: Kreham fills the stamp of a message of its own (R399, R402). -/
def stampPayload (node : Nat) (now : BitVec 64) (som : Bool) (payload : List Byte) : List Byte :=
  let x := leNat (payload.take 8)
  match if som && fld x 16 14 == node then stampAt (fld x 32 8) else none with
  | some i => payload.take i ++ leBytes 8 now.toNat ++ payload.drop (i + 8)
  | none => payload

/-- One waiting flit goes, with its stamp, if the port is ACTIVE, its VC has credit and fewer than 256 flits are unacknowledged (R389, R390). -/
def TybPort.sendOne (q : TybPort) (node : Nat) (now : BitVec 64) : Option (TybPort × Flit) :=
  if q.state == .active && decide (q.replay.length < 256) then
    match findIdx (fun f => decide (0 < q.credit.get f.vc)) q.txq 0 with
    | none => none
    | some i =>
      match q.txq[i]? with
      | none => none
      | some f =>
        let f := { f with fseq := q.nextSeq % 4096, payload := stampPayload node now f.som f.payload }
        let q' := q.emit (q.flitBytes 1 f.vc f.som false f.fseq f.payload)
        some ({ q' with txq := dropAt i q.txq, credit := q.credit.upd f.vc (· - 1), nextSeq := (q.nextSeq + 1) % 4096,
                        replay := q.replay ++ [f], txMsgs := if f.eom then satInc q.txMsgs else q.txMsgs }, f)
  else none

/-- A flit goes out: one of a forwarded message leaves the receive buffer of the port it came by, and a probe starts its measurement. -/
def State.flitGone (s : State) (f : Flit) : State :=
  let s := match f.from_ with | some a => s.updPort a fun q => { q with owed := q.owed.upd f.vc (· + 1) } | none => s
  if f.probe then { s with tyb.offs := s.tyb.offs.map fun o => { o with t1 := s.now } } else s

/-- Sends up to `n` waiting flits of a port while any can go. -/
def State.pump (s : State) (p : Nat) : Nat → State
  | 0 => s
  | n + 1 => match (s.port p).sendOne s.tyb.node.toNat s.now with
    | some (q, f) => ((s.updPort p fun _ => q).flitGone f).pump p n
    | none => s

/-- Sends what a port can send. -/
def State.sendAll (s : State) (p : Nat) : State := s.pump p (s.port p).txq.length

/-- Queues a message's flits at a port and sends what can go. -/
def State.enqueue (s : State) (p : Nat) (fs : List Flit) : State := (s.updPort p fun q => { q with txq := q.txq ++ fs }).sendAll p

/-- A port that owes an acknowledgement, a NAK or credits sends a NULL flit, as no DATA flit has carried them (R388, R389). -/
def State.nullFlit (s : State) (p : Nat) : State :=
  let q := s.port p
  if q.state == .active && (q.ackDue || q.nak || !q.owed.cells.isEmpty) then s.updPort p fun q => q.emit (q.flitBytes 0 0 false false 0 []) else s

/-- Sends a message to a node: over its route's port, or straight to this device's inbox. `none` when this node is 0 or no route matches (R394, R395). -/
def State.sendMsg (s : State) (dst type : Nat) (payload : List Byte) (reply : Option Hdr := none) : Option State :=
  if s.tyb.node = 0 then none
  else
    let m : Msg := { dst := dst, src := s.tyb.node.toNat, type := type, hops := 63, mseq := s.tyb.mseq, payload := payload, stamp := s.now }
    let s' := { s with tyb.mseq := (s.tyb.mseq + 1) % 2 ^ 32 }
    if dst = s.tyb.node.toNat then some (s'.updPort 0 fun q => { q with inbox := q.inbox ++ [m] })
    else match s.route dst with
      | none => none
      | some r => some (s'.enqueue r.portNo (m.flits reply))

/-- Sends a message to a node over a named port, whatever the routes (R172, R399). -/
def State.sendVia (s : State) (p dst type : Nat) (payload : List Byte) (probe : Bool := false) : State :=
  if s.tyb.node = 0 then s
  else
    let m : Msg := { dst := dst, src := s.tyb.node.toNat, type := type, hops := 63, mseq := s.tyb.mseq, payload := payload, stamp := s.now }
    { s with tyb.mseq := (s.tyb.mseq + 1) % 2 ^ 32 }.enqueue p (m.flits none probe)

/-- Sends a message that no command waits for: one that finds no route is counted and dropped (R395). -/
def State.sendOr (s : State) (dst type : Nat) (payload : List Byte) : State :=
  match s.sendMsg dst type payload with
  | some s' => s'
  | none => if s.tyb.node = 0 then s else { s with tyb.noRoute := satInc s.tyb.noRoute }

/-- A TALLY_RESP payload (R398). -/
def tallyResp (reqId status kind value : Nat) : List Byte :=
  leBytes 12 (pack [(0, 32, reqId), (32, 16, status), (48, 8, kind), (64, 32, value)])

end Sys2Proof.Machine
end

