-- ==== Sys2Proof/Machine/Tally.lean ====
section
/-! DEFINITION. Tallies: admission, the order of changes at a tick end, waits, and the remote forms (R278 to R281, R285, R398). -/

namespace Sys2Proof.Machine

/-! ### Changes -/

/-- Changes applied to one value: the last SET in the order of R244, then the sum of the ADDs (R279). -/
def applyOps (v : Word) (ops : List TallyOp) : Word :=
  let v := ((ops.filter TallyOp.isSet).insertionSort fun a b => a.src ≤ b.src).foldl (fun _ o => o.value) v
  (ops.filter fun o => !o.isSet).foldl (fun v o => v + o.value) v

/-- A tally's value once the changes due by the end of this tick are applied: what the next tick starts with (R279). -/
def State.tallyNext (s : State) (t : Nat) : Word :=
  applyOps (s.tly.values.get t) (s.tly.ops.filter fun o => o.tally == t && decide (o.due ≤ s.tick))

/-- A signal by a sequencer, the keeper, a ring or a teardown adds to a tally at the end of this tick (R279). -/
def State.signalTally (s : State) (t : Nat) (v : Word) : State :=
  { s with tly.ops := s.tly.ops ++ [({ tally := t, isSet := false, value := v, due := s.tick } : TallyOp)] }

/-- The partition that declares a tally (R278). -/
def State.tallyOwner (s : State) (t : Nat) : Option Nat :=
  ((s.pln.plan.bind fun pl => pl.tallies.find? fun d => d.tally == t)).map TallyDecl.part

/-- The checks of a host tally command (R278). -/
def State.tallyChecks (s : State) (h : Hdr) (t : Nat) : List (Bool × Nat) :=
  [(decide (16384 ≤ t), 0x3001), (h.fn != 0 && s.tallyOwner t != some h.fn.val, 0x3002)]

/-- A host ADD or SET is admitted, one in a tick, and journalled; it applies at the end of the tick after, and the reply follows (R235, R243, R279). -/
def State.admitTally (s : State) (h : Hdr) (t : Nat) (isSet : Bool) (v : Word) : State :=
  let a := max s.tick s.tly.hostNext
  let s := { s with tly.ops := s.tly.ops ++ [({ tally := t, isSet := isSet, value := v, due := a + 1, h := some h } : TallyOp)], tly.hostNext := a + 1 }
  s.journalAt a 0x04 t 0 (pack [(0, 14, t), (14, 2, b2n isSet), (32, 32, v.toNat)])

def doTallyAdd (h : Hdr) (t : BitVec 16) (v : Word) (s : State) : Ans := checks (s.tallyChecks h t.toNat) (.later (s.admitTally h t.toNat false v))
def execTallyAdd (h : Hdr) (t : BitVec 16) (v : Word) (s : State) : Out := fastPath h s (doTallyAdd h t v s)

def doTallySet (h : Hdr) (t : BitVec 16) (v : Word) (s : State) : Ans := checks (s.tallyChecks h t.toNat) (.later (s.admitTally h t.toNat true v))
def execTallySet (h : Hdr) (t : BitVec 16) (v : Word) (s : State) : Out := fastPath h s (doTallySet h t v s)

/-- TALLY_READ (R279): the value at the start of the tick after its arrival. -/
def doTallyRead (h : Hdr) (t : BitVec 16) (s : State) : Ans := checks (s.tallyChecks h t.toNat) (.ok s { r0 := (s.tallyNext t.toNat).toNat })
def execTallyRead (h : Hdr) (t : BitVec 16) (s : State) : Out := fastPath h s (doTallyRead h t s)

/-- Answers of the changes that an apply carried out: host replies, and final responses to remote requests (R279, R398). -/
def State.tallyAnswers (s : State) (ops : List TallyOp) : State :=
  ops.foldl (fun s o =>
    let s := match o.h with | some h => s.reply h {} | none => s
    match o.resp with | some (node, id) => s.sendOr node 4 (tallyResp id 0 0 0) | none => s) s

/-- TALLY_APPLY (R279): at a tick end the changes of the earliest tick due for the tally, up to this one, are applied together. -/
def execTallyApply (t : BitVec 14) (s : State) : Out :=
  let mine := s.tly.ops.filter fun o => o.tally == t.toNat && decide (o.due ≤ s.tick)
  match mine with
  | [] => .next s
  | o :: os =>
    let due := os.foldl (fun m x => min m x.due) o.due
    let now := mine.filter fun o => o.due == due
    let s := { s with
      tly.values := s.tly.values.upd t.toNat fun v => applyOps v now,
      tly.ops := s.tly.ops.filter fun o => !(o.tally == t.toNat && o.due == due) }
    .next (s.tallyAnswers now)

/-! ### Waits (R280) -/

/-- A wait at the start of tick `now`: the first tick after its admission whose starting value is later than or equal to its target satisfies it. -/
def WaitEnt.judge (values : Tab Word) (now : Nat) (w : WaitEnt) : WaitEnt :=
  let v := values.get w.tally
  if w.hit.isNone && decide (w.since < now) && atOrLater 32 v.toNat w.target.toNat then { w with hit := some v } else w

/-- The waits at the start of the tick in hand. -/
def State.judgeWaits (s : State) : State := { s with tly.waits := s.tly.waits.map (WaitEnt.judge s.tly.values s.tick) }

/-- A wait takes an entry, unless the table of 4,096 is full, which is counted. -/
def State.takeWait (s : State) (w : WaitEnt) : Option State × State :=
  if 4096 ≤ s.tly.waits.length then (none, { s with tly.waitFull := satInc s.tly.waitFull })
  else
    let ws := s.tly.waits ++ [w]
    (some { s with tly.waits := ws, tly.maxUsed := max s.tly.maxUsed ws.length }, s)

def doTallyWait (h : Hdr) (t : BitVec 16) (target timeoutUs : Word) (s : State) : Ans :=
  checks (s.tallyChecks h t.toNat)
    (match s.takeWait { who := .host h, tally := t.toNat, target := target, timeoutUs := timeoutUs, since := s.tick, from_ := s.now } with
     | (some s', _) => .later s'
     | (none, s') => .ok s' { status := 0x3003 })
def execTallyWait (h : Hdr) (t : BitVec 16) (target timeoutUs : Word) (s : State) : Out := fastPath h s (doTallyWait h t target timeoutUs s)

/-- A wait entry leaves the table and its waiter is answered: a host command by a reply, a remote request by a final response (R280, R398). -/
def State.endWait (s : State) (i : Nat) (w : WaitEnt) (status : Nat) (v : Word) : State :=
  let s := { s with tly.waits := dropAt i s.tly.waits }
  match w.who with
  | .host h => s.reply h { status := status, detail := if status = 0 then 0 else v.toNat, r0 := if status = 0 then v.toNat else 0 }
  | .remote node id => s.sendOr node 4 (tallyResp id status 0 v.toNat)

/-- TALLY_WAIT_SATISFIED (R280): the `i`-th entry completes with the value that satisfied it. -/
def execTallyWaitSatisfied (i : Nat) (s : State) : Out :=
  match s.tly.waits[i]? with
  | none => .next s
  | some w => .next (match w.hit with | some v => s.endWait i w 0 v | none => s)

/-- A wait's time-out has come on the time base: TIMEOUT_US after its admission, by the comparator's rule (R280, R350). -/
def State.waitOver (s : State) (w : WaitEnt) : Bool :=
  w.timeoutUs != 0 && atOrLater 64 s.now.toNat (w.from_ + BitVec.ofNat 64 (1000 * w.timeoutUs.toNat)).toNat

/-- TALLY_WAIT_TIMEOUT (R280): an unsatisfied wait whose time-out has come ends with TALLY_TIMEOUT. -/
def execTallyWaitTimeout (i : Nat) (s : State) : Out :=
  match s.tly.waits[i]? with
  | none => .next s
  | some w =>
    .next (if s.waitOver w && w.hit.isNone then s.endWait i w 0x3004 (s.tly.values.get w.tally) else s)

/-! ### Remote forms, at the source (R281, R398) -/

/-- A TALLY_REQ payload (R398). -/
def tallyReq (op tally value timeoutUs id : Nat) : List Byte :=
  leBytes 16 (pack [(0, 8, op), (16, 16, tally), (32, 32, value), (64, 32, timeoutUs), (96, 32, id)])

/-- The port a remote command's request leaves by is ACTIVE, or this device is the target (R391, R395). -/
def State.remoteSend (s : State) (h : Hdr) (op : Nat) (t node : BitVec 16) (value timeoutUs : Word) : Ans :=
  let id := s.tly.nextReq
  match s.sendMsg node.toNat 1 (tallyReq op t.toNat value.toNat timeoutUs.toNat id) with
  | none => .no 0x3005 0
  | some s' => .later { s' with tly.remote := s'.tly.remote ++ [{ h := h, node := node.toNat, reqId := id, op := op, port := s.portTo node.toNat }],
                                tly.nextReq := (id + 1) % 2 ^ 32 }

/-- A remote command that no route takes is counted (R395). -/
def State.remoteAns (s : State) (a : Ans) : Ans :=
  match a with
  | .no 0x3005 d => .ok (if s.tyb.node = 0 then s else { s with tyb.noRoute := satInc s.tyb.noRoute }) { status := 0x3005, detail := d }
  | a => a

def doRemote (h : Hdr) (op : Nat) (t node : BitVec 16) (value timeoutUs : Word) (s : State) : Ans :=
  checks [(decide (16384 ≤ t.toNat), 0x3001)] (s.remoteAns (s.remoteSend h op t node value timeoutUs))

def execTallyRemoteAdd (h : Hdr) (t node : BitVec 16) (v : Word) (s : State) : Out := firmware h s (doRemote h 0 t node v 0 s)
def execTallyRemoteSet (h : Hdr) (t node : BitVec 16) (v : Word) (s : State) : Out := firmware h s (doRemote h 1 t node v 0 s)
def execTallyRemoteRead (h : Hdr) (t node : BitVec 16) (s : State) : Out := firmware h s (doRemote h 2 t node 0 0 s)
def execTallyRemoteWait (h : Hdr) (t node : BitVec 16) (target timeoutUs : Word) (s : State) : Out :=
  firmware h s (doRemote h 3 t node target timeoutUs s)

/-- REMOTE_RESPONSE_TIMEOUT (R281, R398): the `i`-th remote command got no response in time. -/
def execRemoteResponseTimeout (i : Nat) (s : State) : Out :=
  match s.tly.remote[i]? with
  | none => .next s
  | some c => .next ({ s with tly.remote := dropAt i s.tly.remote }.reply c.h { status := 0x3005 })

/-! ### Messages delivered to this device -/

/-- Takes the first delivered message of a type from a port's inbox; its flits leave the receive buffer (R390). -/
def State.takeMsg (s : State) (p type : Nat) : Option (Msg × State) :=
  match findIdx (fun m => m.type == type) (s.port p).inbox 0 with
  | none => none
  | some i => ((s.port p).inbox[i]?).map fun m =>
    (m, s.updPort p fun q => { q with inbox := dropAt i q.inbox, owed := if m.held = 0 then q.owed else q.owed.upd (vcOf type) (· + m.held) })

/-- A message discarded at its receiver (R392). -/
def State.rxDiscard (s : State) (p : Nat) : State := s.updPort p fun q => { q with rxDiscard := satInc q.rxDiscard }

/-- A tally lies in TLY_REMOTE_RANGE (R289). -/
def State.remoteOpen (s : State) (t : Nat) : Bool :=
  decide (s.tly.remoteFirst.toNat ≤ t) && decide (t < min (s.tly.remoteFirst.toNat + s.tly.remoteCount.toNat) 16384)

/-- TALLY_REQ_RX (R279, R398): a port admits one ADD or SET in a tick, and a second one waits. The request is refused, admitted, read or put into the wait table. In replay an arriving ADD or SET is dropped (R393). -/
def execTallyReqRx (p : Fin 2) (s0 : State) : Out :=
  match s0.takeMsg p.val 1 with
  | none => .next s0
  | some (m, s) =>
    let x := leNat m.payload
    let op := fld x 0 8; let t := fld x 16 16; let v := BitVec.ofNat 32 (fld x 32 32); let us := fld x 64 32; let id := fld x 96 32
    let answer := fun (s : State) (st val : Nat) => s.sendOr m.src 4 (tallyResp id st 0 val)
    if m.payload.length ≠ 16 || 3 < op then .next (s.rxDiscard p.val)
    else if 16384 ≤ t then .next (answer s 0x3001 0)
    else if !s.remoteOpen t then .next (answer s 0x3002 0)
    else match op with
      | 2 => .next (answer s 0 (s.tallyNext t).toNat)
      | 3 =>
        let us := if us = 0 || 10000000 < us then 10000000 else us
        match s.takeWait { who := .remote m.src id, tally := t, target := v, timeoutUs := BitVec.ofNat 32 us, since := s.tick, from_ := s.now } with
        | (some s', _) => .next (s'.sendOr m.src 4 (tallyResp id 0 1 0))
        | (none, s') => .next (answer s' 0x3003 0)
      | _ =>
        if s.jrn.r.running then .next (s.rxDiscard p.val)
        else if (s.port p.val).lastReq = some s.tick then .next s0
        else
          let s := { s with tly.ops := s.tly.ops ++
            [({ tally := t, isSet := op == 1, value := v, due := s.tick + 1, src := 1 + p.val, resp := some (m.src, id) } : TallyOp)] }
          let s := s.updPort p.val fun q => { q with lastReq := some s.tick }
          .next (s.journal 0x07 p.val m.mseq (pack [(96, 8, 1), (104, 14, m.src), (128, 14, t), (142, 2, op), (160, 32, v.toNat)]))

/-- TALLY_RESP_RX (R281, R398): an accepted response keeps a WAIT waiting; a final one completes its command. -/
def execTallyRespRx (p : Fin 2) (s0 : State) : Out :=
  match s0.takeMsg p.val 4 with
  | none => .next s0
  | some (m, s) =>
    let x := leNat m.payload
    let id := fld x 0 32; let st := fld x 32 16; let kind := fld x 48 8; let v := fld x 64 32
    match findIdx (fun c => c.reqId == id && c.node == m.src) s.tly.remote 0 with
    | none => .next s
    | some i =>
      match s.tly.remote[i]? with
      | none => .next s
      | some c =>
        if kind = 1 then
          .next { s with tly.remote := s.tly.remote.mapIdx fun j x => if j = i then { x with accepted := true } else x }
        else
          let s := { s with tly.remote := dropAt i s.tly.remote }
          .next (s.reply c.h
            (if st = 0 then { r0 := if 2 ≤ c.op then v else 0 }
             else if st = 0x3004 && c.op == 3 then { status := 0x3004, detail := v }
             else { status := 0x3006, detail := st }))

end Sys2Proof.Machine
end

