-- ==== Sys2Proof/Machine/TybenLink.lean ====
section
/-! DEFINITION. Tyben ports: their states, the receipt of flits and messages, and the offset measurement (R386 to R399, R405). -/

namespace Sys2Proof.Machine

/-! ### Loss of a link -/

/-- A page returns to its pool's free list; those that return in one tick stand in ascending order (R170). -/
def State.pageBack (s : State) (part g : Nat) : State :=
  { s with
    pgk.pages := s.pgk.pages.set g {},
    pgk.pools := s.pgk.pools.upd part fun q =>
      let k := if q.freshAt = s.tick then min q.fresh q.back.length else 0
      let at_ := q.back.length - k
      { q with back := q.back.take at_ ++ (q.back.drop at_ ++ [g]).insertionSort (· ≤ ·), fresh := k + 1, freshAt := s.tick } }

/-- A page loses a pin; with no reference and no pin left it returns to its pool's free list (R169, R170). -/
def State.unpin (s : State) (part g : Nat) : State :=
  let c := s.pgk.pages.get g
  let c' := { c with pins := c.pins - 1 }
  if c'.refs = 0 && c'.pins = 0 && c.taken then s.pageBack part g else { s with pgk.pages := s.pgk.pages.set g c' }

/-- A ring context fails (R176): an event record on its partition's event ring, and the pages that its send pinned are released. -/
def State.ringFailed (s : State) (g error : Nat) : State :=
  let c := s.pgk.rings.get g
  let pins := (c.sending.map fun x => x.2.2).getD []
  let s := pins.foldl (fun s k => s.unpin c.part k) { s with pgk.rings := s.pgk.rings.set g { c with state := 2, error := BitVec.ofNat 2 error, sending := none } }
  s.event (partFn c.part) 0x06 c.part 0x400B (g % 16 + error % 4 * 16)

/-- Every open ring context that uses the port fails (R176, R391). -/
def State.ringsLost (s : State) (p : Nat) : State :=
  (s.pgk.rings.keys fun c => c.state == 1 && (c.east == p || c.west == p)).foldl (fun s g => s.ringFailed g 3) s

/-- Messages that came by a port and wait at one to be forwarded hold no credit of it any more: credits start afresh (R391). -/
def unpass (p : Nat) (s : State) : State :=
  { s with tyb.ports := s.tyb.ports.mapV fun q => { q with txq := q.txq.map fun f => if f.from_ = some p then { f with from_ := none } else f } }

/-- Flits that are dropped leave the receive buffers of the ports they came by (R390). -/
def State.dropFlits (s : State) (fs : List Flit) : State :=
  fs.foldl (fun s f => match f.from_ with | some a => s.updPort a fun q => { q with owed := q.owed.upd f.vc (· + 1) } | none => s) s

/-- The link of a port is lost (R391): partial messages dropped and counted, the replay buffer emptied, rings failed, remote commands and
waiting sends over it unreachable, and an event. -/
def State.linkLost (s : State) (p : Nat) : State :=
  let q := s.port p
  let cut := (List.range 4).filter fun v => ((q.txq.filter fun f => f.vc == v).head?).any fun f => !f.som
  let halves := cut.length + (q.part.keys fun x => x.isSome).length
  -- what remains of a message begun on a cut VC goes, up to its end
  let rec rest (vs : List Nat) : List Flit → List Flit × List Flit
    | [] => ([], [])
    | f :: t =>
      if vs.contains f.vc then let (k, d) := rest (if f.eom then vs.filter (· != f.vc) else vs) t; (k, f :: d)
      else let (k, d) := rest vs t; (f :: k, d)
  let (keep, gone) := rest cut q.txq
  let s := s.updPort p fun q =>
    { q with losses := BitVec.ofNat 32 (satAdd 0xFFFFFFFF q.losses.toNat halves), replay := [], txq := keep, part := {}, arrived := q.arrived.map (fun m => (m.1, 0, m.2.2)),
             inbox := q.inbox.map (fun m => { m with held := 0 }), nak := false, gap := false, naks := 0,
             credit := {}, owed := {}, ackDue := false, nextSeq := 0, expect := 0, cfgSent := false, cfgGot := false }
  let s := unpass p s
  let s := s.dropFlits (gone.filter fun f => f.from_ != some p)
  let s := (q.replay ++ gone).foldl (fun s f => match f.reply with | some h => s.reply h { status := 0x8004 } | none => s) s
  let s := match s.tyb.offs with
    | some o => if o.port = p then { s with tyb.offs := none }.replyOpt o.h { status := 0x8004 } else s
    | none => s
  let s := s.ringsLost p
  let onPort := fun (c : RemoteCmd) => c.port == some p
  let lost := s.tly.remote.filter onPort
  let s := { s with tly.remote := s.tly.remote.filter fun c => !onPort c }
  let s := lost.foldl (fun s c => s.reply c.h { status := 0x3005 }) s
  s.blockEvent 0x8007

/-- A port enters a state that loses the link where R391 says so. -/
def State.portDown (s : State) (p : Nat) (dst : TybState) (error : BitVec 3) : State :=
  let st := (s.port p).state
  let s := s.updPort p fun q => { q with state := dst, error := error }
  let lost := match dst, st with
    | .detect, .retrain => true
    | .disabled, .config | .disabled, .active | .disabled, .retrain => true
    | _, _ => false
  if lost then s.linkLost p else s

/-! ### Commands (R405) -/

/-- TYB_NODE_SET (R394). -/
def doTybNodeSet (h : Hdr) (node : BitVec 16) (s : State) : Ans :=
  checks [(h.fn != 0, 0x8001), (node == 0 || decide (16384 ≤ node.toNat), 0x8002),
          ((s.port 0).state != .disabled || (s.port 1).state != .disabled, 0x8003)]
    (.ok { s with tyb.node := node.setWidth 14 } {})
def execTybNodeSet (h : Hdr) (node : BitVec 16) (s : State) : Out := firmware h s (doTybNodeSet h node s)

/-- TYB_PORT_CONFIG (R387, R397). -/
def doTybPortConfig (h : Hdr) (port enable medium maxRate mac cls flits : Byte) (peerMac : BitVec 48) (s : State) : Ans :=
  let p := port.toNat
  let m := s.eth.macs.get mac.toNat
  let tun := medium = 1
  checks [(h.fn != 0, 0x8001),
          (decide (1 < p) || decide (1 < enable.toNat) || decide (1 < medium.toNat) || decide (2 < maxRate.toNat) || decide (7 < mac.toNat) ||
            decide (7 < cls.toNat) ||
            (tun && (flits == 0 || decide (8 < flits.toNat) || !m.enabled || decide (m.maxFrame < 18 + 256 * flits.toNat))), 0x8002),
          (enable == 1 && (s.port p).state != .disabled, 0x8003)]
    (if enable = 0 && (s.port p).state ≠ .disabled then .ok (s.portDown p .disabled 0) {}
     else .ok (s.updPort p fun q =>
        { q with state := if enable = 1 then .detect else .disabled, retry := false, tunnel := tun, maxRate := maxRate.setWidth 2, mac := mac.toNat, cls := cls.toNat,
                 flits := flits.toNat, peerMac := peerMac, error := 0, cfgSent := false, cfgGot := false }) {})
def execTybPortConfig (h : Hdr) (port enable medium maxRate mac cls flits : Byte) (peerMac : BitVec 48) (s : State) : Out :=
  firmware h s (doTybPortConfig h port enable medium maxRate mac cls flits peerMac s)

/-- TYB_ROUTE_SET (R395). -/
def doTybRouteSet (h : Hdr) (index prefix_ : BitVec 16) (len port valid : Byte) (s : State) : Ans :=
  checks [(h.fn != 0, 0x8001),
          (decide (1024 ≤ index.toNat) || decide (16384 ≤ prefix_.toNat) || decide (14 < len.toNat) || decide (1 < port.toNat) || decide (1 < valid.toNat), 0x8002)]
    (.ok { s with tyb.routes := s.tyb.routes.set index.toNat { prefix_ := prefix_.setWidth 14, len := len.setWidth 4, port := port = 1, valid := valid = 1 } } {})
def execTybRouteSet (h : Hdr) (index prefix_ : BitVec 16) (len port valid : Byte) (s : State) : Out := firmware h s (doTybRouteSet h index prefix_ len port valid s)

/-- TYB_MSG_SEND (R405): the reply follows the neighbour's ACK of the last flit; a message to this device itself needs none. -/
def doTybMsgSend (h : Hdr) (node : BitVec 16) (data : BitVec 224) (s : State) : Ans :=
  let body := leBytes 28 data.toNat ++ List.replicate 4 0
  let self := node.toNat = s.tyb.node.toNat
  let active := self || (s.route node.toNat).any fun r => (s.port r.portNo).state == .active
  checks [(h.fn != 0, 0x8001), (node == 0 || decide (16384 ≤ node.toNat), 0x8002), (s.tyb.node == 0, 0x8003)]
    (match (s.route node.toNat).isSome || self, active with
     | false, _ => .ok { s with tyb.noRoute := satInc s.tyb.noRoute } { status := 0x8004 }
     | true, false => .no 0x8004 0
     | true, true => match s.sendMsg node.toNat 8 body (some h) with
       | none => .no 0x8004 0
       | some s' => if self then .ok s' {} else .later s')
def execTybMsgSend (h : Hdr) (node : BitVec 16) (data : BitVec 224) (s : State) : Out := firmware h s (doTybMsgSend h node data s)

/-- TYB_OFFSET_MEASURE (R399): probes the port's neighbour. -/
def State.sendProbe (s : State) (h : Option Hdr) (p : Nat) (repeated : Bool) : State :=
  let t := s.now
  { s with tyb.offs := some { h := h, port := p, repeated := repeated, t1 := t } }.sendVia p (s.port p).neighbour.toNat 9 (leBytes 8 t.toNat) true

def doTybOffsetMeasure (h : Hdr) (port : Byte) (s : State) : Ans :=
  checks [(h.fn != 0, 0x8001), (decide (1 < port.toNat), 0x8002), (s.tyb.node == 0 || s.tyb.offs.isSome, 0x8003),
          ((s.port port.toNat).state != .active || (s.port port.toNat).neighbour == 0, 0x8004)]
    (.later (s.sendProbe (some h) port.toNat false))
def execTybOffsetMeasure (h : Hdr) (port : Byte) (s : State) : Out := firmware h s (doTybOffsetMeasure h port s)

/-- A port's registers 0x00 to 0x30 (R407, Tables 9 and 10). -/
def portStateNo : TybState → Nat
  | .disabled => 0 | .detect => 1 | .train => 2 | .config => 3 | .active => 4 | .retrain => 5

def TybPort.word (q : TybPort) (i : Nat) : Word :=
  match i with
  | 0 => BitVec.ofNat 32 (pack [(0, 3, portStateNo q.state), (3, 2, q.rate.toNat), (5, 2, q.width.toNat), (7, 1, b2n q.tunnel), (8, 3, q.error.toNat)])
  | 1 => q.neighbour.setWidth 32
  | 2 => q.crcErrors
  | 3 => q.replays
  | 4 => q.retrains
  | 5 => q.losses
  | 6 => q.txMsgs
  | 7 => q.rxMsgs
  | 8 => q.rxDiscard
  | i => if i ≤ 12 then BitVec.ofNat 32 (q.credit.get (i - 9)) else 0

/-- TYB_QUERY (R405). -/
def doTybQuery (h : Hdr) (port : Byte) (s : State) : Ans :=
  checks [(h.fn != 0, 0x8001), (decide (1 < port.toNat), 0x8002)]
    (.ok s { ext := some ((List.range 13).flatMap fun i => leBytes 4 ((s.port port.toNat).word i).toNat) })
def execTybQuery (h : Hdr) (port : Byte) (s : State) : Out := firmware h s (doTybQuery h port s)

/-! ### Port states (R386, R387) -/

/-- TYB_PEER_DETECT: a lane port that detects a peer trains; after a failed training detection waits for its retry. -/
def execTybPeerDetect (p : Fin 2) (s : State) : Out :=
  let q := s.port p.val
  .next (if q.state == .detect && !q.tunnel && !q.retry then s.updPort p.val fun q => { q with state := .train } else s)

/-- TYB_TRAIN_DONE: bit lock at a rate, not above MAX_RATE, and a width; or none. -/
def execTybTrainDone (p : Fin 2) (lock : Option (BitVec 2 × BitVec 2)) (s : State) : Out :=
  let q := s.port p.val
  if q.state ≠ .train then .next s
  else match lock with
    | some (r, w) =>
      if q.maxRate < r then .next s
      else .next (s.updPort p.val fun q => { q with state := .config, rate := r, width := w, error := 0, cfgSent := false, cfgGot := false })
    | none => .next (s.updPort p.val fun q => { q with state := .detect, error := 3, retry := true })

/-- TYB_DETECT_RETRY: detection starts again; the port stays in DETECT until a peer is detected. -/
def execTybDetectRetry (p : Fin 2) (s : State) : Out := .next (s.updPort p.val fun q => { q with retry := false })

/-- The payload of this device's CONFIG flits (R387). -/
def State.configPayload (s : State) (p : Nat) : List Byte :=
  leBytes 2 s.tyb.node.toNat ++ leBytes 1 ifaceVersion ++ leBytes 1 p ++ (List.range 4).flatMap fun v => leBytes 2 (vcCredits v)

/-- CONFIG flits have been exchanged: the port is ACTIVE, with credits loaded and FSEQ 0, and an event (R387). -/
def State.configDone (s : State) (p : Nat) : State :=
  let q := s.port p
  if q.state == .config && q.cfgSent && q.cfgGot then
    ((s.updPort p fun q => { q with state := .active, error := 0, nextSeq := 0, expect := 0, replay := [], nak := false, gap := false, naks := 0 }).sendAll p).blockEvent 0x8008
  else s

/-- TYB_CONFIG_FLIT_SEND: a port in CONFIG sends a CONFIG flit. -/
def execTybConfigFlitSend (p : Fin 2) (s : State) : Out :=
  if (s.port p.val).state ≠ .config then .next s
  else
    let pl := s.configPayload p.val
    .next ((s.updPort p.val fun q => { q.emit (q.flitBytes 2 0 false false 0 pl) with cfgSent := true }).configDone p.val)

/-- A flit of 256 bytes whose CRC is good (R388). -/
def flitOk (f : List Byte) : Bool := f.length == 256 && crc32c (f.take 252) == leNat (f.drop 252)

/-- A CONFIG flit arrives at a port in CONFIG (R387). -/
def State.configRx (s : State) (p : Nat) (f : List Byte) : State :=
  let q := s.port p
  if q.state ≠ .config then s
  else if !flitOk f then s.updPort p fun q => { q with crcErrors := satInc q.crcErrors }
  else
    let x := leNat (f.take 252)
    let pl := fun i n => fld x (64 + 8 * i) (8 * n)
    if fld x 0 4 ≠ 2 || fld x 48 16 ≠ 0 || fld x (64 + 96) (8 * 232) ≠ 0 || fld x 78 2 ≠ 0 then s
    else if pl 2 1 ≠ ifaceVersion then s.portDown p .disabled 1
    else if pl 0 2 = s.tyb.node.toNat then s.portDown p .disabled 2
    else
      (s.updPort p fun q => { q with
        cfgGot := true, neighbour := BitVec.ofNat 14 (pl 0 2),
        credit := (List.range 4).foldl (fun c v => c.set v (pl (4 + 2 * v) 2)) ({} : Tab Nat) }).configDone p

def execTybConfigFlitRx (p : Fin 2) (f : List Byte) (s : State) : Out := .next (s.configRx p.val f)

/-- TYB_RETRAIN_ENTRY: an ACTIVE port pauses and keeps its replay buffer and credits. Eight NAKs must have been seen where they are the cause. -/
def execTybRetrainEntry (p : Fin 2) (c : RetrainCause) (s : State) : Out :=
  let q := s.port p.val
  if q.state == .active && (c != .naks || decide (8 ≤ q.naks)) then
    .next (s.updPort p.val fun q => { q with state := .retrain, retrains := satInc q.retrains, naks := 0 })
  else .next s

/-- Resends the replay buffer in order with REPLAYED set (R389). -/
def TybPort.resend (q : TybPort) (fs : List Flit) : TybPort :=
  fs.foldl (fun q f => { q.emit (q.flitBytes 1 f.vc f.som true f.fseq f.payload) with replays := satInc q.replays }) q

/-- A resent probe spoils the measurement in hand (R399). -/
def State.spoil (s : State) (fs : List Flit) : State :=
  if fs.any Flit.probe then { s with tyb.offs := s.tyb.offs.map fun o => { o with spoiled := true } } else s

/-- A port returns from RETRAIN to ACTIVE and resends from the last acknowledged flit (R387). -/
def State.retrained (s : State) (p : Nat) : State :=
  let fs := (s.port p).replay
  ((s.updPort p fun q => ({ q with state := .active }).resend fs).sendAll p).spoil fs

/-- TYB_RETRAIN_DONE. -/
def execTybRetrainDone (p : Fin 2) (rate width : BitVec 2) (s : State) : Out :=
  if (s.port p.val).state = .retrain then
    .next ((s.updPort p.val fun q => if q.tunnel then q else { q with rate := rate, width := width }).retrained p.val)
  else .next s

/-- TYB_RETRAIN_TIMEOUT (R387, R391). -/
def execTybRetrainTimeout (p : Fin 2) (s : State) : Out :=
  if (s.port p.val).state = .retrain then .next (s.portDown p.val .detect 4) else .next s

/-! ### Flits (R388 to R390) -/

/-- A receiver that finds a CRC failure or a gap sets NAK once for the gap. -/
def TybPort.nakOnce (q : TybPort) : TybPort := if q.gap then q else { q with nak := true, gap := true }

/-- A DATA flit accepted in order joins its VC's message; a message whose bytes are complete has arrived, and one whose LENGTH is
above 2^31 is discarded (R388, R392). -/
def TybPort.accept (q : TybPort) (x now : Nat) : TybPort :=
  let v := fld x 4 2
  let payload := leBytes 244 (x / 2 ^ 64)
  let q := { q with expect := (q.expect + 1) % 4096, gap := false, ackDue := true }
  let q := match bit x 6, q.part.get v with | true, some (_, n, _, _) => { q with owed := q.owed.upd v (· + n) } | _, _ => q
  let cur := if bit x 6 then some ([], 0, bit x 7, BitVec.ofNat 64 now) else q.part.get v
  match cur with
  | none => { q with owed := q.owed.upd v (· + 1) }
  | some (bs, n, rep, st) =>
    let bs := bs ++ payload
    let len := fld (leNat (bs.take 16)) 64 32
    if 2 ^ 31 < len then { q with part := q.part.set v none, owed := q.owed.upd v (· + (n + 1)), rxDiscard := satInc q.rxDiscard }
    else if 16 + len ≤ bs.length then
      { q with part := q.part.set v none, arrived := q.arrived ++ [(bs.take (16 + len), n + 1, rep, st)], rxMsgs := satInc q.rxMsgs }
    else { q with part := q.part.set v (some (bs, n + 1, rep, st)) }

/-- ACK, NAK and credits of a received flit (R389, R390): covered flits leave the replay buffer, credits grow, and a NAK resends the rest. -/
def State.flitBack (s : State) (p x : Nat) : State :=
  let q := s.port p
  let ack := fld x 20 12
  let done := q.replay.filter fun f => atOrLater 12 ack f.fseq
  let left := q.replay.filter fun f => !atOrLater 12 ack f.fseq
  let s := s.updPort p fun q => { q with replay := left, credit := q.credit.upd (fld x 33 2) (· + fld x 35 13), naks := if done.isEmpty then q.naks else 0 }
  let s := done.foldl (fun s f => match f.reply with | some h => s.reply h {} | none => s) s
  let s := if bit x 32 then (s.updPort p fun q => ({ q with naks := q.naks + 1 }).resend left).spoil left else s
  s.sendAll p

/-- A flit arrives at an ACTIVE port, its stamp being `at_` (R389, R399). -/
def State.flitRx (s : State) (p : Nat) (f : List Byte) (at_ : Nat) : State :=
  if (s.port p).state ≠ .active then s
  else if !flitOk f then s.updPort p fun q => ({ q with crcErrors := satInc q.crcErrors }).nakOnce
  else
    let x := leNat (f.take 252)
    let s := s.flitBack p x
    if fld x 0 4 ≠ 1 then s
    else
      let q := s.port p
      if fld x 8 12 = q.expect then s.updPort p fun q => q.accept x at_
      else if 0 < wdiff 12 (fld x 8 12) q.expect then s.updPort p TybPort.nakOnce
      else s.updPort p fun q => { q with ackDue := true }

/-- TYB_FLIT_RX. -/
def execTybFlitRx (p : Fin 2) (f : List Byte) (s : State) : Out := .next (s.flitRx p.val f s.now.toNat)

/-! ### Messages (R392 to R396) -/

/-- A whole message leaves the port: its flits' credits are returned. -/
def State.freeFlits (s : State) (p vc n : Nat) : State := if n = 0 then s else s.updPort p fun q => { q with owed := q.owed.upd vc (· + n) }

/-- TYB_MSG_RX: the message that arrived first is discarded, delivered or forwarded. -/
def State.msgRx (s0 : State) (p : Nat) : State :=
  match (s0.port p).arrived with
  | [] => s0
  | (bs, n, rep, st) :: rest =>
    let s := s0.updPort p fun q => { q with arrived := rest }
    let x := leNat (bs.take 16)
    let dst := fld x 0 14; let src := fld x 16 14; let type := fld x 32 8; let hops := fld x 40 6; let len := fld x 64 32
    let vc := vcOf type
    if s.tyb.node = 0 || dst = 0 || src = 0 || type = 0 || 10 < type || fld x 14 2 ≠ 0 || fld x 30 2 ≠ 0 || fld x 46 18 ≠ 0 || 2 ^ 31 < len then
      (s.rxDiscard p).freeFlits p vc n
    else
      let m : Msg := { dst := dst, src := src, type := type, hops := hops, mseq := fld x 96 32, payload := bs.drop 16, replayed := rep, held := n, stamp := st }
      if dst = s.tyb.node.toNat then s.updPort p fun q => { q with inbox := q.inbox ++ [m] }
      else if hops ≤ 1 then ({ s with tyb.hopsExpired := satInc s.tyb.hopsExpired }).freeFlits p vc n
      else match s.route dst with
        | none => ({ s with tyb.noRoute := satInc s.tyb.noRoute }).freeFlits p vc n
        | some r => s.enqueue r.portNo (({ m with hops := hops - 1 }.flits none).map fun (f : Flit) => { f with from_ := if n = 0 then none else some p })

def execTybMsgRx (p : Fin 2) (s : State) : Out := .next (s.msgRx p.val)

/-- HOST_MSG_RX (R405): a TYB_MSG event with SRC and DATA. -/
def execHostMsgRx (p : Fin 2) (s : State) : Out :=
  match s.takeMsg p.val 8 with
  | none => .next s
  | some (m, s) => .next (s.blockEvent 0x8006 (some (m.src + leNat (m.payload.take 28) * 2 ^ 32)))

/-! ### Offset measurement (R399) -/

/-- The time of beam 0 of frame 0, or 0 if no plan runs. -/
def State.planStart (s : State) : BitVec 64 := match s.pln.state with | .running | .stopping => s.pln.startTime | _ => 0

/-- OFFSET_PROBE_RX: the reply carries t1, t2, t3 and the plan start. -/
def execOffsetProbeRx (p : Fin 2) (s : State) : Out :=
  match s.takeMsg p.val 9 with
  | none => .next s
  | some (m, s) =>
    .next (s.sendVia p.val m.src 10 (leBytes 8 (leNat (m.payload.take 8)) ++ leBytes 8 m.stamp.toNat ++ leBytes 8 s.now.toNat ++ leBytes 8 s.planStart.toNat))

/-- OFFSET and DELAY of four stamps. -/
def offsetOf (t1 t2 t3 t4 : Nat) : Int × Int :=
  ((wdiff 64 t2 t1 + wdiff 64 t3 t4) / 2, (wdiff 64 t4 t1 - wdiff 64 t3 t2) / 2)

/-- OFFSET_REPLY_RX: the measurement completes; a first resend repeats it and a second ends it with TYB_STAMP. -/
def execOffsetReplyRx (p : Fin 2) (s : State) : Out :=
  match s.takeMsg p.val 10 with
  | none => .next s
  | some (m, s) =>
    match s.tyb.offs with
    | none => .next s
    | some o =>
      let w := fun i => fld (leNat m.payload) (64 * i) 64
      if o.port ≠ p.val || w 0 ≠ o.t1.toNat then .next s
      else if m.replayed || o.spoiled then
        if o.repeated then .next ({ s with tyb.offs := none }.replyOpt o.h { status := 0x8005 })
        else .next (s.sendProbe o.h p.val true)
      else
        let (off, del) := offsetOf (w 0) (w 1) (w 2) m.stamp.toNat
        let start := sgn 64 (w 3) - off - sgn 64 s.planStart.toNat
        let ext := (([off, del, start].map (wrap 64)) ++ [w 0, w 1, w 2, m.stamp.toNat]).flatMap (leBytes 8)
        .next ({ s with tyb.offs := none }.replyOpt o.h { ext := some ext })

end Sys2Proof.Machine
end

