-- ==== Sys2Proof/Machine/Ethernet.lean ====
section
/-! DEFINITION. Ethernet MACs (R354 to R366), the comparators' events (R350) and tunnelled Tyben ports' frames (R397). -/

namespace Sys2Proof.Machine

def State.mac (s : State) (m : Nat) : Mac := s.eth.macs.get m
def State.updMac (s : State) (m : Nat) (f : Mac → Mac) : State := { s with eth.macs := s.eth.macs.upd m f }
def Mac.updLaunch (q : Mac) (e : Nat) (f : EthLaunch → EthLaunch) : Mac := { q with launches := q.launches.upd e f }
def Mac.late (q : Mac) : Mac := { q with launchLate := satInc q.launchLate }

/-- Time of a byte in fifths of a nanosecond at a SPEED code (R354). -/
def byteFifths (speed : BitVec 2) : Nat := if speed = 0 then 4 else if speed = 1 then 8 else 16

/-- A frame with its padding (R355). -/
def padFrame (f : List Byte) : List Byte := f ++ List.replicate (60 - f.length) 0

/-- A frame's duration in fifths of a nanosecond (R362). -/
def Mac.duration (q : Mac) (f : List Byte) : Nat := (8 + (padFrame f).length + 4) * byteFifths q.speed

/-! ### Commands (R364) -/

/-- A MAC that is disabled answers every queued frame with ETH_STATE (R364). -/
def State.dropQueued (s : State) (m : Nat) : State :=
  let ps := (s.mac m).classes.cells.flatMap (·.2)
  ps.foldl (fun s p => s.replyOpt p.h { status := 0x7021 }) (s.updMac m fun q => { q with classes := {} })

/-- ETH_PORT_CONFIG (R356, R363, R364). -/
def doEthPortConfig (h : Hdr) (mac speed enable : Byte) (maxFrame : BitVec 16) (txDelay rxDelay lateNs : Word) (s : State) : Ans :=
  let m := mac.toNat
  checks [(h.fn != 0, 0x7001),
          (decide (7 < m) || decide (2 < speed.toNat) || decide (1 < enable.toNat) || !within 60 9216 maxFrame.toNat || decide (1000000 < lateNs.toNat), 0x7020),
          (enable == 1 && (s.mac m).enabled, 0x7021)]
    (let s := if enable = 0 && (s.mac m).enabled then (s.dropQueued m).updMac m fun q => { q with link := false } else s
     .ok (s.updMac m fun q => { q with enabled := enable = 1, speed := speed.setWidth 2, maxFrame := maxFrame.toNat,
                                       txDelay := txDelay, rxDelay := rxDelay, lateNs := lateNs.toNat }) {})

def execEthPortConfig (h : Hdr) (mac speed enable : Byte) (maxFrame : BitVec 16) (txDelay rxDelay lateNs : Word) (s : State) : Out :=
  firmware h s (doEthPortConfig h mac speed enable maxFrame txDelay rxDelay lateNs s)

/-- Bytes of a host-mode record (R358). -/
def Mac.recBytes (q : Mac) : Nat := upLine (64 + q.maxFrame)

/-- ETH_RXQ_CONFIG (R358): the whole ring of mode 1 must lie in allowed memory. -/
def doEthRxqConfig (h : Hdr) (mac queue mode log2 : Byte) (minGap : Word) (base wb : BitVec 64) (s : State) : Ans :=
  let m := mac.toNat
  let n := if mode = 1 then 2 ^ log2.toNat * (s.mac m).recBytes else 64
  checks [(h.fn != 0, 0x7001),
          (decide (7 < m) || decide (3 < queue.toNat) || decide (2 < mode.toNat) || !within 2 16 log2.toNat, 0x7020),
          (!(lineAligned base.toNat && s.hostMem 0 base.toNat n && lineAligned wb.toNat && s.hostMem 0 wb.toNat 4), 0x7022),
          ((s.binding (208 + 4 * m + queue.toNat)).isSome, 0x7021)]
    (.ok (s.updMac m fun q => { q with queues := q.queues.upd queue.toNat fun r =>
        { r with mode := mode.setWidth 2, log2 := log2.toNat, minGap := minGap.toNat, base := base.toNat, wb := wb.toNat, head := 0, tail := 0 } }) {})

def execEthRxqConfig (h : Hdr) (mac queue mode log2 : Byte) (minGap : Word) (base wb : BitVec 64) (s : State) : Out :=
  firmware h s (doEthRxqConfig h mac queue mode log2 minGap base wb s)

/-- ETH_FILTER_SET (R357). -/
def doEthFilterSet (h : Hdr) (mac index queue tests : Byte) (etype vid : BitVec 16) (da : BitVec 48) (s : State) : Ans :=
  checks [(h.fn != 0, 0x7001), (decide (7 < mac.toNat) || decide (15 < index.toNat) || decide (4 < queue.toNat) || decide (7 < tests.toNat), 0x7020)]
    (let g : EthFilter := { used := true, queue := queue.setWidth 3, tests := tests.setWidth 3, etype := etype, vid := vid.setWidth 12, da := da }
     .ok (s.updMac mac.toNat fun q => { q with filters := q.filters.set index.toNat g }) {})

def execEthFilterSet (h : Hdr) (mac index queue tests : Byte) (etype vid : BitVec 16) (da : BitVec 48) (s : State) : Out :=
  firmware h s (doEthFilterSet h mac index queue tests etype vid da s)

/-- The first start of a cycle that lies 10 µs or more after NOW (R361). -/
def gclStart (now base cycle : Nat) : Nat :=
  let d := wdiff 64 (now + 10000) base
  if d ≤ 0 then base else base + cdiv d.toNat cycle * cycle

/-- ETH_GCL_SET (R361): a list pends until it becomes operational. -/
def doEthGclSet (h : Hdr) (mac : Byte) (len : BitVec 16) (cycle : Word) (baseTime : BitVec 64) (entries : List (BitVec 64)) (s : State) : Ans :=
  let es := (entries.take len.toNat).map fun e => (fld e.toNat 0 8, fld e.toNat 32 32)
  checks [(h.fn != 0, 0x7001),
          (decide (7 < mac.toNat) || !within 1 256 len.toNat || !within 1000 1000000000 cycle.toNat || es.length != len.toNat ||
            es.any (fun e => decide (e.2 < 100)) || (es.foldl (fun a e => a + e.2) 0) != cycle.toNat, 0x7020)]
    (.ok (s.updMac mac.toNat fun q => { q with
        pendGcl := some { entries := es, cycle := cycle.toNat, start := gclStart s.now.toNat baseTime.toNat cycle.toNat } }) {})

def execEthGclSet (h : Hdr) (mac : Byte) (len : BitVec 16) (cycle : Word) (baseTime : BitVec 64) (entries : List (BitVec 64)) (s : State) : Out :=
  firmware h s (doEthGclSet h mac len cycle baseTime entries s)

/-- ETH_TX_POST (R359): the reply follows the frame's last bit. -/
def doEthTxPost (h : Hdr) (mac cls launch : Byte) (length : BitVec 16) (addr at_ : BitVec 64) (s : State) : Ans :=
  let m := mac.toNat
  let q := s.mac m
  checks [(h.fn != 0, 0x7001),
          (decide (7 < m) || decide (7 < cls.toNat) || decide (1 < launch.toNat) || !within 1 q.maxFrame length.toNat, 0x7020),
          (!(lineAligned addr.toNat && s.hostMem 0 addr.toNat length.toNat), 0x7022),
          (!q.enabled, 0x7021),
          (decide (32 ≤ (q.classes.get cls.toNat).length), 0x7023)]
    (let p : EthPost := { frame := s.rd addr.toNat length.toNat, at_ := if launch = 1 then some at_ else none, due := false, h := some h }
     let s := if launch = 1 then s.armLate at_ else s
     .later (s.updMac m fun q => { q with classes := q.classes.upd cls.toNat (· ++ [p]) }))

def execEthTxPost (h : Hdr) (mac cls launch : Byte) (length : BitVec 16) (addr at_ : BitVec 64) (s : State) : Out :=
  firmware h s (doEthTxPost h mac cls launch length addr at_ s)

/-- ETH_LAUNCH_SET (R360). -/
def doEthLaunchSet (h : Hdr) (mac entry cls mode : Byte) (length : BitVec 16) (src at_ : BitVec 64) (s : State) : Ans :=
  let m := mac.toNat; let e := entry.toNat
  checks [(h.fn != 0, 0x7001),
          (decide (7 < m) || decide (63 < e) || decide (7 < cls.toNat) || decide (2 < mode.toNat) || !within 1 256 length.toNat, 0x7020),
          (!(lineAligned src.toNat && s.hostMem 0 src.toNat length.toNat), 0x7022),
          (s.loopNames 3 m e true, 0x7025)]
    (let s := if mode = 1 then s.armLate at_ else s
     .ok (s.updMac m fun q => q.updLaunch e fun x =>
        { x with mode := mode.setWidth 2, cls := cls.toNat, frame := s.rd src.toNat length.toNat,
                 at_ := if mode = 1 then some at_ else none, due := false }) {})

def execEthLaunchSet (h : Hdr) (mac entry cls mode : Byte) (length : BitVec 16) (src at_ : BitVec 64) (s : State) : Out :=
  firmware h s (doEthLaunchSet h mac entry cls mode length src at_ s)

/-- ETH_LAUNCH_QUERY (R364). -/
def doEthLaunchQuery (h : Hdr) (mac entry : Byte) (s : State) : Ans :=
  let x := (s.mac mac.toNat).launches.get entry.toNat
  checks [(h.fn != 0, 0x7001), (decide (7 < mac.toNat) || decide (63 < entry.toNat), 0x7020)]
    (.ok s { timeRep x.stamp with detail := x.sent.toNat })

def execEthLaunchQuery (h : Hdr) (mac entry : Byte) (s : State) : Out := firmware h s (doEthLaunchQuery h mac entry s)

/-- A MAC's registers by word offset (R366, Table 9). -/
def Mac.word (q : Mac) (i : Nat) : Word :=
  match i with
  | 0 => BitVec.ofNat 32 (pack [(0, 1, b2n q.enabled), (1, 1, b2n q.link), (2, 2, q.speed.toNat), (4, 1, b2n q.pendGcl.isSome)])
  | 1 => BitVec.ofNat 32 (pack [(0, 8, q.entry), (8, 1, b2n q.gcl.isSome)])
  | 4 => q.txDelay
  | 5 => q.rxDelay
  | 8 => q.txFrames
  | 9 => q.rxFrames
  | 10 => q.rxFcs
  | 11 => q.rxControl
  | 12 => q.rxUnqueued
  | 13 => q.launchLate
  | 14 => q.gateDiscard
  | i =>
    if within 64 79 i then
      let r := q.queues.get ((i - 64) / 4)
      match (i - 64) % 4 with | 0 => r.head | 1 => r.tail | 2 => r.seq | _ => r.drops
    else 0

/-- ETH_QUERY (R364). -/
def doEthQuery (h : Hdr) (mac : Byte) (s : State) : Ans :=
  checks [(h.fn != 0, 0x7001), (decide (7 < mac.toNat), 0x7020)]
    (.ok s { ext := some ((List.range 16 ++ (List.range 16).map (64 + ·)).flatMap fun i => leBytes 4 ((s.mac mac.toNat).word i).toNat) })

def execEthQuery (h : Hdr) (mac : Byte) (s : State) : Out := firmware h s (doEthQuery h mac s)

def Mac.updQueue (q : Mac) (k : Nat) (f : EthQueue → EthQueue) : Mac := { q with queues := q.queues.upd k f }

/-- ETH_RXQ_HEAD_WRITE (R358): HEAD moves, unless the value breaks the rule of a ring that Kreham produces. -/
def execEthRxqHeadWrite (m : Fin 8) (q : Fin 4) (value : Word) (s : State) : Out :=
  .next (s.updMac m.val fun x => x.updQueue q.val fun r =>
    if atOrLater 32 value.toNat r.head.toNat && atOrLater 32 r.tail.toNat value.toNat then { r with head := value } else r)

/-- ETH_LINK_CHANGE (R366). -/
def execEthLinkChange (m : Fin 8) (up : Bool) (s : State) : Out :=
  .next (if (s.mac m.val).enabled then s.updMac m.val fun q => { q with link := up } else s)

/-! ### Gates (R361 to R363) -/

/-- The entries of a list in order from its position `pos` for one whole cycle, the first cut to what is left of it. -/
def gatesFrom : Nat → List (Nat × Nat) → List (Nat × Nat) → List (Nat × Nat)
  | _, [], done => done.reverse
  | pos, (g, n) :: t, done =>
    if n ≤ pos then gatesFrom (pos - n) t ((g, n) :: done) else (g, n - pos) :: t ++ done.reverse ++ [(g, pos)]

/-- Nanoseconds for which the gate of class `c` stays open from the front of a list of entries. -/
def openRun (c : Nat) : List (Nat × Nat) → Nat
  | [] => 0
  | (g, n) :: t => if bit g c then n + openRun c t else 0

/-- Position in the list's cycle at time `now`. -/
def Gcl.pos (g : Gcl) (now : Nat) : Nat := (wdiff 64 now g.start % (g.cycle : Int)).toNat

/-- The entry in force at a position. -/
def entryAt : Nat → List (Nat × Nat) → Nat → Nat
  | _, [], _ => 0
  | pos, (_, n) :: t, i => if pos < n then i else entryAt (pos - n) t (i + 1)

/-- The gate of class `c` is open now and stays open for `fifths` of a nanosecond (R362); with no operational list it is open. -/
def Mac.openFor (q : Mac) (now c fifths : Nat) : Bool :=
  match q.gcl with
  | none => true
  | some g => g.entries.all (fun e => bit e.1 c) || decide (fifths ≤ 5 * openRun c (gatesFrom (g.pos now) g.entries []))

/-- Some open interval of class `c` in the operational list holds the duration (R363). -/
def Mac.everFits (q : Mac) (c fifths : Nat) : Bool :=
  match q.gcl with
  | none => true
  | some g => g.entries.all (fun e => bit e.1 c) ||
      (List.range g.entries.length).any fun i => decide (fifths ≤ 5 * openRun c (g.entries.drop i ++ g.entries.take i))

/-- ETH_GATE_CHANGE (R361): the entry in force follows the time base. -/
def execEthGateChange (m : Fin 8) (s : State) : Out :=
  .next (s.updMac m.val fun q => match q.gcl with
    | some g => { q with entry := entryAt (g.pos s.now.toNat) g.entries 0 }
    | none => q)

/-- ETH_GCL_SWITCH (R361): the pending list becomes operational at its instant. -/
def execEthGclSwitch (m : Fin 8) (s : State) : Out :=
  .next (s.updMac m.val fun q => match q.pendGcl with
    | some g => if atOrLater 64 s.now.toNat g.start then { q with gcl := some g, pendGcl := none, entry := 0 } else q
    | none => q)

/-! ### Launches (R350, R360, R363) -/

/-- A launch entry's launch leaves the entry unsent and is counted. -/
def State.launchLate (s : State) (m e : Nat) : State := s.updMac m fun q => (q.updLaunch e fun x => { x with at_ := none, due := false }).late

/-- The `i`-th posted frame of a class is discarded with ETH_LAUNCH_LATE and counted. -/
def State.postLate (s : State) (m c i : Nat) : State :=
  match ((s.mac m).classes.get c)[i]? with
  | none => s
  | some p => (s.updMac m fun q => ({ q with classes := q.classes.upd c (dropAt i) }).late).replyOpt p.h { status := 0x7024 }

/-- A launch entry's comparator fires: the launch is due, or is discarded in replay (R248). -/
def State.launchFire (s : State) (m e : Nat) : State :=
  match ((s.mac m).launches.get e).at_ with
  | some t =>
    if !atOrLater 64 s.now.toNat t.toNat then s
    else if s.jrn.r.running then s.launchLate m e
    else s.updMac m fun q => q.updLaunch e fun x => { x with due := true }
  | none => s

/-- A posted frame's comparator fires. -/
def State.postFire (s : State) (m c i : Nat) : State :=
  match ((s.mac m).classes.get c)[i]?.bind EthPost.at_ with
  | some t =>
    if !atOrLater 64 s.now.toNat t.toNat then s
    else if s.jrn.r.running then s.postLate m c i
    else s.updMac m fun q => { q with classes := q.classes.upd c fun ps => ps.mapIdx fun j p => if j = i then { p with due := true } else p }
  | none => s

/-- COMPARATOR_FIRE (R350). -/
def execComparatorFire (c : Comparator) (s : State) : Out :=
  match c with
  | .pin p => .next (s.pinFire p.val)
  | .can k b => .next (s.canFire k.val b.val)
  | .launch m e => .next (s.launchFire m.val e.val)
  | .post m k i => .next (s.postFire m.val k.val i)

/-- A loop hands over a value's frame and launch time (R360). -/
def State.ethHandover (s : State) (m e : Nat) (frame : List Byte) (t : BitVec 64) : State :=
  let x := (s.mac m).launches.get e
  let s := s.updMac m fun q => q.updLaunch e fun x => { x with frame := frame }
  if x.mode ≠ 2 then s
  else
    let s := if x.at_.isSome then s.launchLate m e else s
    let s := (s.armLate t).updMac m fun q => q.updLaunch e fun x => { x with at_ := some t, due := false }
    s.launchFire m e

/-- The device safe state withdraws launch entries' launches and posted frames with a launch time (R434). -/
def State.ethWithdrawAll (s : State) : State :=
  (List.range 8).foldl (fun s m =>
    let q := s.mac m
    let s := (q.launches.keys fun x => x.at_.isSome).foldl (fun s e => s.launchLate m e) s
    q.classes.cells.foldl (fun s c =>
      let out := c.2.filter fun p => p.at_.isSome
      let s := s.updMac m fun q => { q with classes := q.classes.set c.1 (c.2.filter fun p => p.at_.isNone) }
      out.foldl (fun s p => (s.updMac m Mac.late).replyOpt p.h { status := 0x7024 }) s) s) s

/-! ### Sending (R355, R356, R362) -/

/-- A frame that may start: the frame and where it comes from. -/
abbrev Cand := List Byte × TxFrom

/-- Transmit time-stamp, as a value of the time base, of a frame that starts now (R356): the first bit after the SFD follows 8 bytes. -/
def State.txTime (s : State) (m : Nat) : Nat :=
  let q := s.mac m
  (s.tim.time + 8 * byteFifths q.speed * 2 ^ 40 / 5 + q.txDelay.toNat * 2 ^ 24) % timeMod

/-- A flit of a tunnel frame as it is sent: the stamp of a message of this device's own is the frame's (R399). -/
def stampFlit (node : Nat) (now : BitVec 64) (f : List Byte) : List Byte :=
  let x := leNat (f.take 8)
  if fld x 0 4 = 1 && bit x 6 && !bit x 7 then
    let body := f.take 8 ++ stampPayload node now true ((f.drop 8).take 244)
    body ++ leBytes 4 (crc32c body)
  else f

/-- A flit carries this device's own probe, sent for the first time. -/
def ownProbe (node : Nat) (f : List Byte) : Bool :=
  let x := leNat (f.take 16)
  fld x 0 4 == 1 && bit x 6 && !bit x 7 && fld x 80 14 == node && fld x 96 8 == 9

/-- The tunnelled port that has flits for MAC `m` and class `c` (R397). -/
def State.tunnelPort (s : State) (m c : Nat) : Option Nat :=
  [0, 1].find? fun p => let q := s.port p; q.tunnel && q.state != .disabled && q.mac == m && q.cls == c && !q.wire.isEmpty

/-- A tunnel frame: addresses, EtherType, tunnel header and up to FLITS flits (R397). -/
def State.tunnelFrame (s : State) (p : Nat) : List Byte :=
  let q := s.port p
  let fs := (q.wire.take q.flits).map (stampFlit s.tyb.node.toNat (timeNow (s.txTime q.mac)))
  leBytes 6 q.peerMac.toNat ++ leBytes 6 (Config.macAddr q.mac).toNat ++ [0x88, 0xB5] ++
    leBytes 4 (pack [(0, 8, 0x10), (8, 8, p), (16, 8, fs.length)]) ++ fs.flatten

/-- Due launch entries of a class: earliest launch time first, then the lowest entry (R362). -/
def Mac.dueLaunches (q : Mac) (now c : Nat) : List Nat :=
  ((q.launches.cells.filter fun x => x.2.cls == c && x.2.due && x.2.at_.isSome).mergeSort fun a b =>
    decide (wdiff 64 ((a.2.at_.getD 0).toNat) now ≤ wdiff 64 ((b.2.at_.getD 0).toNat) now)).map (·.1)

/-- A class's candidates in order (R362): due launches, then a tunnel frame or else the queue's head. -/
def State.candidates (s : State) (m c : Nat) : List Cand :=
  let q := s.mac m
  let ls := (q.dueLaunches s.now.toNat c).map fun e => ((q.launches.get e).frame, TxFrom.launch e)
  let hd := match s.tunnelPort m c with
    | some p => [(s.tunnelFrame p, TxFrom.tunnel p)]
    | none => match q.classes.get c with
      | [] => []
      | p :: _ => if p.at_.isNone || p.due then [(p.frame, TxFrom.post p.h)] else []
  ls ++ hd

/-- A frame leaves its place: it starts, or is discarded. -/
def State.takeFrame (s : State) (m c : Nat) (f : TxFrom) : State :=
  match f with
  | .launch e => s.updMac m fun q => q.updLaunch e fun x => { x with at_ := none, due := false }
  | .tunnel p =>
    let q := s.port p
    let s := if (q.wire.take q.flits).any (ownProbe s.tyb.node.toNat) then
        { s with tyb.offs := s.tyb.offs.map fun o => { o with t1 := timeNow (s.txTime q.mac) } }
      else s
    s.updPort p fun q => { q with wire := q.wire.drop q.flits }
  | .post _ => s.updMac m fun q => { q with classes := q.classes.upd c List.tail }

/-- The frames at the head of a class: its candidates, and a posted frame whose launch time is to come. -/
def State.heads (s : State) (m c : Nat) : List Cand :=
  s.candidates m c ++ match s.tunnelPort m c, (s.mac m).classes.get c with
    | none, p :: _ => if p.at_.isNone || p.due then [] else [(p.frame, TxFrom.post p.h)]
    | _, _ => []

/-- Frames of a class that can never fit a gate are discarded as they come to the head (R363). -/
def State.gateDiscards (s : State) (m c : Nat) : Nat → State
  | 0 => s
  | n + 1 =>
    let q := s.mac m
    match (s.heads m c).find? fun x => !q.everFits c (q.duration x.1) with
    | none => s
    | some x =>
      let s := (s.takeFrame m c x.2).updMac m fun q => { q with gateDiscard := satInc q.gateDiscard }
      (match x.2 with | .post h => s.replyOpt h { status := 0x7026 } | _ => s).gateDiscards m c n

/-- ETH_LAUNCH_DISCARD (R363): a launch not started by its time plus LATE_NS is discarded; one at the head that can never fit a gate is discarded as
such. -/
def execEthLaunchDiscard (c : Comparator) (s0 : State) : Out :=
  match c with
  | .launch m e =>
    let s := s0.gateDiscards m.val (((s0.mac m.val).launches.get e.val).cls) 97
    let q := s.mac m.val
    .next (match (q.launches.get e.val).at_ with
      | some t => if atOrLater 64 s.now.toNat (t + BitVec.ofNat 64 q.lateNs).toNat then s.launchLate m.val e.val else s
      | none => s)
  | .post m k i0 =>
    let s := s0.gateDiscards m.val k.val 97
    let q := s.mac m.val
    let gone := ((s0.mac m.val).classes.get k.val).length - (q.classes.get k.val).length
    let i := i0 - gone
    .next (match if i0 < gone then none else (q.classes.get k.val)[i]?.bind EthPost.at_ with
      | some t => if atOrLater 64 s.now.toNat (t + BitVec.ofNat 64 q.lateNs).toNat then s.postLate m.val k.val i else s
      | none => s)
  | .pin _ | .can _ _ => .next s0

/-- The classes from 7 down to 0. -/
def classOrder : List Nat := [7, 6, 5, 4, 3, 2, 1, 0]

/-- The transmit time-stamp of a frame that starts now (R356). -/
def State.txStamp (s : State) (m : Nat) : BitVec 96 := time96 (s.txTime m)

/-- ETH_TX_START (R362): an idle MAC starts its first eligible frame. -/
def execEthTxStart (m : Fin 8) (s0 : State) : Out :=
  if !(s0.mac m.val).enabled || (s0.mac m.val).tx.isSome then .next s0
  else
    let s := classOrder.foldl (fun s c => s.gateDiscards m.val c 97) s0
    let q := s.mac m.val
    let all := classOrder.flatMap fun c => (s.candidates m.val c).map fun x => (c, x)
    match all.find? fun x => q.openFor s.now.toNat x.1 (q.duration x.2.1) with
    | none => .next s
    | some (c, f, src) =>
      .next ((s.takeFrame m.val c src).updMac m.val fun q => { q with tx := some { frame := padFrame f, from_ := src, stamp := s.txStamp m.val } })

/-- ETH_TX_DONE (R355, R359, R360): the last bit is sent; the frame goes out with its FCS, and a posted frame's reply carries its time-stamp. -/
def execEthTxDone (m : Fin 8) (s : State) : Out :=
  match (s.mac m.val).tx with
  | none => .next s
  | some t =>
    let s := s.updMac m.val fun q => { q with tx := none, txFrames := satInc q.txFrames, wire := q.wire ++ [t.frame ++ leBytes 4 (crc32 t.frame)] }
    match t.from_ with
    | .post h => .next (s.replyOpt h (timeRep t.stamp))
    | .launch e => .next (s.updMac m.val fun q => q.updLaunch e fun x => { x with sent := x.sent + 1, stamp := t.stamp })
    | .tunnel _ => .next s

/-! ### Receiving (R355 to R358, R397) -/

/-- Sixteen bits of a frame in the order sent. -/
def be16 (f : List Byte) (i : Nat) : Nat := beNat ((f.drop i).take 2)

/-- The frame carries an 802.1Q tag. -/
def tagged (f : List Byte) : Bool := be16 f 12 == 0x8100

/-- The EtherType after any tag (R357). -/
def etherType (f : List Byte) : Nat := if tagged f then be16 f 16 else be16 f 12

/-- A filter matches a frame (R357). -/
def EthFilter.matches (g : EthFilter) (f : List Byte) : Bool :=
  g.used && (!g.tests.getLsbD 0 || etherType f == g.etype.toNat) && (!g.tests.getLsbD 1 || (tagged f && be16 f 14 % 4096 == g.vid.toNat)) &&
    (!g.tests.getLsbD 2 || leNat (f.take 6) == g.da.toNat)

/-- The receive time-stamp of a frame whose last byte has just arrived (R356): the first bit after the SFD came a frame earlier. -/
def State.rxTime (s : State) (m bytes : Nat) : Nat :=
  let q := s.mac m
  ((((s.tim.time : Int) - (bytes * byteFifths q.speed * 2 ^ 40 / 5 : Nat) - (q.rxDelay.toNat * 2 ^ 24 : Nat)) % (timeMod : Int)).toNat)

def State.rxStamp (s : State) (m bytes : Nat) : BitVec 96 := time96 (s.rxTime m bytes)

/-- A frame of a tunnelled port (R397): the port's state advances, and each flit is received, its stamp being the frame's (R399). -/
def State.tunnelRx (s : State) (p : Nat) (f : List Byte) (at_ : Nat) : State :=
  let hd := leNat ((f.drop 14).take 4)
  let n := fld hd 16 8
  if fld hd 0 8 ≠ 0x10 || fld hd 24 8 ≠ 0 || !within 1 8 n || f.length < 18 + 256 * n then s
  else
    let s := match (s.port p).state with
      | .detect => s.updPort p fun q => { q with state := .config, error := 0 }
      | .retrain => s.retrained p
      | _ => s
    (List.range n).foldl (fun s i =>
      let x := (f.drop (18 + 256 * i)).take 256
      match (s.port p).state with
      | .config => s.configRx p x
      | .active => s.flitRx p x at_
      | _ => s) s

/-- A frame enters a host-mode ring (R358, Table 3), or is dropped when the ring is full. -/
def State.rxRing (s : State) (m k : Nat) (f : List Byte) (stamp : BitVec 96) : State :=
  let q := s.mac m
  let r := q.queues.get k
  if 2 ^ r.log2 ≤ (r.tail - r.head).toNat then s.updMac m fun q => q.updQueue k fun r => { r with drops := satInc r.drops }
  else
    let rec_ := leBytes 64 (pack [(0, 16, f.length), (16, 2, k), (18, 1, b2n (tagged f)), (32, 32, r.seq.toNat), (64, 96, stamp.toNat)]) ++ f
    let s := s.wr (r.base + r.tail.toNat % 2 ^ r.log2 * q.recBytes) rec_
    let s := s.wrN r.wb 4 (r.tail + 1).toNat
    s.updMac m fun q => q.updQueue k fun r => { r with tail := r.tail + 1 }

/-- A frame enters its intake point (R358): at least MIN_GAP_US after the previous admitted one, and into a free slot. -/
def State.rxIntake (s : State) (m k : Nat) (f : List Byte) (stamp : BitVec 96) : State :=
  let p := 208 + 4 * m + k
  let r := (s.mac m).queues.get k
  let drop := fun (s : State) => s.updMac m fun q => q.updQueue k fun r => { r with drops := satInc r.drops }
  if s.pointLive p && r.last.any (fun t => decide (s.tick - t < 600 * r.minGap)) then drop (s.dropRate p)
  else
    let (ok, s) := s.offer p r.seq.toNat f.length (leBytes 12 stamp.toNat ++ List.replicate 52 0 ++ f)
    if ok then s.updMac m fun q => q.updQueue k fun r => { r with last := some s.tick } else drop s

/-- ETH_FRAME_RECEIVE (R355 to R358, R397): a frame whole, with its FCS. -/
def execEthFrameReceive (m : Fin 8) (frame : List Byte) (s : State) : Out :=
  let q := s.mac m.val
  let n := frame.length
  let f := frame.take (n - 4)
  if !q.enabled then .next s
  else if n < 4 || crc32 f ≠ leNat (frame.drop (n - 4)) then .next (s.updMac m.val fun q => { q with rxFcs := satInc q.rxFcs })
  else
    let s := s.updMac m.val fun q => { q with rxFrames := satInc q.rxFrames }
    if n < 64 || q.maxFrame + 4 < n then .next s
    else if etherType f = 0x8808 then .next (s.updMac m.val fun q => { q with rxControl := satInc q.rxControl })
    else
      let tun := if etherType f = 0x88B5 && !tagged f then
          [0, 1].find? fun p => let t := s.port p; t.tunnel && t.state != .disabled && t.mac == m.val && leNat ((f.drop 6).take 6) == t.peerMac.toNat
        else none
      match tun with
      | some p => .next (s.tunnelRx p f (timeNow (s.rxTime m.val n)).toNat)
      | none =>
        let k := match ((List.range 16).map q.filters.get).find? fun g => g.matches f with | some g => g.queue.toNat | none => 0
        let r := q.queues.get k
        if 3 < k || r.mode = 0 then .next (s.updMac m.val fun q => { q with rxUnqueued := satInc q.rxUnqueued })
        else
          let stamp := s.rxStamp m.val n
          let s := s.updMac m.val fun q => q.updQueue k fun r => { r with seq := r.seq + 1 }
          .next (if r.mode = 1 then s.rxRing m.val k f stamp else s.rxIntake m.val k f stamp)

end Sys2Proof.Machine
end

