-- ==== Sys2Proof/Machine/Cle.lean ====
section
/-! DEFINITION. The control loop engine (R318 to R342, R531, R532): loops, inputs, mailboxes, PWM pairs, generators, captures. -/

namespace Sys2Proof.Machine

/-! ### Arithmetic (R325) -/

/-- Right shift with rounding to nearest, ties toward plus infinity. -/
def sh (p : Int) (n : Nat) : Int := if n = 0 then p else (p + 2 ^ (n - 1)) / 2 ^ n

/-- Saturation to 32 bits. -/
def sat32 (v : Int) : Int := max (-(2 ^ 31)) (min (2 ^ 31 - 1) v)

/-- A number clamped between two limits. -/
def clampI (v lo hi : Int) : Int := min (max v lo) hi

/-- The quotient nearest to `a / b`, ties toward plus infinity, for a positive `b`. -/
def divNearest (a b : Int) : Int := (2 * a + b) / (2 * b)

/-- π × 2^100, and a term of the sine's series at that scale. -/
def piQ : Int := 3982441812995697363688351113952
def sineTerms (th : Int) : Nat → Nat → Int → Int
  | 0, _, _ => 0
  | fuel + 1, n, t =>
    let t' := -(t * th / 2 ^ 100) * th / 2 ^ 100 / ((2 * n) * (2 * n + 1) : Nat)
    t' + sineTerms th fuel (n + 1) t'

/-- The integer nearest 32,767 × sin(π k / 2,048) for a `k` of the first quadrant. -/
def sineQuarter (k : Nat) : Int :=
  let th := piQ * k / 2048
  (2 * 32767 * (th + sineTerms th 30 1 th) + 2 ^ 100) / 2 ^ 101

/-- SINTAB (R339). -/
def sinTab (i : Nat) : Int :=
  let k := i % 1024
  match i / 1024 % 4 with
  | 0 => sineQuarter k
  | 1 => sineQuarter (1024 - k)
  | 2 => -sineQuarter k
  | _ => -sineQuarter (1024 - k)

/-! ### Records -/

def State.loopSt (s : State) (n : Nat) : CleLoop := s.cle.loops.get n
def State.updLoop (s : State) (n : Nat) (f : CleLoop → CleLoop) : State := { s with cle.loops := s.cle.loops.upd n f }
def State.updPair (s : State) (q : Nat) (f : Pwm → Pwm) : State := { s with cle.pwms := s.cle.pwms.upd q f }

/-- Fields of a loop record (R322). -/
def CleLoop.f (l : CleLoop) (lo w : Nat) : Nat := fld l.desc.toNat lo w
def CleLoop.i32 (l : CleLoop) (lo : Nat) : Int := sgn 32 (l.f lo 32)
def CleLoop.outKind (l : CleLoop) : Nat := l.f 104 2
def CleLoop.outIndex (l : CleLoop) : Nat := l.f 106 6
def CleLoop.outBuf (l : CleLoop) : Nat := l.f 736 16

/-- The source codes of a loop: feedback, setpoint, schedule, feed-forward. -/
def CleLoop.sources (l : CleLoop) : List Nat := [l.f 32 16, l.f 48 16, l.f 64 16, l.f 80 16]

/-- KIND, INDEX and WORD of a source code (R324). -/
def srcKind (c : Nat) : Nat := fld c 0 4
def srcIndex (c : Nat) : Nat := fld c 4 7
def srcWord (c : Nat) : Nat := fld c 11 2

/-- A source of loop `n` exists (R324). -/
def sourceOk (n c : Nat) : Bool :=
  match srcKind c with
  | 0 | 6 | 7 | 8 => true
  | 1 | 2 | 3 => decide (srcIndex c < 32)
  | 4 => decide (srcIndex c < 8)
  | 5 => srcIndex c != n
  | _ => false

/-- A loop reads the input of a kind (0 encoder, 1 sigma-delta, 2 SPI) and index. -/
def CleLoop.reads (l : CleLoop) (kind index : Nat) : Bool :=
  l.sources.any fun c =>
    srcIndex c == index && (match kind with | 0 => srcKind c == 1 || srcKind c == 2 | 1 => srcKind c == 3 | _ => srcKind c == 4)

/-- The owner of loop `n` under CLE_OWNER (R209). -/
def State.cleOwner (s : State) (n : Nat) : Option Nat :=
  match s.pln.plan with
  | some pl => match pl.cleOwners[n]? with | some o => if o.owned then some o.part else none | none => none
  | none => none

/-- Function `f` may act on loop `n` (R341). -/
def State.cleMay (s : State) (f : Fin 16) (n : Nat) : Bool := f == 0 || s.cleOwner n == some f.val

/-! ### PWM force (R338) -/

/-- A reason of R338 forces pair `q`. -/
def State.forceReason (s : State) (q : Nat) : Bool :=
  let mine := s.cle.loops.cells.filter fun c => c.2.configured && c.2.outKind == 1 && c.2.outIndex == q
  (s.cle.pwms.get q).latched || s.cle.state == 0 || s.jrn.r.running || s.saf.safe ||
    (!mine.isEmpty && mine.all fun c => !(c.2.enabled && !c.2.stopped && c.2.live))

/-- Every configured pair that a reason forces is forced. -/
def State.forcePairs (s : State) : State :=
  (s.cle.pwms.keys fun p => p.configured).foldl (fun s q => if s.forceReason q then s.updPair q fun p => { p with forced := true } else s) s

/-- The levels of outputs A and B (R337, R338): low until configured. -/
def Pwm.outA (p : Pwm) : Bool := p.configured && ((if p.forced then p.safeA else p.level && decide (p.dtRise ≤ p.held)) != p.polA)
def Pwm.outB (p : Pwm) : Bool := p.configured && ((if p.forced then p.safeB else !p.level && decide (p.dtFall ≤ p.held)) != p.polB)

/-- The ideal signal X (R337): a CMP of PERIOD gives a duty of 1, at the top of the centre mode too. -/
def Pwm.ideal (p : Pwm) : Bool := decide (p.count < p.cmp) || decide (p.period ≤ p.cmp)

/-- X follows a counter or CMP that changed. -/
def Pwm.follow (p : Pwm) : Pwm := if p.ideal = p.level then p else { p with level := p.ideal, held := 0 }

/-- One count of a pair's counter, and of how long the ideal signal has held its level (R337). -/
def Pwm.count1 (p : Pwm) : Pwm :=
  if !p.configured then p
  else
    let p := if p.centre then
        (if p.down then (if p.count ≤ 1 then { p with count := 0, down := false } else { p with count := p.count - 1 })
         else if p.period ≤ p.count + 1 then { p with count := p.period, down := true } else { p with count := p.count + 1 })
      else { p with count := if p.period ≤ p.count + 1 then 0 else p.count + 1 }
    if p.ideal = p.level then { p with held := min 4096 (p.held + 1) } else p.follow

/-- A loop stops, and its pair is forced (R331, R333). -/
def State.stopLoop (s : State) (n : Nat) : State := (s.updLoop n fun l => { l with stopped := true, live := false }).forcePairs

/-- Enabled loops with INPUT_STOP that read a faulty input stop (R331). -/
def State.inputStop (s : State) (kind index : Nat) : State :=
  (s.cle.loops.keys fun l => l.enabled && !l.stopped && bit l.desc.toNat 100 && l.reads kind index).foldl (fun s n => s.stopLoop n) s

/-- A loop that goes on with INPUT_STOP = 1 while the clock of one of its sigma-delta sources is lost stops at once (R331; DEDUCED, log entry 105). -/
def State.stopIfLost (s : State) (n : Nat) : State :=
  let l := s.loopSt n
  if bit l.desc.toNat 100 && l.sources.any fun c => srcKind c == 3 && (s.cle.sds.get (srcIndex c)).lost then s.stopLoop n else s

/-! ### Loop commands (R322, R323, R341) -/

/-- The thresholds that count, in order (R327). -/
def CleLoop.thresholds (l : CleLoop) : List Int := (List.range (l.f 24 3)).map fun i => l.i32 (384 + 32 * i)

/-- Each is below the next. -/
def rising : List Int → Bool
  | a :: b :: t => decide (a < b) && rising (b :: t)
  | _ => true

/-- A loop record that R322, R324 and R327 accept for loop `n`. -/
def CleLoop.recordOk (l : CleLoop) (n : Nat) : Bool :=
  decide (l.f 0 7 ≤ 82) && within 1 100 (l.f 8 7) && decide (l.f 16 7 < l.f 8 7) && l.sources.all (sourceOk n) &&
    l.f 96 2 != 3 && l.f 98 2 != 3 && decide (l.f 160 6 ≤ 62) && decide (l.f 672 6 ≤ 62) &&
    (match l.outKind with
     | 0 => true
     | 1 => decide (l.outIndex ≤ 47)
     | 2 => decide (l.outIndex ≤ 15) && decide (l.outBuf ≤ 63)
     | _ => decide (l.outIndex ≤ 7) && decide (l.outBuf ≤ 63)) &&
    (l.f 96 2 != 2 || decide (1 ≤ l.i32 352)) && decide (0 ≤ l.i32 608) && rising l.thresholds && decide (l.f 752 6 ≤ 60) && lineAligned (l.f 832 48)

/-- CLE_LOOP_CONFIG (R322, R334). -/
def doCleLoopConfig (h : Hdr) (loop : Byte) (rec_ : BitVec 2048) (s : State) : Ans :=
  let n := loop.toNat
  let old := s.loopSt n
  let new : CleLoop := { old with configured := true, desc := rec_, evaled := false }
  let snaps := fun (l : CleLoop) => (l.f 800 16, l.f 832 48)
  checks [(!s.cleMay h.fn n, 0x6001), (decide (127 < n) || !new.recordOk n, 0x6003),
          (old.enabled || ((s.binding (64 + n)).isSome && snaps new != snaps old), 0x6002)]
    (.ok (s.updLoop n fun _ => new).forcePairs {})
def execCleLoopConfig (h : Hdr) (loop : Byte) (rec_ : BitVec 2048) (s : State) : Out := firmware h s (doCleLoopConfig h loop rec_ s)

/-- A coefficient set that R323 accepts. -/
def coefOk (x : Nat) : Bool :=
  [160, 166, 172, 178, 184].all (fun i => decide (fld x i 6 ≤ 62)) && decide (sgn 32 (fld x 192 32) ≤ sgn 32 (fld x 224 32)) &&
    decide (sgn 32 (fld x 256 32) ≤ sgn 32 (fld x 288 32))

/-- CLE_COEF_SET (R323). -/
def doCleCoefSet (h : Hdr) (loop set : Byte) (coef : BitVec 512) (s : State) : Ans :=
  let n := loop.toNat
  checks [(!s.cleMay h.fn n, 0x6001), (decide (127 < n) || decide (7 < set.toNat) || !coefOk coef.toNat, 0x6003)]
    (.ok (s.updLoop n fun l => { l with sets := l.sets.set set.toNat coef }) {})
def execCleCoefSet (h : Hdr) (loop set : Byte) (coef : BitVec 512) (s : State) : Out := firmware h s (doCleCoefSet h loop set coef s)

/-- The inputs and the pair that a loop names are configured (R320). -/
def State.inputsReady (s : State) (l : CleLoop) : Bool :=
  (l.outKind != 1 || (s.cle.pwms.get l.outIndex).configured) && l.sources.all fun c =>
    match srcKind c with
    | 1 | 2 => (s.cle.encs.get (srcIndex c)).configured
    | 3 => (s.cle.sds.get (srcIndex c)).configured
    | 4 => (s.cle.spis.get (srcIndex c)).configured
    | _ => true

/-- Two loops conflict (R320): a shared slot in a common period, or one output. -/
def loopsConflict (a b : CleLoop) : Bool :=
  let g := Nat.gcd (a.f 8 7) (b.f 8 7)
  (a.f 0 7 == b.f 0 7 && a.f 16 7 % g == b.f 16 7 % g) ||
    (a.outKind != 0 && a.outKind == b.outKind && a.outIndex == b.outIndex && (a.outKind == 1 || a.outBuf == b.outBuf))

/-- The SPI sources of a loop meet R321. -/
def State.latencyOk (s : State) (l : CleLoop) : Bool :=
  l.sources.all fun c =>
    if srcKind c = 4 then
      let p := s.cle.spis.get (srcIndex c)
      decide (p.trig ≤ l.f 0 7) && decide ((48 * l.f 0 7 + 56 : Int) - (48 * p.trig - p.lead : Int) ≤ 800)
    else true

/-- A loop set as at a first evaluation (R326, R333). -/
def CleLoop.fresh (l : CleLoop) : CleLoop := { l with first := true, stale := false, staleCount := 0 }

/-- CLE_LOOP_ENABLE (R320, R321). -/
def doCleLoopEnable (h : Hdr) (loop : Byte) (s : State) : Ans :=
  let n := loop.toNat
  let l := s.loopSt n
  checks [(!s.cleMay h.fn n, 0x6001), (decide (127 < n), 0x6003), (!l.configured || l.enabled || !s.inputsReady l, 0x6002),
          (s.cle.loops.cells.any fun c => c.2.enabled && loopsConflict l c.2, 0x6004), (!s.latencyOk l, 0x6005)]
    (.ok ((s.updLoop n fun l => { l.fresh with enabled := true, stopped := false, live := false, evaled := false, evalSeq := 0, evals := 0, encPrev := {}, snap := 0 }).forcePairs.stopIfLost n) {})
def execCleLoopEnable (h : Hdr) (loop : Byte) (s : State) : Out := firmware h s (doCleLoopEnable h loop s)

/-- The host link takes the records that wait for it (R340). -/
def State.captureDrain (s : State) (c : Nat) : State :=
  let q := s.cle.caps.get c
  if q.queue = [] || !s.hif.linkUp then s
  else
    let s := q.queue.foldl (fun s r => s.wr r.1 r.2) s
    { s with cle.caps := s.cle.caps.set c { q with queue := [] } }

/-- A capture channel ends with its event (R340). -/
def State.captureDone (s : State) (c : Nat) : State :=
  let q := s.cle.caps.get c
  ({ s with cle.caps := s.cle.caps.set c {} }).event (Fin.ofNat 16 q.fn) 0x07 q.fn 0x6009 q.lost

/-- A channel that has taken its last sample ends once its records are posted. -/
def State.captureEnd (s : State) (c : Nat) : State :=
  let s := s.captureDrain c
  let q := s.cle.caps.get c
  if q.running && q.left = 0 && q.queue = [] then s.captureDone c else s

/-- The generators and captures of a loop end. -/
def State.endTests (s : State) (n : Nat) : State :=
  let s := { s with cle.gens := s.cle.gens.mapV fun g => if g.running && g.loop == n then {} else g }
  (s.cle.caps.keys fun c => c.running && c.loop == n).foldl (fun s c => s.captureDone c) s

/-- CLE_LOOP_DISABLE (R341). -/
def doCleLoopDisable (h : Hdr) (loop : Byte) (s : State) : Ans :=
  let n := loop.toNat
  checks [(!s.cleMay h.fn n, 0x6001), (decide (127 < n), 0x6003)]
    (.ok (((s.updLoop n fun l => { l with enabled := false, stopped := false, live := false }).endTests n).forcePairs) {})
def execCleLoopDisable (h : Hdr) (loop : Byte) (s : State) : Out := firmware h s (doCleLoopDisable h loop s)

/-- CLE_LOOP_RESUME (R333). -/
def doCleLoopResume (h : Hdr) (loop : Byte) (s : State) : Ans :=
  let n := loop.toNat
  checks [(!s.cleMay h.fn n, 0x6001), (decide (127 < n), 0x6003), (!((s.loopSt n).enabled && (s.loopSt n).stopped), 0x6002)]
    (.ok ((s.updLoop n fun l => { l.fresh with stopped := false, live := false }).stopIfLost n) {})
def execCleLoopResume (h : Hdr) (loop : Byte) (s : State) : Out := firmware h s (doCleLoopResume h loop s)

/-- A mailbox takes a write (R332). -/
def State.mailbox (s : State) (n : Nat) (sp accel sched : Word) : State :=
  { s with cle.mails := s.cle.mails.upd n fun m => { setpoint := sp, accel := accel, sched := sched, seq := m.seq + 1, written := true } }

/-- CLE_MAILBOX_WRITE (R332). -/
def doCleMailboxWrite (h : Hdr) (loop : Byte) (sp accel sched : Word) (s : State) : Ans :=
  checks [(!s.cleMay h.fn loop.toNat, 0x6001), (decide (127 < loop.toNat), 0x6003)] (.ok (s.mailbox loop.toNat sp accel sched) {})
def execCleMailboxWrite (h : Hdr) (loop : Byte) (sp accel sched : Word) (s : State) : Out := firmware h s (doCleMailboxWrite h loop sp accel sched s)

/-- A rod's write to CLE_MAILBOX_PORT[n] (R332): one whole line of a job of the owner partition, with no reserved bit set. -/
def State.mailboxPort (s : State) (rod n : Nat) (data : List Byte) : State :=
  match (s.rods.get rod).job with
  | none => s
  | some j =>
    let x := leNat data
    if data.length ≠ 64 || (s.jobRec j).map JobRec.part ≠ s.cleOwner n || (s.cleOwner n).isNone || x / 2 ^ 96 ≠ 0 then s.raiseJob 0x0604 j (some rod)
    else s.mailbox n (BitVec.ofNat 32 (fld x 0 32)) (BitVec.ofNat 32 (fld x 32 32)) (BitVec.ofNat 32 (fld x 64 32))

/-! ### Inputs (R328 to R331) -/

/-- CLE_INPUT_CONFIG (R328, R331): the parameters are judged before the state (R533). -/
def doCleInputConfig (h : Hdr) (kind index : Byte) (fields : BitVec 112) (s : State) : Ans :=
  let f := fun i => fld fields.toNat (16 * i) 16
  let i := index.toNat
  let ok := match kind.toNat with
    | 0 => decide (i < 32) && decide (f 0 ≤ 255) && decide (f 1 ≤ 2) && decide (f 2 ≤ 1)
    | 1 => decide (i < 32) && decide (f 0 ≤ 1) && within 16 80 (f 1) && within 8 256 (f 2)
    | 2 => decide (i < 8) && within 4 255 (f 0) && decide (f 1 ≤ 1) && decide (f 2 ≤ 1) && within 8 32 (f 3) && within 1 4 (f 4) &&
        decide (f 5 ≤ 82) && decide (f 6 ≤ 744)
    | _ => false
  let used := s.cle.loops.cells.any fun c => c.2.enabled && c.2.reads kind.toNat i
  checks [(h.fn != 0, 0x6001), (!ok, 0x6003), (kind == 2 && decide (f 6 < 8 + f 4 * f 3 * 2 * f 0), 0x6005), (used, 0x6002)]
    (.ok (match kind.toNat with
      | 0 => { s with cle.encs := s.cle.encs.upd i fun e => { e with configured := true, filt := f 0, indexMode := f 1, dir := f 2 == 1, fault := false } }
      | 1 => { s with cle.sds := s.cle.sds.upd i fun e => { e with configured := true, clkMode := f 0 == 1, clkDiv := f 1, osr := f 2 } }
      | _ => { s with cle.spis := s.cle.spis.upd i fun e =>
                { e with configured := true, sckDiv := f 0, cpol := f 1 == 1, cpha := f 2 == 1, bits := f 3, words := f 4, trig := f 5, lead := f 6 } }) {})
def execCleInputConfig (h : Hdr) (kind index : Byte) (fields : BitVec 112) (s : State) : Out := firmware h s (doCleInputConfig h kind index fields s)

/-- SPI_FRAME (R331): the frame's words are latched, sign-extended. -/
def execSpiFrame (p : Fin 8) (words : List Word) (s : State) : Out :=
  let q := s.cle.spis.get p.val
  if !q.configured || s.cle.state = 0 then .next s
  else
    let vals := ((words.take q.words).zipIdx).foldl (fun (t : Tab Word) x => t.set x.2 (BitVec.ofInt 32 (sgn q.bits x.1.toNat))) q.vals
    .next { s with cle.spis := s.cle.spis.set p.val { q with vals := vals } }

/-- An encoder after a legal update of its levels (R328, R329): A leading B counts up, DIR inverts, Z latches or clears on its rise. -/
def CleEnc.step (e : CleEnc) (a b z : Bool) : CleEnc :=
  let up := if a != e.a then a != b else a == b
  let pos := if a == e.a && b == e.b then e.pos else if up != e.dir then e.pos + 1 else e.pos - 1
  let e' := { e with a := a, b := b, z := z, pos := pos }
  if z && !e.z then
    match e.indexMode with
    | 1 => { e' with latch := pos }
    | 2 => { e' with latch := pos, pos := 0 }
    | _ => e'
  else e'

/-- An accepted update of an encoder's levels (R329, R331): an illegal transition is counted and raises CLE_ENC_ERROR. -/
def State.encoderUpdate (s : State) (i : Nat) (a b z : Bool) : State :=
  let e := s.cle.encs.get i
  if !e.configured then s
  else if a != e.a && b != e.b then
    let s := { s with cle.encs := s.cle.encs.set i { e with a := a, b := b, z := z, errors := satInc e.errors, fault := true } }
    (s.inputStop 0 i).raiseDev 0x0601
  else { s with cle.encs := s.cle.encs.set i (e.step a b z) }

/-- The weight of the `k`-th bit of a third-order sinc window of ratio `n` (R330). -/
def sincWeight (n k : Nat) : Int :=
  let c := fun (m : Int) => if m < 0 then (0 : Int) else (m + 2) * (m + 1) / 2
  c k - 3 * c ((k : Int) - n) + 3 * c ((k : Int) - 2 * n)

/-- SD_DECIMATION (R330): a decimated output over its window. With an odd OSR, OSR³ / 2 is no integer, and which of
the two integers beside the result stands is a free value: the manual states no rounding. -/
def execSdDecimation (c : Fin 32) (bits : List Bool) (s : State) : Out :=
  let q := s.cle.sds.get c.val
  if !q.configured || q.lost then .next s
  else
    let n := q.osr
    let sum := ((bits.take (3 * (n - 1) + 1)).zipIdx).foldl (fun a x => if x.1 then a + sincWeight n x.2 else a) (0 : Int)
    if n % 2 = 0 then .next { s with cle.sds := s.cle.sds.set c.val { q with out := BitVec.ofInt 32 (sum - (n * n * n / 2 : Nat)) } }
    else
      let (x, s) := s.draw 1
      .next { s with cle.sds := s.cle.sds.set c.val { q with out := BitVec.ofInt 32 (sum - (n * n * n / 2 + x.toNat : Nat)) } }

/-- A channel whose clock has stopped keeps its last output and raises CLE_SD_CLOCK (R330, R331). -/
def State.sdClock (s : State) (c : Nat) : State :=
  let q := s.cle.sds.get c
  if !q.configured || q.lost then s
  else (({ s with cle.sds := s.cle.sds.set c { q with lost := true } }).inputStop 1 c).raiseDev 0x0602

/-- SD_CLOCK_RESTORED (R331). -/
def execSdClockRestored (c : Fin 32) (s : State) : Out :=
  .next { s with cle.sds := s.cle.sds.upd c.val fun q => { q with lost := false } }

/-! ### PWM pairs (R336 to R338) -/

/-- An input SAFE_EN_N that the group selects is low. -/
def State.safeLow (s : State) (group : Nat) : Bool := s.cle.safeIn.toNat &&& group != 0

/-- CLE_PWM_CONFIG (R336, R338): the pair is forced until a counter zero with no reason, and latched at once if a selected input is low. -/
def doClePwmConfig (h : Hdr) (pair : Byte) (period : Word) (mode update : Byte) (dtRise dtFall : BitVec 16) (polA polB safeA safeB group : Byte)
    (s : State) : Ans :=
  let q := pair.toNat
  let driven := s.cle.loops.cells.any fun c => c.2.enabled && c.2.outKind == 1 && c.2.outIndex == q
  checks [(h.fn != 0, 0x6001),
          (decide (47 < q) || !within 2 16777215 period.toNat || decide (1 < mode.toNat) || decide (3 < update.toNat) || decide (4095 < dtRise.toNat) ||
            decide (4095 < dtFall.toNat) || [polA, polB, safeA, safeB].any (fun b => decide (1 < b.toNat)) || (safeA == 1 && safeB == 1) ||
            decide (3 < group.toNat), 0x6003),
          (driven, 0x6002)]
    (.ok (s.updPair q fun p => Pwm.follow { p with
        configured := true, period := period.toNat, centre := mode = 1, update := update.toNat, dtRise := dtRise.toNat, dtFall := dtFall.toNat,
        polA := polA = 1, polB := polB = 1, safeA := safeA = 1, safeB := safeB = 1, group := group.toNat, forced := true,
        latched := p.latched || s.safeLow group.toNat }) {})
def execClePwmConfig (h : Hdr) (pair : Byte) (period : Word) (mode update : Byte) (dtRise dtFall : BitVec 16) (polA polB safeA safeB group : Byte)
    (s : State) : Out := firmware h s (doClePwmConfig h pair period mode update dtRise dtFall polA polB safeA safeB group s)

/-- CLE_PWM_RELEASE (R338, R435). -/
def doClePwmRelease (h : Hdr) (pair : Byte) (s : State) : Ans :=
  let p := s.cle.pwms.get pair.toNat
  checks [(h.fn != 0, 0x6001), (decide (47 < pair.toNat), 0x6003), (!p.configured || s.saf.safe, 0x6002), (s.safeLow p.group, 0x6007)]
    (.ok (s.updPair pair.toNat fun p => { p with latched := false }) {})
def execClePwmRelease (h : Hdr) (pair : Byte) (s : State) : Out := firmware h s (doClePwmRelease h pair s)

/-- SAFE_EN_FORCE (R338): an input's level; while low it latches the force of every configured pair that selects it. -/
def execSafeEnForce (i : Fin 2) (low : Bool) (s : State) : Out :=
  let m := 2 ^ i.val
  let v := if low then s.cle.safeIn.toNat ||| m else s.cle.safeIn.toNat &&& (3 - m)
  let s := { s with cle.safeIn := BitVec.ofNat 2 v }
  .next (if low then
      { s with cle.pwms := s.cle.pwms.mapV fun p => if p.configured && p.group &&& m != 0 then { p with latched := true, forced := true } else p }
    else s)

/-- PWM_LOAD_POINT (R336 to R338): the shadow is loaded at the load points of UPDATE, and at counter zero a pair with no reason left resumes. -/
def execPwmLoadPoint (q : Fin 48) (top : Bool) (s : State) : Out :=
  let p := s.cle.pwms.get q.val
  if !p.configured then .next s
  else
    let zero := !top || !p.centre
    let atTop := top || !p.centre
    let load := (zero && (p.update == 0 || p.update == 2)) || (atTop && (p.update == 1 || p.update == 2))
    let p := match p.shadow with
      | some c => if load then { p with cmp := c, shadow := none } else p
      | none => p
    let p := Pwm.follow (if zero then { p with count := 0, down := false } else { p with count := p.period, down := true })
    .next (s.updPair q.val fun _ => if zero && !s.forceReason q.val then { p with forced := false } else p)

/-! ### Starting and stopping (R318, R531) -/

/-- Period 0 begins: every enabled loop as at a first evaluation, every counter at 0, pairs with no reason released; CLE_START is answered. -/
def State.cleBegin (s : State) (h : Option Hdr) : State :=
  let s := { s with cle.state := 1, cle.period := 0, cle.periodTime := s.tim.time, cle.start := none,
                    cle.loops := s.cle.loops.mapV fun l => if l.enabled then l.fresh else l }
  let pwms : Tab Pwm := ⟨s.cle.pwms.cells.map fun (c : Nat × Pwm) =>
    (c.1, if c.2.configured then Pwm.follow { c.2 with count := 0, down := false, forced := s.forceReason c.1 } else c.2)⟩
  let s := { s with cle.pwms := pwms }
  s.replyOpt h { r0 := s.now.toNat % 2 ^ 32, r1 := s.now.toNat / 2 ^ 32 }

/-- CLE_START (R435, R531). -/
def doCleStart (h : Hdr) (mode pin : Byte) (at_ : BitVec 64) (s : State) : Ans :=
  checks [(h.fn != 0, 0x6001), (decide (2 < mode.toNat) || decide (3 < pin.toNat), 0x6003),
          (s.saf.safe || s.cle.state != 0 || s.cle.start.isSome, 0x6002)]
    (if mode = 0 then .later (s.cleBegin (some h))
     else
       let s := if mode = 1 then s.armLate at_ else s
       .later { s with cle.start := some { h := some h, mode := mode.toNat, pin := pin.toNat, at_ := at_ } })
def execCleStart (h : Hdr) (mode pin : Byte) (at_ : BitVec 64) (s : State) : Out := firmware h s (doCleStart h mode pin at_ s)

/-- CLE_START_FIRE (R531): the pending start's time, or its pin's rising edge, has come. -/
def execCleStartFire (s : State) : Out :=
  match s.cle.start with
  | some c => .next (if (if c.mode = 2 then c.seen else atOrLater 64 s.now.toNat c.at_.toNat) then s.cleBegin c.h else s)
  | none => .next s

/-- CLE_STOP (R531). -/
def doCleStop (h : Hdr) (s : State) : Ans :=
  match s.cle.start with
  | some c =>
    if h.fn ≠ 0 then .no 0x6001 0 else .ok (({ s with cle.start := none }).replyOpt c.h { status := 0x6002 }) {}
  | none =>
    checks [(h.fn != 0, 0x6001), (s.cle.state == 0 || s.cle.state == 3, 0x6002)]
      (.later { s with cle.state := 3, cle.stop := some (some h) })
def execCleStop (h : Hdr) (s : State) : Out := firmware h s (doCleStop h s)

/-- Evaluation stops: every pair is forced, and a pending CLE_STOP is answered. -/
def State.cleHalt (s : State) : State :=
  let h := s.cle.stop.bind id
  ({ s with cle.state := 0, cle.stop := none }).forcePairs.replyOpt h {}

/-- CLE_PERIOD_START (R318, R531). -/
def execClePeriodStart (s : State) : Out :=
  if s.cle.state = 0 then .next s
  else if s.cle.state = 3 then .next s.cleHalt
  else .next { s with cle.state := 2, cle.period := s.cle.period + 1, cle.periodTime := s.tim.time }

/-- The device safe state (R434): evaluation stops at once, and a pending start ends. -/
def State.cleSafe (s : State) : State :=
  let s := match s.cle.start with
    | some c => ({ s with cle.start := none }).replyOpt c.h { status := 0x6002 }
    | none => s
  if s.cle.state = 0 then s.forcePairs else s.cleHalt

/-! ### Test signals and capture (R339, R340) -/

/-- CLE_INJECT (R339). -/
def doCleInject (h : Hdr) (gen kind loop point : Byte) (amp length : Word) (hold : BitVec 16) (f0 df seed : Word) (s : State) : Ans :=
  let prbs := kind = 2
  checks [(!s.cleMay h.fn loop.toNat, 0x6001),
          (decide (3 < gen.toNat) || !within 1 4 kind.toNat || decide (127 < loop.toNat) || decide (2 < point.toNat) || length == 0 ||
            (prbs && (hold == 0 || seed == 0 || seed.getLsbD 31)), 0x6003),
          ((s.cle.gens.get gen.toNat).running || !(s.loopSt loop.toNat).enabled, 0x6008)]
    (let g : CleGen := { running := true, kind := kind.toNat, loop := loop.toNat, point := point.toNat, amp := amp.toInt, left := length.toNat,
                         hold := hold.toNat, inc := f0, df := if kind = 4 then 0 else df, lfsr := seed }
     .ok { s with cle.gens := s.cle.gens.set gen.toNat g } {})
def execCleInject (h : Hdr) (gen kind loop point : Byte) (amp length : Word) (hold : BitVec 16) (f0 df seed : Word) (s : State) : Out :=
  firmware h s (doCleInject h gen kind loop point amp length hold f0 df seed s)

/-- CLE_CAPTURE (R340). -/
def doCleCapture (h : Hdr) (ch loop start gen : Byte) (decim : BitVec 16) (count : Word) (dest : BitVec 64) (s : State) : Ans :=
  checks [(!s.cleMay h.fn loop.toNat, 0x6001),
          (decide (3 < ch.toNat) || decide (127 < loop.toNat) || decide (1 < start.toNat) || decide (3 < gen.toNat) || decim == 0 || !within 1 65536 count.toNat, 0x6003),
          (!(lineAligned dest.toNat && inAperture dest.toNat (32 * count.toNat)), 0x6006),
          ((s.cle.caps.get ch.toNat).running, 0x6008)]
    (let c : CleCap := { running := true, loop := loop.toNat, gen := if start = 1 then some gen.toNat else none, decim := decim.toNat,
                         left := count.toNat, dest := dest.toNat, fn := h.fn.val }
     .ok { s with cle.caps := s.cle.caps.set ch.toNat c } {})
def execCleCapture (h : Hdr) (ch loop start gen : Byte) (decim : BitVec 16) (count : Word) (dest : BitVec 64) (s : State) : Out :=
  firmware h s (doCleCapture h ch loop start gen decim count dest s)

/-- A generator's value at this evaluation, and the generator after it (R339). -/
def CleGen.step (g : CleGen) : Int × CleGen :=
  let (v, g') : Int × CleGen := match g.kind with
    | 1 => (g.amp, g)
    | 2 =>
      let v := if g.lfsr.getLsbD 30 then g.amp else -g.amp
      if g.held + 1 < g.hold then (v, { g with held := g.held + 1 })
      else
        let b := g.lfsr.getLsbD 30 != g.lfsr.getLsbD 27
        (v, { g with held := 0, lfsr := BitVec.ofNat 32 ((g.lfsr.toNat * 2 + b2n b) % 2 ^ 31) })
    | _ =>
      let phi := g.phi + g.inc
      (sh (g.amp * sinTab (phi.toNat / 2 ^ 20)) 15, { g with phi := phi, inc := g.inc + g.df })
  (v, if g.left ≤ 1 then {} else { g' with left := g.left - 1, begun := true })

/-- The loop's generators step: the values at setpoint, error and output, and the generators that make their first step. -/
def State.stepGens (s : State) (n : Nat) : (Int × Int × Int) × List Nat × State :=
  (s.cle.gens.keys fun g => g.running && g.loop == n).foldl (fun (a : (Int × Int × Int) × List Nat × State) i =>
    let g := a.2.2.cle.gens.get i
    let (v, g') := g.step
    let (x, y, z) := a.1
    ((if g.point = 0 then (x + v, y, z) else if g.point = 1 then (x, y + v, z) else (x, y, z + v)), if g.begun then a.2.1 else i :: a.2.1,
     { a.2.2 with cle.gens := a.2.2.cle.gens.set i g' })) ((0, 0, 0), [], s)

/-- One sample of a channel, if this evaluation is one it takes; after the last, the channel ends (R340). A record waits while the host link is down:
the 64-record queue holds it, or it is lost, and its place at DEST stays (DESIGN CHOICE, log entry 107). -/
def State.captureStep (s : State) (c : Nat) (started : List Nat) (rec_ : List Byte) : State :=
  let q := s.cle.caps.get c
  let begun := q.begun || (match q.gen with | none => true | some g => started.contains g)
  if !begun || q.left = 0 then s
  else if 0 < q.skip then { s with cle.caps := s.cle.caps.set c { q with begun := true, skip := q.skip - 1 } }
  else
    let full := decide (64 ≤ q.queue.length)
    let q' := { q with begun := true, skip := q.decim - 1, left := q.left - 1, dest := q.dest + 32, lost := if full then q.lost + 1 else q.lost,
                       queue := if full then q.queue else q.queue ++ [(q.dest, rec_)] }
    { s with cle.caps := s.cle.caps.set c q' }.captureEnd c

/-! ### Evaluation (R324 to R327, R333 to R335) -/

/-- A source's value at the capture instant (R324). -/
def State.source (s : State) (l : CleLoop) (first setpoint : Bool) (c : Nat) : Int :=
  let i := srcIndex c
  let m := s.cle.mails.get i
  match srcKind c with
  | 0 => if setpoint then l.i32 224 else 0
  | 1 => (s.cle.encs.get i).pos.toInt
  | 2 => if first then 0 else ((s.cle.encs.get i).pos - l.encPrev.get i).toInt
  | 3 => (s.cle.sds.get i).out.toInt
  | 4 => ((s.cle.spis.get i).vals.get (srcWord c)).toInt
  | 5 => if (s.loopSt i).evaled then (s.loopSt i).out else 0
  | 6 => if m.written then m.setpoint.toInt else l.i32 224
  | 7 => m.accel.toInt
  | _ => m.sched.toInt

/-- What an evaluation reads. -/
structure EvalIn where
  fb : Int
  sp : Int
  sched : Int
  ff : Int
  gr : Int
  ge : Int
  gu : Int

/-- What an evaluation computes (R326): the values a snapshot shows and the state the loop keeps. -/
structure EvalOut where
  r : Int
  y : Int
  e : Int
  out : Int
  i : Int
  d : Int
  x : Int
  lim : Int
  k : Nat
  sat : Bool

/-- The set index (R327). -/
def CleLoop.schedule (l : CleLoop) (first : Bool) (v : Int) : Nat :=
  let h := l.i32 608
  let count := fun (d : Int) => (l.thresholds.filter fun t => decide (t + d ≤ v)).length
  if first then count 0
  else
    let up := count h
    let down := count (-h)
    if l.k < up then up else if down < l.k then down else l.k

/-- The control law (R326). -/
def CleLoop.law (l : CleLoop) (first : Bool) (q : EvalIn) : EvalOut :=
  let set := fun (k : Nat) (lo w : Nat) => fld (l.sets.get k).toNat lo w
  let cf := fun (k lo : Nat) => sgn 32 (set k lo 32)
  let y0 := sh (q.fb * l.i32 128) (l.f 160 6) + l.i32 192
  let y := sat32 y0
  let r0 := q.sp + q.gr
  let r := sat32 r0
  let k := l.schedule first q.sched
  let kp := if first then k else l.k
  let e0 := r - y
  let e1 := sat32 e0 + q.ge
  let e := sat32 e1
  let bump := k != kp && bit l.desc.toNat 28
  let iPrev := if first then l.i32 288 else l.i
  let ib0 := if bump then iPrev + sh (cf kp 0 * e) (set kp 160 6) - sh (cf k 0 * e) (set k 160 6) else iPrev
  let ib := sat32 ib0
  let p0 := sh (cf k 0 * e) (set k 160 6)
  let x0 := if bit l.desc.toNat 27 then 0 - y else e
  let x := sat32 x0
  let dx0 := if first then 0 else x - l.x
  let dr0 := sh (cf k 64 * sat32 dx0) (set k 172 6)
  let dPrev := if first then 0 else l.d
  let dd0 := sat32 dr0 - dPrev
  let d0 := dPrev + sh (cf k 96 * sat32 dd0) (set k 178 6)
  let d := sat32 d0
  let di0 := sh (cf k 32 * e) (set k 166 6)
  let di1 := sat32 di0
  let limPrev := if first then 0 else l.lim
  let di := if (limPrev == 1 && decide (0 < di1)) || (limPrev == -1 && decide (di1 < 0)) then 0 else di1
  let i0 := ib + di
  let i := clampI (sat32 i0) (cf k 192) (cf k 224)
  let mode := l.f 96 2
  let ff0 := if mode = 1 then sh (cf k 128 * q.ff) (set k 184 6) else 0
  let u0 := sat32 p0 + i + d + sat32 ff0
  let u1 := if mode = 2 then divNearest (sat32 u0 * l.i32 320) (max q.ff (l.i32 352)) else sat32 u0
  let u2 := sat32 u1 + q.gu
  let u := sat32 u2
  let lo := cf k 256
  let hi := cf k 288
  { r := r, y := y, e := e, out := clampI u lo hi, i := i, d := d, x := x, lim := if hi < u then 1 else if u < lo then -1 else 0, k := k,
    sat := [y0, r0, e0, e1, ib0, p0, x0, dx0, dr0, dd0, d0, di0, i0, ff0, u0, u1, u2].any fun v => v != sat32 v }

/-- The bits of `lim` in a snapshot: 1 high, 2 low. -/
def limBits (lim : Int) : Nat := if lim = 1 then 1 else if lim = -1 then 2 else 0

/-- The payload with a value written at a byte of it (R335). -/
def putBytes (at_ : Nat) (v : List Byte) (bs : List Byte) : List Byte := (bs.take at_ ++ v ++ bs.drop (at_ + v.length)).take bs.length

/-- The loop's output goes to its pair's shadow, CAN buffer or launch entry (R335, R360, R379). -/
def State.loopOutput (s : State) (l : CleLoop) (out : Int) (slotTime : Nat) : State × Bool :=
  let n16 := max (-32768) (min 32767 out)
  let wide := bit l.desc.toNat 760
  let v := leBytes (if wide then 4 else 2) (wrap 32 (if wide then out else n16))
  let v := if bit l.desc.toNat 761 then v.reverse else v
  let t := BitVec.ofNat 64 (slotTime + l.f 768 32)
  let clipped := !wide && n16 != out
  match l.outKind with
  | 0 => (s, false)
  | 1 =>
    let w0 := sh (out * l.i32 640) (l.f 672 6) + l.i32 704
    let c := (max 0 (sat32 w0)).toNat
    let s := s.updPair l.outIndex fun p =>
      let c := min c p.period
      if p.update = 3 then Pwm.follow { p with cmp := c, shadow := none } else { p with shadow := some c }
    (s, w0 != sat32 w0)
  | 2 =>
    let m := ((s.ctl l.outIndex).mbs.get l.outBuf).img
    let img := leNat (putBytes (32 + l.f 752 6) v (leBytes 96 m.toNat))
    (s.canHandover l.outIndex l.outBuf (BitVec.ofNat 768 img) t, clipped)
  | _ =>
    let fr := ((s.mac l.outIndex).launches.get l.outBuf).frame
    (s.ethHandover l.outIndex l.outBuf (putBytes (l.f 752 6) v fr) t, clipped)

/-- Staleness at the capture instant (R333): the loop with its count, whether the evaluation is carried out, and whether CLE_STALE is raised. -/
def State.staleness (s : State) (l : CleLoop) : CleLoop × Bool × Bool :=
  let c := l.f 48 16
  if srcKind c ≠ 6 then ({ l with stale := false }, true, false)
  else
    let m := s.cle.mails.get (srcIndex c)
    let n := if l.first || m.seq != l.mbSeen then 0 else l.staleCount + 1
    let limit := l.f 112 16
    let stale := limit != 0 && decide (limit ≤ n)
    ({ l with staleCount := n, mbSeen := m.seq, stale := stale }, !(stale && l.f 98 2 == 2), stale && !l.stale)

/-- The 64 bytes of a snapshot (R334). -/
def State.snapshot (s : State) (n : Nat) (l : CleLoop) (o : EvalOut) (seq : Word) (slotUnits : Nat) : Nat :=
  let c := l.f 48 16
  let mb := s.cle.mails.get (if srcKind c = 6 then srcIndex c else n)
  let forced := l.outKind == 1 && (s.cle.pwms.get l.outIndex).forced
  pack [(0, 32, seq.toNat), (32, 32, mb.seq.toNat), (64, 32, wrap 32 o.r), (96, 32, wrap 32 o.y), (128, 32, wrap 32 o.e), (160, 32, wrap 32 o.out),
    (192, 32, wrap 32 o.i), (224, 32, wrap 32 o.d), (256, 3, o.k), (259, 1, b2n l.stale), (260, 2, limBits o.lim), (262, 1, b2n o.sat), (263, 1, b2n forced),
    (320, 96, (time96 slotUnits).toNat)]

/-- The 32 bytes of a capture sample (R340). -/
def sampleBytes (o : EvalOut) (seq : Word) (g : Int) (stale : Bool) : List Byte :=
  leBytes 32 (pack [(0, 32, seq.toNat), (32, 32, wrap 32 o.r), (64, 32, wrap 32 o.y), (96, 32, wrap 32 o.e), (128, 32, wrap 32 o.out), (160, 32, wrap 32 o.i),
    (192, 32, wrap 32 g), (224, 3, o.k), (227, 1, b2n stale), (228, 2, limBits o.lim), (230, 1, b2n o.sat)])

/-- Loop `n` is due in the period in hand (R319). -/
def State.loopDue (s : State) (l : CleLoop) : Bool :=
  l.enabled && !l.stopped && (s.cle.state == 2 || s.cle.state == 3) && decide (1 ≤ s.cle.period.toNat) && s.cle.period.toNat % l.f 8 7 == l.f 16 7

/-- An evaluation of loop `n` in its slot (R321, R324 to R327, R333 to R335, R339 to R341). -/
def State.evaluate (s0 : State) (n : Nat) : State :=
  let l0 := s0.loopSt n
  if !s0.loopDue l0 then s0
  else
    let (l, runs, raise) := s0.staleness l0
    let s := s0.updLoop n fun _ => l
    let s := if raise then s.raiseDev 0x0603 else s
    if !runs then s.stopLoop n
    else
      let first := l.first
      let ((gr, ge, gu), started, s) := s.stepGens n
      let sp0 := s.source l first true (l.f 48 16)
      let sp := if !l.stale then sp0 else if l.f 98 2 = 1 then l.i32 256 else l.heldSp
      let q : EvalIn := { fb := s.source l first false (l.f 32 16), sp := sp, sched := s.source l first false (l.f 64 16),
                          ff := s.source l first false (l.f 80 16), gr := gr, ge := ge, gu := gu }
      let o := l.law first q
      let units := s.cle.periodTime + l.f 0 7 * 120 * 2 ^ 40
      let (s, clip) := s.loopOutput l o.out (units / 2 ^ 40)
      let o := { o with sat := o.sat || clip }
      let seq := if l.evaled then l.evalSeq + 1 else 0
      let encs := (l.sources.filter fun c => srcKind c == 1 || srcKind c == 2).foldl (fun (t : Tab Word) c =>
        t.set (srcIndex c) (s.cle.encs.get (srcIndex c)).pos) l.encPrev
      let snap := s.snapshot n l o seq units
      let div := l.f 800 16
      let due := div != 0 && (l.evals + 1) % div == 0
      let s := s.updLoop n fun l =>
        { l with first := false, live := true, evaled := true, evalSeq := seq, out := o.out, i := o.i, d := o.d, x := o.x, lim := o.lim, k := o.k,
                 heldSp := sp, encPrev := encs, evals := l.evals + 1, snap := BitVec.ofNat 512 snap }
      let s := (s.cle.caps.keys fun c => c.running && c.loop == n).foldl (fun s c => s.captureStep c started (sampleBytes o seq (gr + ge + gu) l.stale)) s
      let s := (s.trace 65 2 6 (n + l.f 0 7 * 2 ^ 7) seq.toNat).watchEvent 3 n
      if due then (s.offer (64 + n) seq.toNat 64 (leBytes 64 snap)).2 else s

/-! ### Queries (R342, R532) -/

/-- A source of the loop holds a fault (R331). -/
def State.inputFault (s : State) (l : CleLoop) : Bool :=
  l.sources.any fun c => match srcKind c with
    | 1 | 2 => (s.cle.encs.get (srcIndex c)).fault
    | 3 => (s.cle.sds.get (srcIndex c)).lost
    | _ => false

/-- CLE_LOOP_STATUS and CLE_LOOP_CTL (R342, Tables 9 and 10). -/
def State.loopStatus (s : State) (n : Nat) : Nat :=
  let l := s.loopSt n
  let st := if !l.configured then 0 else if !l.enabled then 1 else if l.stopped then 3 else 2
  let o := s.cleOwner n
  pack [(0, 2, st), (2, 3, l.k), (5, 1, b2n l.stale), (6, 2, limBits l.lim), (8, 1, b2n (l.configured && s.inputFault l)), (9, 4, o.getD 0), (13, 1, b2n o.isSome)]
def CleLoop.ctl (l : CleLoop) : Nat := pack [(0, 7, l.f 0 7), (8, 7, l.f 8 7), (16, 7, l.f 16 7), (24, 2, l.outKind)]

/-- CLE_QUERY (R532). -/
def doCleQuery (h : Hdr) (loop : Byte) (s : State) : Ans :=
  let n := loop.toNat
  let l := s.loopSt n
  checks [(!s.cleMay h.fn n, 0x6001), (decide (127 < n), 0x6003)]
    (.ok s { ext := some (([s.loopStatus n, l.ctl, l.evalSeq.toNat, wrap 32 l.out, (s.cle.mails.get n).seq.toNat, l.snapDrops.toNat, 0, 0].flatMap (leBytes 4)) ++
      leBytes 64 l.snap.toNat) })
def execCleQuery (h : Hdr) (loop : Byte) (s : State) : Out := firmware h s (doCleQuery h loop s)

end Sys2Proof.Machine
end

