-- ==== Sys2Proof/Machine/HostLink.lean ====
section
/-! DEFINITION. The host link (chapter 10): ring configuration, doorbells, sessions, BAR4, host DMA, and resets of the link. -/

namespace Sys2Proof.Machine

/-! ### Function ranges and ring descriptors -/

/-- Two ranges meet. -/
def meets (a n b m : Nat) : Bool := decide (0 < n) && decide (0 < m) && decide (a < b + m) && decide (b < a + n)

/-- A function has an enabled ring. -/
def State.fnEnabled (s : State) (f : Fin 16) : Bool :=
  s.hif.rings.cells.any fun c => c.2.enable && s.ringOwner c.1 == some f

/-- The function's ranges with one of them replaced by a written word (R288, Table 18). -/
def Fn.withReg (n : Fn) (reg : FnReg) (w : Word) : Fn :=
  match reg with
  | .ring => { n with ringFirst := w.extractLsb' 0 14, ringCount := w.extractLsb' 16 14 }
  | .tag => { n with tagFirst := w.extractLsb' 0 12, tagCount := w.extractLsb' 16 13 }
  | .vec => { n with vecFirst := w.extractLsb' 0 11, vecCount := w.extractLsb' 16 12 }

/-- The ranges of `n`, as function `f`, stay within the device totals and meet no other function's (R256). -/
def State.rangesOk (s : State) (f : Fin 16) (n : Fn) : Bool :=
  decide (n.ringCount.toNat ≤ 8192) && decide (n.ringFirst.toNat + n.ringCount.toNat ≤ 16384) &&
  decide (n.tagCount.toNat ≤ 4096) && decide (n.tagFirst.toNat + n.tagCount.toNat ≤ 4096) &&
  decide (n.vecCount.toNat ≤ 2048) && decide (n.vecFirst.toNat + n.vecCount.toNat ≤ 2048) &&
  (List.finRange 16).all fun g =>
    let m := s.hif.fns.get g.val
    g == f || !(meets n.ringFirst.toNat n.ringCount.toNat m.ringFirst.toNat m.ringCount.toNat ||
      meets n.tagFirst.toNat n.tagCount.toNat m.tagFirst.toNat m.tagCount.toNat ||
      meets n.vecFirst.toNat n.vecCount.toNat m.vecFirst.toNat m.vecCount.toNat)

/-- HIF_FN_WRITE (R256): PF0 alone writes the range registers. -/
def execHifFnWrite (fn f : Fin 16) (reg : FnReg) (w : Word) (s : State) : Out :=
  if fn ≠ 0 then .next s
  else
    let n := (s.hif.fns.get f.val).withReg reg w
    if s.rangesOk f n && !s.fnEnabled f then .next { s with hif.fns := s.hif.fns.set f.val n }
    else .next { s with hif.cfgReject := true }

/-- The descriptor with one RW word written while the ring is disabled (R260, Table 4). -/
def Ring.withWord (r : Ring) (i : Fin 8) (w : Word) : Ring :=
  match i.val with
  | 0 => { r with base := (r.base.extractLsb' 32 16) ++ w }
  | 1 => { r with base := (w.extractLsb' 0 16) ++ (r.base.extractLsb' 0 32) }
  | 2 => { r with wb := (r.wb.extractLsb' 32 16) ++ w }
  | 3 => { r with wb := (w.extractLsb' 0 16) ++ (r.wb.extractLsb' 0 32) }
  | 4 => { r with type := w.extractLsb' 0 3, log2 := w.extractLsb' 3 5, irqEn := w.getLsbD 9, vector := w.extractLsb' 16 11 }
  | 5 => { r with pair := w.extractLsb' 0 13 }
  | _ => r

/-- The descriptor may be enabled (R260). -/
def State.ringOk (s : State) (f : Fin 16) (r : Ring) : Bool :=
  let n := s.hif.fns.get f.val
  decide (1 ≤ r.type.toNat) && decide (r.type.toNat ≤ 4) && decide (2 ≤ r.log2.toNat) && decide (r.log2.toNat ≤ 16) &&
  lineAligned r.base.toNat && s.hostMem f r.base.toNat (entryBytes r.type * r.size) &&
  !(r.irqEn && decide (n.vecCount.toNat ≤ r.vector.toNat)) &&
  !(r.type == 1 && !(decide (r.pair.toNat < n.ringCount.toNat) &&
    (let q := s.hif.rings.get (s.devRing f r.pair.toNat); q.enable && q.type == 2)))

/-- Ends the TALLY_WAIT commands of a command ring with ABORTED (R274). -/
def State.abortWaits (s : State) (f : Fin 16) (ring : Nat) : State :=
  let mine := fun (w : WaitEnt) => match w.who with | .host h => h.fn == f && h.ring.toNat == ring | .remote .. => false
  let out := s.tly.waits.filter mine
  let s := { s with tly.waits := s.tly.waits.filter fun w => !mine w }
  out.foldl (fun s w => match w.who with | .host h => s.reply h { status := 0xF009 } | .remote .. => s) s

/-- Cancels a pending START_PLAN: the plan returns to LOADED and the command ends with START_CANCELLED (R229). -/
def State.cancelStart (s : State) : State :=
  match s.pln.start with
  | some p =>
    let s := { s with pln.start := none, pln.state := .loaded }
    s.replyOpt p.h { status := 0x1025 }
  | none => s

/-- A command ring stops taking: its waits are aborted and a pending start it carries is cancelled (R274). -/
def State.stopTaking (s : State) (f : Fin 16) (ring : Nat) : State :=
  let s := s.abortWaits f ring
  match s.pln.start with
  | some p => if p.h.any (fun h => h.fn == f && h.ring.toNat == ring) then s.cancelStart else s
  | none => s

/-- An enabled command ring pairs with status ring `i` of the function. -/
def State.pairedWith (s : State) (f : Fin 16) (i : Nat) : Bool :=
  s.hif.rings.cells.any fun c => c.2.enable && c.2.type == 1 && c.2.pair.toNat == i && s.ringOwner c.1 == some f

/-- RING_DESC_WRITE (R260, R274): a function writes a word of the descriptor of one of its own rings. -/
def execRingDescWrite (fn : Fin 16) (r : BitVec 14) (i : Fin 8) (w : Word) (s : State) : Out :=
  let k := r.toNat
  let g := s.hif.rings.get k
  let idx := k - (s.hif.fns.get fn.val).ringFirst.toNat
  if s.ringOwner k ≠ some fn then .next s
  else if !g.enable then
    let g' := g.withWord i w
    if i = 4 && w.getLsbD 8 then
      if s.ringOk fn g' then
        .next { s with hif.rings := s.hif.rings.set k { g' with enable := true, armed := false, state := 1, head := 0, tail := 0, eseq := 0 } }
      else .next { s with hif.cfgReject := true }
    else .next { s with hif.rings := s.hif.rings.set k g' }
  else if i ≠ 4 then .next s
  else if w.getLsbD 8 then
    if w.getLsbD 9 && decide ((s.hif.fns.get fn.val).vecCount.toNat ≤ g.vector.toNat) then .next { s with hif.cfgReject := true }
    else .next { s with hif.rings := s.hif.rings.set k { g with irqEn := w.getLsbD 9 } }
  else if g.type == 2 && s.pairedWith fn idx then .next { s with hif.cfgReject := true }
  else
    let s := if g.type == 1 then
        let s := s.stopTaking fn idx
        { s with hif.sessions := s.hif.sessions.upd k fun e => if e.isOpen then { e with draining := true } else e }
      else s
    let s := { s with hif.rings := s.hif.rings.upd k fun g => { g with enable := false, irqEn := w.getLsbD 9, state := 0 } }
    .next (s.closeDrained { fn := fn, ring := BitVec.ofNat 13 idx, tag := 0, seq := 0 })

/-! ### Doorbells -/

/-- The host produces this ring: a command ring, or the journal ring of a replay (R259). -/
def State.hostProduces (s : State) (k : Nat) : Bool :=
  let g := s.hif.rings.get k
  g.type == 1 || (g.type == 4 && (s.jrn.r.armed || s.jrn.r.running) && s.jrn.r.ring == k)

/-- The doorbell's INDEX is acceptable (R262). -/
def State.indexOk (s : State) (k : Nat) (x : Word) : Bool :=
  let g := s.hif.rings.get k
  if s.hostProduces k then
    decide (0 ≤ wdiff 32 x.toNat g.tail.toNat) && decide (wdiff 32 x.toNat g.head.toNat ≤ (g.size : Int))
  else
    decide (0 ≤ wdiff 32 x.toNat g.head.toNat) && decide (0 ≤ wdiff 32 g.tail.toNat x.toNat)

/-- The ring with the index the host moved. -/
def State.moveIndex (s : State) (k : Nat) (x : Word) : State :=
  { s with hif.rings := s.hif.rings.upd k fun g => if s.hostProduces k then { g with tail := x } else { g with head := x } }

/-- ARM (R265): the ring is armed; entries the host has not consumed send the vector at once. -/
def State.arm (s : State) (k : Nat) : State :=
  let s' := { s with hif.rings := s.hif.rings.upd k fun g => { g with armed := true } }
  let g := s'.hif.rings.get k
  if !s.hostProduces k && g.used != 0 then s'.ringIrq k else s'

/-- The ring enters STATE = 2, with RING_ERROR and a ring-error event (R262). -/
def State.ringFail (s : State) (f : Fin 16) (k : Nat) (x : Word) : State :=
  let s := { s with hif.rings := s.hif.rings.upd k (fun g => { g with state := 2 }), hif.ringError := true }
  s.event f 0x03 f.val 0 (k + (x.toNat % 65536) * 2 ^ 32)

/-- DOORBELL (R262, R265). -/
def execDoorbell (fn : Fin 16) (off : BitVec 16) (size : Nat) (v : BitVec 64) (s : State) : Out :=
  let i := off.toNat / 8
  if size ≠ 8 || off.toNat % 8 ≠ 0 || (s.hif.fns.get fn.val).ringCount.toNat ≤ i then .next { s with hif.dbBad := true }
  else
    let k := s.devRing fn i
    let g := s.hif.rings.get k
    if !g.enable || g.state ≠ 1 then .next s
    else if s.indexOk k (v.setWidth 32) then
      let s := s.moveIndex k (v.setWidth 32)
      .next (if v.getLsbD 32 then s.arm k else s)
    else .next (s.ringFail fn k (v.setWidth 32))

/-! ### BAR4 and unmapped accesses -/

/-- The address lies in one of the ranges of the device address map (R21, Table 3), of which the populated LPDDR5 has `size` bytes (R410). -/
def mapped (size a : Nat) : Bool :=
  decide (a < min size 0x004000000000) || within 0x010000000000 0x01000FFFFFFF a || within 0x020000000000 0x0200014FFFFF a || decide (0x800000000000 ≤ a)

/-- HOST_UNMAPPED_ACCESS (R21): Unsupported Request, and no other effect. -/
def execHostUnmappedAccess (_fn : Fin 16) (addr : BitVec 48) (s : State) : Out :=
  .next (if mapped s.memc.size addr.toNat then s else { s with hif.cpl := { unsupported := true } })

/-- An access of `n` bytes at LPDDR5 address `a` through function `f`'s BAR4 is allowed (R258, R422). -/
def State.bar4Ok (s : State) (f : Fin 16) (a n : Nat) : Bool :=
  s.inDram a n && !(s.protectedAt a && checkLine a n) &&
    (f == 0 || match s.pln.plan with | some pl => pl.inRegion f.val a n | none => false)

/-- Number of bytes an access touches. -/
def accBytes : Access → Nat
  | .read n => n
  | .write d => d.length

/-- The key of a request queue (R416). -/
def queueKey (island part port : Nat) : Nat := 512 * island + 32 * part + port

/-- The pieces of an access of `n` bytes at `a`, one for each line it meets: address, offset and bytes. -/
def linePieces (a n : Nat) : List (Nat × Nat × Nat) :=
  (List.range ((a + n - 1) / 64 - a / 64 + 1)).map fun i =>
    let lo := max a ((a / 64 + i) * 64)
    (lo, lo - a, min (a + n) ((a / 64 + i + 1) * 64) - lo)

/-- BAR4_ACCESS (R258): each line of an access enters the queue of its island, partition and port 21 (R416), or the access completes with Unsupported
Request. -/
def execBar4Access (fn : Fin 16) (off : BitVec 36) (acc : Access) (s : State) : Out :=
  let a := (s.hif.fns.get fn.val).window.toNat + off.toNat
  let n := accBytes acc
  if s.bar4Ok fn a n then
    let qs := (linePieces a n).foldl (fun (t : Tab (List MemReq)) x =>
      let q : MemReq := { part := fn.val, port := 21, addr := x.1, len := x.2.2, arrival := s.tick, fn := some fn, at_ := x.2.1,
                          wr := match acc with | .read _ => none | .write d => some ((d.drop x.2.1).take x.2.2) }
      t.upd (queueKey (x.1 / 64 % 32 / 8) fn.val 21) (· ++ [q])) s.memc.queues
    .next { s with memc.queues := qs, hif.cpl := {} }
  else .next { s with hif.cpl := { unsupported := true } }

/-! ### Sessions and management -/

/-- EVENTS_LOST_RECORD (R277). -/
def execEventsLostRecord (fn : Fin 16) (s : State) : Out := .next (s.flushLost fn)

/-- The effect of OPEN_SESSION (R270, R273): the base SEQ is the command's own. -/
def State.openSession (s : State) (h : Hdr) (rb : BitVec 64) : State :=
  { s with hif.sessions := s.hif.sessions.set (s.devRing h.fn h.ring.toNat) { isOpen := true, version := 0x10, base := h.seq, resultBase := rb } }

/-- OPEN_SESSION (R28, R273). -/
def doOpenSession (h : Hdr) (low high : Byte) (rb : BitVec 64) (s : State) : Ans :=
  let n := s.hif.fns.get h.fn.val
  checks [(!(decide (low.toNat ≤ 0x10) && decide (0x10 ≤ high.toNat)), 0xF002),
          (rb != 0 && !(lineAligned rb.toNat && s.hostMem h.fn rb.toNat 64), stResultArea),
          ((s.hif.sessions.get (s.devRing h.fn h.ring.toNat)).isOpen, 0x0001)]
    (.ok (s.openSession h rb)
      { r0 := 0x10 + h.fn.val * 256, r1 := n.tagFirst.toNat + n.tagCount.toNat * 65536, r2 := n.ringFirst.toNat + n.ringCount.toNat * 65536 })

def execOpenSession (h : Hdr) (low high : Byte) (rb : BitVec 64) (s : State) : Out := firmware h s (doOpenSession h low high rb s)

/-- CLOSE_SESSION (R274): no command is taken after it; it is answered once every earlier command is. -/
def doCloseSession (h : Hdr) (s : State) : Ans :=
  let s := { s with hif.sessions := s.hif.sessions.upd (s.devRing h.fn h.ring.toNat) fun e => { e with closing := some h } }
  .later ((s.stopTaking h.fn h.ring.toNat).closeDrained h)

def execCloseSession (h : Hdr) (s : State) : Out := firmware h s (doCloseSession h s)

/-- EVENT_BIND (R277, R282). -/
def doEventBind (h : Hdr) (ring : BitVec 16) (s : State) : Ans :=
  let g := s.hif.rings.get (s.devRing h.fn ring.toNat)
  checks [(!(decide (ring.toNat < (s.hif.fns.get h.fn.val).ringCount.toNat) && g.enable && g.type == 3), 0x0002)]
    (.ok { s with hif.fns := s.hif.fns.upd h.fn.val fun n => { n with eventRing := ring.setWidth 13, bound := true } } {})

def execEventBind (h : Hdr) (ring : BitVec 16) (s : State) : Out := firmware h s (doEventBind h ring s)

/-- NOP (R282). -/
def execNop (h : Hdr) (echo : Word) (s : State) : Out := fastPath h s (.ok s { r0 := echo.toNat })

/-- What configuration space says of the device (R254): vendor, device and VF device, class code, revision. -/
structure PciId where
  vendor : BitVec 16
  device : BitVec 16
  vfDevice : BitVec 16
  classCode : BitVec 24
  revision : Byte
deriving DecidableEq, Repr

/-- R254's values, which no unit of the stepping differs in. -/
def pciId : PciId := { vendor := 0x1D7C, device := 0x2064, vfDevice := 0x2065, classCode := 0x120000, revision := 0xA1 }

/-- Double words 0 and 2 of a function's configuration space (R254, R255); PCIe gives a VF's identity in the SR-IOV capability of PF0. -/
def cfgWord (f : Fin 16) (i : Nat) : Word :=
  match i with
  | 0 => (if f = 0 then pciId.device else pciId.vfDevice) ++ pciId.vendor
  | 2 => pciId.classCode ++ pciId.revision
  | _ => 0

/-- The MSI-X Table Size field of a function (R256). -/
def State.msixSize (s : State) (f : Fin 16) : Nat := (s.hif.fns.get f.val).vecCount.toNat - 1

/-- The CAP registers (R287): CAP_DEVICE holds the device identity and the revision of R254. -/
def capWord (s : State) (i : Nat) : Word :=
  match i with
  | 0 => 0x00A12064
  | 1 => 0x00001010
  | 2 => 0x00100040
  | 3 => 0x40004000
  | 4 => 0x08001000
  | 5 => s.sec.fwVersion
  | _ => 0

/-- HIF_LINK (R288, Table 20). -/
def hifLink (s : State) : Word :=
  BitVec.ofNat 32 (pack [(0, 3, s.hif.rate.toNat), (3, 1, b2n s.hif.width), (8, 8, s.hif.repaired.toNat), (16, 16, s.hif.retrains.toNat)])

/-- Words in order as bytes. -/
def wordBytes (ws : List Word) : List Byte := ws.flatMap fun w => leBytes 4 w.toNat

/-- DEVICE_QUERY (R282). -/
def execDeviceQuery (h : Hdr) (s : State) : Out :=
  firmware h s (.ok s { ext := some (wordBytes ((List.range 6).map (capWord s) ++ [hifLink s])) })

/-! ### Host DMA (R283, R284) -/

/-- An address range a DMA command of function `f` may touch (R284, R422). -/
def State.dmaAddrOk (s : State) (f : Fin 16) (a n : Nat) : Bool :=
  inAperture a n ||
    (if f = 0 then (s.inDram a n && !(s.protectedAt a && checkLine a n)) || inSpads a n
     else match s.pln.plan with
       | some pl => (pl.inRegion f.val a n && s.inDram a n) || pl.inSpad f.val none a n
       | none => false)

/-- Two byte ranges overlap. -/
def overlap (a b n : Nat) : Bool := decide (a < b + n) && decide (b < a + n)

/-- Slot entries of an engine by R207: partition, assigned, job valid, job. -/
def slotFor (e p : Nat) : Bool := fld e 0 4 == p && bit e 4 && !bit e 5

/-- Partition `p` owns slots with JOB_VALID = 0 in the engine, in some window (R284). -/
def Plan.hostEngine (pl : Plan) (engine p : Nat) : Bool := pl.engSlots.any fun t => t.which == engine && t.slots.any (slotFor · p)

/-- The engine can serve the function (R284). -/
def State.dmaEngineOk (s : State) (f : Fin 16) (engine : Nat) : Bool :=
  decide (engine ≤ 15) && (match s.pln.state, s.pln.plan with | .running, some pl => pl.hostEngine engine f.val | _, _ => true)

/-- DMA_COPY (R283, R284): accepted, and moved line by line until HOST_DMA_DONE. -/
def doDmaCopy (h : Hdr) (engine : Byte) (src dst : BitVec 64) (bytes : Word) (s : State) : Ans :=
  let a := src.toNat; let b := dst.toNat; let n := bytes.toNat
  checks [(a % 4 != 0 || b % 4 != 0 || n % 4 != 0 || n < 4 || overlap a b n || !s.dmaAddrOk h.fn a n || !s.dmaAddrOk h.fn b n, 0x2001),
          (!s.dmaEngineOk h.fn engine.toNat, 0x2003)]
    (.later { s with hif.dma := s.hif.dma ++ [{ h := h, fill := none, src := a, dst := b, bytes := n, engine := engine.toNat }] })

def execDmaCopy (h : Hdr) (engine : Byte) (src dst : BitVec 64) (bytes : Word) (s : State) : Out :=
  fastPath h s (doDmaCopy h engine src dst bytes s)

/-- DMA_FILL (R283, R284). -/
def doDmaFill (h : Hdr) (engine : Byte) (pattern : Word) (dst : BitVec 64) (bytes : Word) (s : State) : Ans :=
  let b := dst.toNat; let n := bytes.toNat
  checks [(b % 4 != 0 || n % 4 != 0 || n < 4 || !s.dmaAddrOk h.fn b n, 0x2001), (!s.dmaEngineOk h.fn engine.toNat, 0x2003)]
    (.later { s with hif.dma := s.hif.dma ++ [{ h := h, fill := some pattern, src := 0, dst := b, bytes := n, engine := engine.toNat }] })

def execDmaFill (h : Hdr) (engine : Byte) (pattern : Word) (dst : BitVec 64) (bytes : Word) (s : State) : Out :=
  fastPath h s (doDmaFill h engine pattern dst bytes s)

/-- The lines of a move: offset and bytes of each. -/
def dmaLines (n : Nat) : List (Nat × Nat) := (List.range (cdiv n 64)).map fun i => (64 * i, min 64 (n - 64 * i))

/-- Moves the lines in order until one meets a hand-over or an uncorrectable read: the state, the bytes moved, and the status (R284). -/
def dmaRun (d : HostDma) : List (Nat × Nat) → State → State × Nat × Nat
  | [], s => (s, d.bytes, 0)
  | (o, n) :: t, s =>
    match d.fill with
    | some w =>
      if s.inHandover (d.dst + o) n then (s, o, 0x2002)
      else dmaRun d t (s.wrBoth (d.dst + o) ((List.range (n / 4)).flatMap fun _ => leBytes 4 w.toNat))
    | none =>
      if s.inHandover (d.src + o) n || s.inHandover (d.dst + o) n then (s, o, 0x2002)
      else if s.errIn (d.src + o) n == 2 then (if inSpads (d.src + o) n then s else s.noteUe (d.src + o), o, 0x2004)
      else dmaRun d t ((s.noteRead (d.src + o) n).wrBoth (d.dst + o) (s.rd (d.src + o) n))

/-- An earlier host DMA of the ring of `d` still runs: the fast-path commands of a ring take effect in its order (R272). -/
def State.dmaBehind (s : State) (i : Nat) (d : HostDma) : Bool := (s.hif.dma.take i).any fun e => e.h.fn == d.h.fn && e.h.ring == d.h.ring

/-- HOST_DMA_DONE (R272, R284) of the `i`-th running host DMA command, in a window in which its engine serves the function's partition (R207): its lines are moved, and it completes or stops with DETAIL the bytes moved. -/
def execHostDmaDone (i : Nat) (s : State) : Out :=
  match s.hif.dma[i]? with
  | none => .next s
  | some d =>
    if s.dmaBehind i d || !s.engineServes d.engine d.h.fn.val none then .next s else
    let (s, n, st) := dmaRun d (dmaLines d.bytes) { s with hif.dma := dropAt i s.hif.dma }
    .next (s.reply d.h { status := st, detail := if st = 0 then 0 else n })

/-- BAR4_SET (R258, R284). -/
def doBar4Set (h : Hdr) (base : BitVec 64) (s : State) : Ans :=
  let old := (s.hif.fns.get h.fn.val).window
  checks [(base.toNat % 0x100000 != 0 || decide (0x004000000000 ≤ base.toNat), 0x2001)]
    (.ok { s with hif.fns := s.hif.fns.upd h.fn.val fun n => { n with window := base } }
      { r0 := old.toNat % 2 ^ 32, r1 := old.toNat / 2 ^ 32 })

def execBar4Set (h : Hdr) (base : BitVec 64) (s : State) : Out := firmware h s (doBar4Set h base s)

/-! ### The link's training (R252) -/

/-- The link as training leaves it: a rate beyond Table 1 is none that the device supports, and no link comes up. -/
def State.trained (s : State) (l : UcieLink) : Option State :=
  if 5 < l.rate.toNat then none else some { s with hif.linkUp := true, hif.rate := l.rate, hif.width := l.narrow, hif.repaired := l.repaired }

/-! ### Resets of the link (R275) -/

/-- Function Level Reset of `f` (R275): sessions closed, rings disabled with their descriptors reset, waits released, the window zero, commands abandoned. -/
def State.fnReset (s : State) (f : Fin 16) : State :=
  let mine := fun k => s.ringOwner k == some f
  let n := s.hif.fns.get f.val
  { s with
    hif.sessions := ⟨s.hif.sessions.cells.filter fun c => !mine c.1⟩,
    hif.rings := ⟨s.hif.rings.cells.filter fun c => !mine c.1⟩,
    hif.held := s.hif.held.filter fun x => x.h.fn != f,
    hif.dma := s.hif.dma.filter fun d => d.h.fn != f,
    hif.fns := s.hif.fns.set f.val { n with window := 0 },
    tly.waits := s.tly.waits.filter fun w => match w.who with | .host h => h.fn != f | .remote .. => true,
    tly.ops := s.tly.ops.map fun o => if o.h.any (fun h => h.fn == f) then { o with h := none } else o,
    tly.remote := s.tly.remote.filter fun c => c.h.fn != f }

end Sys2Proof.Machine
end

