-- ==== Sys2Proof/Machine/Layout.lean ====
section
/-! DEFINITION. The parameter layout of every command (R267, R271 and the command tables of the chapters): which bits of a parameter
area are fields, every other bit being reserved. -/

namespace Sys2Proof.Machine

/-- A parameter by byte offset and width (R266). -/
def par (x byte w : Nat) : Nat := fld x (8 * byte) w

/-- Fields shared by the camera and record descriptors (R292, R309): bits [767:192]. -/
def colourFields : List (Nat × Nat) := [(192, 288), (480, 8), (512, 96), (608, 96), (704, 48)]

/-- A camera descriptor's fields (R292, Table 2). -/
def cameraFields : List (Nat × Nat) := [(0, 31), (32, 144)] ++ colourFields ++ [(768, 27), (800, 8), (816, 48), (880, 80)]

/-- A record descriptor's fields (R309, Table 5). -/
def recordFields : List (Nat × Nat) := [(0, 1), (4, 9), (16, 32), (96, 96)] ++ colourFields ++ [(768, 48)]

/-- A loop record's fields (R322, Table 1; a source code has 13 bits by R324). -/
def loopFields : List (Nat × Nat) :=
  [(0, 7), (8, 7), (16, 7), (24, 5), (32, 13), (48, 13), (64, 13), (80, 13), (96, 5), (104, 24), (128, 38), (192, 486), (704, 54), (760, 2),
   (768, 48), (832, 48)]

/-- A coefficient set's fields (R323, Table 2). -/
def coefFields : List (Nat × Nat) := [(0, 190), (192, 128)]

/-- Fields placed at a byte offset. -/
def shiftFields (byte : Nat) (fs : List (Nat × Nat)) : List (Nat × Nat) := fs.map fun f => (f.1 + 8 * byte, f.2)

/-- Parameter fields of the class 0x0 commands that have fixed ones: bit offset and width. -/
def fields0 : Nat → Option (List (Nat × Nat))
  | 0x0001 => some [(0, 8), (8, 8), (64, 64)]
  | 0x0002 => some []
  | 0x0003 => some [(0, 16)]
  | 0x0004 => some [(0, 32)]
  | 0x0005 => some []
  | 0x0040 => some [(0, 16), (64, 64), (128, 64)]
  | 0x0041 => some []
  | 0x0042 => some [(0, 16), (64, 64), (128, 64)]
  | 0x0043 => some []
  | 0x0044 => some [(0, 8), (8, 8)]
  | _ => none

/-- Parameter fields of the class 0x1 commands that have fixed ones: bit offset and width. -/
def fields1 : Nat → Option (List (Nat × Nat))
  | 0x1001 => some [(0, 64), (64, 32)]
  | 0x1002 => some [(0, 8), (8, 8), (64, 64)]
  | 0x1003 => some [(0, 8)]
  | 0x1004 => some []
  | 0x1005 => some []
  | 0x1006 => some [(0, 10)]
  | 0x1007 => some [(0, 10)]
  | 0x1008 => some [(0, 8)]
  | 0x1009 => some [(0, 8)]
  | 0x100A => some [(0, 8)]
  | _ => none

/-- Parameter fields of the class 0x2 commands that have fixed ones: bit offset and width. -/
def fields2 : Nat → Option (List (Nat × Nat))
  | 0x2001 => some [(0, 8), (64, 64), (128, 64), (192, 32)]
  | 0x2002 => some [(0, 8), (32, 32), (128, 64), (192, 32)]
  | 0x2003 => some [(64, 64)]
  | _ => none

/-- Parameter fields of the class 0x3 commands that have fixed ones: bit offset and width. TALLY keeps its 16 bits: R520 reserves [15:14] for
growth and R278 and R286 give a number of 16,384 or above TALLY_RANGE; the status of its owner is drawn (DESIGN CHOICE, log entry 83). -/
def fields3 : Nat → Option (List (Nat × Nat))
  | 0x3001 => some [(0, 16), (32, 32)]
  | 0x3002 => some [(0, 16), (32, 32)]
  | 0x3003 => some [(0, 16)]
  | 0x3004 => some [(0, 16), (32, 32), (64, 32)]
  | 0x3005 => some [(0, 16), (16, 14), (32, 32)]
  | 0x3006 => some [(0, 16), (16, 14), (32, 32)]
  | 0x3007 => some [(0, 16), (16, 14)]
  | 0x3008 => some [(0, 16), (16, 14), (32, 32), (64, 32)]
  | _ => none

/-- Parameter fields of the class 0x4 commands that have fixed ones: bit offset and width. -/
def fields4 : Nat → Option (List (Nat × Nat))
  | 0x4001 => some [(0, 12), (16, 8), (32, 32), (64, 32)]
  | 0x4002 => some [(0, 12), (16, 8), (32, 32), (64, 12), (80, 16), (96, 32)]
  | 0x4003 => some [(0, 12), (16, 16), (32, 32), (64, 16), (128, 64), (192, 32)]
  | 0x4004 => some [(0, 12), (16, 16)]
  | 0x4005 => some [(0, 12)]
  | 0x4006 => some [(0, 8)]
  | 0x4007 => some [(0, 8), (8, 8), (16, 8), (24, 2), (32, 14), (48, 14), (64, 12), (80, 12), (96, 12), (112, 16), (128, 16), (192, 64), (256, 32)]
  | 0x4008 => some [(0, 8), (8, 8)]
  | 0x4009 => some [(0, 8), (8, 8), (16, 8), (64, 64), (128, 32)]
  | 0x400A => some [(0, 8)]
  | 0x4020 => some [(0, 12), (16, 16), (32, 8), (48, 16), (64, 64)]
  | 0x4021 => some [(0, 12), (16, 16)]
  | 0x4022 => some [(0, 12), (16, 16)]
  | 0x4023 => some [(0, 12), (16, 16), (32, 8), (64, 32)]
  | 0x4024 => some [(0, 12), (16, 16)]
  | 0x4025 => some [(0, 12)]
  | 0x4026 => some [(0, 12), (16, 16), (64, 64)]
  | 0x4027 => some [(0, 12), (16, 16), (64, 64)]
  | _ => none

/-- Parameter fields of the class 0x5 commands that have fixed ones: bit offset and width. -/
def fields5 : Nat → Option (List (Nat × Nat))
  | 0x5001 => some [(0, 8), (8, 8), (16, 8), (32, 16)]
  | 0x5003 => some [(0, 8)]
  | 0x5004 => some [(0, 8)]
  | 0x5006 => some [(0, 8), (64, 64), (128, 32)]
  | 0x5007 => some [(0, 8), (8, 8)]
  | _ => none

/-- Parameter fields of the class 0x6 commands that have fixed ones: bit offset and width. -/
def fields6 : Nat → Option (List (Nat × Nat))
  | 0x6003 => some [(0, 8)]
  | 0x6004 => some [(0, 8)]
  | 0x6005 => some [(0, 8)]
  | 0x6006 => some [(0, 8), (32, 32), (64, 32), (96, 32)]
  | 0x6008 => some [(0, 8), (32, 32), (64, 8), (72, 8), (80, 16), (96, 16), (112, 8), (120, 8), (128, 8), (136, 8), (144, 8)]
  | 0x6009 => some [(0, 8)]
  | 0x600A => some [(0, 8), (8, 8), (64, 64)]
  | 0x600B => some []
  | 0x600C => some [(0, 8), (8, 8), (16, 8), (24, 8), (32, 32), (64, 32), (96, 16), (128, 32), (160, 32), (192, 32)]
  | 0x600D => some [(0, 8), (8, 8), (16, 8), (24, 8), (32, 16), (64, 32), (128, 64)]
  | 0x600E => some [(0, 8)]
  | _ => none

/-- Parameter fields of the class 0x7 commands that have fixed ones: bit offset and width. -/
def fields7 : Nat → Option (List (Nat × Nat))
  | 0x7001 => some [(0, 16), (32, 32), (64, 48)]
  | 0x7002 => some [(0, 16), (32, 32), (64, 64)]
  | 0x7003 => some [(0, 48)]
  | 0x7004 => some [(0, 32), (32, 32)]
  | 0x7005 => some []
  | 0x7006 => some [(0, 8), (8, 8), (16, 8), (64, 64), (128, 32), (160, 32)]
  | 0x7007 => some [(0, 8)]
  | 0x7008 => some [(0, 32)]
  | 0x7020 => some [(0, 8), (8, 8), (16, 8), (32, 16), (64, 32), (96, 32), (128, 32)]
  | 0x7021 => some [(0, 8), (8, 8), (16, 8), (24, 8), (32, 32), (64, 64), (128, 64)]
  | 0x7022 => some [(0, 8), (8, 8), (16, 8), (24, 8), (32, 16), (48, 12), (64, 48)]
  | 0x7024 => some [(0, 8), (8, 8), (16, 8), (32, 16), (64, 64), (128, 64)]
  | 0x7025 => some [(0, 8), (8, 8), (16, 8), (24, 8), (32, 16), (64, 64), (128, 64)]
  | 0x7026 => some [(0, 8), (8, 8)]
  | 0x7027 => some [(0, 8)]
  | 0x7040 => some [(0, 8), (8, 8), (32, 32), (64, 32)]
  | 0x7041 => some [(0, 8), (16, 16), (32, 16), (48, 16), (64, 16), (80, 8), (88, 8), (96, 8), (104, 8), (112, 8), (120, 8)]
  | 0x7042 => some [(0, 8), (8, 8), (16, 8), (24, 8), (32, 8), (64, 32), (96, 32)]
  | 0x7043 => some [(0, 8), (8, 8), (16, 8), (24, 8), (32, 8), (64, 64), (128, 64)]
  | 0x7044 => some [(0, 8), (8, 8)]
  | 0x7045 => some [(0, 8), (8, 8)]
  | 0x7046 => some [(0, 8), (8, 8), (16, 8)]
  | 0x7047 => some [(0, 8)]
  | 0x7048 => some [(0, 8)]
  | _ => none

/-- Parameter fields of the class 0x8 commands that have fixed ones: bit offset and width. -/
def fields8 : Nat → Option (List (Nat × Nat))
  | 0x8001 => some [(0, 14)]
  | 0x8002 => some [(0, 8), (8, 8), (16, 8), (24, 8), (32, 8), (40, 8), (48, 8), (64, 48)]
  | 0x8003 => some [(0, 10), (16, 14), (32, 8), (40, 8), (48, 8)]
  | 0x8004 => some [(0, 14), (128, 224)]
  | 0x8005 => some [(0, 8)]
  | 0x8006 => some [(0, 8), (8, 8), (16, 8), (32, 32), (64, 32), (96, 14)]
  | 0x8007 => some [(0, 8), (8, 8), (16, 8)]
  | 0x8008 => some [(0, 8)]
  | _ => none

/-- Parameter fields of the class 0x9 commands that have fixed ones: bit offset and width. -/
def fields9 : Nat → Option (List (Nat × Nat))
  | 0x9001 => some [(0, 16), (16, 8), (24, 8)]
  | 0x9002 => some [(0, 16), (16, 8)]
  | 0x9003 => some [(0, 8), (64, 64)]
  | 0x9004 => some [(0, 16), (16, 8), (32, 10)]
  | 0x9005 => some []
  | _ => none

/-- Parameter fields of the class 0xA commands that have fixed ones: bit offset and width. -/
def fieldsA : Nat → Option (List (Nat × Nat))
  | 0xA001 => some [(0, 1024)]
  | 0xA002 => some [(0, 16), (16, 16)]
  | 0xA003 => some [(0, 8), (8, 8)]
  | 0xA004 => some [(0, 384), (384, 384), (768, 32), (800, 384)]
  | 0xA005 => some [(0, 8), (64, 768)]
  | 0xA006 => some [(0, 8)]
  | 0xA007 => some []
  | 0xA008 => some [(0, 2048)]
  | 0xA009 => some [(0, 384), (384, 64)]
  | 0xA00A => some []
  | 0xA00B => some [(0, 1280)]
  | 0xA00C => some [(0, 2048)]
  | 0xA00D => some []
  | 0xA00E => some []
  | 0xA00F => some [(0, 64)]
  | 0xA010 => some [(0, 512)]
  | _ => none

/-- Parameter fields of the class 0xB commands that have fixed ones: bit offset and width. -/
def fieldsB : Nat → Option (List (Nat × Nat))
  | 0xB001 => some [(0, 8), (8, 6), (16, 16), (32, 16), (48, 8), (56, 8), (64, 32), (96, 8), (128, 64), (192, 32)]
  | 0xB002 => some [(0, 8), (8, 8), (64, 134)]
  | 0xB003 => some []
  | 0xB004 => some []
  | 0xB005 => some []
  | 0xB006 => some []
  | 0xB007 => some [(0, 8), (8, 8)]
  | _ => none
/-- CLE_INPUT_CONFIG's fields by KIND (R328): KIND, INDEX and the 16-bit parameters of the kind. -/
def inputFields (kind : Nat) : List (Nat × Nat) :=
  let n := if kind = 2 then 7 else 3
  [(0, 8), (8, 8)] ++ (List.range n).map fun i => (32 + 16 * i, 16)

/-- The parameter fields of an opcode, given the parameters; none for an unassigned opcode. -/
def fieldsOf (op x : Nat) : Option (List (Nat × Nat)) :=
  match op with
  | 0x5002 => some ((0, 8) :: shiftFields 8 cameraFields)
  | 0x5005 => some ((0, 8) :: shiftFields 8 recordFields)
  | 0x6001 => some ((0, 8) :: shiftFields 8 loopFields)
  | 0x6002 => some ((0, 8) :: (8, 8) :: shiftFields 8 coefFields)
  | 0x6007 => some (inputFields (par x 0 8))
  | 0x7023 => some ([(0, 8), (16, 16), (32, 32), (64, 64)] ++ (List.range 256).flatMap fun i => [(128 + 64 * i, 8), (160 + 64 * i, 32)])
  | _ => match op / 0x1000 with
    | 0x0 => fields0 op
    | 0x1 => fields1 op
    | 0x2 => fields2 op
    | 0x3 => fields3 op
    | 0x4 => fields4 op
    | 0x5 => fields5 op
    | 0x6 => fields6 op
    | 0x7 => fields7 op
    | 0x8 => fields8 op
    | 0x9 => fields9 op
    | 0xA => fieldsA op
    | 0xB => fieldsB op
    | _ => none

/-- The bits that fields cover. -/
def cover (fs : List (Nat × Nat)) : Nat := fs.foldl (fun m f => m ||| ((2 ^ f.2 - 1) * 2 ^ f.1)) 0

/-- The lowest byte of `n` in which bits outside the fields are set. -/
def firstReserved (fs : List (Nat × Nat)) (x n : Nat) : Option Nat :=
  let bad := x ^^^ (x &&& cover fs)
  if bad = 0 then none else findIdx (fun i => bad / 256 ^ i % 256 != 0) (List.range n) 0

end Sys2Proof.Machine
end

