-- ==== Sys2Proof/Machine/Carry.lean ====
section
/-! DEFINITION. Carry records and the commands on them (R184, R185, R190 to R197). -/

namespace Sys2Proof.Machine

def State.stream (s : State) (n : Nat) : Stream := s.cry.streams.get n
def State.updStream (s : State) (n : Nat) (f : Stream → Stream) : State := { s with cry.streams := s.cry.streams.upd n f }

/-- The stream declaration of a partition. -/
def State.carryDecl (s : State) (p : Nat) : Option CarryDecl := s.pln.plan.bind fun pl => pl.carries.find? fun k => k.part == p

/-- Bytes of a record, and of a home (R184, R185). -/
def recordBytes (width : Nat) : Nat := 64 + 12 * width
def CarryDecl.stride (k : CarryDecl) : Nat := cdiv (recordBytes k.maxWidth) 64 * 64
def CarryDecl.home (k : CarryDecl) (n : Nat) : Nat := k.swapBase + (n - k.streamFirst) * k.stride
def CarryDecl.has (k : CarryDecl) (n : Nat) : Bool := decide (k.streamFirst ≤ n) && decide (n < k.streamFirst + k.streamCount)

/-- A WIDTH that R182 allows, up to a largest. -/
def widthOk (m w : Nat) : Bool := w % 64 == 0 && within 64 5440 w && decide (w ≤ m)

/-- Where a stream's record lies (R192). -/
def State.recordAt (s : State) (k : CarryDecl) (n : Nat) : Nat := let t := s.stream n; if t.resident then spadAddr t.rod t.slot else k.home n

/-- The header line of a stream's record (R184, Table 1). -/
def Stream.header (t : Stream) (n : Nat) : List Byte :=
  leBytes 64 (pack [(0, 12, n), (16, 16, t.gen.toNat), (32, 16, t.width), (48, 1, b2n t.active), (64, 64, t.stepsDone.toNat),
    (128, 32, t.chunks.toNat), (160, 32, t.lastReset.toNat)])

/-- The stream entry (R198, Table 6). -/
def Stream.bytes (t : Stream) : List Byte :=
  leBytes 32 (pack [(0, 1, b2n t.isOpen), (1, 1, b2n t.resident), (2, 2, t.motion.toNat), (4, 1, b2n t.executing), (5, 1, b2n t.active),
    (6, 1, b2n t.pending), (8, 4, t.part), (16, 16, t.gen.toNat), (32, 16, t.width), (48, 6, if t.resident then t.rod else 0), (64, 22, t.slot),
    (96, 14, t.resTally), (128, 64, t.stepsDone.toNat), (192, 32, t.chunks.toNat), (224, 32, t.lastReset.toNat)])

/-- A partition has a tally from the plan. -/
def State.partTally (s : State) (p t : Nat) : Bool := ((s.pln.plan.map Plan.tallies).getD []).any fun e => e.tally == t && e.part == p

/-- A slot of `bytes` at an offset of a rod that CARRY_SWAP_IN may name (R195), but for its overlap with resident streams. -/
def State.slotOk (s : State) (k : CarryDecl) (rod off bytes : Nat) : Bool :=
  lineAligned off && k.areas.any (fun a => a.rod == rod && decide (a.off ≤ off) && decide (off + bytes ≤ a.off + 64 * a.lines)) &&
    !(rod % 2 == 1 && (s.rods.get rod).locked)

/-- The slot overlaps a resident stream's (R195). -/
def State.slotTaken (s : State) (rod off bytes : Nat) : Bool :=
  s.cry.streams.cells.any fun c => c.2.isOpen && c.2.resident && c.2.rod == rod && decide (c.2.slot < off + bytes) &&
    decide (off < c.2.slot + cdiv (recordBytes c.2.width) 64 * 64)

/-- A carry command in the keeper (R194 to R197): its reply, none for a swap that goes on until its last slot. -/
def State.carryExec (s : State) (p op x : Nat) : Option Rep × State :=
  let n := par x 0 16
  match s.carryDecl p with
  | none => (some { status := 0x4020 }, s)
  | some k =>
    let t := s.stream n
    let no := fun (cs : List (Bool × Nat)) => ((cs.find? (·.1)).map fun c => ({ status := c.2 } : Rep))
    let range := (!k.has n, 0x4020)
    let named := [(!t.isOpen, 0x4021), (t.gen.toNat != par x 2 16, 0x4022), (t.executing, 0x4023)]
    let bytes := recordBytes t.width
    let addrOk := fun (a m : Nat) => lineAligned a && s.partAll p a m
    match op with
    | 0x4020 =>
      let w := par x 2 16; let mode := par x 4 8; let tally := par x 6 16; let a := par x 8 64
      match no [range, (!widthOk k.maxWidth w || decide (1 < mode) || !s.partTally p tally, 0x4024), (mode == 1 && !addrOk a (4 * w), 0x4027), (t.isOpen, 0x4021)] with
      | some r => (some r, s)
      | none =>
        let (init, s) := if mode = 1 then s.blockRead a (4 * w) else (List.replicate (4 * w) 0, s)
        let t : Stream := { isOpen := true, motion := 3, part := p, gen := t.gen + 1, width := w, resTally := tally }
        let s := (s.updStream n fun _ => t).wr (k.home n) (t.header n ++ init ++ List.replicate (4 * w) 0 ++ init)
        (some { r0 := t.gen.toNat }, s)
    | 0x4021 =>
      match no (range :: named) with
      | some r => (some r, s)
      | none => (some {}, s.updStream n fun t => { t with isOpen := false, resident := false })
    | 0x4022 =>
      match no (range :: named ++ [(!t.resident, 0x4021)]) with
      | some r => (some r, s)
      | none => (none, s.updStream n fun t => { t with motion := 2 })
    | 0x4023 =>
      let rod := par x 4 8; let off := par x 8 32
      match no ([range, (!s.slotOk k rod off bytes, 0x4025)] ++ named ++ [(t.resident, 0x4021), (s.slotTaken rod off bytes, 0x4025)]) with
      | some r => (some r, s)
      | none => (none, s.updStream n fun t => { t with motion := 1, rod := rod, slot := off })
    | 0x4024 =>
      match no (range :: named) with
      | some r => (some r, s)
      | none =>
        let a := s.recordAt k n
        let (init, s) := s.blockRead (a + 64 + 8 * t.width) (4 * t.width)
        let t := { t with lastReset := t.stepsDone.setWidth 32, motion := 3 }
        (some {}, ((s.updStream n fun _ => t).putFor none a (t.header n)).putFor none (a + 64 + (if t.active then 4 * t.width else 0)) init)
    | 0x4025 =>
      match no [range, (!t.isOpen, 0x4021)] with
      | some r => (some r, s)
      | none => (some { ext := some t.bytes }, s)
    | 0x4026 =>
      let d := par x 8 64
      match no ([range, (!addrOk d bytes, 0x4027)] ++ named) with
      | some r => (some r, s)
      | none =>
        let (body, s) := s.blockRead (s.recordAt k n + 64) (12 * t.width)
        (some {}, s.putFor none d (t.header n ++ body))
    | _ =>
      let d := par x 8 64
      match no ([range, (!addrOk d bytes, 0x4027)] ++ named) with
      | some r => (some r, s)
      | none =>
        let (rec_, s') := s.blockRead d bytes
        let g := leNat (rec_.take 64)
        if fld g 0 12 != n || fld g 32 16 != t.width || fld g 12 4 != 0 || fld g 49 15 != 0 || fld g 192 320 != 0 then (some { status := 0x4026 }, s)
        else
          let t := { t with active := bit g 48, stepsDone := BitVec.ofNat 64 (fld g 64 64), chunks := BitVec.ofNat 32 (fld g 128 32),
                            lastReset := BitVec.ofNat 32 (fld g 160 32), motion := 3 }
          (some {}, (s'.updStream n fun _ => t).putFor none (s.recordAt k n) (t.header n ++ rec_.drop 64))

/-- A swap's last slot (R194, R195): the record is copied, residency changes, and a swap-in adds 1 to the residency tally. -/
def State.swapDone (s : State) (n : Nat) : State :=
  let t := s.stream n
  match s.carryDecl t.part with
  | none => s
  | some k =>
    let home := k.home n
    let there := spadAddr t.rod t.slot
    if t.motion = 1 then
      let (bs, s) := s.blockRead home (recordBytes t.width)
      ((s.putFor none there bs).updStream n fun t => { t with resident := true, motion := 0 }).signalTally t.resTally 1
    else if t.motion = 2 then
      let (bs, s) := s.blockRead (there + 64) (12 * t.width)
      (s.wr home (t.header n ++ bs)).updStream n fun t => { t with resident := false, motion := 0 }
    else s

/-- A job's run ends normally: every stream pending from it is committed (R191), and its claims end (R192). -/
def State.commitCarries (s : State) (j : Nat) : State :=
  { s with cry.streams := s.cry.streams.mapV fun t =>
      if t.job = some j then
        let t' := if t.pending then
            { t with active := !t.active, stepsDone := t.stepsDone + BitVec.ofNat 64 t.pendSteps, chunks := t.chunks + BitVec.ofNat 32 t.pendChunks,
                     lastReset := match t.pendMark with | some m => BitVec.ofNat 32 m | none => t.lastReset }
          else t
        { t' with pending := false, executing := false, job := none, pendSteps := 0, pendChunks := 0, pendMark := none }
      else t }

/-- A job's teardown clears its pending carries (R191). -/
def State.dropCarries (s : State) (j : Nat) : State :=
  { s with cry.streams := s.cry.streams.mapV fun t =>
      if t.job = some j then { t with pending := false, executing := false, job := none, pendSteps := 0, pendChunks := 0, pendMark := none } else t }

end Sys2Proof.Machine
end

