-- ==== Sys2Proof/Machine/Keeper.lean ====
section
/-! DEFINITION. The page keeper: pools, sequences, appends, copy-on-write, and rings of devices (R160 to R181). -/

namespace Sys2Proof.Machine

/-! ### Tables -/

def State.pool (s : State) (p : Nat) : Option KvPool := s.pln.plan.bind fun pl => pl.pools.find? fun k => k.part == p
def State.seq (s : State) (q : Nat) : KvSeq := s.pgk.seqs.get q
def State.updSeq (s : State) (q : Nat) (f : KvSeq → KvSeq) : State := { s with pgk.seqs := s.pgk.seqs.upd q f }

/-- PAGE_BYTES and PAGE_ADDR (R160). -/
def KvPool.pageBytes (k : KvPool) : Nat := k.planes * 64 * k.planeRow
def KvPool.pageAddr (k : KvPool) (g : Nat) : Nat := k.base + (g - k.pageFirst) * k.pageBytes

/-- Sequence `q` belongs to the pool. -/
def KvPool.hasSeq (k : KvPool) (q : Nat) : Bool := decide (k.seqFirst ≤ q) && decide (q < k.seqFirst + k.seqCount)

/-- Blocks a sequence can hold: MAX_LEN / 64, rounded up. -/
def KvSeq.span (q : KvSeq) : Nat := cdiv q.maxLen 64

/-- Blocks that LEN tokens fill, and the first block held (R162). -/
def KvSeq.blocks (q : KvSeq) : Nat := cdiv q.len 64
def KvSeq.first (q : KvSeq) : Nat := if q.sliding then q.blocks - min q.blocks q.span else 0

/-- The page-table index of block `b` (R160, R161). -/
def KvPool.slot (k : KvPool) (n : Nat) (q : KvSeq) (b : Nat) : Nat :=
  k.ptFirst + (n - k.seqFirst) * k.ptStride + (if q.sliding then b % q.span else b)

/-- The page of block `b`, if its entry is valid. -/
def State.pageOf (s : State) (k : KvPool) (n b : Nat) : Option Nat :=
  match s.pgk.table.get (k.slot n (s.seq n) b) with
  | 0 => none
  | g + 1 => some g

/-- The pages of the blocks a sequence holds, in block order. -/
def State.heldPages (s : State) (k : KvPool) (n : Nat) : List Nat :=
  let q := s.seq n
  (List.range (q.blocks - q.first)).filterMap fun i => s.pageOf k n (q.first + i)

/-- Writes a page-table entry. -/
def State.setEntry (s : State) (k : KvPool) (n b : Nat) (g : Option Nat) : State :=
  { s with pgk.table := s.pgk.table.set (k.slot n (s.seq n) b) (match g with | some g => g + 1 | none => 0) }

/-- Takes the page at the head of the free list, with one reference (R163). -/
def State.takePage (s : State) (k : KvPool) : Option (Nat × State) :=
  let f := s.pgk.pools.get k.part
  let got := fun (g : Nat) (f : PoolSt) => some (g, { s with pgk.pools := s.pgk.pools.set k.part f, pgk.pages := s.pgk.pages.set g { refs := 1, taken := true } })
  if f.next < k.pageCount then got (k.pageFirst + f.next) { f with next := f.next + 1 }
  else match f.back with
    | [] => none
    | g :: rest => got g { f with back := rest }

/-- A page loses a reference; with no pin either it returns to the free list's tail (R168, R169, R170). -/
def State.decRef (s : State) (part g : Nat) : State :=
  let c := s.pgk.pages.get g
  let c' := { c with refs := c.refs - 1 }
  if c'.refs = 0 && c'.pins = 0 && c.taken then s.pageBack part g else { s with pgk.pages := s.pgk.pages.set g c' }

/-- KV_SEQ_CLOSE takes a keeper slot for each page: the pages that it returns come in ticks of their own, in block order (R168). -/
def State.nextSlot (s : State) (part : Nat) : State := { s with pgk.pools := s.pgk.pools.upd part fun q => { q with fresh := 0 } }

/-- The page after `g` on its pool's free list; of a page that none follows, Table 7 gives no value. -/
def State.nextFree (s : State) (g : Nat) : BitVec 20 :=
  match ((s.pln.plan.map Plan.pools).getD []).find? fun k => decide (k.pageFirst ≤ g) && decide (g < k.pageFirst + k.pageCount) with
  | none => Config.pageNext g
  | some k =>
    let f := s.pgk.pools.get k.part
    let after := if k.pageFirst + f.next ≤ g then (if g + 1 < k.pageFirst + k.pageCount then some (g + 1) else f.back.head?)
      else ((f.back.dropWhile fun x => x != g).drop 1).head?
    (after.map fun x => BitVec.ofNat 20 x).getD (Config.pageNext g)

/-- The count-store entry of a page (R161, Table 7). -/
def State.pageEntry (s : State) (g : Nat) : Nat :=
  let c := s.pgk.pages.get g
  pack [(0, 16, c.refs), (16, 16, c.pins), (32, 20, (s.nextFree g).toNat), (52, 1, b2n !c.taken)]

/-- A page gains a pin (R169). -/
def State.pin (s : State) (g : Nat) : State := { s with pgk.pages := s.pgk.pages.upd g fun c => { c with pins := c.pins + 1 } }

/-- Free pages, the sum of reservations, and unowned pages of a pool (R181, Table 13). -/
def State.poolFree (s : State) (k : KvPool) : Nat := let f := s.pgk.pools.get k.part; k.pageCount - f.next + f.back.length
def State.poolResv (s : State) (part : Nat) : Nat :=
  s.pgk.seqs.cells.foldl (fun a c => if c.2.isOpen && c.2.part == part then a + c.2.resv else a) 0
def State.poolUnowned (s : State) (k : KvPool) : Nat :=
  (s.pgk.pages.cells.filter fun c => decide (k.pageFirst ≤ c.1) && decide (c.1 < k.pageFirst + k.pageCount) && c.2.taken && c.2.refs == 0).length

/-- The 32 bytes of a sequence entry (R161, Table 6). -/
def KvSeq.bytes (q : KvSeq) : List Byte :=
  leBytes 32 (pack [(0, 1, b2n q.isOpen), (1, 1, b2n q.exhausted), (2, 1, b2n q.sliding), (3, 1, b2n q.guest), (8, 4, q.part), (16, 16, q.gen.toNat),
    (32, 32, q.len), (64, 32, q.tokBase), (96, 32, q.qposLast.toNat), (128, 32, q.maxLen), (160, 20, q.resv)])

/-! ### Sequences (R163, R166, R168) -/

/-- Pages to reserve (R163). -/
def resvOf (sliding : Bool) (maxLen : Nat) : Nat := if sliding then maxLen / 64 + 1 else cdiv maxLen 64

/-- POLICY and MAX_LEN are allowed (R163, R516). -/
def lenOk (k : KvPool) (policy maxLen tokBase : Nat) : Bool :=
  decide (policy ≤ 1) && within 1 (64 * k.ptStride) maxLen && (policy == 0 || maxLen % 64 == 0) && decide (tokBase + maxLen ≤ 2 ^ 32)

/-- A sequence opens with LEN and TOK_BASE given: its generation advances. -/
def State.openSeq (s : State) (part n policy maxLen tokBase len : Nat) : State :=
  s.updSeq n fun q => { isOpen := true, sliding := policy == 1, part := part, gen := q.gen + 1, len := len, tokBase := tokBase,
                        qposLast := BitVec.ofInt 32 (tokBase + len - 1 : Int), maxLen := maxLen, resv := resvOf (policy == 1) maxLen }

/-- The first check that fails, as a reply. -/
def refusal (cs : List (Bool × Nat)) : Option Rep := (cs.find? (·.1)).map fun c => { status := c.2 }

/-- KV_SEQ_OPEN (R163). -/
def State.kvOpen (s : State) (p x : Nat) : Rep × State :=
  let n := par x 0 12; let policy := par x 2 8; let maxLen := par x 4 32; let base := par x 8 32
  match s.pool p with
  | none => ({ status := 0x4001 }, s)
  | some k =>
    match refusal [(!k.hasSeq n, 0x4001), (!lenOk k policy maxLen base, 0x4007), ((s.seq n).isOpen, 0x4002),
        (decide (k.pageCount < s.poolResv p + resvOf (policy == 1) maxLen), 0x4004)] with
    | some r => (r, s)
    | none => let s := s.openSeq p n policy maxLen base 0; ({ r0 := (s.seq n).gen.toNat }, s)

/-- KV_SEQ_FORK (R166). -/
def State.kvFork (s : State) (p x : Nat) : Rep × State :=
  let n := par x 0 12; let policy := par x 2 8; let maxLen := par x 4 32; let m := par x 8 12; let gen := par x 10 16; let prefix_ := par x 12 32
  match s.pool p with
  | none => ({ status := 0x4001 }, s)
  | some k =>
    let q := s.seq m
    match refusal [(!k.hasSeq n || !k.hasSeq m, 0x4001), (!lenOk k policy maxLen q.tokBase || decide (maxLen < prefix_), 0x4007),
        ((s.seq n).isOpen || !q.isOpen, 0x4002), (q.gen.toNat != gen, 0x4003), (decide (q.len < prefix_) || q.first != 0, 0x4007),
        (decide (k.pageCount < s.poolResv p + resvOf (policy == 1) maxLen), 0x4004)] with
    | some r => (r, s)
    | none =>
      let pages := (List.range (cdiv prefix_ 64)).map fun b => (b, s.pageOf k m b)
      let s := s.openSeq p n policy maxLen q.tokBase prefix_
      let s := pages.foldl (fun s e => match e.2 with
        | some g => ({ s with pgk.pages := s.pgk.pages.upd g fun c => { c with refs := c.refs + 1 } }).setEntry k n e.1 (some g)
        | none => s) s
      ({ r0 := (s.seq n).gen.toNat }, s)

/-- The checks on a sequence that a command names with its generation (R179). -/
def State.seqChecks (s : State) (k : KvPool) (n gen : Nat) : List (Bool × Nat) :=
  [(!k.hasSeq n, 0x4001), (!(s.seq n).isOpen, 0x4002), ((s.seq n).gen.toNat != gen, 0x4003)]

/-- KV_SEQ_CLOSE (R168): references fall in block order; the result counts the pages whose REF reached 0. -/
def State.kvClose (s : State) (p x : Nat) : Rep × State :=
  let n := par x 0 12
  match s.pool p with
  | none => ({ status := 0x4001 }, s)
  | some k =>
    match refusal (s.seqChecks k n (par x 2 16)) with
    | some r => (r, s)
    | none =>
      let q := s.seq n
      let (c, s) := (List.range (q.blocks - q.first)).foldl (fun (a : Nat × State) i =>
        match a.2.pageOf k n (q.first + i) with
        | some g =>
          (if (a.2.pgk.pages.get g).refs ≤ 1 then a.1 + 1 else a.1, ((a.2.setEntry k n (q.first + i) none).nextSlot p).decRef p g)
        | none => a) (0, s)
      ({ r0 := c }, s.updSeq n fun q => { q with isOpen := false, resv := 0 })

/-- KV_SEQ_QUERY (R179). -/
def State.kvSeqQuery (s : State) (p x : Nat) : Rep :=
  let n := par x 0 12
  match s.pool p with
  | none => { status := 0x4001 }
  | some k =>
    match refusal [(!k.hasSeq n, 0x4001), (!(s.seq n).isOpen, 0x4002)] with
    | some r => r
    | none => { ext := some (s.seq n).bytes }

/-- KV_POOL_QUERY (R179). -/
def State.kvPoolQuery (s : State) (x : Nat) : Rep :=
  let p := par x 0 8
  if 15 < p then { status := 0x4007 }
  else match s.pool p with
    | none => { ext := some [] }
    | some k => { ext := some ([s.poolFree k, s.poolResv p, s.poolUnowned k, (s.pgk.pools.get p).waits.toNat].flatMap (leBytes 4)) }

/-! ### Appends (R164, R165, R167) -/

/-- The rows of one token, in every plane. -/
def State.writeToken (s : State) (k : KvPool) (g row src : Nat) (job : Option Nat) : State :=
  (List.range k.planes).foldl (fun s p =>
    let (bs, s) := s.blockRead (src + p * k.planeRow) k.planeRow job
    s.wr (k.pageAddr g + p * 64 * k.planeRow + row * k.planeRow) bs) s

/-- The rows of a block copied to another page (R167). -/
def State.copyRows (s : State) (k : KvPool) (src dst rows : Nat) (job : Option Nat) : State :=
  (List.range k.planes).foldl (fun s p =>
    let (bs, s) := s.blockRead (k.pageAddr src + p * 64 * k.planeRow) (rows * k.planeRow) job
    s.wr (k.pageAddr dst + p * 64 * k.planeRow) bs) s

/-- A page for block `b` to be written: the page held, a new one, or a copy of a shared one; with the pages taken and the block dropped for
it. `none`: the free list is empty. -/
def State.pageFor (s : State) (k : KvPool) (n b : Nat) (job : Option Nat) : Nat × Option Nat × Option (Nat × State) × State :=
  let q := s.seq n
  if b < q.blocks then
    match s.pageOf k n b with
    | none => (0, none, none, s)
    | some g =>
      if (s.pgk.pages.get g).refs ≤ 1 then (0, none, some (g, s), s)
      else match s.takePage k with
        | none => (0, none, none, s)
        | some (g', s') =>
          let s' := (s'.pin g).copyRows k g g' (min 64 (q.len - 64 * b)) job
          (1, none, some (g', ((s'.setEntry k n b (some g')).decRef k.part g).unpin k.part g), s)
  else
    let old := if q.sliding && decide (q.span ≤ b) then s.pageOf k n (b - q.span) else none
    let s := match old with | some g => (s.setEntry k n (b - q.span) none).decRef k.part g | none => s
    let gone := if old.isSome then some (b - q.span) else none
    match s.takePage k with
    | none => (0, gone, none, s)
    | some (g, s') => (1, gone, some (g, s'.setEntry k n b (some g)), s)

/-- Writes tokens from where the run stands until all are written or a page is missing (R163, R164). -/
def State.appendRun (s : State) (k : KvPool) (n at_ src stride : Nat) (job : Option Nat) : Nat → KvRun → KvRun × State
  | 0, r => ({ r with waiting := false }, s)
  | todo + 1, r =>
    let t := at_ + r.at_
    let q := s.seq n
    if t / 64 < q.first && t < q.len then appendRun s k n at_ src stride job todo { r with at_ := r.at_ + 1 }
    else
      let (c, gone, got, s0) := s.pageFor k n (t / 64) job
      let r := { r with taken := r.taken + c, dropped := match r.dropped with | some b => some b | none => gone }
      match got with
      | none => ({ r with waiting := true }, if r.waiting then s0 else { s0 with pgk.pools := s0.pgk.pools.upd k.part fun f => { f with waits := satInc f.waits } })
      | some (g, s1) =>
        let s2 := s1.writeToken k g (t % 64) (src + r.at_ * stride) job
        let s3 := s2.updSeq n fun q => if q.len ≤ t then { q with len := t + 1, qposLast := BitVec.ofInt 32 (q.tokBase + t : Int) } else q
        appendRun s3 k n at_ src stride job todo { r with at_ := r.at_ + 1, waiting := false }

/-- The job that posted a command. -/
def KvFrom.jobOf : KvFrom → Option Nat
  | .host _ => none
  | .job j .. => some j

/-- KV_APPEND (R164, R165), begun or resumed: the run with its result, or waiting for a page. A sliding append past MAX_LEN that drops no block has no
first dropped block to name: its DETAIL is a free value (log entry 100). -/
def State.kvAppend (s : State) (p : Nat) (r : KvRun) : KvRun × State :=
  let x := r.cmd.params.toNat
  let n := par x 0 12; let at_ := par x 4 32; let count := par x 8 16; let src := par x 16 64; let stride := par x 24 32
  let done := fun (r : KvRun) (a : Rep) (s : State) => ({ r with res := some (a.status, a.detail, a.r0, a.r1), started := true }, s)
  match s.pool p with
  | none => done r { status := 0x4001 } s
  | some k =>
    let q := s.seq n
    let grows := decide (q.len < at_ + count)
    let bad := if r.started then none
      else refusal ([(!k.hasSeq n, 0x4001), (!within 1 64 count, 0x4007),
        (!((List.range count).all fun j => s.partAll p (src + j * stride) (k.planes * k.planeRow)), 0x4008),
        (decide (stride < k.planes * k.planeRow) || stride % 64 != 0, 0x4007)] ++ s.seqChecks k n (par x 2 16) ++
        [(q.guest, 0x4009), (decide (q.len < at_), 0x4007), (q.exhausted && grows, 0x4006)])
    match bad with
    | some a => done r a s
    | none =>
      let limit := r.limit || (!r.started && decide (q.maxLen < at_ + count) && grows)
      if !q.sliding && limit then
        done r { status := 0x4005, r0 := q.len } (s.updSeq n fun q => { q with exhausted := true })
      else
        let (r', s') := s.appendRun k n at_ src stride r.cmd.from_.jobOf (count - r.at_) { r with started := true, limit := limit }
        if r'.waiting then (r', s')
        else
          let (x, s') : Nat × State := match r'.dropped with
            | some b => (b, s')
            | none => if limit then let (v, t) := s'.draw 32; (v.toNat, t) else (0, s')
          done r' { status := if limit || r'.dropped.isSome then 0x4005 else 0, detail := x, r0 := (s'.seq n).len, r1 := r'.taken } s'

/-! ### Rings of devices (R172 to R177) -/

def State.ring (s : State) (g : Nat) : RingCtx := s.pgk.rings.get g
def State.updRing (s : State) (g : Nat) (f : RingCtx → RingCtx) : State := { s with pgk.rings := s.pgk.rings.upd g f }

/-- The parameters of a ring context (R172). -/
def ringOf (p x : Nat) : RingCtx :=
  { state := 1, part := p, n := par x 1 8, pos := par x 2 8, east := par x 3 1, west := fld x 25 1, eastNode := par x 4 16, westNode := par x 6 16,
    home := par x 8 12, guest0 := par x 10 12, guest1 := par x 12 12, arrive := par x 14 16, sent := par x 16 16,
    recvBase := par x 24 64, recvStride := par x 32 32 }

/-- A guest that a ring may bind (R172). -/
def State.guestOk (s : State) (c : RingCtx) (n : Nat) : Bool :=
  let q := s.seq n
  q.isOpen && q.len == 0 && !q.guest && n != c.home && decide ((s.seq c.home).len ≤ q.maxLen)

/-- KV_RING_OPEN (R172): the guests are bound. -/
def State.kvRingOpen (s : State) (p x : Nat) : Rep × State :=
  let g := par x 0 8
  let c := ringOf p x
  let okNode := fun (n : Nat) => within 1 16383 n
  match s.pool p with
  | none => ({ status := 0x4001 }, s)
  | some k =>
    match refusal [(decide (15 < g) || !within 2 64 c.n || decide (c.n ≤ c.pos) || !okNode c.eastNode || !okNode c.westNode, 0x400A),
        (!k.hasSeq c.home || !k.hasSeq c.guest0 || !k.hasSeq c.guest1, 0x4001),
        (s.tallyOwner c.arrive != some p || s.tallyOwner c.sent != some p || c.recvBase % 64 != 0 || c.recvStride % 64 != 0 ||
          !s.partAll p c.recvBase (max 64 (64 * c.recvStride)), 0x400A),
        ((s.ring g).state != 0, 0x400B), (!(s.seq c.home).isOpen, 0x4002),
        (c.guest0 == c.guest1 || !s.guestOk c c.guest0 || !s.guestOk c c.guest1, 0x400A)] with
    | some r => (r, s)
    | none =>
      let s := (s.updSeq c.guest0 fun q => { q with guest := true }).updSeq c.guest1 fun q => { q with guest := true }
      ({}, s.updRing g fun _ => c)

/-- The sequence a device sends in step `t` (R173). -/
def RingCtx.shardSeq (c : RingCtx) (t : Nat) : Nat := if t = 1 then c.home else if t % 2 = 0 then c.guest0 else c.guest1

/-- The guest that receives in step `t` (R173). -/
def RingCtx.guestSeq (c : RingCtx) (t : Nat) : Nat := if (t - 1) % 2 = 0 then c.guest0 else c.guest1

/-- The step after `t` in a ring of `n`, which may circulate again (R174). -/
def nextStep (n t : Nat) : Nat := if t + 1 < n then t + 1 else 1

/-- A ring message's 32-byte header (R175, Table 10). -/
def ringHeader (kind g step shard src tokBase tokens pageBytes : Nat) : List Byte :=
  leBytes 32 (pack [(0, 8, kind), (8, 4, g), (12, 6, step), (18, 6, shard), (32, 14, src), (64, 32, tokBase), (96, 32, tokens), (128, 32, pageBytes)])

/-- The port is up, or retraining. -/
def State.portUp (s : State) (p : Nat) : Bool := (s.port p).state == .active || (s.port p).state == .retrain

/-- KV_RING_STEP (R173): the shard held in the previous step is sent east, its pages pinned until they have been transmitted. -/
def State.kvRingStep (s : State) (p x : Nat) (job : Option Nat) : Rep × State :=
  let g := par x 0 8; let t := par x 1 8
  let c := s.ring g
  match s.pool p with
  | none => ({ status := 0x400B }, s)
  | some k =>
    let n := c.shardSeq t
    match refusal [(decide (15 < g), 0x4007),
        (c.state != 1 || c.part != p || c.sending.isSome || t != nextStep c.n c.lastSent ||
          (t != 1 && !(c.lastArrived == t - 1 || c.lastArrived == t)), 0x400B), (!(s.seq n).isOpen, 0x4002)] with
    | some r => (r, s)
    | none =>
      if !s.portUp c.east then ({ status := 0x400B }, s.ringFailed g 3)
      else
        let q := s.seq n
        let pages := s.heldPages k n
        let s := pages.foldl (fun s y => s.pin y) s
        let (img, s) := pages.foldl (fun (a : List Byte × State) y => let (bs, s) := a.2.blockRead (k.pageAddr y) k.pageBytes job; (a.1 ++ bs, s)) ([], s)
        let hd := ringHeader 1 g t ((c.pos + c.n + 1 - t) % c.n) s.tyb.node.toNat q.tokBase q.len k.pageBytes
        ({}, (s.sendVia c.east c.eastNode 2 (hd ++ img)).updRing g fun c => { c with sending := some (t, n, pages) })

/-- KV_PARTIAL_SEND (R177). SHARD and TOK_BASE, which Table 10 gives a meaning for shards only, are sent as 0 (DESIGN CHOICE, log entry 97). -/
def State.kvPartialSend (s : State) (p x : Nat) (job : Option Nat) : Rep × State :=
  let g := par x 0 8; let t := par x 1 8; let dir := par x 2 8; let src := par x 8 64; let lines := par x 16 32
  let c := s.ring g
  match s.pool p with
  | none => ({ status := 0x400B }, s)
  | some k =>
    match refusal [(decide (15 < g) || decide (63 < t) || decide (1 < dir), 0x4007), (!s.partAll p src (64 * lines), 0x4008),
        (lines == 0, 0x4007), (c.state != 1 || c.part != p, 0x400B)] with
    | some r => (r, s)
    | none =>
      let (port, node) := if dir = 0 then (c.east, c.eastNode) else (c.west, c.westNode)
      if !s.portUp port then ({ status := 0x400B }, s.ringFailed g 3)
      else
        let (bs, s) := s.blockRead src (64 * lines) job
        ({}, s.sendVia port node 3 (ringHeader 2 g t 0 s.tyb.node.toNat 0 lines k.pageBytes ++ bs))

/-- KV_RING_CLOSE: the guests are free again and what a send pinned is released. -/
def State.kvRingClose (s : State) (p x : Nat) : Rep × State :=
  let g := par x 0 8
  let c := s.ring g
  match refusal [(decide (15 < g), 0x4007), (c.state == 0 || c.part != p, 0x400B)] with
  | some r => (r, s)
  | none =>
    let pins := (c.sending.map fun y => y.2.2).getD []
    let s := (pins.insertionSort (· ≤ ·)).foldl (fun s y => s.unpin p y) s
    let s := (s.updSeq c.guest0 fun q => { q with guest := false }).updSeq c.guest1 fun q => { q with guest := false }
    ({}, s.updRing g fun _ => {})

/-! ### Commands in a partition's keeper (R171, R178) -/

/-- Runs a command to its result, or to a wait for a page. -/
def State.kvExec (s : State) (p : Nat) (r : KvRun) : KvRun × State :=
  let x := r.cmd.params.toNat
  let job := r.cmd.from_.jobOf
  let fin := fun (a : Rep × State) => ({ r with res := some (a.1.status, a.1.detail, a.1.r0, a.1.r1), ext := a.1.ext }, a.2)
  if let some (st, d) := r.cmd.bad then fin ({ status := st, detail := d }, s)
  else match r.cmd.op with
  | 0x4001 => fin (s.kvOpen p x)
  | 0x4002 => fin (s.kvFork p x)
  | 0x4003 => s.kvAppend p r
  | 0x4004 => fin (s.kvClose p x)
  | 0x4005 => fin (s.kvSeqQuery p x, s)
  | 0x4006 => fin (s.kvPoolQuery x, s)
  | 0x4007 => fin (s.kvRingOpen p x)
  | 0x4008 => fin (s.kvRingStep p x job)
  | 0x4009 => fin (s.kvPartialSend p x job)
  | 0x400A => fin (s.kvRingClose p x)
  | op =>
    -- the carry commands share the keeper's order (R196)
    match s.carryExec p op x with
    | (some rep, s') => fin (rep, s')
    | (none, s') => (r, s')

/-- What a job-port packet's header asks, judged as R267 and R271 do for it (R178): a refusal, or none. -/
def portRefusal (w : Nat) : Option Rep :=
  let op := fld w 0 16
  let len := fld w 48 16
  if op ≠ 0x4003 && op ≠ 0x4008 && op ≠ 0x4009 then some { status := 0x400C }
  else if 48 < len then some { status := 0xF007 }
  else if fld w 24 24 ≠ 0 then some { status := 0xF003, detail := if fld w 24 8 ≠ 0 then 3 else if fld w 32 8 ≠ 0 then 4 else 5 }
  else if fld w 64 64 ≠ 0 then some { status := 0xF003, detail := 8 + (findIdx (fun i => fld w (64 + 8 * i) 8 != 0) (List.range 8) 0).getD 0 }
  else
    let x := w / 2 ^ 128
    match firstReserved (((fieldsOf op x).getD []).filter (fun f => decide (f.1 + f.2 ≤ 256)) ++ [(256, 64), (320, 16)]) x 48 with
    | some i => some { status := 0xF003, detail := 16 + i }
    | none => (findIdx (fun i => decide (len ≤ i) && fld x (8 * i) 8 != 0) (List.range 48) 0).map fun i => { status := 0xF003, detail := 16 + i }

/-- The keeper takes the next waiting command of a partition, in a window in which the partition has keeper slots (R171, R207). A job-port request with a bad REPLY_ADDR or DONE_TALLY is discarded and
raises KV_PORT_WRITE (R178). -/
def State.kvStart (s : State) (p : Nat) : Nat → State
  | 0 => s
  | fuel + 1 =>
    if !s.engineServes 23 p none then s else
    match s.pgk.runs.get p, s.pgk.queues.get p with
    | none, c :: rest =>
      let s := { s with pgk.queues := s.pgk.queues.set p rest }
      let ok := match c.from_ with
        | .host _ => true
        | .job j _ _ a t => a % 32 == 0 && s.partAll p a 32 && s.jobSignals j t
      if !ok then (match c.from_ with | .job j .. => s.raiseJob 0x0304 j | .host _ => s).kvStart p fuel
      else
        let (r, s) := s.kvExec p { cmd := c }
        { s with pgk.runs := s.pgk.runs.set p (some r) }
    | _, _ => s

/-- A command arrives in a queue (R171): behind those before it, a job-port request before the host commands of its own tick. -/
def KvCmd.joins (c : KvCmd) (q : List KvCmd) : List KvCmd :=
  let late := fun (x : KvCmd) => c.from_.jobOf.isSome && x.came == c.came && x.from_.jobOf.isNone
  q.filter (fun x => !late x) ++ c :: q.filter late

/-- A command joins its partition's queue and starts if the keeper is free (R171). -/
def State.kvPost (s : State) (p : Nat) (c : KvCmd) : State :=
  { s with pgk.queues := s.pgk.queues.upd p ({ c with came := s.tick }).joins }.kvStart p ((s.pgk.queues.get p).length + 1)

/-- A host ring's key-value command: its reply follows when the keeper completes it. -/
def doKv (h : Hdr) (op : Nat) (params : BitVec 384) (s : State) : Ans :=
  .later (s.kvPost h.fn.val { from_ := .host (some h), op := op, params := params })

def execKvSeqOpen (h : Hdr) (x : BitVec 384) (s : State) : Out := firmware h s (doKv h 0x4001 x s)
def execKvSeqFork (h : Hdr) (x : BitVec 384) (s : State) : Out := firmware h s (doKv h 0x4002 x s)
def execKvAppend (h : Hdr) (x : BitVec 384) (s : State) : Out := firmware h s (doKv h 0x4003 x s)
def execKvSeqClose (h : Hdr) (x : BitVec 384) (s : State) : Out := firmware h s (doKv h 0x4004 x s)
def execKvSeqQuery (h : Hdr) (x : BitVec 384) (s : State) : Out := firmware h s (doKv h 0x4005 x s)
def execKvPoolQuery (h : Hdr) (x : BitVec 384) (s : State) : Out := firmware h s (doKv h 0x4006 x s)
def execKvRingOpen (h : Hdr) (x : BitVec 384) (s : State) : Out := firmware h s (doKv h 0x4007 x s)
def execKvRingStep (h : Hdr) (x : BitVec 384) (s : State) : Out := firmware h s (doKv h 0x4008 x s)
def execKvPartialSend (h : Hdr) (x : BitVec 384) (s : State) : Out := firmware h s (doKv h 0x4009 x s)
def execKvRingClose (h : Hdr) (x : BitVec 384) (s : State) : Out := firmware h s (doKv h 0x400A x s)

def execCarryOpen (h : Hdr) (x : BitVec 384) (s : State) : Out := firmware h s (doKv h 0x4020 x s)
def execCarryClose (h : Hdr) (x : BitVec 384) (s : State) : Out := firmware h s (doKv h 0x4021 x s)
def execCarrySwapOut (h : Hdr) (x : BitVec 384) (s : State) : Out := firmware h s (doKv h 0x4022 x s)
def execCarrySwapIn (h : Hdr) (x : BitVec 384) (s : State) : Out := firmware h s (doKv h 0x4023 x s)
def execCarryReset (h : Hdr) (x : BitVec 384) (s : State) : Out := firmware h s (doKv h 0x4024 x s)
def execCarryQuery (h : Hdr) (x : BitVec 384) (s : State) : Out := firmware h s (doKv h 0x4025 x s)
def execCarryExport (h : Hdr) (x : BitVec 384) (s : State) : Out := firmware h s (doKv h 0x4026 x s)
def execCarryImport (h : Hdr) (x : BitVec 384) (s : State) : Out := firmware h s (doKv h 0x4027 x s)

/-- CARRY_SWAP_DONE (R194, R195): the swap that the keeper runs on a stream has moved its last line. -/
def execCarrySwapDone (n : BitVec 12) (s : State) : Out :=
  let p := (s.stream n.toNat).part
  match s.pgk.runs.get p with
  | some r =>
    if (r.cmd.op == 0x4022 || r.cmd.op == 0x4023) && r.res.isNone && par r.cmd.params.toNat 0 16 == n.toNat then
      let s := s.swapDone n.toNat
      .next { s with pgk.runs := s.pgk.runs.set p (some { r with res := some (0, 0, 0, 0) }) }
    else .next s
  | none => .next s

/-- A rod's write to PGK_JOB_PORT[port] (R178): discarded with KV_PORT_WRITE unless it is one whole line from a job of the port's partition. -/
def State.jobPort (s : State) (rod port : Nat) (data : List Byte) : State :=
  match (s.rods.get rod).job with
  | none => s
  | some j =>
    if data.length ≠ 64 || (s.jobRec j).map JobRec.part ≠ some port then s.raiseJob 0x0304 j (some rod)
    else
      let w := leNat data
      let x := w / 2 ^ 128
      let from_ := KvFrom.job j (BitVec.ofNat 12 (fld w 32 12)) (BitVec.ofNat 32 (fld w 64 32)) (par x 32 64) (par x 40 16)
      s.kvPost port { from_ := from_, op := fld w 0 16, params := BitVec.ofNat 384 x, bad := (portRefusal w).map fun r => (r.status, r.detail) }

/-- A command's reply (R178): a status reply to its ring, or at REPLY_ADDR with a signal on DONE_TALLY. -/
def State.kvReply (s : State) (c : KvCmd) (r : Rep) : State :=
  match c.from_ with
  | .host h => s.replyOpt h r
  | .job j tag seq a t => (s.putFor (some j) a (replyBytes s { fn := 0, ring := 0, tag := tag, seq := seq } r)).signalTally t 1

/-- The partition's command completes (R178): its reply is written, and the next one starts. -/
def State.kvDone (s : State) (p : Nat) : State :=
  match s.pgk.runs.get p with
  | some { cmd := c, res := some (st, d, a, b), ext := e, .. } =>
    let ok := match c.from_, e with | .host (some h), some _ => s.hasResult h | _, _ => true
    let s := s.kvReply c (if ok then { status := st, detail := d, r0 := a, r1 := b, ext := e } else { status := stResultArea })
    let n := par c.params.toNat 0 16
    let s := if 0x4020 ≤ c.op && (s.stream n).part == p then s.updStream n fun t => { t with motion := 0 } else s
    ({ s with pgk.runs := s.pgk.runs.set p none }).kvStart p ((s.pgk.queues.get p).length)
  | _ => s

/-- PAGE_TAKE_RESUME (R163): the append that waits goes on once a page is free. -/
def execPageTakeResume (p : Fin 16) (s : State) : Out :=
  match s.pgk.runs.get p.val with
  | some r =>
    if r.waiting then
      let (r', s') := s.kvAppend p.val r
      .next { s' with pgk.runs := s'.pgk.runs.set p.val (some r') }
    else .next s
  | none => .next s

/-- RING_SEND_DONE (R174): the send's pages are released once its flits have gone, and SENT_TALLY is signalled. -/
def execRingSendDone (g : Fin 16) (s : State) : Out :=
  let c := s.ring g.val
  match c.sending with
  | none => .next s
  | some (t, n, pages) =>
    if (s.port c.east).txq.any fun f => f.vc == 1 then .next s
    else
      let s := (pages.insertionSort (· ≤ ·)).foldl (fun s y => s.unpin c.part y) s
      let s := s.updRing g.val fun c =>
        { c with sending := none, lastSent := t, unsent0 := c.unsent0 && n != c.guest0, unsent1 := c.unsent1 && n != c.guest1 }
      .next (s.signalTally c.sent 1)

/-- The bits of a ring message's header that are reserved, or a KIND that the message type does not carry (R175, R176). -/
def ringHeaderBad (kind hd : Nat) : Bool := fld hd 0 8 != kind || fld hd 24 8 != 0 || fld hd 46 18 != 0 || fld hd 160 96 != 0

/-- The guest's pages are made to hold exactly the arrived blocks; none when a page is missing (R174). -/
def State.guestPages (s : State) (k : KvPool) (n blocks : Nat) : Nat → Option State
  | 0 => some s
  | b + 1 =>
    match s.guestPages k n blocks b with
    | none => none
    | some s =>
      match s.pageOf k n b with
      | some g => if b < blocks then some s else some ((s.setEntry k n b none).decRef k.part g)
      | none =>
        if b < blocks then (match s.takePage k with | some (g, s) => some (s.setEntry k n b (some g)) | none => none) else some s

/-- A shard arrives at an open ring context (R174, R176): the state with the guest filled, or with the context failed; none while it waits. A payload
whose length does not match TOKENS fails the context with ERROR 1: R176 does not name it (DESIGN CHOICE, log entry 96). -/
def State.shardIn (s : State) (g : Nat) (payload : List Byte) : Option State :=
  let c := s.ring g
  let hd := leNat (payload.take 32)
  let t := fld hd 12 6; let tokens := fld hd 96 32
  match s.pool c.part with
  | none => some (s.ringFailed g 1)
  | some k =>
    let n := c.guestSeq t
    let q := s.seq n
    if ringHeaderBad 1 hd || fld hd 128 32 ≠ k.pageBytes || t ≠ nextStep c.n c.lastArrived || payload.length ≠ 32 + cdiv tokens 64 * k.pageBytes then
      some (s.ringFailed g 1)
    else if q.maxLen < tokens then some (s.ringFailed g 2)
    else if (if n = c.guest0 then c.unsent0 else c.unsent1) || (s.heldPages k n).any (fun y => (s.pgk.pages.get y).pins != 0) then none
    else
      let b := cdiv tokens 64
      (s.guestPages k n b (max b q.blocks)).map fun s =>
        let s := (List.range b).foldl (fun s i => match s.pageOf k n i with
          | some y => s.wr (k.pageAddr y) ((payload.drop (32 + i * k.pageBytes)).take k.pageBytes)
          | none => s) s
        let home := s.seq c.home
        let s := s.updSeq n fun q => { q with len := tokens, tokBase := fld hd 64 32, qposLast := BitVec.ofInt 32 (home.tokBase + home.len - 1 : Int) }
        let onward := decide (t + 1 < c.n)
        let s := s.updRing g fun c =>
          { c with starved := false, lastArrived := t, unsent0 := if n = c.guest0 then onward else c.unsent0, unsent1 := if n = c.guest1 then onward else c.unsent1 }
        s.signalTally c.arrive 1

/-- Partial records arrive at an open ring context (R176, R177). A payload whose length does not match TOKENS, or one that would land outside the
partition's memory, fails the context with ERROR 1: R176 names neither (DESIGN CHOICE, log entry 96). -/
def State.partialIn (s : State) (g : Nat) (payload : List Byte) : State :=
  let c := s.ring g
  let hd := leNat (payload.take 32)
  let a := c.recvBase + fld hd 12 6 * c.recvStride
  let n := 64 * fld hd 96 32
  let pb := (s.pool c.part).map KvPool.pageBytes
  if ringHeaderBad 2 hd || pb ≠ some (fld hd 128 32) || payload.length ≠ 32 + n || !s.partAll c.part a n then s.ringFailed g 1
  else (s.putFor none a (payload.drop 32)).signalTally c.arrive 1

/-- The first message of a type in a port's inbox whose header names ring context `g`. -/
def State.ringMsg (s : State) (type g p : Nat) : Option (Nat × Msg) :=
  (s.port p).inbox.zipIdx.findSome? fun x => if x.1.type == type && fld (leNat (x.1.payload.take 32)) 8 4 == g then some (x.2, x.1) else none

/-- A message leaves a port's inbox and its flits the receive buffer (R390). -/
def State.dropMsg (s : State) (p i : Nat) (m : Msg) : State :=
  s.updPort p fun q => { q with inbox := dropAt i q.inbox, owed := if m.held = 0 then q.owed else q.owed.upd (vcOf m.type) (· + m.held) }

/-- The journal record of a ring message (R243): its source numbers its messages with MSEQ (R392). -/
def State.journalRing (s : State) (p kind : Nat) (m : Msg) : State := s.journal 0x07 p m.mseq (pack [(96, 8, kind), (104, 14, m.src)]) (some m.payload)

/-- An arrival that waits because its pool has no free page is counted once in PGK_POOL_WAITS (R163). -/
def State.arrivalWaits (s : State) (g : Nat) (payload : List Byte) : State :=
  let c := s.ring g
  let n := c.guestSeq (fld (leNat (payload.take 32)) 12 6)
  let pinned := (if n = c.guest0 then c.unsent0 else c.unsent1) ||
    ((s.pool c.part).map fun k => (s.heldPages k n).any fun y => (s.pgk.pages.get y).pins != 0).getD false
  if pinned || c.starved then s
  else { s.updRing g fun c => { c with starved := true } with pgk.pools := s.pgk.pools.upd c.part fun f => { f with waits := satInc f.waits } }

/-- A ring message is admitted, and takes effect in the next tick (R235). -/
def State.admitRing (s : State) (g kind : Nat) (payload : List Byte) : State :=
  { s with pgk.landing := s.pgk.landing ++ [{ ring := g, kind := kind, payload := payload, at_ := s.tick }] }

/-- A message of ring `g` is admitted and has not taken effect. -/
def State.landingAt (s : State) (g : Nat) : Bool := s.pgk.landing.any fun x => x.ring == g

/-- An admitted message takes effect: one of a ring that has left OPEN is dropped, a shard that finds no page waits for the next tick. -/
def State.landOne (s : State) (x : Landing) : State :=
  let drop := fun (s : State) => { s with pgk.landing := s.pgk.landing.filter fun y => y.ring != x.ring }
  if (s.ring x.ring).state ≠ 1 then drop s
  else if x.kind = 3 then drop (s.partialIn x.ring x.payload)
  else match s.shardIn x.ring x.payload with
    | some s => drop s
    | none => s.arrivalWaits x.ring x.payload

/-- The ring messages admitted in an earlier tick take effect (R235). -/
def State.land (s : State) : State := (s.pgk.landing.filter fun x => decide (x.at_ < s.tick)).foldl State.landOne s

/-- RING_ARRIVAL (R163, R174, R176): in replay a live shard is dropped and counted (R247). A shard that comes on a port other than the ring's west port
fails the context with ERROR 1: R176 does not name it (DESIGN CHOICE, log entry 95). -/
def execRingArrival (g : Fin 16) (s : State) : Out :=
  match [0, 1].findSome? fun p => (s.ringMsg 2 g.val p).map fun x => (p, x) with
  | none => .next s
  | some (p, i, m) =>
    let c := s.ring g.val
    if s.landingAt g.val then .next s
    else if s.jrn.r.running || c.state ≠ 1 then .next ((s.dropMsg p i m).rxDiscard p)
    else if c.west ≠ p then .next (((s.dropMsg p i m).rxDiscard p).ringFailed g.val 1)
    else match (s.dropMsg p i m).shardIn g.val m.payload with
      | none => .next (s.arrivalWaits g.val m.payload)
      | some s' => .next (if (s'.ring g.val).state = 1 then ((s.dropMsg p i m).admitRing g.val 2 m.payload).journalRing p 2 m else s'.rxDiscard p)

/-- PARTIAL_ARRIVAL (R177). -/
def execPartialArrival (g : Fin 16) (s : State) : Out :=
  match [0, 1].findSome? fun p => (s.ringMsg 3 g.val p).map fun x => (p, x) with
  | none => .next s
  | some (p, i, m) =>
    if s.landingAt g.val then .next s
    else
      let s := s.dropMsg p i m
      if s.jrn.r.running || (s.ring g.val).state ≠ 1 then .next (s.rxDiscard p)
      else
        let s' := s.partialIn g.val m.payload
        .next (if (s'.ring g.val).state = 1 then (s.admitRing g.val 3 m.payload).journalRing p 3 m else s'.rxDiscard p)

end Sys2Proof.Machine
end

