-- ==== Sys2Proof/Machine/Jobs.lean ====
section
/-! DEFINITION. Runs of jobs: completion, teardown, halting a partition, stopping the plan (R212 to R220, R229), and a rod's counter banks
(R505 to R507). -/

namespace Sys2Proof.Machine

def State.jobRun (s : State) (j : Nat) : JobRun := s.pln.jobs.get j
def State.updJob (s : State) (j : Nat) (f : JobRun → JobRun) : State := { s with pln.jobs := s.pln.jobs.upd j f }
def State.rod (s : State) (n : Nat) : Rod := s.rods.get n
def State.updRod (s : State) (n : Nat) (f : Rod → Rod) : State := { s with rods := s.rods.upd n f }

/-- The rods of a job's ROD_MASK, ascending (R210). -/
def JobRec.rods (r : JobRec) : List Nat := (List.range 64).filter fun n => bit r.rodMask n

/-- The partition of a job of the plan. -/
def State.jobPart (s : State) (j : Nat) : Nat := ((s.jobRec j).map JobRec.part).getD 0

/-! ### Counters and trace of a rod -/

/-- A rod is the follower of a locked pair (R80). -/
def Rod.follower (r : Rod) (n : Nat) : Bool := r.locked && n % 2 == 1

/-- `v` more counts of counter `k` in the tick in hand (R505); a follower's counters hold still (R506). -/
def Counters.add (c : Counters) (k v : Nat) : Counters := { c with fresh := c.fresh.upd k (· + BitVec.ofNat 64 v) }

def State.count (s : State) (n k v : Nat) : State :=
  if v = 0 || (s.rod n).follower n then s else s.updRod n fun r => { r with cnt := r.cnt.add k v }

/-- A JOB trace record of rod `n` (R495); a locked pair traces from its leader only. -/
def State.traceJob (s : State) (n j kind : Nat) : State :=
  if (s.rod n).follower n then s else s.trace n 1 4 (j + (s.jobRun j).gen.toNat * 2 ^ 16) kind

/-- The rod works at a segment in the tick in hand: from the first instruction, or the start of a restore, to the tick in which HALT or the save ends
or the rod stops (R507). -/
def Rod.inSegment (r : Rod) : Bool :=
  r.seq == .ready || r.seq == .waiting || r.seq == .saving || r.seq == .restoring || r.cnt.closing.isSome

/-- The tick in hand is the last of a segment on rod `n`, with its job, generation and end kind (R507). -/
def State.endSegment (s : State) (n j kind : Nat) : State :=
  if (s.rod n).follower n then s
  else
    let g := (s.jobRun j).gen
    s.updRod n fun r => { r with cnt.closing := some (BitVec.ofNat 16 j, BitVec.ofNat 16 g.toNat, BitVec.ofNat 3 kind) }

/-! ### Completion (R215) -/

/-- EXIT and EXIT_DIFFER of a run's halted rods. -/
def JobRun.exitOf (q : JobRun) : Nat × Bool :=
  match q.exits.cells.filterMap fun c => c.2 with
  | [] => (0, false)
  | e :: es => (e, es.any (· != e))

/-- The completion record, as an event on the partition's ring; the run entry notes it (R215, R230). -/
def State.complete (s : State) (j status : Nat) : State :=
  let q := s.jobRun j
  let (fr, ft) := s.frameNow
  let (ex, df) := q.exitOf
  let p := s.jobPart j
  let s := s.event (partFn p) 0x01 p status
    (pack [(0, 16, j), (16, 16, q.gen.toNat), (32, 16, status), (48, 4, q.restarts), (64, 32, ft), (96, 32, fr), (128, 16, ex), (144, 1, b2n df)])
  s.updJob j fun q =>
    { q with lastEnd := BitVec.ofNat 32 ft, lastStatus := BitVec.ofNat 16 status, runs := if status = 0 then q.runs + 1 else q.runs,
             skips := if status = 0x1030 then satInc q.skips else q.skips }

/-! ### Teardown (R112, R218) -/

/-- A rod stops: its units abandon their descriptors and the pages they pin are released (R112, R169). -/
def State.stopRod (s : State) (n : Nat) : State :=
  let pins := (s.rod n).units.cells.flatMap fun c => c.2.pins
  let s := pins.foldl (fun s g => s.unpin ((s.rod n).part.toNat) g) s
  s.updRod n fun r => { r with units := {}, seq := .stopped, alignAt := none }

/-- The rods a job holds become free. -/
def State.freeRods (s : State) (j : Nat) : State :=
  { s with rods := s.rods.mapV fun r => if r.job = some j then { r with job := none, seq := .stopped, state := 0 } else r }

/-- The queued and running keeper commands of a job are removed (R218). -/
def State.dropKeeper (s : State) (j : Nat) : State :=
  let s := { s with pgk.queues := s.pgk.queues.mapV fun l => l.filter fun c => c.from_.jobOf != some j }
  let mine := s.pgk.runs.keys fun r => (r.bind fun r => r.cmd.from_.jobOf) == some j
  mine.foldl (fun s p => { s with pgk.runs := s.pgk.runs.set p none }.kvStart p ((s.pgk.queues.get p).length)) s

/-- The effects of a teardown on everything but the job's state (R218, Table 12). -/
def State.tearEffects (s : State) (j : Nat) : State :=
  match s.jobRec j with
  | none => s
  | some r =>
    let mine := r.rods.filter fun n => (s.rod n).job == some j
    let s := mine.foldl (fun s n =>
      let running := (s.rod n).seq != .stopped && (s.rod n).seq != .saved
      let s := (s.stopRod n).traceJob n j 4
      let s := if running then s.endSegment n j 4 else s
      if (s.rod n).locked then s.updRod (n + 1) fun q => { q with units := {}, seq := .stopped, state := 0 } else s) s
    let s := (r.rods.foldl (fun s n => s.updRod n fun q => { q with ctxSaved := false }) s).freeRods j
    let s := (s.dropCarries j).dropKeeper j
    let s := (s.jobRun j).signalled.cells.foldl (fun s c => s.signalTally c.1 (-c.2)) s
    s.updJob j fun q => { q with signalled := {}, preemptReq := false }

/-- A job that is not IDLE ends without a restart, with a status and a last state. -/
def State.abandonJob (s : State) (j status : Nat) (last : JobState) : State :=
  if (s.jobRun j).state = .idle then s.updJob j fun q => { q with state := last, requested := false }
  else ((s.tearEffects j).complete j status).updJob j fun q => { q with state := last, requested := false, relock := false }

/-- The jobs of the loaded plan, in number order. -/
def State.jobList (s : State) : List JobRec := ((s.pln.plan.map Plan.jobs).getD []).insertionSort fun a b => a.job ≤ b.job

/-- Partition `p` halts (R220). -/
def State.haltPartition (s : State) (p : Nat) : State :=
  let s := { s with pln.halted := s.pln.halted.set p true, pln.resuming := s.pln.resuming.set p false }
  (s.jobList.filter fun r => r.part == p).foldl (fun s r =>
    if (s.jobRun r.job).state = .halted then s else s.abandonJob r.job 0x1033 .halted) s

/-- The plan stops in this tick: jobs not IDLE end with JOB_STOPPED, and the plan is LOADED (R229, R242, R439). -/
def State.stopNow (s : State) : State :=
  let s := s.jobList.foldl (fun s r => s.abandonJob r.job 0x1032 .idle) s
  let s := s.journalStop
  let h := s.pln.stop.bind id
  let s := { s with
    pln.state := .loaded, pln.stop := none, pln.goldenOn := {}, pln.selftest := s.pln.selftest.mapV fun t => { t with running := false },
    jrn.r.running := false, saf.wdgs := s.saf.wdgs.mapV fun w => { w with state := 0 },
    rods := s.rods.mapV fun r => { r with part := 0 }, trc.stamp := BitVec.ofNat 48 (s.tick - s.trc.startTick) }
  s.replyOpt h {}

/-- The plan stops as by STOP_PLAN MODE 1, whatever its state; a pending start is cancelled (R229, R434). -/
def State.stopPlanNow (s : State) : State :=
  match s.pln.state with
  | .running | .stopping => s.stopNow
  | .starting => s.cancelStart
  | _ => s

end Sys2Proof.Machine
end

