-- ==== Sys2Proof/Machine/Fault.lean ====
section
/-! DEFINITION. Faults, their reactions and the device safe state (R429 to R436, R446), applied when a step settles. -/

namespace Sys2Proof.Machine

/-! ### The fault table (R429, Table 1) -/

/-- Faults raised only against a job. -/
def jobFaults : List Nat :=
  [0x0101, 0x0102, 0x0103, 0x0104, 0x0105, 0x0106, 0x0107, 0x0108, 0x0109, 0x0201, 0x0202, 0x0203, 0x0204, 0x0205, 0x0206, 0x0207, 0x0208, 0x0209,
   0x020A, 0x020B, 0x020C, 0x020D, 0x0301, 0x0302, 0x0303, 0x0304, 0x0306, 0x0307, 0x0401, 0x0504, 0x0604, 0x0804]

/-- Faults raised only against the device. -/
def devFaults : List Nat :=
  [0x010A, 0x0305, 0x0403, 0x0405, 0x0501, 0x0502, 0x0503, 0x0601, 0x0602, 0x0603, 0x0801, 0x0802, 0x0803, 0x0805, 0x1002, 0x1003, 0x1004, 0x1005,
   0x1101, 0x1102, 0x1103, 0x1105, 0x1106, 0x1107]

/-- Faults raised against either. -/
def eitherFaults : List Nat := [0x0402, 0x0404, 0x1001, 0x1104]

def canJob (code : Nat) : Bool := jobFaults.contains code || eitherFaults.contains code
def canDev (code : Nat) : Bool := devFaults.contains code || eitherFaults.contains code

/-- Default reaction against the device: 0 SIGNAL_ONLY, 3 DEVICE_SAFE_STATE. -/
def devDefault (code : Nat) : Nat := if [0x010A, 0x0305, 0x0405, 0x1101, 0x1102, 0x1103, 0x1104, 0x1107].contains code then 3 else 0

/-- Default reaction against a job of a class (R431). -/
def jobDefault (code cls : Nat) : Nat := if code = 0x0404 && cls = 3 then 3 else 1

/-- Faults whose reaction is fixed. -/
def fixedFault (code : Nat) : Bool := [0x1101, 0x1102, 0x1103, 0x1107].contains code

/-- CLASS that names the device reaction of a fault (R448). -/
def devClass (code : Nat) : Nat := if eitherFaults.contains code then 4 else 0

/-- The reaction in force (R431): the one set, else the default. `dev` says that the class names the device. -/
def State.reactionOf (s : State) (code cls : Nat) (dev : Bool) : Nat :=
  match s.saf.reacts.get (8 * code + cls) with
  | 0 => if dev then devDefault code else jobDefault code cls
  | r + 1 => r

/-- Criticality class of a job's partition (R203). -/
def State.jobClass (s : State) (j : Nat) : Nat := ((s.pln.plan.bind fun pl => pl.parts[s.jobPart j]?).map PartEnt.cls).getD 0

/-- The reaction that a raised fault draws. -/
def State.drawn (s : State) (r : Raise) : Nat :=
  match r.job with
  | some j => s.reactionOf r.code (s.jobClass j) false
  | none => s.reactionOf r.code (devClass r.code) true

/-! ### Recording (R430, R446, R447, R449) -/

/-- The fault event payload (R446, Table 6). -/
def State.faultPayload (s : State) (r : Raise) (react occ : Nat) : Nat :=
  pack [(0, 16, r.code), (16, 2, react), (18, 1, b2n r.job.isNone), (19, 1, b2n r.injected), (20, 1, b2n r.rod.isSome), (21, 6, r.rod.getD 0),
    (32, 16, r.job.getD 0), (48, 16, (r.job.map fun j => (s.jobRun j).gen.toNat).getD 0), (64, 32, r.detail.toNat), (96, 32, r.detail2.toNat), (128, 32, occ)]

/-- A fault is recorded: its event, the SAF registers, the summary word's count and the rod's counter. -/
def State.recordFault (s : State) (r : Raise) : State :=
  let react := s.drawn r
  let occ := s.saf.occur.get r.code + 1
  let pay := s.faultPayload r react occ.toNat
  let s := { s with
    saf.occur := s.saf.occur.set r.code occ, saf.summary := min 255 (s.saf.summary + 1), saf.lastFault := BitVec.ofNat 32 pay,
    saf.deviceFault := s.saf.deviceFault || r.job.isNone, saf.jobFault := s.saf.jobFault || r.job.isSome, saf.injected := s.saf.injected || r.injected,
    saf.firstDevice := if r.job.isNone && s.saf.firstDevice == 0 then BitVec.ofNat 16 r.code else s.saf.firstDevice }
  let s := match r.job with
    | some j => s.updJob j fun q => { q with disturbed := true }
    | none => s
  let s := match r.job, r.rod with
    | some _, some n => s.count n 19 1
    | _, _ => s
  let p := (r.job.map s.jobPart).getD 0
  s.event (partFn p) 0x02 p r.code pay

/-- The faults of one tick make one trigger, whose cause is the lowest condition met (R500). -/
def State.faultTrigger (s : State) (rs : List Raise) : State :=
  match rs, rs.find? (fun r => r.code == s.trc.trigFault.toNat) with
  | r :: _, f => if bit s.trc.trigMask.toNat 1 then s.trigger 1 r.code else match f with | some f => s.trigger 2 f.code | none => s
  | [], _ => s

/-! ### Reactions (R430 to R434, R218, R220) -/

/-- A reaction is carried out and counted (R449). -/
def State.reacted (s : State) (r : Nat) : State := { s with saf.reactCount := s.saf.reactCount.upd r satInc }

/-- Entry to the device safe state (R434). -/
def State.enterSafe (s : State) : State :=
  if s.saf.safe then s
  else
    let s := { s with saf.safe := true, saf.pins := true }
    (((s.stopPlanNow.cleSafe).canWithdrawAll).ethWithdrawAll).reacted 3

/-- The partition's ESCALATE when a job fails its restart limit (R220). -/
def State.escalate (s : State) (p : Nat) : State :=
  match ((s.pln.plan.bind fun pl => pl.parts[p]?).map PartEnt.escalate).getD 2 with
  | 0 => (s.haltPartition p).reacted 2
  | 1 => s.enterSafe
  | _ => s

/-- JOB_RESTART of a job: teardown, with the failure at its restart limit (R212, R218), or without reload when `late` (R432). -/
def State.restartJob (s : State) (j : Nat) (late relock : Bool) : State :=
  match (s.jobRun j).state with
  | .released | .running | .preempted =>
    let limit := ((s.jobRec j).map JobRec.restartLimit).getD 0
    let s := (s.tearEffects j).reacted 1
    if late then (s.complete j 0x1031).updJob j fun q => { q with state := .failed }
    else if limit ≤ (s.jobRun j).restarts then
      ((s.complete j 0x1031).updJob j fun q => { q with state := .failed }).escalate (s.jobPart j)
    else s.updJob j fun q => { q with state := .teardown, relock := relock }
  | .teardown => if late then ((s.complete j 0x1031).updJob j fun q => { q with state := .failed }) else s
  | _ => s

/-- The faults of one tick meet (R433): the device safe state alone if one asks for it; else the partitions to halt, then the jobs to restart. -/
def State.reactAll (s : State) (rs : List (Raise × Nat)) : State :=
  if s.saf.safe then s
  else if rs.any fun r => r.2 == 3 then s.enterSafe
  else
    let halts := (rs.filterMap fun r => if r.2 = 2 then r.1.job.map s.jobPart else none).eraseDups
    let s := halts.foldl (fun s p => if s.pln.halted.get p then s else (s.haltPartition p).reacted 2) s
    let jobs := (rs.filterMap fun r => if r.2 = 1 then r.1.job else none).eraseDups
    let s := jobs.foldl (fun s j =>
      if s.pln.halted.get (s.jobPart j) then s
      else s.restartJob j (rs.any fun r => r.1.job == some j && r.1.code == 0x0404) (rs.any fun r => r.1.job == some j && r.1.code == 0x0105)) s
    if (rs.any fun r => r.2 == 0) && s.saf.signalAt != some s.tick then { s with saf.signalAt := some s.tick }.reacted 0 else s

/-- The faults raised so far are recorded in order of code and their reactions follow; what those raise is handled in turn. -/
def State.settleN (s : State) : Nat → State
  | 0 => s
  | n + 1 =>
    match s.saf.raised with
    | [] => s
    | rs =>
      let rs := rs.insertionSort fun a b => a.code ≤ b.code
      let s := { s with saf.raised := [] }.faultTrigger rs
      let drawn := rs.map fun r => (r, s.drawn r)
      let s := rs.foldl (fun s r => s.recordFault r) s
      (s.reactAll drawn).settleN n

/-- The step in hand settles. -/
def State.settle (s : State) : State := s.settleN 8

end Sys2Proof.Machine
end

