-- ==== Sys2Proof/Machine/Safety.lean ====
section
/-! DEFINITION. The safety commands and mechanisms (R431, R436, R437, R441, R442, R447 to R449), and the events of other blocks that can raise a
fault. -/

namespace Sys2Proof.Machine

/-! ### Registers (R447, R449) -/

/-- The fault summary word (R447). -/
def State.faultSummary (s : State) : Nat :=
  let halted := (List.range 16).foldl (fun a p => a + 2 ^ (2 + p) * b2n (s.pln.halted.get p)) 0
  b2n s.saf.safe + 2 * b2n s.saf.deviceFault + halted + 2 ^ 18 * min 255 s.saf.summary

/-- SAF_WDG_DATA of a watchdog. -/
def WdgRun.word (r : WdgRun) : Nat := pack [(0, 2, r.state.toNat), (2, 1, b2n r.lateSeen), (3, 1, b2n r.earlySeen), (16, 16, r.trips.toNat)]

/-- SAF_GOLDEN_STATUS of a golden entry. -/
def GoldenRun.word (r : GoldenRun) : Nat := pack [(0, 2, r.status.toNat), (2, 1, b2n r.expect.isSome), (16, 16, r.runs.toNat)]

/-- A SAF register (R449, Table 9). -/
def State.safReg (s : State) (off : Nat) : Nat :=
  let f := s.saf
  let g := f.goldens.get f.goldenSel.toNat
  match off with
  | 0x00 => pack [(0, 1, b2n f.safe), (1, 1, b2n f.pins), (2, 1, b2n f.supHalted), (3, 1, b2n f.deviceFault), (4, 1, b2n f.jobFault), (5, 1, b2n f.injected)]
  | 0x08 => f.lastFault.toNat
  | 0x0C => f.firstDevice.toNat
  | 0x10 => (f.reactCount.get 0).toNat
  | 0x14 => (f.reactCount.get 1).toNat
  | 0x18 => (f.reactCount.get 2).toNat
  | 0x1C => (f.reactCount.get 3).toNat
  | 0x20 => f.supMismatch.toNat
  | 0x24 => f.wdgSel.toNat
  | 0x28 => (f.wdgs.get f.wdgSel.toNat).word
  | 0x2C => f.goldenSel.toNat
  | 0x30 => g.sig.toNat % 2 ^ 32
  | 0x34 => g.sig.toNat / 2 ^ 32
  | 0x38 => g.word
  | _ => 0

/-! ### Commands (R448) -/

/-- CLASS selects the reactions of a fault (R448). -/
def classOk (code cls : Nat) : Bool :=
  if eitherFaults.contains code then decide (cls ≤ 4) else if jobFaults.contains code then decide (cls ≤ 3) else devFaults.contains code && cls == 0

/-- The class names the device reaction. -/
def classDev (code cls : Nat) : Bool := devFaults.contains code || cls == 4

/-- The default of the reaction a class selects. -/
def classDefault (code cls : Nat) : Nat := if classDev code cls then devDefault code else jobDefault code cls

/-- SAF_REACT_SET (R431, R448). -/
def doSafReactSet (h : Hdr) (code : BitVec 16) (cls reaction : Byte) (s : State) : Ans :=
  let c := code.toNat
  let k := cls.toNat
  let r := reaction.toNat
  checks [(h.fn != 0, 0x9001),
          (!classOk c k || (if classDev c k then r != 0 && r != 3 else !within 1 3 r), 0x9002),
          (decide (r < classDefault c k) || fixedFault c, 0x9004),
          (s.pln.state != .none && s.pln.state != .loaded, 0x9003)]
    (.ok { s with saf.reacts := s.saf.reacts.set (8 * c + k) (r + 1) } {})

def execSafReactSet (h : Hdr) (code : BitVec 16) (cls reaction : Byte) (s : State) : Out := firmware h s (doSafReactSet h code cls reaction s)

/-- SAF_REACT_QUERY (R448). -/
def doSafReactQuery (h : Hdr) (code : BitVec 16) (cls : Byte) (s : State) : Ans :=
  let c := code.toNat
  let k := cls.toNat
  checks [(h.fn != 0, 0x9001), (!classOk c k, 0x9002)]
    (.ok s { r0 := s.reactionOf c k (classDev c k), r1 := classDefault c k, r2 := b2n (fixedFault c) })

def execSafReactQuery (h : Hdr) (code : BitVec 16) (cls : Byte) (s : State) : Out := firmware h s (doSafReactQuery h code cls s)

/-- SAF_GOLDEN_SET (R444, R448). -/
def doSafGoldenSet (h : Hdr) (index : Byte) (expect : BitVec 64) (s : State) : Ans :=
  checks [(h.fn != 0, 0x9001), (!((s.pln.plan.map Plan.goldens).getD []).any (fun g => g.index == index.toNat), 0x9002), (s.pln.state != .loaded, 0x9003)]
    (.ok { s with saf.goldens := s.saf.goldens.upd index.toNat fun g => { g with expect := some expect } } {})

def execSafGoldenSet (h : Hdr) (index : Byte) (expect : BitVec 64) (s : State) : Out := firmware h s (doSafGoldenSet h index expect s)

/-- SAF_FAULT_INJECT (R448). -/
def doSafFaultInject (h : Hdr) (code : BitVec 16) (device : Byte) (job : BitVec 16) (s : State) : Ans :=
  let c := code.toNat
  let st := (s.jobRun job.toNat).state
  checks [(h.fn != 0, 0x9001), (decide (1 < device.toNat) || (if device = 0 then !canJob c else !canDev c), 0x9002),
          (device == 0 && !((s.jobRec job.toNat).isSome && (st == .running || st == .preempted)), 0x9003)]
    (.ok (s.raise { code := c, job := if device = 0 then some job.toNat else none, injected := true }).settle {})

def execSafFaultInject (h : Hdr) (code : BitVec 16) (device : Byte) (job : BitVec 16) (s : State) : Out :=
  firmware h s (doSafFaultInject h code device job s)

/-- SAF_QUERY (R448): the SAF registers 0x0000 to 0x0038, then the fault summary word. -/
def doSafQuery (h : Hdr) (s : State) : Ans :=
  checks [(h.fn != 0, 0x9001)]
    (.ok s { ext := some ((List.range 15).flatMap (fun i => leBytes 4 (s.safReg (4 * i))) ++ leBytes 4 s.faultSummary) })

def execSafQuery (h : Hdr) (s : State) : Out := firmware h s (doSafQuery h s)

/-! ### Mechanisms -/

/-- SAF_CTL_RELEASE (R436, R449): only the firmware writes SAF_CTL, and a write in the safe state is ignored. -/
def execSafCtlRelease (by_ : Writer) (value : Word) (s : State) : Out :=
  if by_ = .firmware && value.getLsbD 0 && !s.saf.safe then .next { s with saf.pins := false } else .next s

/-- SUP_LOCKSTEP (R437): a difference, or the comparators' disagreement about one, halts the supervisor. -/
def execSupLockstep (disagree : Bool) (s : State) : Out :=
  if s.saf.supHalted then .next s
  else
    let s := { s with saf.supMismatch := satInc s.saf.supMismatch, saf.supHalted := true }
    .next (s.raiseDev (if disagree then 0x1102 else 0x1101)).settle

/-- SAF_DISAGREE (R436). -/
def execSafDisagree (s : State) : Out := .next (s.raiseDev 0x1103).settle

/-- WDG_LATE of the watchdog with an INDEX (R441, R442): a point or loop whose last event lies LATE ticks back, or a pipe whose command has run that
long, by the job it runs for. -/
def execWdgLate (i : Byte) (ticks : Word) (job : Option (BitVec 10)) (s : State) : Out :=
  match ((s.pln.plan.map Plan.watchdogs).getD []).find? fun e => e.index == i.toNat with
  | none => .next s
  | some e =>
    let live := s.pln.state == .running || s.pln.state == .stopping
    let took := if e.kind = 4 then ticks.toNat else s.tick - (s.saf.wdgs.get e.index).last
    if !live || e.late == 0 || decide (took < e.late) then .next s
    else if e.kind = 4 then .next (s.wdgTrip e true took (job.map BitVec.toNat)).settle
    else if (e.kind = 2 || e.kind = 3) && (s.saf.wdgs.get e.index).state == 2 then
      let s := { s with saf.wdgs := s.saf.wdgs.upd e.index fun r => { r with state := 1 } }
      .next (s.wdgTrip e true took).settle
    else .next s

/-! ### Events of other blocks that can raise a fault -/

/-- KV_JOB_PORT_REQUEST (R178). -/
def execKvJobPortRequest (rod : Fin 64) (port : Fin 16) (data : List Byte) (s : State) : Out := .next (s.jobPort rod.val port.val data).settle

/-- KV_COMMAND_DONE (R178): the partition's keeper completes its command. -/
def execKvCommandDone (p : Fin 16) (s : State) : Out := .next (s.kvDone p.val).settle

/-- KV_TABLE_UE (R181, R429): an uncorrectable error in a keeper table. -/
def execKvTableUe (s : State) : Out := .next ({ s with pgk.tableUe := true }.raiseDev 0x0305).settle

/-- LOOP_EVALUATION (R321). -/
def execLoopEvaluation (n : Fin 128) (s : State) : Out := .next (s.evaluate n.val).settle

/-- ENCODER_UPDATE (R329). -/
def execEncoderUpdate (e : Fin 32) (a b z : Bool) (s : State) : Out := .next (s.encoderUpdate e.val a b z).settle

/-- CLE_SD_CLOCK (R330). -/
def execCleSdClock (c : Fin 32) (s : State) : Out := .next (s.sdClock c.val).settle

/-- CLE_MAILBOX_PORT_WRITE (R332). -/
def execCleMailboxPortWrite (rod : Fin 64) (loop : Fin 128) (data : List Byte) (s : State) : Out := .next (s.mailboxPort rod.val loop.val data).settle

/-- INPUT_ADMIT (R234): the input that waits longest at the point is admitted. -/
def execInputAdmit (point : Byte) (s : State) : Out := .next (s.admitInput point.toNat).settle

end Sys2Proof.Machine
end

