-- ==== Sys2Proof/Machine/Journal.lean ====
section
/-! DEFINITION. Journal, replay and crossing monitors (R240, R242 to R251). -/

namespace Sys2Proof.Machine

/-! ### Commands (R251) -/

/-- A journal or replay data area (R251). -/
def areaOk (base bytes : Nat) : Bool := lineAligned base && bytes % 4096 == 0 && decide (0x100000 ≤ bytes) && inAperture base bytes

/-- RING names an enabled journal ring of PF0. -/
def State.isJournalRing (s : State) (ring : Nat) : Bool :=
  let g := s.hif.rings.get (s.devRing 0 ring)
  decide (ring < (s.hif.fns.get 0).ringCount.toNat) && g.enable && g.type == 4

/-- JOURNAL_OPEN: a journal already open is opened anew. -/
def doJournalOpen (h : Hdr) (ring : BitVec 16) (base bytes : BitVec 64) (s : State) : Ans :=
  checks [(h.fn != 0, 0x1024), (!s.isJournalRing ring.toNat, 0x0046), (!areaOk base.toNat bytes.toNat, 0x0041),
          (s.pln.state != .loaded || s.jrn.r.armed, 0x0040)]
    (.ok { s.journalEnd with jrn.j := { isOpen := true, ring := s.devRing 0 ring.toNat, base := base.toNat, bytes := bytes.toNat } } {})

def execJournalOpen (h : Hdr) (ring : BitVec 16) (base bytes : BitVec 64) (s : State) : Out := firmware h s (doJournalOpen h ring base bytes s)

/-- JOURNAL_CLOSE: a STOP record in the next tick ends the journal, whatever the plan's state. -/
def doJournalClose (h : Hdr) (s : State) : Ans :=
  checks [(h.fn != 0, 0x1024), (!s.jrn.j.isOpen || s.jrn.j.closing, 0x0040)] (.ok { s with jrn.j.closing := true } {})

def execJournalClose (h : Hdr) (s : State) : Out := firmware h s (doJournalClose h s)

/-- REPLAY_OPEN: a replay already armed is armed anew. -/
def doReplayOpen (h : Hdr) (ring : BitVec 16) (base bytes : BitVec 64) (s : State) : Ans :=
  checks [(h.fn != 0, 0x1024), (!s.isJournalRing ring.toNat, 0x0046), (!areaOk base.toNat bytes.toNat, 0x0041),
          (s.pln.state != .loaded || (s.jrn.j.isOpen && !s.jrn.j.closing), 0x0040)]
    (.ok { s with jrn.r := { armed := true, ring := s.devRing 0 ring.toNat, base := base.toNat, bytes := bytes.toNat } } {})

def execReplayOpen (h : Hdr) (ring : BitVec 16) (base bytes : BitVec 64) (s : State) : Out := firmware h s (doReplayOpen h ring base bytes s)

/-- REPLAY_CLOSE. -/
def doReplayClose (h : Hdr) (s : State) : Ans :=
  checks [(h.fn != 0, 0x1024), (!s.jrn.r.armed || s.pln.state == .running, 0x0040)] (.ok { s with jrn.r := {} } {})

def execReplayClose (h : Hdr) (s : State) : Out := firmware h s (doReplayClose h s)

/-- Instances of a crossing kind (R238): the islands or ports of its other side, which the spec numbers nowhere (DEDUCED, log entry 19). -/
def crossInstances (kind : Nat) : Nat :=
  match kind with
  | 1 | 2 => 16
  | 3 | 4 => 4
  | 7 => 2
  | 5 | 6 | 8 | 9 | 10 => 1
  | _ => 0

/-- CROSSING_QUERY: the late count, and the smallest margin seen so far, a free value that never grows (R240; log entry 15). -/
def doCrossingQuery (h : Hdr) (kind inst : Byte) (s : State) : Ans :=
  let k := kind.toNat * 256 + inst.toNat
  checks [(h.fn != 0, 0x1024), (decide (crossInstances kind.toNat ≤ inst.toNat), 0x0046)]
    (let (x, s) := s.draw 32
     let c := s.jrn.cross.get k
     let m := if c.seen then min c.margin x.toNat else x.toNat
     .ok { s with jrn.cross := s.jrn.cross.set k { c with seen := true, margin := m } } { r0 := m, r1 := c.late.toNat })

def execCrossingQuery (h : Hdr) (kind inst : Byte) (s : State) : Out := firmware h s (doCrossingQuery h kind inst s)

/-! ### Crossings (R240) -/

/-- An input whose transfer was late is dropped: a camera's frame in progress, else the input that waits longest. -/
def State.lateInput (s : State) (p : Nat) : State :=
  match (s.point p).frame, (s.point p).waiting with
  | some f, _ => s.updPoint p fun q => { q with frame := some { f with causes := f.causes ||| 1 } }
  | none, _ :: t => (s.updPoint p fun q => { q with waiting := t }).dropOther p
  | none, [] => s.dropOther p

/-- CROSSING_LATE: the monitor of a kind and instance, for the job or the input that the transfer belongs to. -/
def execCrossingLate (kind inst : Byte) (job : Option (BitVec 10)) (point : Option Byte) (s : State) : Out :=
  let s := { s with jrn.cross := s.jrn.cross.upd (kind.toNat * 256 + inst.toNat) fun c => { c with late := satInc c.late } }
  let s := match job, point with
    | none, some p => s.lateInput p.toNat
    | _, _ => s
  .next (s.raise { code := 0x0402, job := job.map BitVec.toNat, detail := BitVec.ofNat 32 (kind.toNat + 256 * inst.toNat) }).settle

/-! ### The journal's start and gaps (R242, R245) -/

/-- JOURNAL_GAP_RECORD. -/
def execJournalGapRecord (s : State) : Out := .next s.journalGap

/-- The START record, with JSEQ from 0 (R243). -/
def State.journalStart (s : State) (pl : Plan) : State :=
  if s.jrn.j.isOpen then
    { s with jrn.j.started := true, jrn.j.jseq := 0, jrn.j.batch := [] }.journalMark 0x01
      (pl.planId.toNat + pl.version.toNat * 2 ^ 32 + pl.hash.toNat / 2 ^ 192 * 2 ^ 64)
  else s

/-! ### Replay (R246, R247, R249) -/

/-- The next record of the replay ring. -/
def State.replayHead (s : State) : Option Nat :=
  let g := s.hif.rings.get s.jrn.r.ring
  if g.enable && g.state == 1 && g.used != 0 then some (s.rdN (g.entry g.head) 64) else none

/-- The record is consumed: HEAD advances and is written back (R263). -/
def State.replayTake (s : State) : State :=
  let k := s.jrn.r.ring
  let g := s.hif.rings.get k
  let g' := { g with head := g.head + 1 }
  ({ s with hif.rings := s.hif.rings.set k g', jrn.r.jseq := s.jrn.r.jseq + 1 }).writeBack g' g'.head

/-- The first record starts the loaded plan (R246). -/
def startMatches (x : Nat) (pl : Plan) : Bool :=
  fld x 0 8 == 1 && fld x 256 32 == pl.planId.toNat && fld x 288 16 == pl.version.toNat && fld x 320 192 == pl.hash.toNat / 2 ^ 192

/-- A START record with a reserved bit, a CRC or a JSEQ that is not 0 (R243, R249). -/
def startBad (x : Nat) : Bool := fld x 8 24 != 0 || fld x 32 32 != 0 || fld x 128 128 != 0 || fld x 304 16 != 0

/-- The JSEQ that replay has reached: that of the record admitted next. -/
def State.jseqReached (s : State) : Nat := match s.jrn.r.ahead with | a :: _ => fld a.rec_ 32 32 | [] => s.jrn.r.jseq.toNat

/-- Replay stops with a status, and the plan with it (R249). -/
def State.replayStop (s : State) (status : Nat) : State := (s.event 0 0x05 0 status s.jseqReached).stopPlanNow

/-- A bit or a value of a record that its KIND leaves reserved (R233, R243). -/
def recordReserved (x : Nat) : Bool :=
  let kind := fld x 0 8
  let fs : List (Nat × Nat) := match kind with
    | 1 => [(256, 48), (320, 192)]
    | 2 => [(256, 96)]
    | 3 => [(256, 16)]
    | 4 => [(256, 16), (288, 32)]
    | 5 => [(256, 16)]
    | 6 => [(256, 96)]
    | 7 => [(256, 96), (352, 22), (384, 16), (416, 32)]
    | 8 => [(256, 160)]
    | _ => []
  let point := fld x 8 8
  let pointBad := match kind with | 2 | 3 => decide (240 ≤ point) | 6 => decide (64 ≤ point) | 7 => decide (2 ≤ point) | _ => point != 0
  let opBad := (kind == 4 && decide (1 < fld x 270 2)) ||
    (kind == 7 && fld x 352 8 == 1 && (decide (1 < fld x 398 2) || fld x 256 96 != 0))
  pointBad || opBad || fld x 16 16 != 0 || fld x 192 64 != 0 || (List.range 256).any fun i => bit x (256 + i) && !fs.any fun f => decide (f.1 ≤ 256 + i) && decide (256 + i < f.1 + f.2)

/-- The payload of a record in the replay data area, wrapping at its end. -/
def State.replayData (s : State) (off n : Nat) : List Byte :=
  let r := s.jrn.r
  if r.bytes = 0 then []
  else
    let o := off % r.bytes
    let k := min n (r.bytes - o)
    s.rd (r.base + o) k ++ s.rd r.base (n - k)

/-- Time-launched frames that are due and not on their way are discarded and counted (R248). -/
def State.discardDue (s : State) : State :=
  let s := (s.eth.macs.keys fun _ => true).foldl (fun s m =>
    let s := ((s.mac m).launches.keys EthLaunch.due).foldl (fun s e => s.launchLate m e) s
    ((s.mac m).classes.keys fun _ => true).foldl (fun s c =>
      ((List.range ((s.mac m).classes.get c).length).reverse.filter fun i => (((s.mac m).classes.get c)[i]?.map EthPost.due).getD false).foldl
        (fun s i => s.postLate m c i) s) s) s
  (s.can.ctls.keys fun _ => true).foldl (fun s c =>
    ((s.ctl c).mbs.keys fun m => m.pend && m.at_.isSome).foldl (fun s b =>
      if (s.ctl c).bus.any fun x => x.1 == b then s
      else s.updCtl c fun q => { (q.updMb b fun m => { m with at_ := none, pend := false }) with launchLate := satInc q.launchLate }) s) s

/-- The outputs as replay begins (R248): PWM pairs forced, launches due discarded. -/
def State.replayOutputs (s : State) : State := s.forcePairs.discardDue

/-- The payload of an input is placed in slot `k` of its point (R247). -/
def State.placeAhead (s : State) (p k : Nat) (data : List Byte) : State := s.wr (s.slotAddr p k + 128) (padTo (s.slotBytes p - 128) data)

/-- A record is admitted at its tick (R247); an input that found no slot ahead takes one now. -/
def State.replayApply (s : State) (a : Ahead) : State :=
  let x := a.rec_
  let data := a.data
  let p := fld x 8 8
  let seq := fld x 128 32
  match fld x 0 8 with
  | 2 =>
    match a.slot.or (s.freeSlot p) with
    | none => s.dropFull p
    | some k =>
      let fr := s.pln.frameCount.toNat % 2 ^ 32
      let s := (if a.slot.isSome then s else s.placeAhead p k data).wr (s.slotAddr p k) (slotHeader p false false 0 seq fr s.pln.frameTick 0 0 0 0 0)
      let a : Arrival := { slot := some k, seq := seq, frame := fr, tick := s.pln.frameTick, at_ := s.tick }
      (s.updPoint p fun q => { q with admitted := satInc q.admitted, srcSeq := BitVec.ofNat 32 seq, arrivals := q.arrivals ++ [a] }).watchEvent 2 p
  | 3 =>
    let a : Arrival := { slot := none, seq := seq, reason := fld x 256 16, at_ := s.tick }
    s.updPoint p fun q => { q with absent := satInc q.absent, arrivals := q.arrivals ++ [a] }
  | 4 =>
    { s with tly.ops := s.tly.ops ++
        [({ tally := fld x 256 14, isSet := fld x 270 2 == 1, value := BitVec.ofNat 32 (fld x 288 32), due := s.tick + 1 } : TallyOp)] }
  | 5 => s.updJob (fld x 256 16) fun q => { q with requested := true, requestedAt := s.tick }
  | 6 => { s with jrn.r.times := s.jrn.r.times.upd p (· ++ [BitVec.ofNat 96 (fld x 256 96)]) }
  | _ =>
    match fld x 352 8 with
    | 1 =>
      { s with tly.ops := s.tly.ops ++
          [({ tally := fld x 384 14, isSet := fld x 398 2 == 1, value := BitVec.ofNat 32 (fld x 416 32), due := s.tick + 1, src := 1 + p } : TallyOp)] }
    | k => s.admitRing (fld (leNat (data.take 32)) 8 4) k data

/-- The record read from the ring fails: a reserved field, JSEQ out of order, or the CRC of its payload (R249). -/
def State.aheadBad (s : State) (x : Nat) (hasData : Bool) (data : List Byte) : Bool :=
  let kind := fld x 0 8
  recordReserved x || !within 2 9 kind || fld x 32 32 != s.jrn.r.jseq.toNat || fld x 160 32 != (if hasData then crc32c data else 0) ||
    (kind == 7 && !within 1 3 (fld x 352 8))

/-- One record is read ahead, unless 64 are (R247): it is checked, and an input's payload goes into a free slot of its point. Answers whether it
fails. -/
def State.readAhead (s : State) : Bool × State :=
  match if s.jrn.r.ahead.length < 64 then s.replayHead else none with
  | none => (false, s)
  | some x =>
    let kind := fld x 0 8
    let hasData := kind == 2 || (kind == 7 && fld x 352 8 != 1)
    let data := if hasData then s.replayData (fld x 256 64) (fld x 320 32) else []
    if s.aheadBad x hasData data then (true, s)
    else
      let p := fld x 8 8
      let slot := if kind = 2 then s.freeSlot p else none
      let s := match slot with | some k => s.placeAhead p k data | none => s
      (false, { s.replayTake with jrn.r.ahead := s.jrn.r.ahead ++ [{ rec_ := x, data := data, slot := slot }] })

/-- How a record's FRAME and FRAME_TICK stand to the present: negative while its tick is to come (R15, R519). -/
def State.tickOf (s : State) (x : Nat) : Int :=
  let d := wdiff 32 s.pln.frameCount.toNat (fld x 64 32)
  if d = 0 then (s.pln.frameTick : Int) - (fld x 96 32 : Nat) else d

/-- REPLAY_ADMIT: one record is read ahead, and the earliest record not yet admitted is admitted at its recorded FRAME and FRAME_TICK. -/
def execReplayAdmit (s0 : State) : Out :=
  if !s0.jrn.r.running then .next s0
  else
    let (bad, s) := s0.readAhead
    if bad then .next (s.replayStop 0x0044).settle
    else match s.jrn.r.ahead with
      | [] => .next s
      | a :: rest =>
        let kind := fld a.rec_ 0 8
        if s.tickOf a.rec_ < 0 then .next s
        else if kind = 8 then .next (s.replayStop 0x0045).settle
        else if kind = 9 then .next (s.replayStop 0).settle
        else if 0 < s.tickOf a.rec_ then .next (s.replayStop 0x0043).settle
        else .next ({ s with jrn.r.ahead := rest }.replayApply a).settle

end Sys2Proof.Machine
end

