-- ==== Sys2Proof/Machine/Pair.lean ====
section
/-! DEFINITION. Rods and split-lock pairs: rod faults, hand-overs, corrected words (R75, R84 to R92). -/

namespace Sys2Proof.Machine

/-- A fault that rod `n` raises against its job, latched in bit `k` of ROD_FAULT when the register has one (R91, Table 11). -/
def State.rodFault (s : State) (n code : Nat) (k : Option Nat := none) (detail : Word := 0) : State :=
  let s := match k with
    | some k => s.updRod n fun r => { r with fault := r.fault ||| BitVec.ofNat 32 (2 ^ k) }
    | none => s
  match (s.rod n).job with
  | some j => s.raiseJob code j (some n) detail
  | none => s

/-- Rod `n` finds two requests to one bank: neither is served, and BANK_COLLISION is raised, once in a step (R74). -/
def State.bankClash (s : State) (n : Nat) : State :=
  if s.saf.raised.any fun r => r.code == 0x0104 && r.rod == some n then s else s.rodFault n 0x0104 (some 1)

/-! ### Lockstep (R80 to R84) -/

/-- The cells of a scratchpad, by offset. -/
def State.spadCells (s : State) (n : Nat) : List (Nat × Byte) :=
  let a := spadAddr n 0
  (s.mem.cells.filter fun c => decide (a ≤ c.1) && decide (c.1 < a + spadSize)).map fun c => (c.1 - a, c.2)

/-- What the follower of leader `n` executes on: the follower's scratchpad in the leader's place. -/
def State.asFollower (s : State) (n : Nat) : State :=
  let a := spadAddr n 0
  { s with mem := ⟨s.mem.cells.filter (fun c => decide (c.1 < a)) ++ (s.spadCells (n + 1)).map (fun c => (a + c.1, c.2)) ++
      s.mem.cells.filter fun c => decide (a + spadSize ≤ c.1)⟩ }

/-- Rod `n` is no leader of a locked pair, or both copies hold the same bytes and both comparators work: nothing compared can differ. -/
def State.twinned (s : State) (n : Nat) : Bool :=
  !(s.rod n).locked || n % 2 == 1 || ((s.rod n).upset.cmp == 0 && s.spadCells n == s.spadCells (n + 1))

/-- What comparator `c` reports of an item (R83). -/
def Upset.reports (u : Upset) (c : Nat) (differ : Bool) : Bool := differ != u.cmp.getLsbD c

/-- The first item of the two copies' writes that a comparator reports: its place, its address, and whether the comparators disagree (R82, R83). -/
def Upset.firstReport (u : Upset) (l r : List (Nat × List Byte)) : Option (Nat × Nat × Bool) :=
  (List.range (max l.length r.length)).findSome? fun i =>
    let d := l[i]? != r[i]?
    if u.reports 0 d || u.reports 1 d then some (i, (((l[i]?).orElse fun _ => r[i]?).map (·.1)).getD 0, u.reports 0 d != u.reports 1 d) else none

/-- A mismatch of the pair of leader `n` on an item at an address: LOCKSTEP_MISMATCH, and CMP_DISAGREE when the comparators disagree (R83, R84). -/
def State.mismatched (s : State) (n a : Nat) (disagree : Bool) : State :=
  let at_ := BitVec.ofNat 32 (if inSpads a 1 then (a - spadBase) % spadSize else a)
  let s := s.updRod n fun r =>
    { r with mismatch := true, mismatchCount := if r.mismatchCount = 0xFFFF then r.mismatchCount else r.mismatchCount + 1,
             mismatchAddr := if r.mismatch then r.mismatchAddr else at_, cmpDisagree := r.cmpDisagree || disagree }
  let s := if disagree then s.rodFault n 0x0106 (some 3) else s
  s.rodFault n 0x0105 (some 2) (s.rod n).mismatchAddr

/-- An operation of rod `n`. On a locked pair both copies carry it out, each on its own scratchpad, and their writes are compared in order: those
before the first mismatch take place, that one and the later ones are suppressed (R80 to R84; log entry 91). -/
def State.lockstep (s : State) (n : Nat) (f : State → State) : State :=
  if s.twinned n then f s
  else
    let l := f { s with watch := some [] }
    let r := f { s.asFollower n with watch := some [] }
    let ws := l.watch.getD []
    match (s.rod n).upset.firstReport ws (r.watch.getD []) with
    | none => { l with watch := none }
    | some (i, a, dis) => ((ws.take i).foldl (fun s w => s.wrBoth w.1 w.2) s).mismatched n a dis

/-! ### Hand-overs -/

/-- No job stands between its start and its end on a rod of pair `k`, one that is pre-empted among them (R85, R86). -/
def State.pairFree (s : State) (k : Nat) : Bool :=
  (s.rod (2 * k)).job.isNone && (s.rod (2 * k + 1)).job.isNone &&
    !s.jobList.any fun r => (bit r.rodMask (2 * k) || bit r.rodMask (2 * k + 1)) && ((s.jobRun r.job).state == .running || (s.jobRun r.job).state == .preempted)

/-- A scratchpad's contents and error marks are made zero. -/
def State.zeroSpad (s : State) (n : Nat) : State :=
  let a := spadAddr n 0
  { s with mem := s.mem.zero a (a + spadSize),
           errs := ⟨s.errs.cells.filter fun c => !(decide (a ≤ c.1 * 4) && decide (c.1 * 4 < a + spadSize))⟩ }

/-- The leader's scratchpad is copied to the follower's (R86). -/
def State.copySpad (s : State) (k : Nat) : State :=
  let a := spadAddr (2 * k) 0
  let b := a + spadSize
  let s := s.zeroSpad (2 * k + 1)
  let c := s.mem.cells
  { s with mem := ⟨c.filter (fun x => decide (x.1 < b)) ++
      ((c.filter fun x => decide (a ≤ x.1) && decide (x.1 < b)).map fun x => (x.1 + spadSize, x.2)) ++ c.filter fun x => decide (b + spadSize ≤ x.1)⟩ }

/-- A hand-over begins: 1 lock, 3 split (R86, R87). -/
def State.beginHandover (s : State) (k st : Nat) : State :=
  let f := fun (r : Rod) => { r with state := 2, acc := {}, lanes := {}, locked := false }
  let g := fun (r : Rod) => { r with locked := false }
  let s := if st = 1 then (s.updRod (2 * k) f).updRod (2 * k + 1) f else (s.updRod (2 * k) g).updRod (2 * k + 1) fun r => { r with state := 2, locked := false }
  s.updRod (2 * k) fun r => { r with pairState := BitVec.ofNat 2 st }

/-- A pending request, or a lock hand-over that is to run again after a mismatch (R84), begins once the last job on either rod has ended (R86, R90). -/
def State.pairNext (s : State) (k : Nat) : State :=
  let r := s.rod (2 * k)
  if !s.pairFree k then s
  else if r.again then (s.updRod (2 * k) fun r => { r with again := false }).beginHandover k 1
  else if r.req = 1 && r.pairState = 0 then s.beginHandover k 1
  else if r.req = 2 && r.pairState = 2 then s.beginHandover k 3
  else s

/-- ROD_PAIR_CTL_WRITE (R85, R90, R91): the firmware's request; one that changes nothing completes at once. -/
def execRodPairCtlWrite (by_ : Writer) (rod : Fin 64) (value : Word) (s : State) : Out :=
  let n := rod.val
  let q := value.toNat % 4
  if by_ ≠ .firmware || n % 2 = 1 || q = 3 then .next s
  else
    let r := s.rod n
    let done := q = 0 || (q = 1 && r.pairState = 2) || (q = 2 && r.pairState = 0)
    .next ((s.updRod n fun r => { r with req := if done then 0 else BitVec.ofNat 2 q }).pairNext (n / 2))

/-- The LOCKED job that a pair was to run: a released one or one in teardown, else the first of the plan (R89). -/
def State.lockJob (s : State) (k : Nat) : Option Nat :=
  let mine := s.jobList.filter fun r => r.locked && bit r.rodMask (2 * k)
  let due := mine.filter fun r => (s.jobRun r.job).state == .released || (s.jobRun r.job).state == .teardown
  (due ++ mine).head?.map JobRec.job

/-- LOCK_HANDOVER (R86, R89): the copy ends and the pair is locked; an uncorrectable word fails the lock, and the pair splits. REQ returns to 0
(Table 9), so that a request for the other state made while the hand-over ran is dropped with it (DESIGN CHOICE, log entry 89). -/
def execLockHandover (pair : Fin 32) (s : State) : Out :=
  let k := pair.val
  let s := s.pairNext k
  let a := spadAddr (2 * k) 0
  if (s.rod (2 * k)).pairState ≠ 1 then .next s
  else if s.errIn a spadSize = 2 then
    let s := (s.updRod (2 * k) fun r => { r with lockFailed := true, fault := r.fault ||| 1, req := 0, state := 0 }).beginHandover k 3
    let s := match s.lockJob k with
      | some j => s.raiseJob 0x0103 j (some (2 * k))
      | none => s
    .next s.settle
  else
    let s := (s.noteRead a spadSize).copySpad k
    let s := s.updRod (2 * k) fun r => { r with pairState := 2, req := 0, state := 0, locked := true }
    .next (s.updRod (2 * k + 1) fun r => { r with state := 0, locked := true })

/-- SPLIT_HANDOVER (R87): the follower's scratchpad is zero and the pair is split. -/
def execSplitHandover (pair : Fin 32) (s : State) : Out :=
  let k := pair.val
  let s := s.pairNext k
  if (s.rod (2 * k)).pairState ≠ 3 then .next s
  else
    let s := s.zeroSpad (2 * k + 1)
    let s := s.updRod (2 * k) fun r => { r with pairState := 0, req := 0 }
    .next (s.updRod (2 * k + 1) fun r => { r with state := 0, acc := {}, lanes := {} })

/-- CE_CLEAR (R91): only the plan island and the firmware write the ROD block. -/
def execCeClear (by_ : Writer) (rod : Fin 64) (s : State) : Out :=
  if by_ = .firmware then .next (s.updRod rod.val fun r => { r with ceCount := 0 }) else .next s

/-- SCRUB_GAP (R75): corrected words of the rod's scratchpad are rewritten. -/
def execScrubGap (rod : Fin 64) (s : State) : Out :=
  let a := spadAddr rod.val 0
  .next { s with errs := ⟨s.errs.cells.filter fun c => !(c.2 == 1 && decide (a ≤ c.1 * 4) && decide (c.1 * 4 < a + spadSize))⟩ }

end Sys2Proof.Machine
end

