-- ==== Sys2Proof/Machine/Sequencer.lean ====
section
/-! DEFINITION. The rod sequencer: instructions, loops, tallies, tiles (R93 to R111, R193). -/

namespace Sys2Proof.Machine

/-! ### Registers, fetch and flow -/

/-- L[i]; L0 reads as zero (R93). -/
def Rod.l_ (r : Rod) (i : Nat) : Word := if i = 0 then 0 else r.l.get i

/-- L[i] written; a write to L0 is discarded (R93). -/
def Rod.setL (r : Rod) (i : Nat) (v : Word) : Rod := if i = 0 then r else { r with l := r.l.set i v }

/-- An encoding that R99 allows. -/
def instrOk (w : Nat) : Bool :=
  match fld w 26 6 with
  | 0x01 | 0x04 | 0x06 | 0x07 | 0x0A | 0x0D => true
  | 0x02 => fld w 12 6 == 0 && fld w 0 12 != 0
  | 0x03 => fld w 0 12 != 0
  | 0x05 => fld w 4 10 == 0 && decide (fld w 0 4 ≤ 10)
  | 0x08 => fld w 15 3 != 7
  | 0x09 => fld w 14 4 == 0
  | 0x0B => fld w 4 22 == 0
  | 0x0C | 0x10 | 0x11 => fld w 16 10 == 0
  | 0x0E => fld w 4 18 == 0 && decide (fld w 0 4 ≤ 8)
  | 0x0F => fld w 2 20 == 0 && decide (fld w 0 2 ≤ 1)
  | _ => false

/-- The step to the next instruction after the one at `pc`: an ended body repeats or its loop ends (R101, R102). -/
def Rod.stepFrom (r : Rod) (pc : Nat) : Nat → Rod
  | 0 => { r with pc := BitVec.ofNat 16 (pc + 1) }
  | fuel + 1 =>
    match r.stack with
    | t :: rest =>
      if t.last.toNat = pc then
        if t.next < t.count then
          { r with pc := t.first, stack := { t with next := t.next + 1 } :: rest }.setL t.li.toNat t.next
        else Rod.stepFrom { r with stack := rest } pc fuel
      else { r with pc := BitVec.ofNat 16 (pc + 1) }
    | [] => { r with pc := BitVec.ofNat 16 (pc + 1) }

/-- The instruction at PC ends and the next one follows. -/
def Rod.advance (r : Rod) : Rod := { r.stepFrom r.pc.toNat 5 with prevPc := r.pc, seq := .ready, alignAt := none }

/-- An instruction of rod `n` is traced as it executes (R495, R500). -/
def State.traceInstr (s : State) (n : Nat) : State :=
  let r := s.rod n
  let pc := r.pc.toNat
  let j := r.job.getD 0
  let s := s.trace n (if r.pc = r.prevPc + 1 then 3 else 2) 1 (pc + j * 2 ^ 16) r.prevPc.toNat
  if s.trc.trigSrc = n && s.trc.trigPc.toNat = pc then s.trigger 3 0 else s

/-- `[off, off + len)` of rod `n` lies in the scratchpad range of its job (R210). -/
def State.inJobRange (s : State) (n off len : Nat) : Bool :=
  match (s.rod n).job, s.pln.plan with
  | some j, some pl => decide (off + len ≤ spadSize) && pl.inSpad (s.jobPart j) (some n) (spadAddr n off) len
  | _, _ => false

/-- Bytes of a rod's scratchpad as its sequencer or units read them: an uncorrectable word raises SPAD_UE (R75), a bank that another port also takes
BANK_COLLISION (R74). -/
def State.spadRead (s : State) (n off len : Nat) : Option (List Byte) × State :=
  let a := spadAddr n off
  if s.jammed a len then (none, s.bankClash n)
  else if s.errBoth a len = 2 then (none, s.rodFault n 0x0103 (some 0)) else (some (s.rd a len), s.noteBoth a len)

/-! ### The code lines held (R94) -/

/-- The instructions of one line of a code region, 16 to a line. -/
def Rod.lineOf (pc : Nat) : Nat := pc / 16

/-- The code lines that the sequencer keeps or prefetches: those in sequence from PC's, four of them, and the first of each active loop's body. What
it prefetches is not stated line by line (DESIGN CHOICE, log entry 93). -/
def Rod.codeWant (r : Rod) : List Nat :=
  (((List.range 4).map (· + Rod.lineOf r.pc.toNat)) ++ r.stack.map fun t => Rod.lineOf t.first.toNat).eraseDups.filter fun l => decide (16 * l < r.codeLen)

/-- Every line of a list is held. -/
def Rod.holds (r : Rod) (ls : List Nat) : Bool := ls.all fun l => r.code.any fun c => c.1 == l

/-- Code lines of rod `n` read from its scratchpad, a bank slot each; none when the job has faulted. -/
def State.readLines (s : State) (n : Nat) : List Nat → Option (List (Nat × List Byte)) × State
  | [] => (some [], s)
  | l :: ls =>
    match s.spadRead n ((s.rod n).codeBase + 64 * l) 64 with
    | (none, s) => (none, s)
    | (some bs, s) => match (s.count n 18 1).readLines n ls with
      | (some rest, s) => (some ((l, bs) :: rest), s)
      | (none, s) => (none, s)

/-- The sequencer of rod `n` fetches the lines it wants and does not hold, and lets the others go; false when the job has faulted. A line that is held
is not read again, whatever is written over it meanwhile. -/
def State.holdCode (s : State) (n : Nat) : Bool × State :=
  let r := s.rod n
  let want := r.codeWant
  if r.holds want then (true, s)
  else match s.readLines n (want.filter fun l => !r.code.any fun c => c.1 == l) with
    | (none, s) => (false, s)
    | (some new, s) => (true, s.updRod n fun r => { r with code := (r.code ++ new).filter fun c => want.contains c.1 })

/-- The instruction at PC, from the line that holds it. -/
def Rod.codeWord (r : Rod) : Nat :=
  match r.code.find? fun c => c.1 == Rod.lineOf r.pc.toNat with
  | some c => leNat ((c.2.drop (4 * (r.pc.toNat % 16))).take 4)
  | none => 0

/-! ### One instruction -/

/-- Rod `n` executes the instruction at its PC if that is a `op`: `k` has the word. What the word cannot be raises its fault (R94, R99). -/
def State.instr (s : State) (n op : Nat) (k : Nat → State → State) : Out :=
  let r := s.rod n
  if r.job.isNone || r.follower n || !(r.seq == .ready || r.seq == .waiting) then .next s
  else if r.codeLen ≤ r.pc.toNat then .next (s.rodFault n 0x0202).settle
  else
    match s.holdCode n with
    | (false, s) => .next s.settle
    | (true, s') =>
      let w := (s'.rod n).codeWord
      if !instrOk w then .next (s'.rodFault n 0x0201).settle
      else if fld w 26 6 = op then .next (k w s').settle
      else .next s

/-- The instruction changes the rod by `f` and ends. -/
def State.retire (s : State) (n : Nat) (f : Rod → Rod := id) : State := (s.traceInstr n).updRod n fun r => (f r).advance

/-- The instruction at PC waits; `counts` says that it is a WAIT or an ALIGN, whose ticks TICKS_WAIT counts (R505). -/
def State.hold (s : State) (n : Nat) (counts : Bool := false) : State := s.updRod n fun r => { r with seq := .waiting, waitCounts := counts }

/-- The units of a mask have no descriptor running or queued (R99). -/
def Rod.unitsIdle (r : Rod) (mask : Nat) : Bool :=
  (List.range 4).all fun u => !bit mask u || ((r.units.get u).run.isNone && (r.units.get u).queue.isEmpty)

/-- Signed value of a field. -/
def sfld (w lo n : Nat) : Word := BitVec.ofInt 32 (sgn n (fld w lo n))

/-! ### Loops, registers, branches (R101 to R103) -/

/-- A loop of `count` iterations over the BODY instructions after PC. -/
def State.startLoop (s : State) (n li body : Nat) (count : Word) : State :=
  let r := s.rod n
  let pc := r.pc.toNat
  let last := pc + body
  let tooDeep := decide (4 ≤ r.stack.length)
  let past := match r.stack with | t :: _ => decide (t.last.toNat < last) | [] => false
  if tooDeep || past then s.rodFault n 0x0203
  else if count = 0 then (s.traceInstr n).updRod n fun r => { r.stepFrom last 5 with prevPc := r.pc, seq := .ready }
  else
    let lvl : LoopLvl := { first := BitVec.ofNat 16 (pc + 1), last := BitVec.ofNat 16 last, count := count, next := 1, li := BitVec.ofNat 4 li }
    (s.traceInstr n).updRod n fun r => { ({ r with stack := lvl :: r.stack }.setL li 0) with pc := BitVec.ofNat 16 (pc + 1), prevPc := r.pc, seq := .ready }

def execLoop (rod : Fin 64) (s : State) : Out :=
  s.instr rod.val 0x02 fun w s => s.startLoop rod.val (fld w 22 4) (fld w 0 12) ((s.rod rod.val).l_ (fld w 18 4))

def execLoopi (rod : Fin 64) (s : State) : Out :=
  s.instr rod.val 0x03 fun w s => s.startLoop rod.val (fld w 22 4) (fld w 0 12) (BitVec.ofNat 32 (fld w 12 10))

def execAddi (rod : Fin 64) (s : State) : Out :=
  s.instr rod.val 0x04 fun w s => s.retire rod.val fun r => r.setL (fld w 22 4) (r.l_ (fld w 18 4) + sfld w 0 18)

/-- The ALU functions (R103). -/
def aluOp (f : Nat) (a b : Word) : Word :=
  match f with
  | 0 => a + b
  | 1 => a - b
  | 2 => a * b
  | 3 => a &&& b
  | 4 => a ||| b
  | 5 => a ^^^ b
  | 6 => a <<< (b.toNat % 32)
  | 7 => a >>> (b.toNat % 32)
  | 8 => a.sshiftRight (b.toNat % 32)
  | 9 => if a.toInt ≤ b.toInt then a else b
  | _ => if a.toInt ≤ b.toInt then b else a

def execAlu (rod : Fin 64) (s : State) : Out :=
  s.instr rod.val 0x05 fun w s => s.retire rod.val fun r => r.setL (fld w 22 4) (aluOp (fld w 0 4) (r.l_ (fld w 18 4)) (r.l_ (fld w 14 4)))

def execLui (rod : Fin 64) (s : State) : Out :=
  s.instr rod.val 0x06 fun w s => s.retire rod.val fun r => r.setL (fld w 22 4) (BitVec.ofNat 32 (fld w 0 22 * 2 ^ 10))

def execLdw (rod : Fin 64) (s : State) : Out :=
  s.instr rod.val 0x07 fun w s =>
    let n := rod.val
    let off := ((s.rod n).l_ (fld w 18 4) + sfld w 0 18).toNat
    if off % 4 != 0 || !s.inJobRange n off 4 then s.rodFault n 0x0202
    else match s.spadRead n off 4 with
      | (none, s) => s
      | (some bs, s) => (s.count n 18 1).retire n fun r => r.setL (fld w 22 4) (BitVec.ofNat 32 (leNat bs))

/-- The conditions of BR (R103). -/
def brCond (c : Nat) (a b : Word) : Bool :=
  match c with
  | 0 => a == b
  | 1 => a != b
  | 2 => decide (a.toInt < b.toInt)
  | 3 => decide (b.toInt ≤ a.toInt)
  | 4 => decide (a.toNat < b.toNat)
  | 5 => decide (b.toNat ≤ a.toNat)
  | _ => true

def execBr (rod : Fin 64) (s : State) : Out :=
  s.instr rod.val 0x08 fun w s =>
    let n := rod.val
    let r := s.rod n
    if brCond (fld w 15 3) (r.l_ (fld w 22 4)) (r.l_ (fld w 18 4)) then
      let t := (r.pc.toNat : Int) + sgn 15 (fld w 0 15)
      let inside := match r.stack with
        | q :: _ => decide ((q.first.toNat : Int) ≤ t) && decide (t ≤ q.last.toNat)
        | [] => true
      if !inside then s.rodFault n 0x0204
      else (s.traceInstr n).updRod n fun r => { r with pc := BitVec.ofInt 16 t, prevPc := r.pc, seq := .ready }
    else s.retire n

/-! ### Tallies, fences, alignment (R104 to R106) -/

/-- The tally an instruction names, if the plan gives it to the job for this use (R104, R211). -/
def State.jobTally (s : State) (n w : Nat) (signal : Bool) : Option Nat :=
  let t := fld w 0 14 + ((s.rod n).l_ (fld w 18 4)).toNat
  match (s.rod n).job, s.pln.plan with
  | some j, some pl =>
    match s.jobRec j with
    | some r => if decide (t < 16384) && (pl.usesOf r).any (fun u => u.tally == t && if signal then u.signal else u.wait) then some t else none
    | none => none
  | _, _ => none

/-- A WAIT at PC ends when its tally satisfies it, else it waits (R104). -/
def State.waitStep (s : State) (n w : Nat) : State :=
  match s.jobTally n w false with
  | none => s.rodFault n 0x0205
  | some t => if atOrLater 32 (s.tly.values.get t).toNat ((s.rod n).l_ (fld w 22 4)).toNat then s.retire n else s.hold n true

def execWait (rod : Fin 64) (s : State) : Out := s.instr rod.val 0x09 fun w s => s.waitStep rod.val w

/-- WAIT_SATISFIED: a waiting WAIT ends once its tally satisfies it. -/
def execWaitSatisfied (rod : Fin 64) (s : State) : Out :=
  if (s.rod rod.val).seq = .waiting then s.instr rod.val 0x09 fun w s => s.waitStep rod.val w else .next s

def execSignal (rod : Fin 64) (s : State) : Out :=
  s.instr rod.val 0x0A fun w s =>
    let n := rod.val
    match s.jobTally n w true with
    | none => s.rodFault n 0x0205
    | some t =>
      let r := s.rod n
      if !r.unitsIdle (fld w 14 4) then s.hold n
      else
        let v : Word := if fld w 22 4 = 0 then 1 else r.l_ (fld w 22 4)
        -- a tally operation of a locked pair is compared too: both copies make the same one, and a comparator may report it nevertheless (R82, R83)
        let u := r.upset
        if r.locked && (u.reports 0 false || u.reports 1 false) then s.mismatched n t (u.reports 0 false != u.reports 1 false)
        else
          let s := match r.job with
            | some j => s.updJob j fun q => { q with signalled := q.signalled.upd t (· + v) }
            | none => s
          (s.signalTally t v).retire n

def execFence (rod : Fin 64) (s : State) : Out :=
  s.instr rod.val 0x0B fun w s => if (s.rod rod.val).unitsIdle (fld w 0 4) then s.retire rod.val else s.hold rod.val

/-- ALIGN (R106): a target that FRAME_TICK had passed, or that no frame has, when it first executes raises SEQ_ALIGN_LATE. -/
def execAlign (rod : Fin 64) (s : State) : Out :=
  s.instr rod.val 0x0D fun w s =>
    let n := rod.val
    let t := ((s.rod n).l_ (fld w 22 4) + BitVec.ofNat 32 (fld w 0 22)).toNat
    let len := (s.pln.plan.map Plan.frameTicks).getD 0
    if (s.rod n).alignAt.isNone && (decide (len ≤ t) || decide (t < s.pln.frameTick)) then s.rodFault n 0x0206
    else if t ≤ s.pln.frameTick then s.retire n else (s.hold n true).updRod n fun r => { r with alignAt := some t }

/-- FRAME_TICK has come to `upto`: the ALIGNs that wait for it, or for a tick before it, end (R106). -/
def State.alignTo (s : State) (upto : Nat) : State :=
  ((List.range 64).filter fun n =>
    (s.rod n).seq == .waiting && match (s.rod n).alignAt with | some t => decide (t ≤ upto) | none => false).foldl (fun s n => s.retire n) s

/-! ### Special values and bases (R107, R108) -/

/-- The time value that stands admitted at the plan island: the time base six ticks earlier (R107). -/
def State.admittedTime (s : State) : BitVec 96 := time96 (s.tim.past.getD 5 0)

/-- The time-base read of RDS (R107, R243, R247): from the journal's record in replay. -/
def State.timeRead (s : State) (n d : Nat) : State :=
  let put := fun (s : State) (v : BitVec 96) =>
    s.retire n fun r => { r with latchSec := BitVec.ofNat 48 (v.toNat / 2 ^ 48), latchFrac := v.setWidth 16 }.setL d (BitVec.ofNat 32 (fld v.toNat 16 32))
  if s.jrn.r.running then
    match s.jrn.r.times.get n with
    | v :: vs => put { s with jrn.r.times := s.jrn.r.times.set n vs } v
    | [] => s.replayStop 0x0043
  else let v := s.admittedTime; put (s.journal 0x06 n 0 v.toNat) v

def execRds (rod : Fin 64) (s : State) : Out :=
  s.instr rod.val 0x0E fun w s =>
    let n := rod.val
    let d := fld w 22 4
    let r := s.rod n
    let q := s.jobRun (r.job.getD 0)
    let to_ := fun (v : Word) => s.retire n fun r => r.setL d v
    match fld w 0 4 with
    | 0 => to_ (BitVec.ofNat 32 n)
    | 1 => to_ (BitVec.ofNat 32 s.pln.frameTick)
    | 2 => to_ (s.pln.frameCount.setWidth 32)
    | 3 => to_ (q.gen.setWidth 32)
    | 4 => to_ (BitVec.ofNat 32 q.restarts)
    | 5 => to_ (BitVec.ofNat 32 (s.jobPart (r.job.getD 0)))
    | 6 => s.timeRead n d
    | 7 => to_ (r.latchSec.setWidth 32)
    | _ => to_ (BitVec.ofNat 32 (r.latchSec.toNat / 2 ^ 32 + r.latchFrac.toNat * 2 ^ 16))

def execSetb (rod : Fin 64) (s : State) : Out :=
  s.instr rod.val 0x0F fun w s =>
    let n := rod.val
    let v := (s.rod n).l_ (fld w 22 4)
    if !lineAligned v.toNat || !s.inJobRange n v.toNat 1 then s.rodFault n 0x0202
    else s.retire n fun r => if fld w 0 2 = 0 then { r with descBase := v } else { r with recBase := v }

/-! ### ISSUE (R97, R100, R193) -/

/-- The unit an operation goes to (R95): 0 T, 1 G, 2 M, 3 D. -/
def unitOf (op : Nat) : Nat :=
  match op with
  | 0x01 | 0x02 | 0x07 => 0
  | 0x08 => 2
  | 0x0B => 3
  | _ => 1

/-- What an ISSUE of a SCAN on rod `n` meets (R193): a fault code, a wait, or the claim of its stream. -/
def State.scanClaim (s : State) (n stream : Nat) : Option (Option Nat) × State :=
  let t := s.stream stream
  let j := (s.rod n).job.getD 0
  if !t.isOpen || t.part != s.jobPart j then (some (some 0x0306), s)
  else if t.resident && t.motion != 1 && t.motion != 2 then
    if t.rod != n then (some (some 0x0307), s) else (none, s.updStream stream fun t => { t with executing := true, job := some j })
  else if t.resident && t.rod != n then (some (some 0x0307), s)
  else (some none, s)

/-- ISSUE of the descriptor that the word at PC names. The wait for a place in the unit's queue (R100) comes before the cases of a SCAN (R193): the
spec does not order the two (DESIGN CHOICE, log entry 98). -/
def State.issueStep (s : State) (n w : Nat) : State :=
  let r := s.rod n
  let off := r.descBase.toNat + ((r.l_ (fld w 22 4)).toNat + fld w 0 14) * 128
  if !s.inJobRange n off 128 then s.rodFault n 0x0202
  else match s.spadRead n off 128 with
    | (none, s) => s
    | (some bs, s) =>
      let d := leNat bs
      let op := fld d 0 8
      let ticks := fld d 32 32
      if op = 0 || 0x0B < op || ticks = 0 || off % 128 != 0 then s.rodFault n 0x0209
      else
        let u := unitOf op
        if 4 ≤ ((s.rod n).units.get u).queue.length then s.hold n
        else
          let (c, s) := if op = 0x09 then s.scanClaim n (fld d 784 12) else (none, s)
          match c with
          | some (some f) => s.rodFault n f
          | some none => s.hold n
          | none =>
            let i : Issued := { op := op, ticks := ticks, off := off, la := (r.l_ (fld w 18 4)).toInt, lc := (r.l_ (fld w 14 4)).toInt }
            (s.count n 18 1).retire n fun r => { r with units := r.units.upd u fun q => { q with queue := q.queue ++ [i] } }

def execIssue (rod : Fin 64) (s : State) : Out := s.instr rod.val 0x01 fun w s => s.issueStep rod.val w

/-- SCAN_ISSUE_RESUME (R193): a waiting ISSUE applies the cases again. -/
def execScanIssueResume (rod : Fin 64) (s : State) : Out :=
  if (s.rod rod.val).seq = .waiting then s.instr rod.val 0x01 fun w s => s.issueStep rod.val w else .next s

/-! ### Tile end, halt, trap (R109 to R111) -/

def execTileEnd (rod : Fin 64) (s : State) : Out :=
  s.instr rod.val 0x0C fun w s =>
    let n := rod.val
    let r := s.rod n
    if !r.unitsIdle 15 then s.hold n
    else
      let s := (s.retire n).trace n 1 3 (fld w 0 16) r.tileTicks
      let asked := match r.job with | some j => (s.jobRun j).preemptReq | none => false
      s.updRod n fun r => { r with tileTicks := 0, seq := if asked then .saving else .ready, state := if asked then 3 else r.state }

/-- A run ends normally (R191, R212, R440): carries committed, the completion record, and the watchdog that finds it too early. -/
def State.jobEnd (s : State) (j : Nat) : State :=
  let q := s.jobRun j
  let rods := ((s.jobRec j).map JobRec.rods).getD []
  let s := ((s.commitCarries j).freeRods j).complete j 0
  let s := s.updJob j fun q => { q with state := .idle, preemptReq := false, signalled := {} }
  let took := s.tick - q.releaseTick
  let s := ((s.pln.plan.map Plan.watchdogs).getD []).foldl (fun s e =>
    if e.kind == 1 && e.target == j && decide (took < e.early) then s.wdgTrip e false took else s) s
  rods.foldl (fun s n => s.pairNext (n / 2)) s

def execHalt (rod : Fin 64) (s : State) : Out :=
  s.instr rod.val 0x10 fun w s =>
    let n := rod.val
    let r := s.rod n
    if !r.unitsIdle 15 then s.hold n
    else match r.job with
      | none => s
      | some j =>
        let s := (s.retire n).traceJob n j 1
        let s := (s.updRod n fun r => { r with seq := .halted }).endSegment n j 1
        let s := s.updJob j fun q => { q with exits := q.exits.set n (some (fld w 0 16)) }
        let all := (((s.jobRec j).map JobRec.rods).getD []).all fun k => ((s.jobRun j).exits.get k).isSome
        if all then s.jobEnd j else s

def execTrap (rod : Fin 64) (s : State) : Out :=
  s.instr rod.val 0x11 fun w s => (s.traceInstr rod.val).rodFault rod.val 0x0207 none (BitVec.ofNat 32 (fld w 0 16))

/-- TILE_OVERRUN (R109): the tile in hand has run its 9,600 ticks. -/
def execTileOverrun (rod : Fin 64) (s : State) : Out :=
  let r := s.rod rod.val
  if r.seq = .ready || r.seq = .waiting then .next (s.rodFault rod.val 0x0208).settle else .next s

/-- DESC_OVERRUN (R96): the descriptor that a unit runs needs more ticks than DESC_TICKS. -/
def execDescOverrun (rod : Fin 64) (unit : Fin 4) (s : State) : Out :=
  if ((s.rod rod.val).units.get unit.val).run.isSome then .next (s.rodFault rod.val 0x020A).settle else .next s

end Sys2Proof.Machine
end

