-- ==== Sys2Proof/Machine/Units.lean ====
section
/-! DEFINITION. A rod's units: setup, operand reads, accumulators, the output stage with its statistics, line writes (R39 to R63, R66 to R70,
R96, R97, R118 to R128, R443, R505). -/

namespace Sys2Proof.Machine

/-! ### Reading -/

/-- Raw bits of element offset `e` of an operand. -/
def State.raw (s : State) (o : Opnd) (e : Int) : Nat :=
  let a := (o.byte e).toNat
  if fmtBits o.fmt = 4 then (s.mem.get a).toNat / (if e % 2 = 0 then 1 else 16) % 16 else s.rdN a (fmtBytes o.fmt)

/-- Raw bits of walk element `i`; a padded one gives PAD_VALUE. -/
def State.rawAt (s : State) (o : Opnd) (i : Nat) : Nat := match o.pat.off i with | none => o.pat.pad | some e => s.raw o e

/-- The scale byte of element offset `e`. -/
def State.scaleAt (s : State) (o : Opnd) (e : Int) : Nat := (s.mem.get (o.scaleByte e).toNat).toNat

/-- The value of walk element `i` (R34, R36, R132). -/
def State.valAt (s : State) (o : Opnd) (i : Nat) : Val :=
  match o.pat.off i with
  | none => load o.fmt o.pat.pad
  | some e => if isBlock o.fmt then loadBlock o.fmt (s.raw o e) (s.scaleAt o e) else load o.fmt (s.raw o e)

/-- Lines that fetched elements of a walk take, neighbours in one line together (R73, R124); block scales take lines of their own. -/
def Opnd.lines (o : Opnd) (is : List Nat) : Nat :=
  let es := is.filterMap o.pat.off
  (runsBy (fun e => o.byte e / 64) es).length + if isBlock o.fmt then (runsBy (fun e => o.scaleByte e / 64) es).length else 0

/-- A unit of rod `n` reads ranges of addresses (R74, R75, R425): corrections are counted once for each range; false when an uncorrectable
word, or a bank that another port also takes, stops the job (R112). -/
def State.touch (s : State) (n : Nat) (ts : List (Nat × Nat)) : Bool × State :=
  if ts.any fun t => s.jammed t.1 t.2 then (false, s.bankClash n)
  else if s.errs.cells.isEmpty then (true, s)
  else if ts.any fun t => inSpads t.1 t.2 && s.errBoth t.1 t.2 == 2 then (false, s.rodFault n 0x0103 (some 0))
  else match ts.find? fun t => s.errIn t.1 t.2 == 2 with
    | some t => (false, (s.noteUe t.1).raise { code := 0x1001, job := (s.rod n).job, rod := some n })
    | none => (true, ts.foldl (fun s t => s.noteBoth t.1 t.2) s)

/-- The ranges that an operand's walk fetches. -/
def Opnd.fetches (o : Opnd) : List (Nat × Nat) := o.touches.map fun t => (t.1.toNat, t.2)

/-- Lines that `[a, a + n)` meets. -/
def linesOf (a n : Nat) : Nat := if n = 0 then 0 else (a + n - 1) / 64 - a / 64 + 1

/-! ### Writing (R32, R73, R81, R443) -/

/-- A write of one element: whole bytes, a low or a high nibble, or a low nibble with the unused high one as zero (R32). -/
structure ElW where
  addr : Nat
  kind : Nat
  bits : Nat
  bytes : Nat
deriving DecidableEq, Repr

def State.putEl (s : State) (w : ElW) : State :=
  let old := (s.mem.get w.addr).toNat
  s.wrBoth w.addr (match w.kind with
    | 0 => leBytes w.bytes w.bits
    | 1 => leBytes 1 (old / 16 * 16 + w.bits % 16)
    | 2 => leBytes 1 (old % 16 + w.bits % 16 * 16)
    | _ => leBytes 1 (w.bits % 16))

/-- The golden entry that a job's run signs (R221, R443). -/
def State.goldenOf (s : State) (j : Nat) : Option Nat :=
  match s.pln.plan, s.jobRec j with
  | some pl, some r => if r.golden then (pl.wins[r.releaseWin]?).map WinEnt.goldenIdx else none
  | _, _ => none

/-- A line write of job `j` is folded into its golden signature: the line's address and its 64 bytes, unwritten words as zero (R443). -/
def State.foldLine (s : State) (j line : Nat) (words : List Nat) : State :=
  match s.goldenOf j with
  | none => s
  | some g =>
    let body := (List.range 16).flatMap fun w => if words.contains w then s.rd (64 * line + 4 * w) 4 else [0, 0, 0, 0]
    let c := (s.saf.goldens.get g).crcInv.toNat ^^^ (2 ^ 64 - 1)
    { s with saf.goldens := s.saf.goldens.upd g fun q => { q with crcInv := BitVec.ofNat 64 (crc64 c (leBytes 8 (64 * line) ++ body) ^^^ (2 ^ 64 - 1)) } }

/-- Rod `n` writes elements of one line: one bank slot, or two when a word is written in part (R73); none, when another port also takes it (R74). -/
def State.putRun (s : State) (n : Nat) (ws : List ElW) : State :=
  match ws with
  | [] => s
  | w0 :: _ =>
    let line := w0.addr / 64
    if s.jammed (64 * line) 64 then s.bankClash n else
    let s := ws.foldl State.putEl s
    let whole := fun a => (ws.any fun w => (w.kind == 0 || w.kind == 3) && decide (w.addr ≤ a) && decide (a < w.addr + w.bytes)) ||
      ((ws.any fun w => w.kind == 1 && w.addr == a) && ws.any fun w => w.kind == 2 && w.addr == a)
    let words := (List.range 16).filter fun k => ws.any fun w => decide (w.addr < 64 * line + 4 * k + 4) && decide (64 * line + 4 * k < w.addr + w.bytes)
    let part := words.any fun k => !((List.range 4).all fun b => whole (64 * line + 4 * k + b))
    let s := s.count n 18 (if inSpads w0.addr 1 then (if part then 2 else 1) else 0)
    match (s.rod n).job with
    | some j => s.foldLine j line words
    | none => s

/-- Element writes in order, neighbours in one line together. -/
def State.putAll (s : State) (n : Nat) (ws : List ElW) : State := (runsBy (fun w => w.addr / 64) ws).foldl (fun s r => s.putRun n r) s

/-- Bytes written by a unit. -/
def State.putBytes (s : State) (n a : Nat) (bs : List Byte) : State :=
  s.putAll n (bs.zipIdx.map fun b => { addr := a + b.2, kind := 0, bits := b.1.toNat, bytes := 1 })

/-- The write of bits to element offset `e` (R32, R122): the last element of an odd INT4 row, along the stored axis whose elements are neighbours,
takes its unused nibble with it. -/
def Opnd.write (o : Opnd) (i : Nat) (e : Int) (bits : Nat) : ElW :=
  let a := (o.byte e).toNat
  if fmtBits o.fmt = 4 then
    let x := ((List.range 6).find? fun k => o.pat.stride.getD k 0 == 1 && o.pat.size.getD k 1 != 1).getD o.pat.axis0
    let sz := o.pat.size.getD x 1
    let rows := (List.range 6).all fun k => k == x || o.pat.size.getD k 1 == 1 || o.pat.stride.getD k 0 % 2 == 0
    let last := o.fmt == 0 && sz % 2 == 1 && o.pat.stride.getD x 0 == 1 && rows && (o.pat.coords i).getD x 0 == (sz : Int) - 1
    { addr := a, kind := if e % 2 = 0 then (if last then 3 else 1) else 2, bits := bits, bytes := 1 }
  else { addr := a, kind := 0, bits := bits, bytes := fmtBytes o.fmt }

/-! ### Accumulators (R40 to R47, R66, R70) -/

/-- Codes of a special state: 0 none, 1 and 2 infinities, 3 NaN (R46, Table 2 of chapter 03). -/
def joinSpecial (a b : Nat) : Nat := if a = 3 || b = 3 then 3 else if a = 0 then b else if b = 0 || a = b then a else 3

/-- A contribution enters an accumulator (R40, R41, R42, R46). -/
def Acc.addVal (a : Acc) (p : Val) : Acc :=
  match p with
  | .nan => { a with special := 3 }
  | .inf n => { a with special := joinSpecial a.special (if n then 2 else 1) }
  | .fin q _ =>
    if a.path = 0 then { a with val := a.val + q.floor }
    else if a.path = 1 then { a with val := a.val + (q * pow2 32).floor }
    else if pow2 (a.anchor + 1) ≤ |q| then { a with above := a.above + 1 }
    else
      let y := q * pow2 (72 - a.anchor)
      let c := truncZ y
      { a with val := a.val + c, below := a.below + if (c : ℚ) = y then 0 else 1 }

/-- The weight of an accumulator's least significant bit. -/
def Acc.unit (a : Acc) : ℚ := if a.path = 0 then 1 else if a.path = 1 then pow2 (-32) else pow2 (a.anchor - 72)

/-- The accumulator holds its sum: 40 bits on the integer path, 96 on the others. -/
def Acc.fits (a : Acc) : Bool := decide (a.val.natAbs < 2 ^ (if a.path = 0 then 39 else 95))

/-- The accumulated sum S (R46, R47). -/
def Acc.sum (a : Acc) (policy : Bool) : Val :=
  if a.above ≠ 0 && !policy then .nan
  else match a.special with
    | 0 => .ofRat ((a.val : ℚ) * a.unit)
    | 1 => .inf false
    | 2 => .inf true
    | _ => .nan

/-- A value of which the manual says nothing (log entry 1). -/
def State.drawVal (s : State) : Val × State := let (x, s) := s.draw 64; (fp64.decode x.toNat, s)

/-- The sum of a drained accumulator; one that another path left holding (R66), or that its register cannot hold, is a free value. -/
def State.drain (s : State) (a : Acc) (policy : Bool) : Val × State := if a.path = 4 || !a.fits then s.drawVal else (a.sum policy, s)

/-- One contribution to a reduction: its exact value and the exponent it offers an anchor pass (R44). -/
structure Contrib where
  p : Val
  e : Option Int
deriving DecidableEq, Repr

/-- The product of two scalar elements. -/
def Contrib.ofPair (x y : Val) : Contrib :=
  { p := x.mul y, e := if x.isFin && y.isFin && x.rat != 0 && y.rat != 0 then some (floorLog2 x.rat + floorLog2 y.rat + 1) else none }

/-- The anchor of an anchor pass (R44). -/
def passAnchor (cs : List Contrib) : Int :=
  match cs.filterMap Contrib.e with
  | [] => 0
  | e :: es => es.foldl max e

/-- A reduction added into an accumulator. -/
def Acc.addAll (a : Acc) (cs : List Contrib) : Acc := cs.foldl (fun a c => a.addVal c.p) a

/-- An empty accumulator of a path for these contributions (R43, R66). -/
def Desc.emptyAcc (d : Desc) (path : Nat) (cs : List Contrib) : Acc :=
  { path := path, anchor := if path = 2 then (if d.anchorMode = 1 then passAnchor cs else d.anchor) else 0 }

/-! ### The output stage (R49 to R63) -/

/-- A finite FP32 from an array, else NaN (R50). -/
def State.arrF (s : State) (a ch : Nat) : Val := let v := fpVal (s.rdN (a + 4 * ch) 4); if v.isFin then v else .nan

/-- The exact output x of an element (R49, R51): `int` selects the integer path's expression, `single` the conversion of one element. -/
def State.outX (s : State) (d : Desc) (int single : Bool) (ch : Nat) (v : Val) : Val :=
  let sc := match d.scaleMode with | 1 => fpVal d.scale | 2 => s.arrF d.scaleAddr ch | _ => .ofRat 1
  let x :=
    if int then (v.add (.ofRat (if d.biasMode = 1 then ((sgn 32 (s.rdN (d.biasAddr + 4 * ch) 4) : Int) : ℚ) else 0))).mul sc
    else if d.biasMode = 2 then (v.mul sc).add (s.arrF d.biasAddr ch) else v.mul sc
  match x with
  | .fin q _ => if q = 0 then .fin 0 (single && d.biasMode == 0 && v.rat == 0 && (v.sign != sc.sign)) else .ofRat q
  | x => x

/-- The elements of a walk as the output stage stores them, in walk order, with the scale bytes of block formats (R51 to R55): a block is converted
once, whenever the walk visits its elements. -/
def storeAll (o : Opnd) (sat : Bool) (zp : Int) (xs : List Val) : List Stored × List ElW :=
  let ix := xs.zipIdx
  if isBlock o.fmt then
    let key := fun (t : Val × Nat) => (o.pat.off t.2).map (· / 32)
    let rs := (ix.map key).eraseDups.map fun k => let r := ix.filter fun t => key t == k; (r, storeBlock o.fmt (r.map (·.1)))
    (((rs.flatMap fun r => r.1.zip r.2.2).mergeSort fun a b => a.1.2 ≤ b.1.2).map (·.2), rs.flatMap fun r =>
      ((r.1.zip r.2.2).filterMap fun t => (o.pat.off t.1.2).map fun e => o.write t.1.2 e t.2.bits) ++
        match r.1.head?.bind fun t => o.pat.off t.2 with
        | some e => [{ addr := (o.scaleByte e).toNat, kind := 0, bits := r.2.1, bytes := 1 }]
        | none => [])
  else
    let st := xs.map (store o.fmt sat zp)
    (st, (st.zipIdx.filterMap fun t => (o.pat.off t.2).map fun e => o.write t.2 e t.1.bits))

/-- Another operation that has updated the record at `a` still runs, so no tally orders the two (R61). -/
def State.statRace (s : State) (n unit a : Nat) : Bool :=
  s.rods.cells.any fun r => r.2.units.cells.any fun u => (r.1 != n || u.1 != unit) && u.2.stats.contains a

/-- A statistics record is written at the end of the operation (R60); where no tally orders two updates, its contents are free (R61). -/
def State.writeStat (s0 : State) (n unit k : Nat) (d : Desc) (t : Stat) : State :=
  let a := d.statAddr + 32 * k
  let s := s0.updRod n fun r => { r with units := r.units.upd unit fun q => { q with stats := q.stats ++ [a] } }
  if s0.statRace n unit a then let (x, s) := s.draw 256; s.putBytes n a (leBytes 32 x.toNat)
  else if d.statAcc then
    let s := s.count n 18 1
    let w := s.rdN a 32
    if sgn 8 (fld w 232 8) != d.statExp then s.updRod n fun r => { r with units := r.units.upd unit fun q => { q with atEnd := q.atEnd ++ [0x0102] } }
    else s.putBytes n a (((Stat.ofNat w).merge t).bytes d.statExp (bit w 224))
  else s.putBytes n a (t.bytes d.statExp false)

/-- The output stage writes a walk's elements with their statistics, and counts those saturated (R51 to R60, R505). `before` says which of
them a fused chain's OUT_FMT saturated: such an element counts once, whichever of its two stored formats saturated it (DESIGN CHOICE, log entry 85). -/
def State.emit (s : State) (n unit : Nat) (d : Desc) (o : Opnd) (zp : Int) (stats : Bool) (xs : List Val) (before : List Bool := []) : State :=
  let (st, ws) := storeAll o d.sat zp xs
  let s := (s.putAll n ws).count n 15 (st.zipIdx.filter fun t => t.1.sat || before.getD t.2 false).length
  if !stats || d.statMode = 0 then s
  else
    let recs := if d.statMode = 2 then o.pat.ext.getD d.statAxis 1 else 1
    let key := fun i => if d.statMode = 2 then (digits o.pat.ext i).getD d.statAxis 0 else 0
    let all := (xs.zip st).zipIdx
    (List.range recs).foldl (fun s k =>
      s.writeStat n unit k d ((all.filter fun t => key t.2 == k).foldl (fun q t => q.add d.statExp t.1.1 t.1.2) {})) s

/-! ### Gate chains on the lanes (R126, R128) -/

/-- A chain runs on one element in a lane: G0 and, when there is one, G1 are loaded; the result is the value of OUT_REG. A register that
nothing has given a kind is read as one of the two, as a free value says. -/
def State.chain (s : State) (n lane w : Nat) (g0 : Nat × Bool) (g1 : Option (Nat × Bool)) : Val × State :=
  let r := s.rod n
  let l0 : Lane := { regs := (List.range 16).map fun i => (r.lanes.get (16 * lane + i)).toNat, kinds := List.replicate 16 none }
  let l := l0.put 0 g0.1 g0.2
  let l := match g1 with | some g => l.put 1 g.1 g.2 | none => l
  let l := (chainStages w).foldl (fun l t => t.run l) l
  let s := s.updRod n fun r => { r with lanes := l.regs.zipIdx.foldl (fun t x => t.set (16 * lane + x.2) (BitVec.ofNat 32 x.1)) r.lanes }
  let s := s.count n 7 1
  let out := l.regs.getD (chainOut w) 0
  match l.kinds.getD (chainOut w) none with
  | some int => (laneVal out int, s)
  | none => let (x, s) := s.draw 1; (laneVal out (x == 1), s)

/-! ### Setup and end of a descriptor (R96, R97, R100) -/

/-- What a rod's job gives the checks of its descriptors. -/
def State.descEnv (s : State) (n : Nat) : DescEnv :=
  let r := s.rod n
  let j := r.job.getD 0
  let p := s.jobPart j
  let at_ := fun i => r.recBase.toNat + 128 * i
  let rd := fun i => if s.inJobRange n (at_ i) 128 then some (s.rdN (spadAddr n (at_ i)) 128) else none
  let pool := s.pln.plan.bind fun pl => pl.pools.find? fun k => k.part == p
  { rec_ := rd
    chain := fun i => if i < r.recCount then rd i else none
    engine := fun g => ((s.pln.plan.map Plan.engSlots).getD []).any fun t =>
      t.which == g && t.slots.any fun x => fld x 0 4 == p && bit x 4 && bit x 5 && fld x 6 10 == j
    seq := fun q => pool.bind fun k => if decide (k.seqFirst ≤ q) && decide (q < k.seqFirst + k.seqCount) then some (k.planeRow, k.planes) else none
    spad := fun o l => s.inJobRange n o l
    stream := fun q => ((s.carryDecl p).map fun k => k.has q).getD false }

/-- A byte that a walk of rod `n` may touch: its own scratchpad (R76), or with DMA_MOVE any memory of the partition (R119). -/
def State.mayTouch (s : State) (n : Nat) (dma : Bool) (a : Int) : Bool :=
  let p := s.jobPart ((s.rod n).job.getD 0)
  decide (0 ≤ a) && if dma then s.partAll p a.toNat 1 else match s.pln.plan with | some pl => pl.inSpad p (some n) a.toNat 1 | none => false

/-- A range that an array of the arithmetic fields may lie in (R63). -/
def State.mayHold (s : State) (n a len : Nat) : Bool :=
  let p := s.jobPart ((s.rod n).job.getD 0)
  s.partMem p a len || match s.pln.plan with | some pl => pl.inSpad p (some n) a len | none => false

/-- The lowest and the highest byte of a list of ranges may be touched (R123). -/
def State.spanOk (s : State) (n : Nat) (dma : Bool) (ts : List (Int × Nat)) : Bool :=
  match spanOf ts with
  | none => true
  | some (lo, hi) => s.mayTouch n dma lo && s.mayTouch n dma hi

/-- The device address of job port lines (R119): block and first line, and how many ports of 64 bytes. -/
def jobPorts : List (Nat × Nat) :=
  [(0x020000801000, 16), (0x020000901000, 32), (0x020000A01000, 128), (0x020000E01000, 16)]

/-- The port line that a DMA_MOVE's C walk covers whole: which block, and which port. -/
def portLine (o : Opnd) : Option (Nat × Nat) :=
  let ts := o.fetches
  match spanOf o.touches with
  | some (lo, hi) =>
    if lo % 64 = 0 && hi = lo + 63 && (List.range 64).all (fun b => ts.any fun t => decide (t.1 ≤ lo.toNat + b) && decide (lo.toNat + b < t.1 + t.2)) then
      (jobPorts.zipIdx.find? fun q => decide (q.1.1 ≤ lo.toNat) && decide (lo.toNat < q.1.1 + 64 * q.1.2)).map fun q => (q.2, (lo.toNat - q.1.1) / 64)
    else none
  | none => none

/-- A job port that a DMA_MOVE of partition `p` may write (R119): the keeper's and the mailboxes belong to a partition of the plan. -/
def Plan.portOk (pl : Plan) (p : Nat) (o : Opnd) : Bool :=
  match portLine o with
  | some (0, k) => k == p
  | some (2, k) => ((pl.cleOwners[k]?).map fun w => w.owned && w.part == p).getD false
  | some _ => true
  | none => false

/-- The issued offsets applied to slots A and C (R100); none when a block operand's offset breaks its alignment. -/
def Desc.shifted (d : Desc) (i : Issued) : Option Desc :=
  let q : Nat := if d.aFmt = 10 then 16 else if d.aFmt = 11 then 32 else 1
  let cf := if d.op = 11 then d.aFmt else if d.fuse then d.chainFmt else d.outFmt
  let r : Nat := if cf = 10 then 16 else if cf = 11 then 32 else 1
  let mv := fun (x : OpSlot) (f : Nat) (by_ : Int) (u : Nat) =>
    { x with base := wrap 48 ((x.base : Int) + by_), scale := if isBlock f then wrap 48 ((x.scale : Int) + by_ / u) else x.scale }
  if (isBlock d.aFmt && i.la % q != 0) || (isBlock cf && i.lc % r != 0) then none
  else some { d with op := i.op, ticks := i.ticks, a := mv d.a d.aFmt i.la q, c := mv d.c cf i.lc r }

/-- The records that a descriptor reads at setup. -/
def Desc.recIdx (d : Desc) : List Nat :=
  (d.walks.map fun w => w.1.rec_) ++ (if d.op = 7 then [d.b.rec_] else []) ++ (if d.op = 8 then [d.a.rec_] else []) ++
    if d.op = 3 || d.fuse then [d.chain] else []

/-- Some walk of a descriptor that rod `n` sets up leaves what it may touch (R119, R123): slot C of a DMA_MOVE, its second walk, may be a job port
of the partition. -/
def State.outOfRange (s : State) (n : Nat) (d : Desc) (e : DescEnv) : Bool :=
  let p := s.jobPart ((s.rod n).job.getD 0)
  (d.opnds e).zipIdx.any fun o =>
    !(s.spanOk n (d.op == 11) o.1.2.touches || (d.op == 11 && o.2 == 1 && (s.pln.plan.map fun pl => pl.portOk p o.1.2).getD false))

/-- Unit `u` of rod `n` starts the descriptor at the front of its queue if that is an `op`: the setup reads and checks it (R97), and `k`
carries it out. The descriptor then runs until DESC_END. -/
def State.start (s : State) (n op : Nat) (k : Desc → DescEnv → State → State) : Out :=
  let u := unitOf op
  let r := s.rod n
  let q := r.units.get u
  match q.queue with
  | [] => .next s
  | i :: rest =>
    if i.op ≠ op || q.run.isSome || r.job.isNone || r.follower n then .next s
    else
      let s := s.updRod n fun r => { r with units := r.units.upd u fun q => { q with run := some i, queue := rest } }
      match s.spadRead n i.off 128 with
      | (none, s) => .next s.settle
      | (some bs, s) =>
        match { Desc.ofNat (leNat bs) with op := i.op, ticks := i.ticks }.shifted i with
        | none => .next (s.rodFault n 0x0209).settle
        | some d =>
          let e := s.descEnv n
          let arr := d.arrays (d.channels e) (d.statRecs e)
          let recs := d.recIdx.map fun x => (spadAddr n (r.recBase.toNat + 128 * x), 128)
          match s.touch n recs with
          | (false, s) => .next s.settle
          | (true, s) =>
            let s := s.count n 18 (2 + 2 * recs.length)
            if !(d.fails e).isEmpty || arr.any (fun a => a.1 % a.2.2 != 0 || !s.mayHold n a.1 a.2.1) then .next (s.rodFault n 0x0209).settle
            else if d.outOfBounds e || s.outOfRange n d e then
              -- each check is a fault of its own (R123, R433)
              let s' := if d.outOfBounds e then s.rodFault n 0x020B else s
              .next (if s.outOfRange n d e then s'.rodFault n 0x020C else s').settle
            else
              let s := (s.trace n 1 2 (d.id + u * 2 ^ 16) d.ticks).updRod n fun r => { r with units := r.units.upd u fun q => { q with id := d.id } }
              let chs := arr.filter fun a => a.2.2 == 64
              match s.touch n (chs.map fun a => (a.1, a.2.1)) with
              | (false, s) => .next s.settle
              | (true, s) => .next ((s.count n 18 ((chs.map fun a => if inSpads a.1 a.2.1 then linesOf a.1 a.2.1 else 0).foldl (· + ·) 0)).lockstep n (k d e)).settle

/-- The operand of a slot, in a descriptor that has passed its checks. -/
def DescEnv.get (e : DescEnv) (x : OpSlot) (fmt : Nat) : Opnd :=
  (e.opnd x fmt).getD { pat := { ext := [], mul := [], axis := [], pad := 0, size := [], stride := [], lo := [], hi := [] }, base := 0, scale := 0, fmt := fmt }

/-- The reads of some operands, each `k` times; false when the job has faulted. -/
def State.fetchAll (s : State) (n : Nat) (os : List (Opnd × Nat)) : Bool × State :=
  match s.touch n (os.flatMap fun o => o.1.fetches) with
  | (false, s) => (false, s)
  | (true, s) => (true, s.count n 18 ((os.map fun o => o.1.lines (List.range o.1.pat.count) * o.2).foldl (· + ·) 0))

/-- The reads of some elements of an operand, in order; false when the job has faulted. -/
def State.fetchSome (s : State) (n : Nat) (o : Opnd) (is : List Nat) : Bool × State :=
  match s.touch n ((o.touchesAt is).map fun t => (t.1.toNat, t.2)) with
  | (false, s) => (false, s)
  | (true, s) => (true, s.count n 18 (o.lines is))

/-- A fault that a unit raises at the end of its operation (R47, R60, R70). -/
def State.atEnd (s : State) (n unit code : Nat) : State :=
  s.updRod n fun r => { r with units := r.units.upd unit fun q => { q with atEnd := q.atEnd ++ [code] } }

/-- DESC_END (R96): the unit completes its descriptor, releases its pins and raises what the operation left to its end. -/
def execDescEnd (rod : Fin 64) (unit : Fin 4) (s : State) : Out :=
  let n := rod.val
  let u := unit.val
  let q := (s.rod n).units.get u
  match q.run with
  | none => .next s
  | some i =>
    let s := (s.trace n 1 2 (q.id + u * 2 ^ 16 + 2 ^ 18) i.ticks).count n (9 + u) 1
    let s := q.pins.foldl (fun s g => s.unpin ((s.rod n).part.toNat) g) s
    let s := s.updRod n fun r => { r with units := r.units.upd u fun q => { q with run := none, pins := [], atEnd := [], stats := [] } }
    .next (q.atEnd.eraseDups.foldl (fun s c => if c = 0x0107 then s.rodFault n c (some 4) else s.rodFault n c) s).settle

end Sys2Proof.Machine
end

