-- ==== Sys2Proof/Machine/Matrix.lean ====
section
/-! DEFINITION. MATMUL, CONV, ELEMWISE, CONVERT and POOL (R39 to R60, R66, R118, R125 to R130, R134 to R137). -/

namespace Sys2Proof.Machine

/-! ### Matrix products -/

/-- The counter of a pair's multiply-accumulates (R505). -/
def macIndex (a b : Nat) : Nat :=
  if a = 0 && b = 0 then 0 else if isInt a then 1 else if a = 10 && b = 10 then 2 else if isBlock a then 3
  else if a = 5 || a = 6 then 4 else if a = 9 then 6 else 5

/-- The bound exponent m of a block pair (R44). -/
def blockBound (a b : Nat) : Int := if a = 11 && b = 11 then 19 else if a = 10 && b = 10 then 11 else 15

/-- The contribution of one block pair: the exact dot product with both multipliers (R36, R44). -/
def State.blockContrib (s : State) (oa ob : Opnd) (pairs : List (Nat × Nat)) : Contrib :=
  match pairs with
  | [] => { p := .ofRat 0, e := none }
  | (ia, ib) :: _ =>
    let ea := s.scaleAt oa ((oa.pat.off ia).getD 0)
    let eb := s.scaleAt ob ((ob.pat.off ib).getD 0)
    if ea = 255 || eb = 255 then { p := .nan, e := none }
    else
      let x : Int := (ea : Int) + eb - 254
      let dot := pairs.foldl (fun (t : Int) q => t + sgn (fmtBits oa.fmt) (s.rawAt oa q.1) * sgn (fmtBits ob.fmt) (s.rawAt ob q.2)) 0
      { p := .ofRat ((dot : ℚ) * pow2 x), e := some (x + blockBound oa.fmt ob.fmt) }

/-- The contributions of an output element over the reduction axis: A's elements from walk index `ia`, B's from `ib` (R118). -/
def State.contribs (s : State) (oa ob : Opnd) (k ia ib : Nat) : List Contrib :=
  let ks := (List.range k).map fun i => (ia + i, ib + i)
  if isBlock oa.fmt then (runsBy (fun q => blockPair oa.pat ob.pat q.1 q.2) ks).map (s.blockContrib oa ob)
  else ks.map fun q => Contrib.ofPair (s.valAt oa q.1) (s.valAt ob q.2)

/-- The accumulator an element starts from (R66): empty, or with ACC_ADD the holding one; one that another path left gives no defined result. -/
def Desc.startAcc (d : Desc) (path : Nat) (held : Acc) (cs : List Contrib) : Acc :=
  if d.add && held.holding then (if held.path = path || held.path = 3 then { held with path := path } else { held with path := 4 })
  else d.emptyAcc path cs

/-- What a matrix product has done so far: its state, the sums drained, newest first, and whether an above-window count asks for ARITH_WINDOW. -/
structure MacRun where
  s : State
  sums : List Val := []
  due : Bool := false

/-- One output element is accumulated, and kept or drained (R47, R66). -/
def MacRun.element (x : MacRun) (n : Nat) (d : Desc) (path : Nat) (sh : Shape) (oa ob : Opnd) (t : Nat) : MacRun :=
  let c := t % sh.n
  let r := t / sh.n % sh.m
  let j := t / (sh.n * sh.m)
  let s := x.s
  let cs := s.contribs oa ob sh.k (sh.k * (r + sh.m * j)) (sh.k * (c + sh.n * j))
  let s := s.count n (macIndex d.aFmt d.bFmt) (if isBlock d.aFmt then 32 * cs.length else sh.k)
  let key := 64 * r + c
  let a := (d.startAcc path ((s.rod n).acc.get key) cs).addAll cs
  if d.keep then { x with s := s.updRod n fun q => { q with acc := q.acc.set key { a with holding := true } } }
  else
    let s := (s.count n 13 a.above).count n 14 a.below
    let (v, s) := s.drain a d.winPolicy
    { s := s, sums := v :: x.sums, due := x.due || (d.winPolicy && a.above != 0) }

/-- The accumulators that an output used are empty once drained (R66). -/
def State.clearAcc (s : State) (n : Nat) (sh : Shape) : State :=
  s.updRod n fun r => { r with acc := ⟨r.acc.cells.filter fun c => !(decide (c.1 / 64 < sh.m) && decide (c.1 % 64 < sh.n))⟩ }

/-- A fused chain behind the output stage: element `t` of C's walk in lane t mod 64 (R126, R128), with whether OUT_FMT saturated it (R52, R53). -/
def State.fusedElem (s : State) (n : Nat) (d : Desc) (w : Nat) (aux : Option Opnd) (t : Nat) (x : Val) : (Val × Bool) × State :=
  let g0 := store d.outFmt d.sat d.zp x
  let (v, s) := s.chain n (t % 64) w (g0.bits, d.outFmt == 4) (aux.map fun o => laneIn d.chainFmt (s.valAt o t))
  ((v, g0.sat), s)

/-- A matrix product or convolution (R118, R129, R130). -/
def State.matmul (s : State) (n : Nat) (d : Desc) (e : DescEnv) : State :=
  let oa := e.get d.a d.aFmt
  let ob := e.get d.b d.bFmt
  match d.shape oa.pat ob.pat, pairPath d.aFmt d.bFmt with
  | some sh, some path =>
    let aux := if d.fuse && d.opt then some (e.get d.d d.chainFmt) else none
    match s.fetchAll n ([(oa, max 1 (cdiv sh.n 64)), (ob, 1)] ++ aux.toList.map fun o => (o, 1)) with
    | (false, s) => s
    | (true, s) =>
      let run : MacRun := (List.range (sh.n * sh.m * sh.g)).foldl (fun (x : MacRun) t => x.element n d path sh oa ob t) { s := s }
      if d.keep then run.s
      else
        let s := run.s.clearAcc n sh
        let s := if run.due then s.atEnd n 0 0x0101 else s
        let xs := run.sums.reverse.zipIdx.map fun q => s.outX d (path == 0) false (q.2 / (sh.n * sh.m) * sh.n + q.2 % sh.n) q.1
        if d.fuse then
          let w := (e.chain d.chain).getD 0
          let (rs, s) := xs.zipIdx.foldl (fun (a : List (Val × Bool) × State) q => let (v, s) := a.2.fusedElem n d w aux q.2 q.1; (v :: a.1, s)) ([], s)
          s.emit n 0 d (e.get d.c d.chainFmt) 0 false (rs.reverse.map (·.1)) (rs.reverse.map (·.2))
        else s.emit n 0 d (e.get d.c d.outFmt) d.zp true xs
  | _, _ => s

def execMatmul (rod : Fin 64) (s : State) : Out := s.start rod.val 0x01 fun d e s => s.matmul rod.val d e

/-- CONV: with one group a MATMUL (R129), else one product for each group (R130). -/
def execConv (rod : Fin 64) (s : State) : Out := s.start rod.val 0x02 fun d e s => s.matmul rod.val d e

/-! ### ELEMWISE and CONVERT -/

/-- The index of C's logical dimension 0 (R50). -/
def Opnd.channel (o : Opnd) (i : Nat) : Nat := (digits o.pat.ext i).headD 0

/-- ELEMWISE (R126, R128): each element through the chain in lane i mod 64, then the output stage. -/
def State.elemwise (s : State) (n : Nat) (d : Desc) (e : DescEnv) : State :=
  let oa := e.get d.a d.aFmt
  let ob := if d.opt then some (e.get d.b d.bFmt) else none
  let oc := e.get d.c d.outFmt
  let w := (e.chain d.chain).getD 0
  match s.fetchAll n ((oa, 1) :: ob.toList.map fun o => (o, 1)) with
  | (false, s) => s
  | (true, s) =>
    let (rs, s) := (List.range oa.pat.count).foldl (fun (a : List Val × State) i =>
      let s := a.2
      let (v, s) := s.chain n (i % 64) w (laneIn d.aFmt (s.valAt oa i)) (ob.map fun o => laneIn d.bFmt (s.valAt o i))
      (s.outX d false true (oc.channel i) v :: a.1, s)) ([], s)
    s.emit n 1 d oc d.zp true rs.reverse

def execElemwise (rod : Fin 64) (s : State) : Out := s.start rod.val 0x03 fun d e s => s.elemwise rod.val d e

/-- CONVERT (R56). -/
def State.convert (s : State) (n : Nat) (d : Desc) (e : DescEnv) : State :=
  let oa := e.get d.a d.aFmt
  let oc := e.get d.c d.outFmt
  match s.fetchAll n [(oa, 1)] with
  | (false, s) => s
  | (true, s) => s.emit n 1 d oc d.zp true ((List.range oa.pat.count).map fun i => s.outX d (isInt d.aFmt) true (oc.channel i) (s.valAt oa i))

def execConvert (rod : Fin 64) (s : State) : Out := s.start rod.val 0x0A fun d e s => s.convert rod.val d e

/-! ### POOL -/

/-- The full index vector from the digits of the reduced and of the kept dimensions. -/
def weave : List Bool → List Nat → List Nat → List Nat
  | [], _, _ => []
  | true :: ms, r :: rs, us => r :: weave ms rs us
  | false :: ms, rs, u :: us => u :: weave ms rs us
  | _ :: ms, rs, us => 0 :: weave ms rs us

/-- The walk element of an index vector. -/
def undigits : List Nat → List Nat → Nat
  | e :: es, x :: xs => x + e * undigits es xs
  | _, _ => 0

/-- Walk elements of A with index `o` over the dimensions a mask leaves, over all of those it selects, lowest fastest. -/
def Pat.window (p : Pat) (mask o : Nat) : List Nat :=
  let red := maskDims mask true p
  let keep := maskDims mask false p
  let ex := fun (ds : List Nat) => ds.map fun i => p.ext.getD i 0
  let ms := (List.range p.ext.length).map (bit mask)
  (List.range (p.over_ red)).map fun w => undigits p.ext (weave ms (digits (ex red) w) (digits (ex keep) o))

/-- The value of a window and its accumulator (R135, R136). -/
def State.poolValue (s : State) (n : Nat) (d : Desc) (oa : Opnd) (ix : List Nat) : Val × State × Bool :=
  if d.poolMode = 0 then
    match ix with
    | [] => (.ofRat 0, s, false)
    | i :: is => (is.foldl (fun v k => v.max (s.valAt oa k)) (s.valAt oa i), s, false)
  else
    let ix := if d.poolMode = 1 then ix else ix.filter fun i => (oa.pat.off i).isSome
    let cs := ix.map fun i => Contrib.ofPair (s.valAt oa i) (.ofRat 1)
    let a := (d.emptyAcc (fmtPath d.aFmt) cs).addAll cs
    let s := (s.count n 13 a.above).count n 14 a.below
    let (v, s) := s.drain a d.winPolicy
    (if ix.isEmpty then .ofRat 0 else v.mul (.ofRat (1 / (ix.length : ℚ))), s, d.winPolicy && a.above != 0)

/-- POOL (R134 to R137). -/
def State.poolUnit (s : State) (n : Nat) (d : Desc) (e : DescEnv) : State :=
  let oa := e.get d.a d.aFmt
  let oc := e.get d.c d.outFmt
  match s.fetchAll n [(oa, 1)] with
  | (false, s) => s
  | (true, s) =>
    let (rs, s, due) := (List.range oc.pat.count).foldl (fun (a : List Val × State × Bool) o =>
      let (v, s, due) := a.2.1.poolValue n d oa (oa.pat.window d.poolMask o)
      (s.outX d false false (oc.channel o) v :: a.1, s, a.2.2 || due)) ([], s, false)
    let s := if due then s.atEnd n 1 0x0101 else s
    s.emit n 1 d oc d.zp true rs.reverse

def execPool (rod : Fin 64) (s : State) : Out := s.start rod.val 0x04 fun d e s => s.poolUnit rod.val d e

end Sys2Proof.Machine
end

