-- ==== Sys2Proof/Machine/Attention.lean ====
section
/-! DEFINITION. ATTN_SCORE and ATTN_MERGE with their partial records (R69, R70, R147 to R158). -/

namespace Sys2Proof.Machine

/-! ### Partial records (R69, R153) -/

/-- A wide partial as 32 bytes (chapter 03, Table 2); `holding` is set in a save area only (R79). -/
def Acc.wide (a : Acc) (holding : Bool) : Nat :=
  pack [(0, 128, wrap 128 a.val), (128, 24, a.above), (152, 24, a.below), (176, 2, a.special), (178, 10, wrap 10 a.anchor), (188, 1, b2n holding)]

/-- The accumulator that a wide partial holds, on a path. -/
def Acc.ofWide (w path : Nat) : Acc :=
  { val := sgn 128 (fld w 0 128), above := fld w 128 24, below := fld w 152 24, special := fld w 176 2, anchor := sgn 10 (fld w 178 10),
    holding := bit w 188, path := path }

/-- Two wide partials combine (R70); unequal anchors give NaN, and the fault of it. -/
def Acc.join (a b : Acc) : Acc × Bool :=
  if a.anchor = b.anchor then ({ a with val := a.val + b.val, above := a.above + b.above, below := a.below + b.below, special := joinSpecial a.special b.special }, false)
  else ({ a with special := 3 }, true)

/-- An attention partial record (R153, Table 2). -/
structure AttnPart where
  max : Nat
  ref : Nat
  stage : Nat
  visible : Nat
  l : Acc
  o : List Acc
deriving DecidableEq, Repr

/-- Bytes of a record of head dimension `d`. -/
def attnBytes (d : Nat) : Nat := 64 + 32 * d

def AttnPart.bytes (p : AttnPart) : List Byte :=
  leBytes 32 (pack [(0, 32, p.max), (32, 32, p.ref), (64, 2, p.stage), (96, 32, p.visible)]) ++ leBytes 32 (p.l.wide false) ++
    p.o.flatMap fun a => leBytes 32 (a.wide false)

/-- The record at an address, its O_j on a path. -/
def State.attnPart (s : State) (a d path : Nat) : AttnPart :=
  let h := s.rdN a 32
  { max := fld h 0 32, ref := fld h 32 32, stage := fld h 64 2, visible := fld h 96 32, l := Acc.ofWide (s.rdN (a + 32) 32) 2,
    o := (List.range d).map fun j => Acc.ofWide (s.rdN (a + 64 + 32 * j) 32) path }

def fpNegInf : Nat := 0xFF800000
def fpNan : Nat := 0x7FC00000

/-! ### ATTN_SCORE (R147 to R154) -/

/-- What the setup fixes of an ATTN_SCORE (R150): its pool, attention record, query operand, the sequence's figures, and the visible tokens of a row. -/
structure AttnCtx where
  n : Nat
  d : Desc
  k : KvPool
  r : AttnRec
  oq : Opnd
  dim : Nat
  rows : Nat
  len : Nat
  first : Nat
  tokBase : Nat
  qpos : Nat
  path : Nat

/-- Local token `t` is visible to row `r` (R150). -/
def AttnCtx.sees (c : AttnCtx) (r t : Nat) : Bool :=
  decide (c.d.tokFirst ≤ t) && decide (t < c.d.tokFirst + c.d.tokCount) && decide (64 * c.first ≤ t) && decide (t < c.len) &&
    (!c.r.causal || decide ((c.tokBase : Int) + t ≤ (c.qpos : Int) - ((c.r.qTok : Int) - 1 - (r % c.r.qTok : Nat))))

def AttnCtx.visible (c : AttnCtx) (r : Nat) : List Nat := ((List.range c.d.tokCount).map (· + c.d.tokFirst)).filter (c.sees r)

/-- Address of a plane's row for token `t`. -/
def State.tokenRow (s : State) (c : AttnCtx) (plane t : Nat) : Nat :=
  c.k.pageAddr ((s.pageOf c.k c.d.seq (t / 64)).getD 0) + plane + t % 64 * c.k.planeRow

/-- Element `j` of a plane's row. -/
def State.tokenVal (s : State) (c : AttnCtx) (plane t j : Nat) : Val :=
  let w := fmtBytes c.d.bFmt
  load c.d.bFmt (s.rdN (s.tokenRow c plane t + w * j) w)

/-- The accumulated dot product of a row's query and a token's key (R151). -/
def State.dot (s : State) (c : AttnCtx) (r t : Nat) : Acc :=
  let cs := (List.range c.dim).map fun j => Contrib.ofPair (s.valAt c.oq (j + c.dim * r)) (s.tokenVal c c.d.b.base t j)
  let path := if c.d.aFmt ≤ 6 then 1 else 2
  let a : Acc := { path := path, anchor := if path = 2 then passAnchor cs else 0 }
  a.addAll cs

/-- The score s_t of a row and a token: the exact dot product by SCALE, rounded once to FP32 (R151). -/
def AttnCtx.score (c : AttnCtx) (a : Acc) : Nat := fpBits ((a.sum false).mul (fpVal c.d.scale))

/-- The weight p_t (R151), rounded once into OUT_FMT. -/
def AttnCtx.weight (c : AttnCtx) (st m : Nat) : Val :=
  match fpVal st, fpVal m with
  | .fin x _, .fin y _ => (store c.d.outFmt false 0 (.ofRat (exp2Q (x - y)))).v
  | _, _ => .nan

/-- The largest of some FP32 words; none for an empty list. -/
def fpMax (l : List Nat) : Option Nat :=
  match l with
  | [] => none
  | x :: xs => some (xs.foldl (fun a b => fpBits ((fpVal a).max (fpVal b))) x)

/-- The sums L and O of a row against a reference (R151, R152). -/
def State.weigh (s : State) (c : AttnCtx) (sc : List (Nat × Nat)) (m : Nat) : Acc × List Acc :=
  let bad := sc.any fun q => !(fpVal q.2).isFin
  let ps := sc.map fun q => (q.1, c.weight q.2 m)
  let l : Acc := if bad then { path := 2, special := 3 } else ps.foldl (fun a q => a.addVal q.2) { path := 2 }
  let o := (List.range c.dim).map fun j =>
    let a0 : Acc := { path := c.path, anchor := if c.path = 2 then c.d.anchor else 0 }
    if bad then { a0 with special := 3 }
    else
      let a := ps.foldl (fun a q => a.addVal (q.2.mul (s.tokenVal c c.d.d.base q.1 j))) a0
      if a.above ≠ 0 && !c.d.winPolicy then { a with special := 3 } else a
  (l, o)

/-- One row of an ATTN_SCORE: its new record, and the faults it asks for: a score above REF now, an above-window count and unequal anchors at the end. -/
structure AttnOut where
  part : AttnPart
  above : Nat := 0
  below : Nat := 0
  window : Bool := false
  merge : Bool := false
  late : Bool := false

def State.attnRow (s : State) (c : AttnCtx) (old : AttnPart) (r : Nat) : AttnOut :=
  let dots := (c.visible r).map fun t => (t, s.dot c r t)
  let sc := dots.map fun q => (q.1, c.score q.2)
  -- what fell below the window of the scores' own accumulators counts as it does at every drain (R47)
  let lost := (dots.map fun q => q.2.below).foldl (· + ·) 0
  let bad := sc.any fun q => !(fpVal q.2).isFin
  let top := if bad then fpNan else (fpMax (sc.map (·.2))).getD fpNegInf
  let zero : Acc × List Acc := ({ path := 2 }, List.replicate c.dim { path := c.path, anchor := if c.path = 2 then c.d.anchor else 0 })
  -- a score that is not finite makes every SPECIAL NaN, in pass 1 too (R152)
  let mark : Acc → Acc := fun a => if bad then { a with special := 3 } else a
  if !c.d.scoreRef then
    let (l, o) := s.weigh c sc top
    { part := { max := top, ref := 0, stage := 0, visible := sc.length, l := l, o := o }
      above := (o.map Acc.above).foldl (· + ·) 0, below := ((l :: o).map Acc.below).foldl (· + ·) lost
      window := c.d.winPolicy && o.any fun a => a.above != 0 }
  else if !c.d.opt then
    if c.d.add then
      { part := { old with max := fpBits ((fpVal old.max).max (fpVal top)), visible := old.visible + sc.length, l := mark old.l, o := old.o.map mark }, below := lost }
    else { part := { max := top, ref := 0, stage := 1, visible := sc.length, l := mark zero.1, o := zero.2.map mark }, below := lost }
  else
    let late := sc.any fun q => (fpVal old.ref).lt (fpVal q.2)
    let (l, o) := s.weigh c sc old.ref
    let max_ := if bad then fpNan else if sc.isEmpty && !c.d.add then fpNegInf else old.max
    let joined := (old.o.zip o).map fun q => q.1.join q.2
    let lj := old.l.join l
    { part := { max := max_, ref := old.ref, stage := 3, visible := if c.d.add then old.visible + sc.length else sc.length,
                l := if c.d.add then lj.1 else l, o := if c.d.add then joined.map (·.1) else o }
      above := (o.map Acc.above).foldl (· + ·) 0, below := ((l :: o).map Acc.below).foldl (· + ·) lost
      window := c.d.winPolicy && o.any fun a => a.above != 0, merge := c.d.add && (lj.2 || joined.any (·.2)), late := late }

/-- The keeper copies the rows of a visible page into the staging buffers, alternating the two (R149, R155); the copy and the unit's reads of it
take a bank slot for each line (R73). -/
def State.stage (s : State) (c : AttnCtx) (bs : List Nat) : State :=
  let row := c.k.planeRow
  bs.zipIdx.foldl (fun s q =>
    let n := 64 * row
    let live := min 64 (c.len - 64 * q.1) * row
    let base := spadAddr c.n (c.r.stage + q.2 % 2 * n)
    let s := (s.wrBoth base (s.rd (s.tokenRow c c.d.b.base (64 * q.1)) live)).count c.n 18 (2 * linesOf base live * if c.d.opt then 2 else 1)
    if c.d.opt then s.wrBoth (base + 2 * n) (s.rd (s.tokenRow c c.d.d.base (64 * q.1)) live) else s) s

/-- ATTN_SCORE: pages pinned, rows scored, records written (R150 to R155, R169). -/
def State.attnScore (s : State) (n : Nat) (d : Desc) (e : DescEnv) : State :=
  let p := s.jobPart ((s.rod n).job.getD 0)
  match s.pool p, (e.rec_ d.b.rec_).bind AttnRec.ofRec with
  | some k, some r =>
    let q := s.seq d.seq
    let oq := e.get d.a d.aFmt
    let c : AttnCtx := { n := n, d := d, k := k, r := r, oq := oq, dim := oq.pat.ext.getD 0 0, rows := oq.pat.ext.getD 1 0, len := q.len, first := q.first,
                         tokBase := q.tokBase, qpos := q.qposLast.toNat, path := if d.bFmt ≤ 6 then 1 else 2 }
    let size := attnBytes c.dim
    let at_ := fun i => d.c.base + i * size
    let blocks := ((List.range (d.tokCount / 64)).map (· + d.tokFirst / 64)).filter fun b =>
      (List.range 64).any fun i => (List.range c.rows).any fun x => c.sees x (64 * b + i)
    if !q.isOpen then s.rodFault n 0x0301
    else if !s.spanOk n false [((d.c.base : Int), c.rows * size)] then s.rodFault n 0x020C
    else
      let rows := blocks.flatMap fun b =>
        let m := min 64 (c.len - 64 * b) * k.planeRow
        (s.tokenRow c d.b.base (64 * b), m) :: if d.opt then [(s.tokenRow c d.d.base (64 * b), m)] else []
      let olds := if d.scoreRef && (d.opt || d.add) then [(d.c.base, c.rows * size)] else []
      match s.touch n (rows ++ olds) with
      | (false, s) => s
      | (true, s) =>
        let s := s.count n 18 ((olds.map fun o => linesOf o.1 o.2).foldl (· + ·) 0)
        match s.fetchAll n [(oq, 1)] with
        | (false, s) => s
        | (true, s) =>
          let need := if !d.scoreRef || (!d.opt && !d.add) then none else if !d.opt then some 1 else if d.add then some 3 else some 2
          let old := (List.range c.rows).map fun i => s.attnPart (at_ i) c.dim c.path
          if need.isSome && old.any (fun x => some x.stage != need) then s.rodFault n 0x0302
          else
            let outs := old.zipIdx.map fun x => s.attnRow c x.1 x.2
            if outs.any AttnOut.late then s.rodFault n 0x0303
            else
              let pages := blocks.filterMap fun b => s.pageOf k d.seq b
              let s := pages.foldl State.pin s
              let s := s.updRod n fun r => { r with units := r.units.upd 0 fun u => { u with pins := pages } }
              let s := s.stage c blocks
              let s := outs.zipIdx.foldl (fun s x => s.putBytes n (at_ x.2) x.1.part.bytes) s
              let seen := ((List.range c.rows).map fun i => (c.visible i).length).foldl (· + ·) 0
              let s := s.count n (if d.aFmt ≤ 6 then 4 else 5) (seen * c.dim * if d.opt then 2 else 1)
              let s := outs.foldl (fun s x => (s.count n 13 x.above).count n 14 x.below) s
              let s := if outs.any AttnOut.window then s.atEnd n 0 0x0101 else s
              if outs.any AttnOut.merge then s.atEnd n 0 0x0107 else s
  | _, _ => s

def execAttnScore (rod : Fin 64) (s : State) : Out := s.start rod.val 0x07 fun d e s => s.attnScore rod.val d e

/-! ### ATTN_MERGE (R156 to R158) -/

/-- The largest MAX of the parts with a visible token (R157). -/
def mergeMax (ps : List AttnPart) : Nat :=
  if ps.any fun p => (fpVal p.max).isNan then fpNan else (fpMax ((ps.filter fun p => p.visible != 0).map AttnPart.max)).getD fpNegInf

/-- r_i of a part (R158). -/
def mergeWeight (p : AttnPart) (m : Nat) : Val :=
  match fpVal p.max, fpVal m with
  | .fin x _, .fin y _ => fpVal (fpBits (.ofRat (exp2Q (x - y))))
  | _, _ => .nan

/-- Division of an exact sum by L; a zero L is of no stated result. -/
def State.divide (s : State) (o l : Val) : Val × State :=
  match l with
  | .fin x _ => if x = 0 then s.drawVal else (o.mul (.ofRat (1 / x)), s)
  | _ => (.nan, s)

/-- The values v_j of a row from its parts (R157, R158); `fin` selects the final merge. The flag says that anchors differ. -/
def State.mergeRow (s : State) (dim : Nat) (fin : Bool) (ps : List AttnPart) : List Val × Bool × State :=
  let m := mergeMax ps
  let live := ps.filter fun p => p.visible != 0
  if live.isEmpty && !(fpVal m).isNan then (List.replicate dim (.ofRat 0), false, s)
  else if (fpVal m).isNan then (List.replicate dim .nan, false, s)
  else if fin then
    let add := fun (l : List Acc) => match l with
      | [] => (({} : Acc), false)
      | a :: as => as.foldl (fun (x : Acc × Bool) b => let (c, f) := x.1.join b; (c, x.2 || f)) (a, false)
    let (l, lf) := add (ps.map AttnPart.l)
    (List.range dim).foldl (fun (x : List Val × Bool × State) j =>
      let (o, f) := add (ps.map fun p => p.o.getD j {})
      let (v, s) := x.2.2.divide (o.sum true) (l.sum true)
      (x.1 ++ [v], x.2.1 || f, s)) ([], lf, s)
  else
    let l := live.foldl (fun v p => v.add ((mergeWeight p m).mul (p.l.sum true))) (.ofRat 0)
    let (vs, s) := (List.range dim).foldl (fun (x : List Val × State) j =>
      let o := live.foldl (fun v p => v.add ((mergeWeight p m).mul ((p.o.getD j {}).sum true))) (.ofRat 0)
      let (v, s) := x.2.divide o l
      (x.1 ++ [v], s)) ([], s)
    (vs, false, s)

/-- ATTN_MERGE. -/
def State.attnMerge (s : State) (n : Nat) (d : Desc) (e : DescEnv) : State :=
  match (e.rec_ d.a.rec_).bind mergeRec with
  | none => s
  | some (dim, q) =>
    let size := attnBytes dim
    let at_ := fun i r => d.a.base + (i * q + r) * size
    let total := d.parts * q * size
    if !s.spanOk n false [((d.a.base : Int), total)] then s.rodFault n 0x020C
    else match s.touch n [(d.a.base, total)] with
      | (false, s) => s
      | (true, s) =>
        let s := (s.count n 18 (cdiv total 64)).count n 8 (cdiv total 128)
        -- a record does not say which accumulator its O_j came from; A_FMT names an FP8 group, else the windowed one is taken (log entry 17)
        let path := if d.aFmt = 5 || d.aFmt = 6 then 1 else 2
        let rows := fun path => (List.range q).map fun r => (List.range d.parts).map fun i => s.attnPart (at_ i r) dim path
        let all := (rows 2).flatten
        let stage := fun k => all.all fun p => p.stage == k
        let values := fun (fin : Bool) =>
          let (vs, f, s) := (rows path).foldl (fun (x : List Val × Bool × State) ps =>
            let (v, f, s) := x.2.2.mergeRow dim fin ps
            (x.1 ++ v, x.2.1 || f, s)) ([], false, s)
          let s := s.emit n 2 d (e.get d.c d.outFmt) d.zp false (vs.zipIdx.map fun v => s.outX d false false (v.2 % dim) v.1)
          if f then s.atEnd n 2 0x0107 else s
        if !d.mergeRef && stage 0 then values false
        else if d.mergeRef && stage 1 then
          (rows 2).zipIdx.foldl (fun s x =>
            let m := mergeMax x.1
            x.1.zipIdx.foldl (fun s y => s.putBytes n (at_ y.2 x.2) ({ y.1 with ref := m, stage := 2 } : AttnPart).bytes) s) s
        else if d.mergeRef && stage 3 then
          if (rows 2).any fun ps => ps.any fun p => some p.ref != (ps.head?.map AttnPart.ref) then s.rodFault n 0x0303 else values true
        else s.rodFault n 0x0302

def execAttnMerge (rod : Fin 64) (s : State) : Out := s.start rod.val 0x08 fun d e s => s.attnMerge rod.val d e

end Sys2Proof.Machine
end

