-- ==== Sys2Proof/Machine/Otp.lean ====
section
/-! DEFINITION. The OTP array, its slots and counters, the lifecycle and the settings it fixes (R450 to R454, R461, R464). -/

namespace Sys2Proof.Machine

/-! ### Rows, markers and counters (R450 to R452) -/

/-- A row as it is read. -/
def Sec.row (s : Sec) (r : Nat) : Nat := (s.otp.get r).toNat

/-- A marker: at least two of its three copies read 1. -/
def Sec.marker (s : Sec) (row : Nat → Nat) (b : Nat) : Bool :=
  decide (2 ≤ ((List.range 3).filter fun c => bit (s.row (row c)) b).length)

/-- The row that holds copy `c` of step `t` of counter `k` (Table 1). -/
def svnRow (k c t : Nat) : Nat := 80 + 6 * k + 2 * c + t / 32

/-- Step `t` of counter `k` is marked. -/
def Sec.step (s : Sec) (k t : Nat) : Bool := s.marker (fun c => svnRow k c t) (t % 32)

/-- The value of counter `k`: consecutive marked steps from step 0. -/
def Sec.counter (s : Sec) (k : Nat) : Nat := ((List.range 64).takeWhile (s.step k)).length

/-- The pulses that raise counter `k` to `v`: first the missing copies of steps already begun, then the new steps in copy order. -/
def Sec.pulses (s : Sec) (k v : Nat) : List (Nat × Word) :=
  let one := fun (t c : Nat) => (svnRow k c t, BitVec.ofNat 32 (2 ^ (t % 32)))
  let miss := fun (t : Nat) => (List.range 3).filter fun c => !bit (s.row (svnRow k c t)) (t % 32)
  let begun := (List.range 64).filter fun t => (miss t).length = 1 || (miss t).length = 2
  let fresh := (List.range v).filter fun t => decide (s.counter k ≤ t) && (miss t).length == 3
  (begun ++ fresh).flatMap fun t => (miss t).map (one t)

/-- Rows with any bit set. -/
def Sec.rowsUsed (s : Sec) : Nat := (s.otp.cells.filter fun c => c.2 != 0).length

/-- Owner key `j` is revoked. -/
def Sec.revoked (s : Sec) (j : Nat) : Bool := s.marker (fun c => 104 + c) j

/-! ### Slots (R453) -/

/-- The data rows as bytes. -/
def Sec.rowBytes (s : Sec) (first n : Nat) : List Byte := (List.range n).flatMap fun i => leBytes 4 (s.row (first + i))

/-- A slot of `n` data rows from `first`, its commit word after them, and its own index. -/
structure Slot where
  first : Nat
  n : Nat
  idx : Nat

/-- The settings slots, and the provisioning slots A and B (Table 1). -/
def settingsSlot (i : Nat) : Slot := { first := 204 + 33 * i, n := 32, idx := i }
def provSlot (i : Nat) : Slot := { first := 128 + 38 * i, n := 37, idx := i }

/-- The commit word of a slot whose data rows hold some bytes. -/
def commitWord (idx : Nat) (data : List Byte) : Nat := 0xA5 + idx * 2 ^ 8 + crc32c data / 2 ^ 16 * 2 ^ 16

/-- The slot is consumed: some bit of some row reads 1. -/
def Sec.consumed (s : Sec) (t : Slot) : Bool := (List.range (t.n + 1)).any fun i => s.row (t.first + i) != 0

/-- The slot's commit word is valid. -/
def Sec.valid (s : Sec) (t : Slot) : Bool :=
  let w := s.row (t.first + t.n)
  s.otpBad.get (t.first + t.n) != 2 && fld w 0 8 == 0xA5 && fld w 8 3 == t.idx && fld w 16 16 == crc32c (s.rowBytes t.first t.n) / 2 ^ 16

/-- A valid slot with a row that was corrected, fails a read, or fails margin. -/
def Sec.slotMarginal (s : Sec) (t : Slot) : Bool :=
  (List.range (t.n + 1)).any fun i => s.otpBad.get (t.first + i) != 0 || s.weak.get (t.first + i)

def Sec.spoiled (s : Sec) (t : Slot) : Bool := s.consumed t && !s.valid t

/-- The rows of a slot read zero at both references (R462). -/
def Sec.blank (s : Sec) (t : Slot) : Bool :=
  !s.consumed t && (List.range (t.n + 1)).all fun i => s.otpBad.get (t.first + i) == 0 && !s.weak.get (t.first + i)

/-- The lowest blank settings slot above every consumed one (R462). -/
def Sec.nextSlot (s : Sec) : Option Nat :=
  (List.range 6).find? fun i => s.blank (settingsSlot i) && (List.range 6).all fun k => decide (k < i) || !s.consumed (settingsSlot k)

/-- The provisioning slot in force. -/
def Sec.prov (s : Sec) : Option Nat := (List.range 2).find? fun i => s.valid (provSlot i)

/-- The settings slot in force: the highest valid one (R461). -/
def Sec.lastValid (s : Sec) : Option Nat := (List.range 6).reverse.find? fun i => s.valid (settingsSlot i)

/-- Bytes of the provisioning slot in force: key hashes, FLEET_ID, FLEET_KEY. -/
def Sec.provBytes (s : Sec) (off n : Nat) : List Byte :=
  match s.prov with
  | some i => ((s.rowBytes (provSlot i).first 37).drop off).take n
  | none => List.replicate n 0

def Sec.keyHash (s : Sec) (j : Nat) : List Byte := s.provBytes (48 * j) 48
def Sec.fleetId (s : Sec) : Nat := leNat (s.provBytes 96 4)
def Sec.fleetKey (s : Sec) : List Byte := s.provBytes 100 48

/-- The FLEET_KEY rows, which no query shows (R451). -/
def fleetRow (r : Nat) : Bool := within 153 164 r || within 191 202 r

/-- The lifecycle that the OTP gives (R454). -/
def Sec.lifeNow (s : Sec) : Lifecycle :=
  if s.marker (fun c => 77 + c) 1 then .retired
  else if s.prov.isSome then .owned
  else if s.marker (fun c => 77 + c) 0 then .shipped
  else .test

/-! ### Settings (R461) -/

/-- A settings block's fields. -/
def settingsOf (x : Nat) : Settings :=
  { memRate := bit x 8, density := BitVec.ofNat 2 (fld x 9 2), twoRanks := bit x 11, lp5x := bit x 12, powerPlan := BitVec.ofNat 2 (fld x 16 2),
    overrideWait := BitVec.ofNat 8 (fld x 24 8), jumpLimit := BitVec.ofNat 32 (fld x 32 32), debugPolicy := BitVec.ofNat 2 (fld x 64 2),
    overrideAllow := bit x 66 }

/-- A block that OTP_COMMIT and SETTINGS_OVERRIDE refuse: another format, a reserved value or bit, or 8,533 MT/s without LPDDR5X. -/
def settingsBad (x : Nat) : Bool :=
  fld x 0 8 != 0x10 || fld x 9 2 == 3 || decide (2 ≤ fld x 64 2) || (bit x 8 && !bit x 12) || fld x 13 3 != 0 || fld x 18 6 != 0 || x / 2 ^ 67 != 0

/-- The active settings (R461). -/
def Sec.active (s : Sec) : Settings :=
  match s.overrideOn, s.lastValid with
  | some o, _ => o
  | none, some i => settingsOf (leNat (s.rowBytes (settingsSlot i).first 32))
  | none, none => {}

/-- SEC_OTP_STATUS.EXHAUSTED: settings slot 5 is consumed (R464). -/
def Sec.noSlots (s : Sec) : Bool := s.consumed (settingsSlot 5)

end Sys2Proof.Machine
end

