-- ==== Sys2Proof/Machine/Crypto.lean ====
section
/-! DEFINITION. The cryptography of chapter 18: SHA-384 of FIPS 180-4, HMAC of RFC 2104, and ECDSA of FIPS 186-5 on brainpoolP384r1 of
RFC 5639 with the deterministic nonce. -/

namespace Sys2Proof.Machine

/-! ### SHA-384 -/

abbrev W64 := BitVec 64

/-- The `k`-th root of `x`, rounded down, below 2^68: one bit after another, from the highest. -/
def rootDown (k x : Nat) : Nat := (List.range 68).foldl (fun r i => if (r + 2 ^ (67 - i)) ^ k ≤ x then r + 2 ^ (67 - i) else r) 0

/-- The primes below 410, of which there are eighty. -/
def smallPrimes : List Nat := (List.range 410).filter fun n => decide (2 ≤ n) && (List.range 21).all fun d => decide (d < 2) || d == n || n % d != 0

/-- The first 64 bits of the fraction of the `k`-th root of `p` (FIPS 180-4). -/
def rootFrac (k p : Nat) : W64 := BitVec.ofNat 64 (rootDown k (p * 2 ^ (64 * k)))

/-- The round constants: from the cube roots of the first eighty primes. -/
def shaK : List W64 := smallPrimes.map (rootFrac 3)

/-- SHA-384 starts from the square roots of the ninth to the sixteenth prime. -/
def shaInit : List W64 := ((smallPrimes.drop 8).take 8).map (rootFrac 2)

/-- The mixing functions of FIPS 180-4 on a word: the exclusive or of its rotations by each of `rs`, and of `x` shifted by `sh` unless that is 0. -/
def shaMix (rs : List Nat) (sh : Nat) (x : W64) : W64 := rs.foldl (fun y r => y ^^^ x.rotateRight r) (if sh = 0 then 0 else x >>> sh)

/-- The message schedule: `w` holds the latest sixteen words, oldest first. -/
def shaSchedule (w : List W64) : Nat → List W64
  | 0 => []
  | n + 1 =>
    let at_ := fun i => w.getD i 0
    at_ 0 :: shaSchedule (w.drop 1 ++ [at_ 0 + shaMix [1, 8] 7 (at_ 1) + at_ 9 + shaMix [19, 61] 6 (at_ 14)]) n

/-- One round on the eight working words, with a round constant and a schedule word. -/
def shaRound (v : List W64) (kw : W64 × W64) : List W64 :=
  let at_ := fun i => v.getD i 0
  let pick := at_ 6 ^^^ (at_ 4 &&& (at_ 5 ^^^ at_ 6))
  let most := (at_ 0 &&& (at_ 1 ||| at_ 2)) ||| (at_ 1 &&& at_ 2)
  let t := kw.1 + kw.2 + at_ 7 + pick + shaMix [14, 18, 41] 0 (at_ 4)
  [t + most + shaMix [28, 34, 39] 0 (at_ 0)] ++ (v.take 3) ++ [at_ 3 + t] ++ ((v.drop 4).take 3)

/-- The hash value after one block of sixteen words. -/
def shaBlock (h : List W64) (block : List W64) : List W64 :=
  let v := (shaK.zip (shaSchedule block 80)).foldl shaRound h
  List.zipWith (· + ·) h v

/-- Words of a byte string, eight bytes each. -/
def shaWords (bs : List Byte) : Nat → List W64
  | 0 => []
  | n + 1 => BitVec.ofNat 64 (beNat (bs.take 8)) :: shaWords (bs.drop 8) n

/-- The padded message of FIPS 180-4. -/
def shaPad (bs : List Byte) : List Byte :=
  let n := bs.length
  bs ++ 0x80 :: List.replicate ((239 - n % 128) % 128) 0 ++ beBytes 16 (8 * n)

def shaBlocks (h : List W64) (bs : List Byte) : Nat → List W64
  | 0 => h
  | n + 1 => shaBlocks (shaBlock h (shaWords bs 16)) (bs.drop 128) n

/-- SHA-384: 48 bytes. -/
def sha384 (bs : List Byte) : List Byte :=
  let m := shaPad bs
  ((shaBlocks shaInit m (m.length / 128)).take 6).flatMap fun x => beBytes 8 x.toNat

/-- HMAC-SHA-384 of RFC 2104. -/
def hmac384 (key msg : List Byte) : List Byte :=
  let k := padTo 128 (if 128 < key.length then sha384 key else key)
  sha384 (k.map (· ^^^ 0x5C) ++ sha384 (k.map (· ^^^ 0x36) ++ msg))

/-! ### brainpoolP384r1 -/

def bpP : Nat := 0x8CB91E82A3386D280F5D6F7E50E641DF152F7109ED5456B412B1DA197FB71123ACD3A729901D1A71874700133107EC53
def bpA : Nat := 0x7BC382C63D8C150C3C72080ACE05AFA0C2BEA28E4FB22787139165EFBA91F90F8AA5814A503AD4EB04A8C7DD22CE2826
def bpB : Nat := 0x04A8C7DD22CE28268B39B55416F0447C2FB77DE107DCD2A62E880EA53EEB62D57CB4390295DBC9943AB78696FA504C11
def bpX : Nat := 0x1D1C64F068CF45FFA2A63A81B7C13F6B8847A3E77EF14FE3DB7FCAFE0CBD10E8E826E03436D646AAEF87B2E247D4AF1E
def bpY : Nat := 0x8ABE1D7520F9C2A45CB1EB8E95CFD55262B70B29FEEC5864E19C054FF99129280E4646217791811142820341263C5315
def bpN : Nat := 0x8CB91E82A3386D280F5D6F7E50E641DF152F7109ED5456B31F166E6CAC0425A7CF3AB6AF6B7FC3103B883202E9046565

/-- `a ^ e` modulo `m`, over the low `n` bits of `e`. -/
def powMod (m a e : Nat) : Nat → Nat
  | 0 => 1 % m
  | n + 1 => let r := powMod m (a * a % m) (e / 2) n; if e % 2 = 1 then r * a % m else r

/-- The inverse modulo a prime of 384 bits. -/
def invMod (m a : Nat) : Nat := powMod m (a % m) (m - 2) 384

/-- A point of the curve; none is the point at infinity. -/
abbrev Pt := Option (Nat × Nat)

/-- Difference modulo `bpP`. -/
def subP (a b : Nat) : Nat := (a + bpP - b % bpP) % bpP

/-- The group law of the curve. -/
def ptAdd (a b : Pt) : Pt :=
  match a, b with
  | none, q => q
  | p, none => p
  | some (x1, y1), some (x2, y2) =>
    if x1 = x2 && (y1 + y2) % bpP = 0 then none
    else
      let l := if x1 = x2 then (3 * x1 * x1 + bpA) * invMod bpP (2 * y1) % bpP else subP y2 y1 * invMod bpP (subP x2 x1) % bpP
      let x3 := subP (l * l) (x1 + x2)
      some (x3, subP (l * subP x1 x3) y1)

/-- `k` times a point, over the low `n` bits of `k`. -/
def ptMul (p : Pt) (k : Nat) : Nat → Pt
  | 0 => none
  | n + 1 => let r := ptMul (ptAdd p p) (k / 2) n; if k % 2 = 1 then ptAdd r p else r

/-- A public key names a point of the curve. -/
def keyOk (x y : Nat) : Bool := decide (x < bpP) && decide (y < bpP) && (y * y) % bpP == (x * x * x + bpA * x + bpB) % bpP

/-- ECDSA verification of a signature (r then s) over a hash, with a public key (X then Y). -/
def ecdsaOk (key hash sig : List Byte) : Bool :=
  let x := beNat (key.take 48)
  let y := beNat (key.drop 48)
  let r := beNat (sig.take 48)
  let t := beNat (sig.drop 48)
  let w := invMod bpN t
  within 1 (bpN - 1) r && within 1 (bpN - 1) t && keyOk x y &&
    match ptAdd (ptMul (some (bpX, bpY)) (beNat hash * w % bpN) 384) (ptMul (some (x, y)) (r * w % bpN) 384) with
    | none => false
    | some (q, _) => q % bpN == r

/-- The deterministic nonces, in the order in which they are tried: the state is K then V. -/
def nonceTry (x hash k v : List Byte) : Nat → Option (Nat × Nat)
  | 0 => none
  | n + 1 =>
    let v := hmac384 k v
    let c := beNat v
    let next := fun (_ : Unit) => let k := hmac384 k (v ++ [0]); nonceTry x hash k (hmac384 k v) n
    if within 1 (bpN - 1) c then
      match ptMul (some (bpX, bpY)) c 384 with
      | none => next ()
      | some (q, _) =>
        let r := q % bpN
        let t := invMod bpN c * (beNat hash + r * beNat x) % bpN
        if r = 0 || t = 0 then next () else some (r, t)
    else next ()

/-- The signature of a hash with a private key of 48 bytes: r then s, with the deterministic nonce. -/
def ecdsaSign (key hash : List Byte) : List Byte :=
  let h := beBytes 48 (beNat hash % bpN)
  let v := List.replicate 48 (0x01 : Byte)
  let k := hmac384 (List.replicate 48 0) (v ++ [0] ++ key ++ h)
  let v := hmac384 k v
  let k := hmac384 k (v ++ [1] ++ key ++ h)
  match nonceTry key hash k (hmac384 k v) 64 with
  | some (r, t) => beBytes 48 r ++ beBytes 48 t
  | none => List.replicate 96 0

end Sys2Proof.Machine
end

