-- ==== Sys2Proof/Machine/PlanImage.lean ====
section
/-! DEFINITION. The plan image: header, directory, sections, and the plan they declare (R199, R200, R202, R204, R207, R210, R221, R224, R239,
R414, R421, R439, R459). -/

namespace Sys2Proof.Machine

/-- A plan image: the number that `n` bytes from byte `a` spell. -/
abbrev Img := Nat → Nat → Nat

/-- A section of the image, with its place in the directory (Table 2). -/
structure Sect where
  idx : Nat := 0xFF
  type : Nat := 0
  bytes : Nat := 1
  off : Nat := 0
  count : Nat := 0
  rsvd : Bool := false
deriving DecidableEq, Repr, Inhabited

/-- Section types, their entry bytes, and whether they are required (Table 3). -/
def sectTypes : List (Nat × Nat × Bool) :=
  [(0x01, 32, true), (0x02, 128, true), (0x03, 16, true), (0x04, 32, true), (0x05, 16, true), (0x06, 16, false), (0x07, 16, false), (0x08, 16, true),
   (0x09, 64, true), (0x0A, 32, true), (0x0B, 32, true), (0x0C, 8, false), (0x0D, 4, false), (0x0E, 16, false), (0x0F, 32, false), (0x10, 32, false),
   (0x11, 8, false), (0x12, 16, false), (0x13, 16, false), (0x14, 16, true), (0x15, 16, true), (0x16, 1, false)]

/-- The fields of a section's entries; every other bit is reserved. The layouts of KV_POOL and CARRY are open (log entry 11). -/
def entryFields (type : Nat) : List (Nat × Nat) :=
  match type with
  | 0x01 => [(0, 8), (16, 32)]
  | 0x02 => [(0, 58), (64, 1), (72, 8)] ++ (List.range 64).map fun n => (512 + 8 * n, 6)
  | 0x03 => [(0, 6), (8, 5), (32, 22), (64, 17)]
  | 0x04 => [(0, 5), (64, 48), (128, 48)]
  | 0x05 => [(0, 2), (8, 8), (16, 14), (64, 32)]
  | 0x06 => [(0, 5), (8, 8), (16, 12), (64, 32)]
  | 0x07 => [(0, 8), (8, 8), (16, 12), (64, 32)]
  | 0x08 => [(0, 6), (8, 8), (16, 12), (64, 32)]
  | 0x09 => [(0, 10), (16, 7), (24, 4), (32, 16), (64, 64), (128, 46), (192, 104)]
  | 0x0A => [(0, 6), (8, 16), (32, 22), (64, 54), (128, 22), (160, 16), (192, 22)]
  | 0x0B => [(0, 7), (32, 22), (64, 17), (128, 48)]
  | 0x0C => [(0, 14), (16, 4), (32, 32)]
  | 0x0D => [(0, 16)]
  | 0x0E => [(0, 21), (24, 56)]
  | 0x0F | 0x10 => [(0, 256)]
  | 0x11 => [(0, 5), (8, 16)]
  | 0x12 => [(0, 48)]
  | 0x13 => [(0, 7), (32, 22), (64, 17), (96, 15)]
  | 0x14 => [(0, 6), (8, 8), (32, 16)]
  | 0x15 => [(0, 11), (16, 10), (32, 64)]
  | 0x16 => [(0, 5)]
  | _ => []

/-- Every bit of a number outside some fields is zero. -/
def onlyFields (fs : List (Nat × Nat)) (x : Nat) : Bool := x == pack (fs.map fun f => (f.1, f.2, fld x f.1 f.2))

/-! Header fields (Table 1). -/

def Img.sectCount (g : Img) : Nat := g 6 2
def Img.frameTicks (g : Img) : Nat := g 20 4
def Img.winCount (g : Img) : Nat := fld (g 24 4) 0 9
def Img.partCount (g : Img) : Nat := fld (g 24 4) 16 5
def Img.powerMin (g : Img) : Nat := fld (g 24 4) 24 2
/-- IMAGE_HASH and SIGNATURE, as the standards order their bytes. -/
def Img.hash (g : Img) : List Byte := leBytes 48 (g 32 48)
def Img.sig (g : Img) : List Byte := leBytes 96 (g 80 96)

/-- The directory, in order. -/
def Img.sects (g : Img) : List Sect :=
  (List.range g.sectCount).map fun i =>
    let x := g (256 + 16 * i) 16
    { idx := i, type := fld x 0 16, bytes := fld x 16 16, off := fld x 32 32, count := fld x 64 32, rsvd := fld x 96 32 != 0 }

/-- The section of a type; one that is absent has no entries. -/
def Img.sect (g : Img) (type : Nat) : Sect := (g.sects.find? fun x => x.type == type).getD {}

/-- The entries of a section. -/
def Img.rows (g : Img) (type : Nat) : List Nat :=
  let x := g.sect type
  (List.range x.count).map fun i => g (x.off + i * x.bytes) x.bytes

/-- A 12-bit table length; 0 stands for 4,096 (log entry 18). -/
def len12 (n : Nat) : Nat := if n = 0 then 4096 else n

/-- The elements of a slot table: `bits` each, `n` of them from byte `off`. -/
def Img.elems (g : Img) (off bits n : Nat) : List Nat := (List.range n).map fun i => g (off + i * (bits / 8)) (bits / 8)

def ownerOf (x : Nat) : Owner := { part := fld x 0 4, owned := bit x 4, gap := bit x 5 }

/-- The sizes of an element of ENGINE_SLOT, MESH_SLOT and BANK_SLOT tables, in bits. -/
def slotBits (type : Nat) : Nat := if type = 0x08 then 128 else if type = 0x07 then 8 else 16

/-- A slot table entry: what it is for, its window, the length and place of its array. -/
def slotHead (type x : Nat) : Nat × Nat × Nat × Nat :=
  (fld x 0 (match type with | 0x05 => 2 | 0x06 => 5 | 0x07 => 8 | _ => 6), fld x 8 8, if type = 0x05 then fld x 16 13 else len12 (fld x 16 12), fld x 64 32)

def Img.slotTabs (g : Img) (type : Nat) : List SlotTab :=
  (g.rows type).map fun x =>
    let (w, win, n, off) := slotHead type x
    { which := w, window := win, speed := if type = 0x05 then fld x 29 1 else 0, slots := g.elems off (slotBits type) n }

def poolOf (x : Nat) : KvPool :=
  let f := Config.poolField (BitVec.ofNat 256 x)
  { part := f 0, base := f 1, pageFirst := f 2, pageCount := f 3, planes := f 4, planeRow := f 5, seqFirst := f 6, seqCount := f 7, ptFirst := f 8, ptStride := f 9 }

def carryOf (x : Nat) : CarryDecl :=
  let f := Config.carryField (BitVec.ofNat 256 x)
  { part := f 0, streamFirst := f 1, streamCount := f 2, maxWidth := f 3, swapBase := f 4,
    areas := (List.range (f 5)).map fun i => { rod := f (6 + 3 * i), off := f (7 + 3 * i), lines := f (8 + 3 * i) } }

/-- The plan an image declares. -/
def Img.plan (g : Img) (addr bytes : Nat) : Plan :=
  { addr := addr, bytes := bytes, planId := BitVec.ofNat 32 (g 12 4), version := BitVec.ofNat 16 (g 16 2), svn := fld (g 18 2) 0 6,
    frameTicks := g.frameTicks, powerMin := g.powerMin, hash := BitVec.ofNat 384 (g 32 48),
    parts := (g.rows 0x01).map fun x => { cls := fld x 4 2, escalate := fld x 6 2, jobFirst := fld x 16 16, jobCount := fld x 32 16 },
    wins := (g.rows 0x02).map fun x =>
      { start := fld x 0 32, lead := fld x 32 16, power := fld x 48 10, golden := bit x 64, goldenIdx := fld x 72 8,
        owners := (List.range 64).map fun n => ownerOf (fld x (512 + 8 * n) 8) },
    spads := (g.rows 0x03).map fun x => { rod := fld x 0 6, part := fld x 8 4, test := bit x 12, off := fld x 32 22, lines := fld x 64 17 },
    regions := (g.rows 0x04).map fun x => { part := fld x 0 4, prot := bit x 4, base := fld x 64 48, len := fld x 128 48 },
    memSlots := g.slotTabs 0x05, engSlots := g.slotTabs 0x06, meshSlots := g.slotTabs 0x07, bankSlots := g.slotTabs 0x08,
    jobs := (g.rows 0x09).map fun x =>
      { job := fld x 0 10, part := fld x 16 4, onDemand := bit x 20, golden := bit x 21, locked := bit x 22, restartLimit := fld x 24 4,
        releaseWin := fld x 32 8, deadlineWin := fld x 40 8, rodMask := fld x 64 64, startOffset := fld x 128 32, maxTile := fld x 160 14,
        wcet := fld x 192 32, rodFirst := fld x 224 16, loadFirst := fld x 240 16, loadCount := fld x 256 16, tallyFirst := fld x 272 16,
        tallyCount := fld x 288 8 },
    jobRods := (g.rows 0x0A).map fun x =>
      { rod := fld x 0 6, pc := fld x 8 16, codeBase := fld x 32 22, codeLen := fld x 64 16, descCount := fld x 80 16, descBase := fld x 96 22,
        recBase := fld x 128 22, recCount := fld x 160 16, ctxSave := fld x 192 22 },
    loads := (g.rows 0x0B).map fun x => { rod := fld x 0 6, zero := bit x 6, off := fld x 32 22, lines := fld x 64 17, src := fld x 128 48 },
    tallies := (g.rows 0x0C).map fun x => { tally := fld x 0 14, part := fld x 16 4, init := fld x 32 32 },
    tallyUses := (g.rows 0x0D).map fun x => { tally := fld x 0 14, wait := bit x 14, signal := bit x 15 },
    bindings := (g.rows 0x0E).map fun x =>
      { point := fld x 0 8, job := fld x 8 10, policy := fld x 18 2, goldenSrc := bit x 20, depth := fld x 24 8, goldenAddr := fld x 32 48 },
    pools := (g.rows 0x0F).map poolOf, carries := (g.rows 0x10).map carryOf,
    locks := (g.rows 0x11).map fun x => { pair := fld x 0 5, first := fld x 8 8, last := fld x 16 8 },
    goldens := (g.rows 0x12).map fun x => { index := fld x 0 8, window := fld x 8 8, period := fld x 16 16, phase := fld x 32 16 },
    selftests := (g.rows 0x13).map fun x => { rod := fld x 0 6, enable := bit x 6, base := fld x 32 22, lines := fld x 64 17, sliceMax := fld x 96 15 },
    crossings := (g.rows 0x14).map fun x => { kind := fld x 0 6, inst := fld x 8 8, slack := fld x 32 16 },
    watchdogs := (g.rows 0x15).map fun x => { index := fld x 0 8, kind := fld x 8 3, target := fld x 16 10, early := fld x 32 32, late := fld x 64 32 },
    cleOwners := (g.rows 0x16).map ownerOf }

/-! ### The plan's structure -/

/-- The window after `w`. -/
def Plan.nextWin (pl : Plan) (w : Nat) : Nat := if w + 1 < pl.wins.length then w + 1 else 0

/-- START_TICK of a window, and its length (R204). -/
def Plan.winStart (pl : Plan) (w : Nat) : Nat := ((pl.wins[w]?).map WinEnt.start).getD 0
def Plan.winEnd (pl : Plan) (w : Nat) : Nat := if w + 1 < pl.wins.length then pl.winStart (w + 1) else pl.frameTicks
def Plan.winLen (pl : Plan) (w : Nat) : Nat := pl.winEnd w - pl.winStart w

/-- The owner of rod `n` in window `w` (R205). -/
def Plan.owner (pl : Plan) (w n : Nat) : Owner := ((pl.wins[w]?).bind fun e => e.owners[n]?).getD {}

/-- Partition `p` owns rod `n` in window `w`. -/
def Plan.owns (pl : Plan) (p w n : Nat) : Bool := let o := pl.owner w n; o.owned && o.part == p

/-- A golden window. -/
def Plan.goldenWin (pl : Plan) (w : Nat) : Bool := ((pl.wins[w]?).map WinEnt.golden).getD false

/-- The job may run in window `w`: its partition owns every rod of its mask, and no other job than a golden one runs in a golden window
(R216, R222). -/
def Plan.mayRun (pl : Plan) (r : JobRec) (w : Nat) : Bool := r.rods.all (pl.owns r.part w) && (r.golden || !pl.goldenWin w)

/-- The windows from a job's release to its deadline. -/
def Plan.span (pl : Plan) (r : JobRec) : List Nat :=
  let n := pl.wins.length
  (List.range ((r.deadlineWin + n - r.releaseWin) % n + 1)).map fun k => (r.releaseWin + k) % n

/-- The per-rod entries of a job (R210). -/
def Plan.rodsOf (pl : Plan) (r : JobRec) : List JobRod := (pl.jobRods.drop r.rodFirst).take r.rods.length

/-- The load sets of a job. -/
def Plan.loadsOf (pl : Plan) (r : JobRec) : List LoadSet := (pl.loads.drop r.loadFirst).take r.loadCount

/-- A pair is locked by the plan in window `w`; a range that runs past the last window goes on from the first. -/
def PairLock.covers (k : PairLock) (w : Nat) : Bool :=
  if k.first ≤ k.last then decide (k.first ≤ w) && decide (w ≤ k.last) else decide (k.first ≤ w) || decide (w ≤ k.last)

def Plan.lockedIn (pl : Plan) (k w : Nat) : Bool := pl.locks.any fun e => e.pair == k && e.covers w

/-! ### Loading (R218, R227) -/

/-- `n` bytes at `a` are written to zero. -/
def State.wrZero (s : State) (a n : Nat) : State :=
  { s with mem := s.mem.zero a (a + n), errs := ⟨s.errs.cells.filter fun c => !(decide (a ≤ c.1 * 4) && decide (c.1 * 4 < a + n))⟩ }

/-- One load set is applied: copied from its source, or written to zero; in both scratchpads of a locked pair (R81). -/
def State.applyLoad (s : State) (e : LoadSet) : State :=
  let a := spadAddr e.rod e.off
  let n := 64 * e.lines
  if e.zero then (if e.rod % 2 == 0 && (s.rods.get e.rod).locked then (s.wrZero a n).wrZero (a + spadSize) n else s.wrZero a n)
  else s.wrBoth a (s.rd e.src n)

/-- Every scratchpad is written to zero. -/
def State.zeroSpads (s : State) : State :=
  { s with mem := s.mem.zero spadBase (spadBase + 64 * spadSize), errs := ⟨s.errs.cells.filter fun c => !inSpads (c.1 * 4) 4⟩ }

/-- The scratchpads as an accepted plan leaves them. -/
def State.loadSpads (s : State) (pl : Plan) : State := pl.loads.foldl State.applyLoad s.zeroSpads

end Sys2Proof.Machine
end

