-- ==== Sys2Proof/Machine/Admit.lean ====
section
/-! DEFINITION. The checks of LOAD_PLAN, in the order of Table 14 (R227, R228). -/

namespace Sys2Proof.Machine

/-- What the checks look at: the machine when they run, the power plan when LOAD_PLAN started, the image, its length, the plan it declares,
and the machine as it would be once the plan is loaded. -/
structure Adm where
  s : State
  power : Nat
  g : Img
  bytes : Nat
  pl : Plan
  after : State

/-- DETAIL of an entry of a section (R227). -/
def Adm.at_ (a : Adm) (type i : Nat) : Nat := (a.g.sect type).idx + 256 * (i % 2 ^ 24)

/-- DETAIL of the header. -/
def inHeader : Nat := 0xFF

/-- The first entry of a section that fails. -/
def Adm.bad {α : Type} (a : Adm) (type : Nat) (l : List α) (p : α → Bool) : Option Nat := (findIdx p l 0).map (a.at_ type)

/-- The first entry that meets an earlier one. -/
def Adm.clash {α : Type} (a : Adm) (type : Nat) (l : List α) (p : α → α → Bool) : Option Nat :=
  (findIdx (fun i => match l[i]? with | some x => (l.take i).any fun y => p y x | none => false) (List.range l.length) 0).map (a.at_ type)

/-- The header fails. -/
def hdr (b : Bool) : Option Nat := if b then some inHeader else none

/-- The first that fails. -/
def firstOf (l : List (Option Nat)) : Option Nat := (l.filterMap id).head?

/-- Two ranges of numbers meet. -/
def rangesMeet (a n b m : Nat) : Bool := decide (a < b + m) && decide (b < a + n) && n != 0 && m != 0

/-! ### The image's form (R199, R200, R10, R239, R439) -/

/-- A directory entry is well formed (R199, R200, Table 2); CLE_OWNER has one entry for each of the 128 loop slots (Table 3). -/
def Adm.sectOk (a : Adm) (x : Sect) : Bool :=
  (sectTypes.any fun t => t.1 == x.type && t.2.1 == x.bytes) && (x.type != 0x16 || x.count == 128) && !x.rsvd && x.off % 64 == 0 && decide (256 + 16 * a.g.sectCount ≤ x.off) &&
    decide (x.off + x.count * x.bytes ≤ a.bytes)

/-- The bits of the header that Table 1 leaves reserved are zero. -/
def Img.hdrClean (g : Img) : Bool :=
  g 5 1 == 0 && fld (g 18 2) 6 10 == 0 && onlyFields [(0, 9), (16, 5), (24, 2)] (g 24 4) && g 28 4 == 0 && g 176 80 == 0

/-- Elements of a slot table with a reserved bit set (R207, R414, Table 3). -/
def slotRsvd (type x : Nat) : Bool := if type = 0x05 then decide (2 ^ 10 ≤ x) else if type = 0x07 then bit x 6 else false

/-- A slot table whose array leaves the image, or has a reserved bit set. -/
def Adm.tabBad (a : Adm) (type x : Nat) : Bool :=
  let (_, _, n, off) := slotHead type x
  decide (a.bytes < off + n * (slotBits type / 8)) || (a.g.elems off (slotBits type) n).any (slotRsvd type)

/-- A watchdog's target is in the plan (R439). -/
def Plan.wdgTarget (pl : Plan) (e : WdgEnt) : Bool :=
  match e.kind with
  | 1 => pl.jobs.any fun r => r.job == e.target
  | 2 => pl.bindings.any fun b => b.point == e.target
  | 3 => ((pl.cleOwners[e.target]?).map Owner.owned).getD false
  | 4 => decide (e.target < 4)
  | _ => false

/-- Criticality class of a partition of the plan. -/
def Plan.classOf (pl : Plan) (p : Nat) : Nat := ((pl.parts[p]?).map PartEnt.cls).getD 0

def Adm.formatBad (a : Adm) : Option Nat :=
  let g := a.g
  let ss := g.sects
  let pl := a.pl
  let laps := fun i => match ss[i]? with | some x => (ss.take i).any fun y => rangesMeet x.off (x.count * x.bytes) y.off (y.count * y.bytes) | none => false
  let twice := fun i => match ss[i]? with | some x => (ss.take i).any fun y => y.type == x.type | none => false
  firstOf
    [hdr (g 0 4 != 0x31504B53 || g 4 1 != 0x10 || g 8 4 != a.bytes || !within 1 64 g.sectCount || !g.hdrClean || decide (a.bytes < 256 + 16 * g.sectCount)),
     findIdx (fun x => !a.sectOk x) ss 0, findIdx twice (List.range ss.length) 0, findIdx laps (List.range ss.length) 0,
     hdr (sectTypes.any fun t => t.2.2 && !ss.any fun x => x.type == t.1),
     firstOf (sectTypes.map fun t => a.bad t.1 (g.rows t.1) fun x => !onlyFields (entryFields t.1) x),
     firstOf ([0x05, 0x06, 0x07, 0x08].map fun t => a.bad t (g.rows t) (a.tabBad t)),
     a.bad 0x02 pl.wins (fun w => !w.golden && w.goldenIdx != 0),
     a.bad 0x14 pl.crossings (fun c => !within 1 10 c.kind),
     a.bad 0x15 pl.watchdogs (fun e => !pl.wdgTarget e || (e.late != 0 && decide (e.late < e.early)) || (e.kind == 1 && e.late != 0) || (e.kind == 4 && e.early != 0)),
     a.clash 0x15 pl.watchdogs (fun x y => x.index == y.index),
     a.bad 0x09 pl.jobs (fun r => decide (2 ≤ pl.classOf r.part) && !pl.watchdogs.any fun e => e.kind == 1 && e.target == r.job)]

/-! ### Hash, signature, version (R454, R456, R459) -/

/-- The image as it is hashed. -/
def Adm.hashed (a : Adm) : List Byte := (a.s.rd a.pl.addr 32 ++ List.replicate 144 0) ++ a.s.rd (a.pl.addr + 176) (a.bytes - 176)

/-- Some loaded owner key verifies a signature. -/
def State.ownerSigned (s : State) (hash sig : List Byte) : Bool :=
  (List.range 2).any fun j => match s.sec.keys.get j with | some k => ecdsaOk (leBytes 96 k.toNat) hash sig | none => false

def Adm.authBad (a : Adm) : Option Nat :=
  hdr (a.s.sec.lifecycle == .retired || sha384 a.hashed != a.g.hash || (a.s.sec.lifecycle == .owned && !a.s.ownerSigned a.g.hash a.g.sig))

/-! ### Frame, partitions, owners (R202 to R205) -/

def Adm.frameBad (a : Adm) : Option Nat :=
  let pl := a.pl
  firstOf
    [hdr (!within 600000 60000000 pl.frameTicks || !within 1 256 a.g.winCount || pl.wins.length != a.g.winCount),
     a.bad 0x02 (List.range pl.wins.length) (fun w => (w == 0 && pl.winStart w != 0) || decide (pl.winEnd w < pl.winStart w + 2400))]

def Adm.partBad (a : Adm) : Option Nat :=
  let pl := a.pl
  let rows := a.g.rows 0x01
  firstOf
    [hdr (!within 1 16 a.g.partCount || rows.length != a.g.partCount),
     a.bad 0x01 (List.range rows.length) (fun i => fld ((rows[i]?).getD 0) 0 4 != i),
     a.bad 0x01 pl.parts (fun p => !(List.range p.jobCount).all fun i => pl.jobs.any fun r => r.job == p.jobFirst + i),
     a.bad 0x01 pl.parts (fun p => p.escalate == 3 || (decide (2 ≤ p.cls) && p.escalate == 2)),
     a.clash 0x01 pl.parts (fun x y => rangesMeet x.jobFirst x.jobCount y.jobFirst y.jobCount),
     a.bad 0x09 pl.jobs (fun r => match pl.parts[r.part]? with
       | some p => !(decide (p.jobFirst ≤ r.job) && decide (r.job < p.jobFirst + p.jobCount))
       | none => true)]

/-- A partition of the plan. -/
def Plan.hasPart (pl : Plan) (p : Nat) : Bool := decide (p < pl.parts.length)

def Adm.ownerBad (a : Adm) : Option Nat := a.bad 0x02 a.pl.wins fun w => w.owners.any fun o => o.owned && (!a.pl.hasPart o.part || o.gap)

/-! ### Memory (R200, R224, R421) -/

/-- The test area of a self-test entry is a TEST_AREA entry of SPAD_RANGE (R224). -/
def SelfTest.areaOk (t : SelfTest) (pl : Plan) : Bool :=
  t.base % 64 == 0 && within 1024 16384 t.lines &&
    pl.spads.any fun r => r.test && r.rod == t.rod && r.off == t.base && r.lines == t.lines

def Adm.spadBad (a : Adm) : Option Nat :=
  firstOf
    [a.bad 0x03 a.pl.spads (fun r => r.off % 64 != 0 || !within 1 65536 r.lines || decide (spadSize < r.off + 64 * r.lines) || (!r.test && !a.pl.hasPart r.part)),
     a.clash 0x03 a.pl.spads (fun x y => x.rod == y.rod && rangesMeet x.off (64 * x.lines) y.off (64 * y.lines)),
     a.bad 0x13 a.pl.selftests (fun t => !t.areaOk a.pl)]

def Adm.regionBad (a : Adm) : Option Nat :=
  firstOf
    [a.bad 0x04 a.pl.regions (fun r =>
       let u := if r.prot then 0x100000 else 0x1000
       r.base % u != 0 || r.len % u != 0 || decide (a.s.memc.size < r.base + r.len) || !a.pl.hasPart r.part),
     a.clash 0x04 a.pl.regions (fun x y => rangesMeet x.base x.len y.base y.len)]

/-! ### Descriptors -/

/-- A per-rod entry of a job, with its place in the section. -/
structure RodOfJob where
  r : JobRec
  e : JobRod
  idx : Nat
deriving DecidableEq, Repr

def Plan.allRods (pl : Plan) : List RodOfJob :=
  pl.jobs.flatMap fun r => (pl.rodsOf r).zipIdx.map fun x => { r := r, e := x.1, idx := r.rodFirst + x.2 }

/-- The machine with the job on its rod, as the address checks read it. -/
def Adm.on (a : Adm) (x : RodOfJob) : State :=
  a.after.updRod x.e.rod fun _ =>
    { job := some x.r.job, recBase := BitVec.ofNat 32 x.e.recBase, recCount := x.e.recCount, codeBase := x.e.codeBase, codeLen := x.e.codeLen }

/-- The instructions of a job's code region on one rod. -/
def Adm.code (a : Adm) (x : RodOfJob) : List Nat := (List.range x.e.codeLen).map fun k => a.after.rdN (spadAddr x.e.rod (x.e.codeBase + 4 * k)) 4

/-- The descriptors of a job's descriptor region on one rod (R115). -/
def Adm.descs (a : Adm) (x : RodOfJob) : List Desc :=
  (List.range x.e.descCount).map fun k => Desc.ofNat (a.after.rdN (spadAddr x.e.rod (x.e.descBase + 128 * k)) 128)

/-- Some ISSUE of the job's code names the loop register of bits `lo` to `lo` + 3 (R123). -/
def Adm.shifts (a : Adm) (r : JobRec) (lo : Nat) : Bool :=
  (a.pl.allRods.filter fun x => x.r.job == r.job).any fun x => (a.code x).any fun w => fld w 26 6 == 1 && fld w lo 4 != 0

/-- The walks whose addresses are checked at admission, with whether each is slot C (R123). -/
def Adm.walksOf (a : Adm) (r : JobRec) (d : Desc) : List ((OpSlot × Nat) × Bool) :=
  let c := match d.op with | 1 | 2 => if d.keep then 9 else 2 | 7 => 9 | 8 => 0 | 9 => 2 | _ => 1
  let sa := a.shifts r 18
  let sc := a.shifts r 14
  (d.walks.zipIdx.filter fun w => !(w.2 == c && sc) && !(w.2 == 0 && d.op != 8 && sa)).map fun w => (w.1, w.2 == c)

/-- What the slots without a walk of their own address, where no ISSUE shifts it (R21, R123, R139, R147, R156): the boxes of CROP_RESIZE, the records
of ATTN_SCORE and of ATTN_MERGE. -/
def Adm.bareRanges (a : Adm) (r : JobRec) (d : Desc) (e : DescEnv) : List (Nat × Nat) :=
  match d.op with
  | 5 => [(d.b.base, 32 * d.boxCount)]
  | 7 => if a.shifts r 14 then [] else
    match e.pat d.a with
    | some p => [(d.c.base, p.ext.getD 1 0 * (64 + 32 * p.ext.getD 0 0))]
    | none => []
  | 8 => if a.shifts r 18 then [] else
    match (e.rec_ d.a.rec_).bind mergeRec with
    | some (dd, q) => [(d.a.base, d.parts * q * (64 + 32 * dd))]
    | none => []
  | _ => []

/-- The statuses that a descriptor draws at admission: those of its own checks, DESC_ENCODING of its bounds, PLAN_ADDR of its addresses. Records
of ATTN_SCORE in the partition's memory but outside the executing rod's scratchpad break R147, so that they draw DESC_ENCODING (R148). -/
def Adm.descFails (a : Adm) (x : RodOfJob) (d : Desc) : List Nat :=
  let s := a.on x
  let e := s.descEnv x.e.rod
  let ws := (a.walksOf x.r d).filterMap fun w => (e.opnd w.1.1 w.1.2).map fun o => (o, w.2)
  let arr := d.arrays (d.channels e) (d.statRecs e)
  let recs := d.recIdx.any fun i => (e.rec_ i).isNone
  let bare := a.bareRanges x.r d e
  let own := fun (b : Nat × Nat) => a.pl.inSpad x.r.part (some x.e.rod) b.1 b.2
  d.fails e ++ (if recs || ws.any (fun w => !w.1.pat.bounded) || (d.op == 7 && bare.any fun b => !own b) then [stDesc] else []) ++
    if arr.any (fun r => r.1 % r.2.2 != 0 || !s.mayHold x.e.rod r.1 r.2.1) || bare.any (fun b => !(own b || (d.op == 7 && s.partAll x.r.part b.1 b.2))) ||
        ws.any (fun w => !(s.spanOk x.e.rod (d.op == 11) w.1.touches || (d.op == 11 && w.2 && a.pl.portOk x.r.part w.1)))
      then [0x100B] else []

/-- The first entry of JOB_ROD that has a descriptor with a status. -/
def Adm.descBad (a : Adm) (st : Nat) : Option Nat :=
  ((a.pl.allRods.find? fun x => (a.descs x).any fun d => (a.descFails x d).contains st)).map fun x => a.at_ 0x0A x.idx

/-- The streams that the descriptors of a job name. -/
def Adm.streamsOf (a : Adm) (r : JobRec) : List Nat :=
  (a.pl.allRods.filter fun x => x.r.job == r.job).flatMap fun x => ((a.descs x).filter fun d => d.op == 9).map Desc.stream

/-- Two jobs name one stream (R186). -/
def Adm.streamTwice (a : Adm) : Option Nat :=
  a.clash 0x09 a.pl.jobs fun r q => (a.streamsOf r).any fun k => (a.streamsOf q).contains k

/-! ### Addresses (R21, R63, R76, R123, R297) -/

/-- `[a, a + n)` lies in partition `p`'s LPDDR5, or in its scratchpad ranges. -/
def Adm.mine (a : Adm) (p at_ n : Nat) : Bool := a.after.partAll p at_ n

/-- A rod's area of a job lies in its partition's range on that rod. -/
def Adm.inRange (a : Adm) (x : RodOfJob) (off n : Nat) : Bool := n == 0 || a.pl.inSpad x.r.part (some x.e.rod) (spadAddr x.e.rod off) n

/-- Lines of a context save area (R79). -/
def saveLines : Nat := 4176

def Adm.addrBad (a : Adm) : Option Nat :=
  let pl := a.pl
  let srcOk := fun (r : JobRec) => (pl.loadsOf r).all fun e => e.zero || (pl.inRegion r.part e.src (64 * e.lines) && a.s.inDram e.src (64 * e.lines))
  let rodOk := fun (x : RodOfJob) =>
    a.inRange x x.e.codeBase (4 * x.e.codeLen) && a.inRange x x.e.descBase (128 * x.e.descCount) && a.inRange x x.e.recBase (128 * x.e.recCount) &&
      a.inRange x x.e.ctxSave (64 * saveLines)
  let goldOk := fun (b : Binding) => !b.goldenSrc ||
    match pl.jobs.find? fun r => r.job == b.job with
    | some r => a.mine r.part b.goldenAddr (a.s.slotBytes b.point - 128)
    | none => true
  -- a base that is no address of the partition's memory; the extents have statuses of their own (R160, R185)
  let baseOk := fun (p b : Nat) => !pl.hasPart p || (pl.inRegion p b 1 && a.s.inDram b 1)
  firstOf
    [a.bad 0x0F pl.pools (fun k => !baseOk k.part k.base), a.bad 0x10 pl.carries (fun k => !baseOk k.part k.swapBase),
     a.bad 0x09 pl.jobs (fun r => !srcOk r), a.bad 0x0B pl.loads (fun e => !e.zero && !a.s.inDram e.src (64 * e.lines)),
     (pl.allRods.find? fun x => !rodOk x).map (fun x => a.at_ 0x0A x.idx), a.bad 0x0E pl.bindings (fun b => !goldOk b), a.descBad 0x100B]

/-! ### Slot tables (R207, R415, R534) -/

/-- Data slots of a pattern, and its reserved rounds (R413, Table 3). -/
def patternOf (fast : Bool) : Nat × Nat := if fast then (256, 4) else (192, 3)

/-- A directed mesh link has a neighbour at its end (R534). -/
def linkOk (l : Nat) : Bool :=
  let n := l / 4
  match l % 4 with
  | 0 => decide (n % 8 < 7)
  | 1 => decide (0 < n % 8)
  | 2 => decide (n / 8 < 7)
  | _ => decide (0 < n / 8)

def Adm.slotBad (a : Adm) : Option Nat :=
  let pl := a.pl
  let fast := a.s.memc.rate
  let (p, rsv) := patternOf fast
  let win := fun (t : SlotTab) => decide (pl.wins.length ≤ t.window)
  let same := fun (t u : SlotTab) => t.which == u.which && t.window == u.window
  let memEl := fun (x i : Nat) => bit x 4 && (decide (i % p / 16 < rsv) || !pl.hasPart (fld x 0 4) || decide (21 < fld x 5 5))
  let engEl := fun (x : Nat) => bit x 4 && (!pl.hasPart (fld x 0 4) || (bit x 5 && !pl.jobs.any fun r => r.job == fld x 6 10 && r.part == fld x 0 4))
  firstOf
    [a.bad 0x05 pl.memSlots (fun t => win t || (t.speed == 1) != fast || t.slots.length % p != 0 || !within p 4096 t.slots.length || t.slots.zipIdx.any fun e => memEl e.1 e.2),
     a.clash 0x05 pl.memSlots same,
     a.bad 0x06 pl.engSlots (fun t => win t || decide (23 < t.which) || t.slots.any engEl), a.clash 0x06 pl.engSlots same,
     a.bad 0x07 pl.meshSlots (fun t => win t || !linkOk t.which || t.slots.any fun x => bit x 7 && !(pl.owner t.window (fld x 0 6)).owned), a.clash 0x07 pl.meshSlots same,
     a.bad 0x08 pl.bankSlots (fun t => win t || t.slots.any fun x => (List.range 32).any fun b => decide (8 < fld x (4 * b) 4)), a.clash 0x08 pl.bankSlots same]

/-! ### Time (R210, R216, R239) -/

/-- The budget of a crossing kind (R238, Table 3). -/
def crossBudget (kind : Nat) : Nat :=
  match kind with | 1 => 4 | 2 => 6 | 3 => 8 | 4 => 12 | 5 => 10 | 6 => 10 | 7 => 10 | 8 => 8 | 9 => 6 | _ => 8

/-- The crossings that the plan's schedule is seen to use (R238, R239; log entry 19), as kinds and instances: rod islands with the plan island, the
memory controllers of assigned slots and of load sets with their PHYs, the intake, the CLE, and the time base when a job reads it. -/
def Adm.crossingsUsed (a : Adm) : List (Nat × Nat) :=
  let pl := a.pl
  let loads := pl.loads.any fun e => !e.zero
  let mcs := (List.range 4).filter fun i => loads || pl.memSlots.any fun t => t.which == i && t.slots.any fun x => bit x 4
  let times := pl.allRods.any fun x => (a.code x).any fun w => fld w 26 6 == 0x0E && fld w 0 4 == 6
  ((pl.allRods.map fun (x : RodOfJob) => (2, x.e.rod / 4)) ++ mcs.flatMap (fun i => [(3, i), (4, i)]) ++
    (if pl.bindings.any fun b => decide (b.point < 64) then [(5, 0)] else []) ++ (if pl.bindings.any fun b => within 64 191 b.point then [(8, 0)] else []) ++
    if times then [(9, 0)] else []).eraseDups

/-- A job's WCET fits between its release and its deadline (R210). -/
def Plan.wcetFits (pl : Plan) (r : JobRec) : Bool :=
  decide (r.startOffset + r.wcet ≤ (((pl.span r).filter (pl.mayRun r)).map pl.winLen).foldl (· + ·) 0)

/-- PREEMPT_LEAD of every window at whose end the job loses its rods (R216). -/
def Plan.leadFits (pl : Plan) (r : JobRec) : Bool :=
  (pl.span r).all fun w => !pl.mayRun r w || pl.mayRun r (pl.nextWin w) || decide (r.maxTile + 600 ≤ ((pl.wins[w]?).map WinEnt.lead).getD 0)

def Adm.timeBad (a : Adm) : Option Nat :=
  let pl := a.pl
  firstOf
    [a.bad 0x09 pl.jobs (fun r => decide (pl.frameTicks ≤ r.startOffset) || !within 1 9600 r.maxTile || !pl.wcetFits r || !pl.leadFits r),
     a.bad 0x14 pl.crossings (fun c => decide (c.slack < crossBudget c.kind)),
     if a.crossingsUsed.all fun k => pl.crossings.any fun c => c.kind == k.1 && c.inst == k.2 then none else some (a.at_ 0x14 0)]

/-! ### Power (R206, R478) -/

/-- The cap of a power plan, in units of 0.1 W (Table 5 of the settings). -/
def powerCap (plan : Nat) : Nat := match plan with | 0 => 250 | 1 => 400 | 2 => 550 | _ => 750

def Adm.powerBad (a : Adm) : Option Nat :=
  firstOf [a.bad 0x02 a.pl.wins (fun w => w.power == 0 || decide (powerCap a.power < w.power)), hdr (decide (a.power < a.pl.powerMin))]

/-! ### Tallies (R211) -/

def Adm.tallyBad (a : Adm) : Option Nat :=
  let pl := a.pl
  let sig := fun (r : JobRec) => (pl.usesOf r).filter TallyUse.signal
  firstOf
    [a.bad 0x0C pl.tallies (fun t => !pl.hasPart t.part), a.clash 0x0C pl.tallies (fun x y => x.tally == y.tally),
     a.bad 0x09 pl.jobs (fun r => decide (128 < r.tallyCount) || decide (pl.tallyUses.length < r.tallyFirst + r.tallyCount) || decide (64 < (sig r).length) ||
       (sig r).any fun u => !pl.tallies.any fun t => t.tally == u.tally && t.part == r.part)]

/-! ### Pairs (R85) -/

/-- The windows of a pair lock. -/
def Plan.lockWins (pl : Plan) (k : PairLock) : List Nat := (List.range pl.wins.length).filter k.covers

def Adm.pairPartBad (a : Adm) : Option Nat :=
  a.bad 0x11 a.pl.locks fun k =>
    decide (a.pl.wins.length ≤ k.first) || decide (a.pl.wins.length ≤ k.last) ||
    let ws := a.pl.lockWins k
    let o := a.pl.owner k.first (2 * k.pair)
    ws.any fun w => !(o.owned && a.pl.owns o.part w (2 * k.pair) && a.pl.owns o.part w (2 * k.pair + 1))

/-- A follower's scratchpad holds live data, or a save area: R85 does not say what is live, and the model takes any JOB_ROD entry, load set or carry
area on the rod, whatever its windows (DESIGN CHOICE, log entry 87). -/
def Plan.liveOn (pl : Plan) (n : Nat) : Bool :=
  (pl.allRods.any fun x => x.e.rod == n) || (pl.loads.any fun e => e.rod == n) || pl.carries.any fun c => c.areas.any fun k => k.rod == n

def Adm.pairLiveBad (a : Adm) : Option Nat := a.bad 0x11 a.pl.locks fun k => a.pl.liveOn (2 * k.pair + 1)

/-- No unpaired job can run on either rod of a locked job's pairs between its release and its deadline. -/
def Adm.pairTimeBad (a : Adm) : Option Nat :=
  let pl := a.pl
  a.bad 0x09 pl.jobs fun r => r.locked &&
    (r.rods.any (fun n => n % 2 == 1) ||
     pl.jobs.any fun q => !q.locked && (pl.span q).any fun w => (pl.span r).contains w && pl.mayRun q w && q.rods.any fun n => r.rods.contains (n / 2 * 2))

/-! ### Keeper, streams (R155, R160, R185) -/

/-- At most four key planes on a rod of a job (R155). -/
def Adm.headBad (a : Adm) : Option Nat :=
  (a.pl.allRods.find? fun x => decide (4 < (((a.descs x).filter fun d => d.op == 7).map fun d => d.b.base).eraseDups.length)).map fun x => a.at_ 0x0A x.idx

def Adm.poolBad (a : Adm) : Option Nat :=
  let pl := a.pl
  firstOf
    [a.bad 0x0F pl.pools (fun k => !pl.hasPart k.part || k.base % 4096 != 0 || !within 1 1024 k.planes || k.planeRow % 64 != 0 || !within 64 1024 k.planeRow ||
        !within 1 65536 k.ptStride || decide (2 ^ 20 < k.pageFirst + k.pageCount) || decide (4096 < k.seqFirst + k.seqCount) ||
        decide (2 ^ 20 < k.ptFirst + k.seqCount * k.ptStride) || !(pl.inRegion k.part k.base (k.pageCount * k.pageBytes) && a.s.inDram k.base (k.pageCount * k.pageBytes))),
     a.clash 0x0F pl.pools (fun x y => x.part == y.part || rangesMeet x.pageFirst x.pageCount y.pageFirst y.pageCount ||
        rangesMeet x.seqFirst x.seqCount y.seqFirst y.seqCount || rangesMeet x.ptFirst (x.seqCount * x.ptStride) y.ptFirst (y.seqCount * y.ptStride))]

def Adm.carryBad (a : Adm) : Option Nat :=
  let pl := a.pl
  firstOf
    [a.bad 0x10 pl.carries (fun k => !pl.hasPart k.part || decide (4096 < k.streamFirst + k.streamCount) || !widthOk 5440 k.maxWidth || k.swapBase % 64 != 0 ||
        !(pl.inRegion k.part k.swapBase (k.streamCount * k.stride) && a.s.inDram k.swapBase (k.streamCount * k.stride)) || decide (16 < k.areas.length) ||
        k.areas.any fun r => r.off % 64 != 0 || decide (63 < r.rod) || !pl.inSpad k.part (some r.rod) (spadAddr r.rod r.off) (64 * r.lines)),
     a.clash 0x10 pl.carries (fun x y => x.part == y.part || rangesMeet x.streamFirst x.streamCount y.streamFirst y.streamCount)]

/-! ### Intake (R233, R297, R299, R334, R358, R378) -/

/-- The partition of a point, where its source has one; none when the point is not configured. -/
def Adm.pointPart (a : Adm) (p : Nat) : Option (Option Nat) :=
  let q := a.s.point p
  let d := q.desc.toNat
  if p < 64 then if q.configured then some (some (if p < 32 then fld d 12 4 else fld d 4 4)) else none
  else if p < 192 then
    let l := a.s.cle.loops.get (p - 64)
    if l.configured && l.f 800 16 != 0 then some ((a.pl.cleOwners[p - 64]?).bind fun o => if o.owned then some o.part else some 16) else none
  else if p < 208 then if (a.s.can.ctls.get (p - 192)).minGap != 0 then some none else none
  else if p < 240 then
    let q := (a.s.eth.macs.get ((p - 208) / 4)).queues.get ((p - 208) % 4)
    if q.mode == 2 && q.minGap != 0 then some none else none
  else none

/-- The shortest interval between inputs of a point, in ticks (R299). -/
def Adm.pointT (a : Adm) (p : Nat) : Nat :=
  let d := (a.s.point p).desc.toNat
  if p < 32 then 600 * fld d 64 32
  else if p < 64 then 600 * fld d 160 32
  else if p < 192 then let l := a.s.cle.loops.get (p - 64); l.f 800 16 * l.f 8 7 * 6000
  else if p < 208 then 600 * (a.s.can.ctls.get (p - 192)).minGap
  else 600 * ((a.s.eth.macs.get ((p - 208) / 4)).queues.get ((p - 208) % 4)).minGap

/-- EMB_EXPECT and INJ_ADDR of a camera point, where they are in use. -/
def Adm.checkAreas (a : Adm) (b : Binding) : List (Nat × Nat) := 
  let d := (a.s.point b.point).desc.toNat
  if 32 ≤ b.point then [] else (if bit d 29 then [(fld d 816 48, fld d 784 8)] else []) ++ if bit d 30 then [(fld d 880 48, injBytes d)] else []

/-- Bytes a tick that the MEM_SLOT tables give the intake's port over a frame (R299, R412, R414). -/
def Adm.intakeRate (a : Adm) : ℚ :=
  let pl := a.pl
  let p := (patternOf a.s.memc.rate).1
  let one := fun (t : SlotTab) => (pl.winLen t.window : ℚ) * ((t.slots.filter fun x => bit x 4 && fld x 5 5 == 19).length * 512 * p : ℚ) / ((576 * t.slots.length : Nat) : ℚ)
  ((pl.memSlots.map one).foldl (· + ·) 0) / (pl.frameTicks : ℚ)

def Adm.bindingBad (a : Adm) (b : Binding) : Bool :=
  let pl := a.pl
  match pl.jobs.find? fun r => r.job == b.job, a.pointPart b.point with
  | some r, some part =>
    let t := a.pointT b.point
    b.policy == 3 || !within 1 16 b.depth || (match part with | some p => p != r.part | none => false) ||
      t == 0 || decide (b.depth < cdiv pl.frameTicks t + 2) ||
      !a.mine r.part (a.s.slotBase b.point) (b.depth * a.s.slotBytes b.point) ||
      (a.checkAreas b).any fun x => !a.mine r.part x.1 x.2
  | _, _ => true

def Adm.intakeBad (a : Adm) : Option Nat :=
  let pl := a.pl
  let cams := pl.bindings.filter fun b => decide (b.point < 32)
  firstOf
    [a.bad 0x0E pl.bindings a.bindingBad, a.clash 0x0E pl.bindings (fun x y => x.point == y.point),
     if decide (a.intakeRate < (cams.map fun b => (a.s.slotBytes b.point : ℚ) / (a.pointT b.point : ℚ)).foldl (· + ·) 0) then some (a.at_ 0x0E 0) else none]

/-! ### Golden frames, self-test, jobs (R210, R221, R224) -/

/-- A job posts keeper commands: a DMA_MOVE of its writes a line of PGK_JOB_PORT. -/
def Adm.postsKeeper (a : Adm) (r : JobRec) : Bool :=
  (a.pl.allRods.filter fun x => x.r.job == r.job).any fun x => (a.descs x).any fun d => d.op == 11 &&
    match ((a.on x).descEnv x.e.rod).opnd d.c d.aFmt with
    | some o => (match portLine o with | some (0, _) => true | _ => false)
    | none => false

def Adm.goldenBad (a : Adm) : Option Nat :=
  let pl := a.pl
  firstOf
    [a.bad 0x12 pl.goldens (fun e => e.period == 0 || decide (e.period ≤ e.phase) ||
        !(match pl.wins[e.window]? with | some w => w.golden && w.goldenIdx == e.index | none => false)),
     a.clash 0x12 pl.goldens (fun x y => x.index == y.index),
     a.bad 0x02 (List.range pl.wins.length) (fun w => pl.goldenWin w && !pl.goldens.any fun e => e.window == w),
     a.bad 0x09 pl.jobs (fun r => r.golden && (r.onDemand || r.releaseWin != r.deadlineWin || !pl.goldenWin r.releaseWin ||
        (pl.bindings.any fun b => b.job == r.job && !b.goldenSrc) || a.postsKeeper r))]

def Adm.selftestBad (a : Adm) : Option Nat :=
  let pl := a.pl
  firstOf
    [a.bad 0x13 pl.selftests (fun t => !within 2400 30000 t.sliceMax), a.clash 0x13 pl.selftests (fun x y => x.rod == y.rod),
     a.bad 0x02 pl.wins (fun w => w.owners.zipIdx.any fun o => o.1.gap && !pl.selftests.any fun t => t.rod == o.2)]

def Adm.jobBad (a : Adm) : Option Nat :=
  let pl := a.pl
  let n := pl.wins.length
  firstOf
    [if 1024 < pl.jobs.length then some (a.at_ 0x09 1024) else none,
     a.clash 0x09 pl.jobs (fun x y => x.job == y.job),
     a.bad 0x09 pl.jobs (fun r => r.rodMask == 0 || decide (n ≤ r.releaseWin) || decide (n ≤ r.deadlineWin) || !r.rods.all (pl.owns r.part r.releaseWin) ||
        (pl.rodsOf r).map JobRod.rod != r.rods || decide (pl.loads.length < r.loadFirst + r.loadCount) ||
        !(pl.loadsOf r).all fun e => e.off % 64 == 0 && within 1 65536 e.lines && r.rods.contains e.rod && pl.inSpad r.part (some e.rod) (spadAddr e.rod e.off) (64 * e.lines)),
     a.bad 0x0A pl.jobRods (fun e => e.codeBase % 64 != 0 || e.codeLen == 0 || e.descBase % 128 != 0 || e.recBase % 128 != 0 || e.ctxSave % 64 != 0)]

/-! ### The order of Table 14 -/

/-- The image's address and length (PLAN_ADDR). -/
def State.imageBad (s : State) (addr bytes : Nat) : Bool := addr % 64 != 0 || !within 512 (2 ^ 30) bytes || !s.inDram addr bytes

/-- The first check that fails: its status and DETAIL. Each check is made only when those before it pass. -/
def Adm.verdict (a : Adm) : Option (Nat × Nat) :=
  let cs : List (Nat × (Unit → Option Nat)) :=
    [(0x1003, fun _ => a.formatBad), (0x1004, fun _ => a.authBad), (0x1005, fun _ => hdr (decide (a.pl.svn < a.s.sec.counter 1))),
     (0x1006, fun _ => a.frameBad), (0x1007, fun _ => a.partBad), (0x1008, fun _ => a.ownerBad), (0x1009, fun _ => a.spadBad), (0x100A, fun _ => a.regionBad),
     (0x100B, fun _ => a.addrBad), (0x100C, fun _ => a.slotBad), (0x100D, fun _ => a.timeBad), (0x100E, fun _ => a.powerBad), (0x100F, fun _ => a.tallyBad),
     (0x1010, fun _ => a.descBad 0x1010), (0x1011, fun _ => a.descBad 0x1011), (0x1012, fun _ => a.descBad 0x1012), (0x1013, fun _ => a.descBad 0x1013),
     (0x1014, fun _ => a.descBad 0x1014),
     (0x1015, fun _ => (a.pl.allRods.find? fun x => (a.code x).any fun w => !instrOk w).map fun x => a.at_ 0x0A x.idx),
     (0x1016, fun _ => firstOf [a.descBad 0x1016, a.streamTwice]), (0x1017, fun _ => a.pairPartBad), (0x1018, fun _ => a.pairLiveBad),
     (0x1019, fun _ => a.pairTimeBad), (0x101A, fun _ => a.headBad), (0x101B, fun _ => a.poolBad), (0x101C, fun _ => a.carryBad), (0x101D, fun _ => a.intakeBad),
     (0x101E, fun _ => a.goldenBad), (0x101F, fun _ => a.selftestBad), (0x1020, fun _ => a.jobBad)]
  cs.findSome? fun c => (c.2 ()).map fun d => (c.1, d)

/-- The plan of an image in memory. -/
def State.planAt (s : State) (addr bytes : Nat) : Plan := Img.plan (fun o n => s.rdN (addr + o) n) addr bytes

/-- LOAD_PLAN's verdict on an image: none when it is accepted (R227). -/
def State.loadVerdict (s : State) (addr bytes power : Nat) : Option (Nat × Nat) :=
  if s.imageBad addr bytes then some (0x1002, inHeader)
  else
    let pl := s.planAt addr bytes
    let after := { s.loadSpads pl with pln.plan := some pl }
    Adm.verdict { s := s, power := power, g := fun o n => s.rdN (addr + o) n, bytes := bytes, pl := pl, after := after }

end Sys2Proof.Machine
end

