-- ==== Sys2Proof/Machine/TybPartner.lean ====
section
/-! DEFINITION. The partner protocol: heartbeats, time check, signatures and witnesses (R400 to R404), and Tyben's remaining commands. -/

namespace Sys2Proof.Machine

/-- The plan state as PLN_STATUS numbers it (R230, Table 17). -/
def PlanState.code : PlanState → Nat
  | .none => 0 | .loading => 1 | .loaded => 2 | .running => 3 | .stopping => 4 | .starting => 5

/-- PLN_STATUS. -/
def State.plnStatus (s : State) : Nat := s.pln.state.code + s.pln.window % 256 * 2 ^ 8

/-- The protocol runs: enabled, plan RUNNING, not in replay (R248, R400). -/
def State.partnerRuns (s : State) : Bool := s.tyb.partner.enable && s.pln.state == .running && !s.jrn.r.running

/-- TYB_PARTNER_CONFIG (R400, R405): an entry with LEN 14 is a direct route (R395). -/
def doTybPartnerConfig (h : Hdr) (port enable hbMiss : Byte) (hbUs tolNs : Word) (peer : BitVec 16) (s : State) : Ans :=
  let direct := (s.route peer.toNat).any fun r => r.portNo == port.toNat && r.len == 14
  checks [(h.fn != 0, 0x8001),
      (decide (1 < port.toNat) || decide (1 < enable.toNat) || !within 2 255 hbMiss.toNat || !within 100 100000 hbUs.toNat || !within 1 16383 peer.toNat, 0x8002),
      (!direct, 0x8002), (s.pln.state != .loaded, 0x8003)]
    (.ok { s with tyb.partner := { enable := enable == 1, port := port.toNat, hbMiss := hbMiss.toNat, hbUs := hbUs.toNat, tol := tolNs.toNat, peer := peer.toNat } } {})

def execTybPartnerConfig (h : Hdr) (port enable hbMiss : Byte) (hbUs tolNs : Word) (peer : BitVec 16) (s : State) : Out :=
  firmware h s (doTybPartnerConfig h port enable hbMiss hbUs tolNs peer s)

/-- TYB_SIG_CONFIG (R403, R405). -/
def doTybSigConfig (h : Hdr) (slot part enable : Byte) (s : State) : Ans :=
  checks [(h.fn != 0, 0x8001), (decide (15 < slot.toNat) || decide (15 < part.toNat) || decide (1 < enable.toNat), 0x8002)]
    (.ok { s with tyb.sigs := s.tyb.sigs.set slot.toNat { part := part.toNat, enable := enable == 1 } } {})

def execTybSigConfig (h : Hdr) (slot part enable : Byte) (s : State) : Out := firmware h s (doTybSigConfig h slot part enable s)

/-! ### Heartbeats (R401, R402) -/

/-- A message of the partner protocol over the partner port. -/
def State.toPartner (s : State) (type : Nat) (payload : List Byte) : State := s.sendVia s.tyb.partner.port s.tyb.partner.peer type payload

/-- A WITNESS message with this device's ledger head, when a ledger is open (R404). -/
def State.sendWitness (s : State) : State :=
  match s.sec.head with
  | some hash => if s.partnerRuns then s.toPartner 7 (padTo 48 hash ++ leBytes 8 s.sec.headSeq.toNat ++ leBytes 4 s.sec.epoch.toNat) else s
  | none => s

/-- HEARTBEAT_SEND: sending restarts the summary word's fault count (R447). -/
def execHeartbeatSend (s : State) : Out :=
  if !s.partnerRuns then .next s
  else
    let p := s.tyb.partner
    let body := leBytes 4 p.seq.toNat ++ leBytes 8 s.pln.frameCount.toNat ++ leBytes 4 s.plnStatus ++ leBytes 4 s.faultSummary ++
      leBytes 8 s.now.toNat ++ leBytes 8 p.lastSend.toNat ++ leBytes 8 p.lastRecv.toNat
    let s := { s.toPartner 5 body with saf.summary := 0, tyb.partner := { p with seq := p.seq + 1 } }
    .next (if p.seq.toNat % 64 = 0 then s.sendWitness else s)

/-- A signed number saturated to 32 bits. -/
def satOffset (x : Int) : Word := BitVec.ofInt 32 (max (-2 ^ 31) (min (2 ^ 31 - 1) x))

/-- The four stamps of a heartbeat (R402): the partner's offset and delay, and the check against TIME_TOL_NS. -/
def State.partnerTime (s : State) (t1 t2 t3 t4 : Nat) : State :=
  let off := (-(wdiff 64 t2 t1 + wdiff 64 t3 t4)) / 2
  let del := (wdiff 64 t4 t1 - wdiff 64 t3 t2) / 2
  let p := s.tyb.partner
  let bad := p.tol != 0 && decide (p.tol < off.natAbs)
  let s := { s with tyb.partnerOffset := satOffset (-off), tyb.partnerDelay := BitVec.ofInt 32 del, tyb.partner := { p with timeSeen := bad } }
  if bad && !p.timeSeen then { s with tyb.timeBad := true }.raiseDev 0x0802 else s

/-- HEARTBEAT_RX: the partner is up; a heartbeat in a resent flit gives no stamps. -/
def execHeartbeatRx (p : Fin 2) (s : State) : Out :=
  match s.takeMsg p.val 5 with
  | none => .next s
  | some (m, s) =>
    if !s.partnerRuns || s.tyb.partner.port ≠ p.val || s.tyb.partner.peer ≠ m.src then .next s
    else
      let w := leNat m.payload
      let up := s.tyb.partner.up
      let s := { s with
        tyb.hbRxSeq := BitVec.ofNat 32 (fld w 0 32)
        tyb.partner := { s.tyb.partner with up := true, lostSeen := false, lastSend := BitVec.ofNat 64 (fld w 160 64), lastRecv := m.stamp } }
      let s := if up then s else s.blockEvent 0x8009
      let t1 := fld w 224 64
      let t2 := fld w 288 64
      .next (if m.replayed || (t1 = 0 && t2 = 0) then s else s.partnerTime t1 t2 (fld w 160 64) m.stamp.toNat).settle

/-- PARTNER_LOST: raised once until a heartbeat comes. -/
def execPartnerLost (s : State) : Out :=
  if !s.partnerRuns || s.tyb.partner.lostSeen then .next s
  else .next ({ s with tyb.lost := true, tyb.partner := { s.tyb.partner with up := false, lostSeen := true } }.raiseDev 0x0801).settle

/-! ### Signatures (R403) -/

/-- An unmatched entry that a ninth displaces is counted; the eight newest are kept. -/
def keepEight (l : List SigEnt) (e : SigEnt) : List SigEnt × Nat :=
  let l := l ++ [e]
  if l.length ≤ 8 then (l, 0) else (l.drop 1, match l.head? with | some x => b2n (!x.matched) | none => 0)

/-- An entry for a slot, from this device or the partner: what each side then holds, a mismatch, and entries displaced unmatched. -/
def sigAdd (own other : List SigEnt) (key : Word) (value : BitVec 448) : List SigEnt × List SigEnt × Bool × Nat :=
  match (own ++ other).find? fun e => e.matched && e.key == key with
  | some e => (own, other, e.value != value, 0)
  | none =>
    match other.find? fun e => !e.matched && e.key == key with
    | some e =>
      let (own, k) := keepEight own { key := key, value := value, matched := true }
      (own, other.map (fun x => if !x.matched && x.key == key then { x with matched := true } else x), e.value != value, k)
    | none => let (own, k) := keepEight own { key := key, value := value, matched := false }; (own, other, false, k)

/-- An entry arrives at slot `k` from this device (`mine`) or the partner. -/
def State.signature (s : State) (k : Nat) (mine : Bool) (key : Word) (value : BitVec 448) : State :=
  let g := s.tyb.sigs.get k
  let (own, other, bad, lost) := if mine then sigAdd g.here g.there key value else sigAdd g.there g.here key value
  let g := if mine then { g with here := own, there := other } else { g with there := own, here := other }
  let s := { s with tyb.sigs := s.tyb.sigs.set k g, tyb.unmatched := BitVec.ofNat 32 (satAdd 0xFFFFFFFF s.tyb.unmatched.toNat lost) }
  if bad then { s with tyb.mismatch := true }.raiseDev 0x0803 key (BitVec.ofNat 32 k) else s

/-- A job's line reaches TYB_SIG_PORT[k]. -/
def State.tybSigWrite (s : State) (job rod k : Nat) (data : List Byte) : State :=
  let g := s.tyb.sigs.get k
  let x := leNat data
  if data.length ≠ 64 || (s.jobRec job).map JobRec.part ≠ some g.part || fld x 32 32 ≠ 0 || !g.enable then s.raiseJob 0x0804 job (some rod)
  else
    let s := if s.partnerRuns then s.toPartner 6 (leBytes 4 k ++ data) else s
    s.signature k true (BitVec.ofNat 32 (fld x 0 32)) (BitVec.ofNat 448 (fld x 64 448))

/-- TYB_SIG_WRITE: by the job the rod runs. -/
def execTybSigWrite (rod : Fin 64) (slot : BitVec 4) (data : List Byte) (s : State) : Out :=
  match (s.rod rod.val).job with
  | some j => .next (s.tybSigWrite j rod.val slot.toNat data).settle
  | none => .next s

/-- SIGNATURE_RX: the partner's entry, for an enabled slot. -/
def execSignatureRx (p : Fin 2) (s : State) : Out :=
  match s.takeMsg p.val 6 with
  | none => .next s
  | some (m, s) =>
    let w := leNat m.payload
    let k := fld w 0 32
    if !s.partnerRuns || s.tyb.partner.port ≠ p.val || s.tyb.partner.peer ≠ m.src || 16 ≤ k || !(s.tyb.sigs.get k).enable then .next s
    else .next (s.signature k false (BitVec.ofNat 32 (fld w 32 32)) (BitVec.ofNat 448 (fld w 96 448))).settle

/-! ### Witnesses (R404) -/

/-- WITNESS_RX: the first head and a newer one are stored, an equal one changes nothing, any other conflicts. -/
def execWitnessRx (p : Fin 2) (s : State) : Out :=
  match s.takeMsg p.val 7 with
  | none => .next s
  | some (m, s) =>
    if !s.partnerRuns || s.tyb.partner.port ≠ p.val || s.tyb.partner.peer ≠ m.src then .next s
    else
      let w := leNat (m.payload.take 60)
      let old := s.tyb.witness.toNat
      let rank := fun x => fld x 384 64 + fld x 448 32 * 2 ^ 64
      if w = old then .next s
      else if old = 0 || decide (rank old < rank w) then .next { s with tyb.witness := BitVec.ofNat 480 w }
      else .next ({ s with tyb.conflict := true }.raiseDev 0x0805).settle

end Sys2Proof.Machine
end

