-- ==== Sys2Proof/Machine/Plan.lean ====
section
/-! DEFINITION. Installing a plan, opening and closing windows, and the commands of class 0x1 (R204, R212 to R214, R221 to R230, R423, R444). -/

namespace Sys2Proof.Machine

/-! ### Replacing the loaded plan (R161, R227, R400, R423, R444) -/

/-- The check lines of a 1 MiB block read as undefined data (R423). -/
def State.scramble (s : State) (block : Nat) : State :=
  let (x, s) := s.draw (8 * 0x20000)
  s.wr (block * 0x100000 + 0xE0000) (leBytes 0x20000 x.toNat)

/-- The regions in force lose their protection (R423). -/
def State.dropProt (s : State) : State :=
  let blocks := s.memc.prot.flatMap fun r => (List.range (r.len / 0x100000)).map fun i => r.base / 0x100000 + i
  let s := blocks.foldl State.scramble s
  { s with memc.prot := [], memc.scrub := {} }

/-- The keeper and the streams as LOAD_PLAN and the resets leave them: every sequence and stream closed, every page free (R161, R197). -/
def State.resetKeeper (s : State) : State :=
  { s with pgk.seqs := s.pgk.seqs.mapV (fun q => { gen := q.gen }), pgk.table := {}, pgk.pages := {}, pgk.pools := s.pgk.pools.mapV (fun p => { waits := p.waits }),
           pgk.rings := {}, pgk.landing := [], cry.streams := s.cry.streams.mapV fun t => { gen := t.gen } }

/-- An accepted image replaces the loaded plan, in the order of R227. -/
def State.install (s : State) (pl : Plan) : State :=
  let s := s.dropProt.loadSpads pl
  let s := { s with tly.values := pl.tallies.foldl (fun (t : Tab Word) (d : TallyDecl) => t.set d.tally (BitVec.ofNat 32 d.init)) {} }
  let s := s.resetKeeper
  { s with
    memc.prot := pl.regions.filter MemRegion.prot,
    sns.points := s.sns.points.mapV fun q => { q with rois := 0 },
    saf.goldens := s.saf.goldens.mapV fun g => { g with expect := none },
    tyb.partner := {},
    pln.plan := some pl, pln.state := .loaded, pln.load := none, pln.jobs := {}, pln.bounds := {}, pln.halted := {}, pln.resuming := {}, pln.goldenOn := {} }

/-! ### Inputs and completions -/

/-- A job's run entry (R230, Table 18). -/
def JobState.code : JobState → Nat
  | .idle => 0 | .released => 1 | .running => 2 | .preempted => 3 | .teardown => 4 | .failed => 5 | .halted => 6

def JobRun.word (q : JobRun) : Nat :=
  pack [(0, 4, q.state.code), (4, 4, q.restarts), (16, 16, q.gen.toNat), (32, 32, q.runs.toNat), (64, 32, q.missed.toNat), (96, 32, q.skips.toNat),
    (128, 32, q.lastEnd.toNat), (160, 16, q.lastStatus.toNat)]

/-- PLN_ST_STATUS (R230, Table 19). -/
def SelfTestRun.word (t : SelfTestRun) : Nat := pack [(0, 2, t.result.toNat), (2, 6, t.segment.toNat), (16, 16, t.passes.toNat)]

/-- A release that falls due finds the job not IDLE: it is counted, with an event record whose CODE and payload the manual does not give
(R212; log entry 9). -/
def State.missRelease (s : State) (r : JobRec) : State :=
  let s := s.updJob r.job fun q => { q with missed := satInc q.missed }
  let (c, s) := s.draw 16
  let (x, s) := s.draw 256
  s.event (partFn r.part) 0x07 r.part c.toNat x.toNat

/-- The bindings of a job that take a live input (R214, R222). -/
def Plan.liveBindings (pl : Plan) (j : Nat) : List Binding := pl.bindings.filter fun b => b.job == j && !b.goldenSrc

/-- A release of an idle job: a new generation, its inputs resolved, or the run skipped (R212, R214). -/
def State.releaseJob (s : State) (pl : Plan) (r : JobRec) : State :=
  let j := r.job
  let had := (s.jobRun j).hadRun
  let s := s.updJob j fun q =>
    { q with state := .released, gen := q.gen + 1, restarts := 0, restarted := false, requested := false, disturbed := false,
             relock := false, preemptReq := false, saves := 0, exits := {}, signalled := {}, releaseTick := s.tick, releaseFrame := s.pln.frameCount.toNat }
  let bs := pl.liveBindings j
  if bs.any fun b => s.skips b then ((bs.foldl State.skipInput s).complete j 0x1030).updJob j fun q => { q with state := .idle }
  else (bs.foldl (fun s b => s.resolve b had) s).updJob j fun q => { q with hadRun := true }

/-- A release of a job falls due at the beam that opens window `w` (R212, R220, R221). -/
def State.releaseDue (s : State) (pl : Plan) (w : Nat) (r : JobRec) : State :=
  let q := s.jobRun r.job
  let due := r.releaseWin == w && (!r.onDemand || (q.requested && decide (q.requestedAt < s.tick))) && (!r.golden || s.pln.goldenOn.get ((pl.wins[w]?.map WinEnt.goldenIdx).getD 0))
  if !due || s.pln.halted.get r.part then s
  else match q.state with
    | .idle | .failed => s.releaseJob pl r
    | _ => s.missRelease r

/-! ### Beams (R204, R216, R217, R222, R440, R444) -/

/-- The golden run of the window that closes is judged (R444). -/
def State.judgeGolden (s : State) (pl : Plan) (v : Nat) : State :=
  let idx := (pl.wins[v]?.map WinEnt.goldenIdx).getD 0
  if !pl.goldenWin v || !s.pln.goldenOn.get idx then s
  else
    let g := s.saf.goldens.get idx
    let sig := g.crcInv ^^^ BitVec.allOnes 64
    let js := pl.jobs.filter fun r => r.golden && r.releaseWin == v
    let late := js.any fun r => (s.jobRun r.job).state != .idle
    let hurt := js.any fun r => (s.jobRun r.job).disturbed
    let why : Nat := match g.expect with
      | none => 0
      | some e => if e != sig then 1 else if late then 2 else if hurt then 3 else 0
    let st : BitVec 2 := if g.expect.isNone then 3 else if why = 0 then 1 else 2
    let s := { s with saf.goldens := s.saf.goldens.upd idx fun g => { g with sig := sig, status := st, runs := if g.runs = 0xFFFF then g.runs else g.runs + 1 },
                      pln.goldenOn := s.pln.goldenOn.set idx false }
    if why = 0 then s else s.raiseDev 0x0405 (BitVec.ofNat 32 idx) (BitVec.ofNat 32 why)

/-- Jobs that have not saved their context when their rods go to others (R217). -/
def State.beamOverruns (s : State) (pl : Plan) (w : Nat) : State :=
  (s.jobList.filter fun r => (s.jobRun r.job).state == .running && !pl.mayRun r w).foldl (fun s r => s.raiseJob 0x0401 r.job) s

/-- A run that its deadline's closing beam finds unfinished raises WDG_LATE where a watchdog of KIND 1 watches it (R440). -/
def State.deadlines (s : State) (pl : Plan) (v : Nat) : State :=
  pl.watchdogs.foldl (fun s e =>
    match if e.kind = 1 then s.jobRec e.target else none with
    | some r =>
      let st := (s.jobRun r.job).state
      if r.deadlineWin == v && (st == .released || st == .running || st == .preempted || st == .teardown) then
        s.wdgTrip e true (s.tick - (s.jobRun r.job).releaseTick) (some r.job)
      else s
    | none => s) s

/-- The rods of a job are free for it (R212, R213): idle, in no hand-over or self-test, and locked when the job runs locked. -/
def State.rodsFree (s : State) (r : JobRec) : Bool :=
  r.rods.all fun n =>
    let q := s.rod n
    q.job.isNone && q.state == 0 && (!r.locked || (q.pairState == 2 && !q.again)) && (r.locked || !q.locked)

/-- The job takes its rods, a locked job both rods of each pair (R80, R213). -/
def State.takeRods (s : State) (pl : Plan) (r : JobRec) (f : JobRod → Rod → Rod) : State :=
  (pl.rodsOf r).foldl (fun s e =>
    let s := s.updRod e.rod fun q => { f e q with job := some r.job }
    if r.locked then s.updRod (e.rod + 1) fun q => { q with job := some r.job, state := 1, seq := .stopped } else s) s

/-- A pre-empted job whose partition owns its rods again begins its restore (R79, R114, R212): its JOB_ROD entries give the rods their code and
save area again. A rod on which the job has halted saved nothing and stays halted (R110). -/
def State.beginRestore (s : State) (pl : Plan) (r : JobRec) : State :=
  let exits := (s.jobRun r.job).exits
  let s := s.takeRods pl r fun e q =>
    let q := { q with codeBase := e.codeBase, codeLen := e.codeLen, recCount := e.recCount, ctxSaveBase := BitVec.ofNat 32 e.ctxSave, code := [], alignAt := none }
    if (exits.get e.rod).isSome then { q with seq := .halted, state := 1 } else { q with seq := .restoring, state := 3 }
  let s := r.rods.foldl (fun s n => s.traceJob n r.job 3) s
  s.updJob r.job fun q => { q with state := .running }

/-- The pre-empted jobs resume, the earliest pre-empted first (R213). -/
def State.resumeJobs (s : State) (pl : Plan) (w : Nat) : State :=
  let js := (s.jobList.filter fun r => (s.jobRun r.job).state == .preempted && pl.mayRun r w).mergeSort fun a b =>
    (s.jobRun a.job).preemptAt ≤ (s.jobRun b.job).preemptAt
  js.foldl (fun s r => if s.rodsFree r then s.beginRestore pl r else s) s

/-- The plan's lock and split requests at a beam (R85, R200): a pair stays locked for a locked job that is pre-empted. -/
def State.planPairs (s : State) (pl : Plan) (w : Nat) : State :=
  (pl.locks.map PairLock.pair).eraseDups.foldl (fun s k =>
    let ps := (s.rod (2 * k)).pairState
    let held := s.jobList.any fun r => r.locked && bit r.rodMask (2 * k) && (s.jobRun r.job).state == .preempted
    let req : BitVec 2 := if pl.lockedIn k w then (if ps = 2 || ps = 1 then 0 else 1) else if (ps = 2 || ps = 1) && !held then 2 else 0
    if req = 0 then s else (s.updRod (2 * k) fun q => { q with req := req }).pairNext k) s

/-- Rod `n` is in a self-test gap in window `w`. -/
def Plan.gapAt (pl : Plan) (n w : Nat) : Bool := (pl.owner w n).gap && !(pl.owner w n).owned

/-- The length of the gap of rod `n` that opens at window `w`, over at most `k` windows (R225). -/
def Plan.gapLen (pl : Plan) (n w : Nat) : Nat → Nat
  | 0 => 0
  | k + 1 => if pl.gapAt n w then pl.winLen w + pl.gapLen n (pl.nextWin w) k else 0

/-- The window before `w`. -/
def Plan.prevWin (pl : Plan) (w : Nat) : Nat := if w = 0 then pl.wins.length - 1 else w - 1

/-- A slice starts at the opening beam of each self-test gap of an enabled rod, when it lasts 7,200 ticks (R225). -/
def State.openGaps (s : State) (pl : Plan) (w : Nat) (first : Bool) : State :=
  pl.selftests.foldl (fun s t =>
    let opens := pl.gapAt t.rod w && (first || !pl.gapAt t.rod (pl.prevWin w) || (w == 0 && (List.range pl.wins.length).all (pl.gapAt t.rod)))
    if t.enable && opens && decide (7200 ≤ pl.gapLen t.rod w pl.wins.length) && (s.rod t.rod).job.isNone then
      { s with pln.selftest := s.pln.selftest.upd t.rod fun q => { q with running := true } }.updRod t.rod fun q => { q with state := 3 }
    else s) s

/-- The golden run of a window that opens: its signature starts anew in the frames that PERIOD and PHASE select (R221, R443). -/
def State.openGolden (s : State) (pl : Plan) (w : Nat) : State :=
  match pl.goldens.find? fun e => e.window == w with
  | some e =>
    let on := s.pln.frameCount.toNat % e.period == e.phase
    let s := { s with pln.goldenOn := s.pln.goldenOn.set e.index on }
    if on then { s with saf.goldens := s.saf.goldens.upd e.index fun g => { g with crcInv := 0 } } else s
  | none => s

/-- A partition that PARTITION_RESUME names is released again from beam 0 (R220, R229). -/
def State.resumeParts (s : State) : State :=
  let ps := s.pln.resuming.keys id
  let s := { s with pln.resuming := {}, pln.halted := ps.foldl (fun t p => t.set p false) s.pln.halted }
  (s.jobList.filter fun r => ps.contains r.part).foldl (fun s r => s.updJob r.job fun q => if q.state = .halted then { q with state := .idle } else q) s

/-- Window `w` opens (R204, R212): owners, golden run, releases, resumptions, locks and slices, the keeper's
waiting commands in its slots, and the trace of the beam. -/
def State.openWindow (s : State) (pl : Plan) (w : Nat) (first : Bool) : State :=
  let s := { s with pln.window := w, pln.frameTick := pl.winStart w,
                    rods := (List.range 64).foldl (fun t n => t.upd n fun q => { q with part := BitVec.ofNat 4 (pl.owner w n).part }) s.rods }
  let s := if w = 0 then s.resumeParts else s
  let s := s.openGolden pl w
  let s := if s.pln.state = .running then s.jobList.foldl (fun s r => s.releaseDue pl w r) s else s
  let s := ((s.resumeJobs pl w).planPairs pl w).openGaps pl w first
  let s := (List.range 16).foldl (fun s p => s.kvStart p (s.pgk.queues.get p).length) s
  let s := s.trace 66 1 5 w (s.pln.frameCount.toNat % 2 ^ 32)
  if s.trc.trigWindow = w then s.trigger 4 0 else s

/-! ### Starting and stopping (R229, R246) -/

/-- Replay is armed, and its first record does not start this plan (R246). -/
def State.replayMisfit (s : State) (pl : Plan) : Bool :=
  s.jrn.r.armed && !((s.replayHead.map fun x => startMatches x pl).getD false)

/-- Beam 0 of frame 0: the plan becomes RUNNING and START_PLAN is answered with the time of the start (R229, R242, R399, R439, R496).
A START record with a reserved bit, a CRC or a JSEQ that is not 0 stops the replay at once (R249). -/
def State.beginPlan (s : State) (pl : Plan) (h : Option Hdr) : State :=
  let s := { s with
    pln.state := .running, pln.start := none, pln.frameCount := 0, pln.frameTick := 0, pln.window := 0, pln.bounds := {}, pln.startTime := s.now,
    pln.jobs := s.pln.jobs.mapV (fun q => { q with hadRun := false, requested := false }),
    sns.points := s.sns.points.mapV (fun q => { q with arrivals := [] }),
    saf.wdgs := pl.watchdogs.foldl (fun (t : Tab WdgRun) (e : WdgEnt) => t.upd e.index fun r => { r with state := 1 }) s.saf.wdgs,
    trc.stamp := 0 }
  let bad := s.jrn.r.armed && (s.replayHead.map startBad).getD false
  let s := if s.jrn.r.armed then { s.replayTake with jrn.r.running := true }.replayOutputs else s
  let s := (s.journalStart pl).openWindow pl 0 true
  let s := if bad then s.replayStop 0x0044 else s
  s.replyOpt h { r0 := s.now.toNat % 2 ^ 32, r1 := s.now.toNat / 2 ^ 32 }

/-! ### Commands (R229, Table 15) -/

/-- LOAD_PLAN: the image is checked and installed when PLAN_LOAD_DONE comes. -/
def doLoadPlan (h : Hdr) (addr : BitVec 64) (bytes : Word) (s : State) : Ans :=
  checks [(h.fn != 0, 0x1024), (s.pln.state != .none && s.pln.state != .loaded, 0x1001)]
    (.later { s with pln.state := .loading,
                     pln.load := some { h := some h, addr := addr.toNat, bytes := bytes.toNat, from_ := s.pln.state, power := s.pwr.plan.toNat } })

def execLoadPlan (h : Hdr) (addr : BitVec 64) (bytes : Word) (s : State) : Out := firmware h s (doLoadPlan h addr bytes s)

/-- PLAN_LOAD_DONE (R227): the verdict on the image. An image is accepted only once the keeper's tables are initialised (R181). -/
def execPlanLoadDone (s : State) : Out :=
  match s.pln.load with
  | none => .next s
  | some p =>
    match s.loadVerdict p.addr p.bytes p.power with
    | some (st, d) => .next ({ s with pln.state := p.from_, pln.load := none }.replyOpt p.h { status := st, detail := d })
    | none => .next (if s.pgk.ready then (s.install (s.planAt p.addr p.bytes)).replyOpt p.h {} else s)

/-- START_PLAN (R229, R246, R350, R435). -/
def doStartPlan (h : Hdr) (mode pin : Byte) (at_ : BitVec 64) (s : State) : Ans :=
  match s.pln.plan with
  | none => .no (if h.fn = 0 then 0x1001 else 0x1024) 0
  | some pl =>
    checks [(h.fn != 0, 0x1024), (decide (2 < mode.toNat) || (mode == 2 && decide (3 < pin.toNat)), 0x1001), (s.pln.state != .loaded || s.saf.safe, 0x1001),
            (s.replayMisfit pl, 0x0042)]
      (if mode = 0 then .later (s.beginPlan pl (some h)).settle
       else
         let s := if mode = 1 then s.armLate at_ else s
         .later { s with pln.state := .starting, pln.start := some { h := some h, mode := mode.toNat, pin := pin.toNat, at_ := at_ } })

def execStartPlan (h : Hdr) (mode pin : Byte) (at_ : BitVec 64) (s : State) : Out := firmware h s (doStartPlan h mode pin at_ s)

/-- PLAN_START_FIRE (R229): the comparator of AT fires, or the pin's edge is seen. -/
def execPlanStartFire (s : State) : Out :=
  match s.pln.start, s.pln.plan with
  | some p, some pl => .next (if (if p.mode = 2 then p.seen else atOrLater 64 s.now.toNat p.at_.toNat) then (s.beginPlan pl p.h).settle else s)
  | _, _ => .next s

/-- STOP_PLAN (R229). -/
def doStopPlan (h : Hdr) (mode : Byte) (s : State) : Ans :=
  checks [(h.fn != 0, 0x1024), (decide (1 < mode.toNat) || (s.pln.state != .running && s.pln.state != .starting), 0x1001)]
    (if s.pln.state = .starting then .ok s.cancelStart {}
     else if mode = 1 then .later { s with pln.stop := some (some h) }.stopNow.settle
     else .later { s with pln.state := .stopping, pln.stop := some (some h) })

def execStopPlan (h : Hdr) (mode : Byte) (s : State) : Out := firmware h s (doStopPlan h mode s)

/-- PLAN_STOP_FRAME_END (R229): the current frame ends while a STOP_PLAN MODE 0 is pending. -/
def execPlanStopFrameEnd (s : State) : Out := .next (if s.pln.state = .stopping then s.stopNow.settle else s)

/-- UNLOAD_PLAN (R229, R400, R423). -/
def doUnloadPlan (h : Hdr) (s : State) : Ans :=
  checks [(h.fn != 0, 0x1024), (s.pln.state != .loaded, 0x1001)]
    (.ok { s.dropProt.zeroSpads with pln.plan := none, pln.state := .none, tyb.partner := {}, pln.halted := {}, pln.resuming := {} } {})

def execUnloadPlan (h : Hdr) (s : State) : Out := firmware h s (doUnloadPlan h s)

/-- PLAN_QUERY (R229). -/
def doPlanQuery (s : State) : Ans :=
  let (v, i) := match s.pln.plan with | some pl => (pl.version.toNat, pl.planId.toNat) | none => (0, 0)
  .ok s { r0 := pack [(0, 3, s.pln.state.code), (8, 8, s.pln.window), (16, 16, v)], r1 := i, r2 := s.pln.frameCount.toNat % 2 ^ 32 }

def execPlanQuery (h : Hdr) (s : State) : Out := firmware h s (doPlanQuery s)

/-- A job that a function may name: one of the plan, and of its own partition unless it is PF0 (R229). -/
def State.jobReach (s : State) (h : Hdr) (j : Nat) : Bool := (s.jobRec j).any fun r => h.fn == 0 || r.part == h.fn.val

/-- JOB_START (R212, R229, R235). -/
def doJobStart (h : Hdr) (job : BitVec 16) (s : State) : Ans :=
  let j := job.toNat
  let q := s.jobRun j
  checks [(!s.jobReach h j, 0x1022), (s.pln.state != .running, 0x1001), (!((s.jobRec j).any JobRec.onDemand) || q.state != .idle, 0x1021)]
    (.ok ((s.journal 0x05 j 0 j).updJob j fun q => { q with requested := true, requestedAt := if q.requested then q.requestedAt else s.tick })
      { r0 := b2n (!q.requested) })

def execJobStart (h : Hdr) (job : BitVec 16) (s : State) : Out := fastPath h s (doJobStart h job s)

/-- JOB_QUERY (R229, R230). -/
def doJobQuery (h : Hdr) (job : BitVec 16) (s : State) : Ans :=
  checks [(!s.jobReach h job.toNat, 0x1022), (s.pln.state != .loaded && s.pln.state != .running, 0x1001)]
    (.ok s { ext := some (leBytes 32 (s.jobRun job.toNat).word) })

def execJobQuery (h : Hdr) (job : BitVec 16) (s : State) : Out := firmware h s (doJobQuery h job s)

/-- A partition that a function may name (R229). -/
def State.partReach (s : State) (h : Hdr) (p : Nat) : Bool := ((s.pln.plan.map fun pl => pl.hasPart p).getD false) && (h.fn == 0 || h.fn.val == p)

/-- PARTITION_HALT (R220, R229). -/
def doPartitionHalt (h : Hdr) (p : Byte) (s : State) : Ans :=
  checks [(!s.partReach h p.toNat, 0x1022), (s.pln.state != .running, 0x1001)] (.ok (s.haltPartition p.toNat).settle {})

def execPartitionHalt (h : Hdr) (p : Byte) (s : State) : Out := firmware h s (doPartitionHalt h p s)

/-- PARTITION_RESUME (R220, R229). -/
def doPartitionResume (h : Hdr) (p : Byte) (s : State) : Ans :=
  checks [(!s.partReach h p.toNat, 0x1022), (s.pln.state != .running, 0x1001), (!s.pln.halted.get p.toNat, 0x1023)]
    (.ok { s with pln.resuming := s.pln.resuming.set p.toNat true } {})

def execPartitionResume (h : Hdr) (p : Byte) (s : State) : Out := firmware h s (doPartitionResume h p s)

/-- SELFTEST_QUERY (R229, R230). -/
def doSelftestQuery (rod : Byte) (s : State) : Ans :=
  checks [(decide (63 < rod.toNat), 0x1022)] (.ok s { r0 := (s.pln.selftest.get rod.toNat).word })

def execSelftestQuery (h : Hdr) (rod : Byte) (s : State) : Out := firmware h s (doSelftestQuery rod s)

end Sys2Proof.Machine
end

