-- ==== Sys2Proof/Machine/Beam.lean ====
section
/-! DEFINITION. What happens to a running plan in time: beams, job starts, context saves and restores, reloads, self-test slices
(R79, R111 to R114, R204, R212 to R218, R225, R226). -/

namespace Sys2Proof.Machine

/-! ### Beams (R204, R216, R217) -/

/-- The rods of a job that has not saved its context stop and go to their new owners (R112, R217). -/
def State.loseRods (s : State) (j : Nat) : State :=
  let mine := (List.range 64).filter fun n => (s.rod n).job == some j
  (mine.foldl (fun s n => ((s.stopRod n).traceJob n j 4).endSegment n j 4) s).freeRods j

/-- The jobs that lose their rods unsaved. -/
def State.overrunning (s : State) (pl : Plan) (w : Nat) : List JobRec :=
  s.jobList.filter fun r => (s.jobRun r.job).state == .running && !pl.mayRun r w

/-- The beam that closes the window in force and opens the next one. -/
def State.beamTo (s : State) (pl : Plan) (w : Nat) : State :=
  let v := s.pln.window
  let s := (s.alignTo (pl.winEnd v - 1)).journalFlush
  let s := { s with pln.frameCount := if w = 0 then s.pln.frameCount + 1 else s.pln.frameCount }
  let s := ((s.judgeGolden pl v).beamOverruns pl w).deadlines pl v
  let s := (s.overrunning pl w).foldl (fun s r => s.loseRods r.job) s
  ((s.openWindow pl w false).alignTo (pl.winStart w)).settle

/-- BEAM (R204): the next window of a running plan opens. A plan that stops at the frame end opens no further frame (R229). -/
def execBeam (w : Byte) (s : State) : Out :=
  match s.pln.plan with
  | some pl =>
    let on := s.pln.state == .running || (s.pln.state == .stopping && w.toNat != 0)
    .next (if on && w.toNat == pl.nextWin s.pln.window then s.beamTo pl w.toNat else s)
  | none => .next s

/-- PREEMPT_REQUEST (R216): running jobs that lose rods at the closing beam are asked to save. -/
def execPreemptRequest (s : State) : Out :=
  match s.pln.plan with
  | some pl =>
    let js := s.jobList.filter fun r => (s.jobRun r.job).state == .running && !pl.mayRun r (pl.nextWin s.pln.window)
    .next (js.foldl (fun s r => s.updJob r.job fun q => { q with preemptReq := true }) s)
  | none => .next s

/-! ### Starts (R93, R212, R213) -/

/-- Frame ticks since the release beam of a job's run. -/
def State.sinceRelease (s : State) (pl : Plan) (r : JobRec) : Nat :=
  (s.pln.frameCount.toNat - (s.jobRun r.job).releaseFrame) * pl.frameTicks + s.pln.frameTick - pl.winStart r.releaseWin

/-- A released job may start (R212): its partition owns its rods in the window in force, they are free, and START_OFFSET has passed since its
release, unless it restarts. -/
def State.canStart (s : State) (pl : Plan) (r : JobRec) : Bool :=
  let q := s.jobRun r.job
  q.state == .released && pl.mayRun r s.pln.window && s.rodsFree r && (q.restarted || decide (r.startOffset ≤ s.sinceRelease pl r))

/-- Job `a` goes before job `b` where both could take the same rods: restarted jobs first, then the lower number. -/
def State.goesBefore (s : State) (a b : JobRec) : Bool :=
  let x := (s.jobRun a.job).restarted
  let y := (s.jobRun b.job).restarted
  if x = y then decide (a.job < b.job) else x

/-- Another job of the partition could take some of the job's rods now, and goes before it. -/
def State.outranked (s : State) (pl : Plan) (r : JobRec) : Bool :=
  s.jobList.any fun o => o.job != r.job && o.part == r.part && o.rodMask &&& r.rodMask != 0 && s.canStart pl o && s.goesBefore o r

/-- A rod as its job starts on it (R93): the record's values, and nothing of an earlier job. -/
def JobRod.started (e : JobRod) (q : Rod) : Rod :=
  { q with
    pc := BitVec.ofNat 16 e.pc, prevPc := BitVec.ofNat 16 e.pc, l := {}, stack := [], codeBase := e.codeBase, codeLen := e.codeLen,
    descBase := BitVec.ofNat 32 e.descBase, recBase := BitVec.ofNat 32 e.recBase, recCount := e.recCount, ctxSaveBase := BitVec.ofNat 32 e.ctxSave,
    tileTicks := 0, units := {}, acc := {}, lanes := {}, seq := .ready, state := 1, ctxSaved := false, latchSec := 0, latchFrac := 0, code := [],
    alignAt := none }

/-- JOB_RUN_START (R94, R212): the job takes its rods and runs, with its first code lines loaded. -/
def execJobRunStart (j : BitVec 10) (s : State) : Out :=
  match s.pln.plan, s.jobRec j.toNat with
  | some pl, some r =>
    let on := s.pln.state == .running || s.pln.state == .stopping
    if on && s.canStart pl r && !s.outranked pl r then
      let s := (s.takeRods pl r JobRod.started).updJob r.job fun q => { q with state := .running, exits := {}, signalled := {}, preemptReq := false }
      .next (r.rods.foldl (fun s n => ((s.traceJob n r.job 0).holdCode n).2) s).settle
    else .next s
  | _, _ => .next s

/-! ### Context saves and restores (R79, R111 to R114) -/

/-- The sequencer's 1,024 bytes of a save area (R113, Table 4); the outermost loop is level 0 (DESIGN CHOICE, log entry 94). -/
def Rod.context (r : Rod) (gen part saves : Nat) : Nat :=
  let lvl := fun (v : Nat) (t : LoopLvl) => pack [(640 + 128 * v, 16, t.first.toNat), (656 + 128 * v, 16, t.last.toNat), (672 + 128 * v, 32, t.count.toNat),
    (704 + 128 * v, 32, t.next.toNat), (736 + 128 * v, 4, t.li.toNat)]
  pack [(0, 16, r.pc.toNat), (32, 3, r.stack.length), (64, 32, r.descBase.toNat), (96, 32, r.recBase.toNat), (1152, 16, gen), (1168, 4, part),
    (1184, 32, saves), (1216, 48, r.latchSec.toNat), (1264, 16, r.latchFrac.toNat)] +
  (List.range 15).foldl (fun x i => x + (r.l.get (i + 1)).toNat * 2 ^ (128 + 32 * i)) 0 +
  r.stack.reverse.zipIdx.foldl (fun x t => x + lvl t.2 t.1) 0

/-- The sequencer as a save area gives it back. -/
def Rod.ofContext (r : Rod) (x : Nat) : Rod :=
  let w := fun (o v : Nat) => BitVec.ofNat 32 (fld x (o + 128 * v) 32)
  let lvl := fun (v : Nat) => ({ first := (w 640 v).setWidth 16, last := (w 656 v).setWidth 16, count := w 672 v, next := w 704 v, li := (w 736 v).setWidth 4 } : LoopLvl)
  { r with
    pc := BitVec.ofNat 16 (fld x 0 16), prevPc := BitVec.ofNat 16 (fld x 0 16), descBase := BitVec.ofNat 32 (fld x 64 32), recBase := BitVec.ofNat 32 (fld x 96 32),
    l := (List.range 15).foldl (fun (t : Tab Word) i => t.set (i + 1) (BitVec.ofNat 32 (fld x (128 + 32 * i) 32))) {},
    stack := ((List.range (min 4 (fld x 32 3))).map lvl).reverse, latchSec := BitVec.ofNat 48 (fld x 1216 48), latchFrac := BitVec.ofNat 16 (fld x 1264 16) }

/-- The save area of rod `n` is written: accumulators as wide partials, lane registers, the sequencer (R79). -/
def State.saveRod (s : State) (n gen part saves : Nat) : State :=
  let r := s.rod n
  let a := spadAddr n r.ctxSaveBase.toNat
  let s := s.applyLoad { rod := n, off := r.ctxSaveBase.toNat, lines := saveLines, zero := true }
  let s := r.acc.cells.foldl (fun s c => s.wrN (a + 32 * c.1) 32 (c.2.wide c.2.holding)) s
  let s := r.lanes.cells.foldl (fun s c => s.wrN (a + 64 * 4096 + 4 * c.1) 4 c.2.toNat) s
  s.wrN (a + 64 * 4160) 1024 (r.context gen part saves)

/-- Rod `n` has saved its context; a locked pair's follower holds a copy at the same offsets (R80). -/
def State.saved (s : State) (n j saves : Nat) : State :=
  let g := (s.jobRun j).gen.toNat
  let p := s.jobPart j
  let s := s.saveRod n g p saves
  let off := (s.rod n).ctxSaveBase.toNat
  let s := if (s.rod n).locked then s.wr (spadAddr (n + 1) off) (s.rd (spadAddr n off) (64 * saveLines)) else s
  (((s.count n 18 saveLines).traceJob n j 2).endSegment n j 2).updRod n fun q => { q with ctxSaved := true }

/-- CONTEXT_SAVE_DONE (R79, R212): every rod of the job that still ran has saved, and the job is PREEMPTED. -/
def execContextSaveDone (j : BitVec 10) (s : State) : Out :=
  let n := j.toNat
  match s.jobRec n with
  | some r =>
    let q := s.jobRun n
    let live := r.rods.filter fun k => ((q.exits.get k).isNone)
    if q.state == .running && !live.isEmpty && live.all fun k => (s.rod k).seq == .saving then
      let s := live.foldl (fun s k => s.saved k n (q.saves + 1)) s
      let s := (s.freeRods n).updJob n fun q => { q with state := .preempted, preemptAt := s.pln.preempts, saves := q.saves + 1, preemptReq := false }
      .next { s with pln.preempts := s.pln.preempts + 1 }
    else .next s
  | none => .next s

/-- One rod of a job is restored from its save area. A mark of an uncorrectable word raises SPAD_UE (R75); a context of another run or
partition raises CTX_MISMATCH (R114). -/
def State.restoreRod (s : State) (n j : Nat) : State :=
  let off := (s.rod n).ctxSaveBase.toNat
  match s.spadRead n off (64 * saveLines) with
  | (none, s) => s
  | (some _, s) =>
    let a := spadAddr n off
    let x := s.rdN (a + 64 * 4160) 1024
    if fld x 1152 16 != (s.jobRun j).gen.toNat || fld x 1168 4 != s.jobPart j then s.rodFault n 0x020D
    else
      let acc := (List.range 8192).foldl (fun (t : Tab Acc) k => t.set k (let w := s.rdN (a + 32 * k) 32; if w = 0 then {} else Acc.ofWide w 3)) {}
      let lanes := (List.range 1024).foldl (fun (t : Tab Word) k => t.set k (BitVec.ofNat 32 (s.rdN (a + 64 * 4096 + 4 * k) 4))) {}
      (((s.count n 18 saveLines).updRod n fun q =>
        { q.ofContext x with acc := acc, lanes := lanes, seq := .ready, state := 1, tileTicks := 0, ctxSaved := false }).holdCode n).2

/-- CONTEXT_RESTORE_DONE (R79, R114): the rods that restore go on. -/
def execContextRestoreDone (j : BitVec 10) (s : State) : Out :=
  let mine := (List.range 64).filter fun n => (s.rod n).job == some j.toNat && (s.rod n).seq == .restoring
  .next (mine.foldl (fun s n => s.restoreRod n j.toNat) s).settle

/-! ### Reloads (R218) -/

/-- A load set of a restarting job (R218): a scratchpad in hand-over does not take it (R88). -/
def State.reload (s : State) (j : Nat) (e : LoadSet) : State :=
  match s.heldRod (spadAddr e.rod e.off) (64 * e.lines) with
  | some k => s.handoverAccess k (some j)
  | none => s.applyLoad e

/-- RELOAD_COMPLETE (R212, R218): the load sets are applied and the job is RELEASED again; after LOCKSTEP_MISMATCH its pairs lock anew, once no
other job stands between its start and its end on them. -/
def execReloadComplete (j : BitVec 10) (s : State) : Out :=
  let n := j.toNat
  match s.pln.plan, s.jobRec n with
  | some pl, some r =>
    if (s.jobRun n).state = .teardown then
      let relock := (s.jobRun n).relock
      let s := (pl.loadsOf r).foldl (fun s e => s.reload n e) s
      let s := if relock then r.rods.foldl (fun s k => (s.updRod (k / 2 * 2) fun q => { q with again := true }).pairNext (k / 2)) s else s
      .next (s.updJob n fun q => { q with state := .released, restarts := q.restarts + 1, restarted := true, disturbed := true, relock := false, exits := {} }).settle
    else .next s
  | _, _ => .next s

/-! ### Self-test slices (R225, R226) -/

/-- The restore that ends a slice: the test area zero, the rod's arithmetic state cleared, the rod returned (Table 13). -/
def State.endSlice (s : State) (n : Nat) : State :=
  let t := (s.pln.plan.bind fun pl => pl.selftests.find? fun e => e.rod == n).getD {}
  let s := s.applyLoad { rod := n, off := t.base, lines := t.lines, zero := true }
  let s := { s with pln.selftest := s.pln.selftest.upd n fun q => { q with running := false } }
  s.updRod n fun q => { q with state := 0, acc := {}, lanes := {}, units := {}, l := {}, stack := [], seq := .stopped }

/-- SELFTEST_SLICE_STOP (R225): a segment still running at the stop point is INCOMPLETE. -/
def execSelftestSliceStop (rod : Fin 64) (s : State) : Out :=
  let n := rod.val
  if (s.pln.selftest.get n).running then
    .next ({ s with pln.selftest := s.pln.selftest.upd n fun q => { q with result := 3 } }.endSlice n)
  else .next s

/-- SELFTEST_SEGMENT_DONE (R225): the segment passed, or ROD_SELFTEST is raised with the rod; the last segment ends the pass and the slice. -/
def execSelftestSegmentDone (rod : Fin 64) (pass last : Bool) (s : State) : Out :=
  let n := rod.val
  if (s.pln.selftest.get n).running then
    let s := { s with pln.selftest := s.pln.selftest.upd n fun q =>
      { q with result := if pass then 1 else 2, segment := if last then 0 else q.segment + 1,
               passes := if last && q.passes != 0xFFFF then q.passes + 1 else q.passes } }
    let s := if last then s.endSlice n else s
    .next (if pass then s else s.raise { code := 0x010A, rod := some n }).settle
  else .next s

end Sys2Proof.Machine
end

