-- ==== Sys2Proof/Machine/Ledger.lean ====
section
/-! DEFINITION. The ledger: records, their chain and seal, the queue (R468 to R470), and OTP programming that stops (R463). -/

namespace Sys2Proof.Machine

/-! ### The ledger (R468 to R470) -/

/-- LIFECYCLE as SEC_STATUS shows it. -/
def Lifecycle.code : Lifecycle → Nat
  | .test => 0 | .shipped => 1 | .owned => 2 | .retired => 3

/-- The first 208 bytes of a record, over which the chain hash and the seal are taken. -/
def recordBody (type epoch seq time : Nat) (prev : List Byte) (payload : Nat) : List Byte :=
  leBytes 24 (pack [(0, 8, type), (8, 8, 0x10), (32, 32, epoch), (64, 64, seq), (128, 64, time)]) ++ padTo 48 prev ++ leBytes 136 (payload * 2 ^ 64)

/-- K_L seals a record in OWNED; otherwise the seal is zero. -/
def Sec.seal (s : Sec) (body : List Byte) : List Byte :=
  if s.lifecycle = .owned then hmac384 (hmac384 s.fleetKey ("LEDGER-SEAL".toList.map fun c => BitVec.ofNat 8 c.toNat)) body else List.replicate 48 0

/-- A record takes its number: chained, sealed, with its LEDGER_PENDING event and its witness message. -/
def State.numberRec (s : State) (r : LedgerRec) (seq : Nat) (prev : List Byte) : LedgerRec × State :=
  let body := recordBody r.type s.sec.epoch.toNat seq r.time.toNat prev r.payload.toNat
  let s' := { s with sec.head := some (sha384 body), sec.headSeq := BitVec.ofNat 64 seq }
  ({ r with bytes := some (body ++ s.sec.seal body), seq := seq }, (s'.blockEvent 0xA00F).sendWitness)

/-- The next number of the chain, for a record of the queue. -/
def State.numberNext (s : State) (r : LedgerRec) : LedgerRec × State := s.numberRec r (s.sec.headSeq.toNat + 1) (s.sec.head.getD [])

/-- A record enters a queue that has room, numbered when the ledger is open. -/
def State.enqueueRec (s : State) (type payload : Nat) : State :=
  let r : LedgerRec := { type := type, time := s.now, payload := BitVec.ofNat 1024 payload, bytes := none, seq := 0 }
  let (r, s) := if s.sec.ledgerOpen then s.numberNext r else (r, s)
  { s with sec.queue := s.sec.queue ++ [r] }

/-- A record is raised: queued, or lost while 64 are held (R470). -/
def State.raiseRec (s : State) (type payload : Nat) : State :=
  if s.sec.queue.length < 64 then s.enqueueRec type payload
  else { s with sec.lostNow := satAdd 0xFFFFFFFF s.sec.lostNow 1,
                sec.lostOpen := if s.sec.lostOpen = 0xFFFF then 0xFFFF else s.sec.lostOpen + 1 }

/-- Once there is room, one LOST record counts every loss. -/
def State.flushRecs (s : State) : State :=
  if s.sec.lostNow ≠ 0 ∧ s.sec.queue.length < 64 then { s with sec.lostNow := 0 }.enqueueRec 0x06 s.sec.lostNow else s

/-- An OTP_EVENT record (Table 10). -/
def State.otpEvent (s : State) (ev which value : Nat) : State :=
  s.raiseRec 0x03 (pack [(0, 8, ev), (8, 8, which), (16, 8, value), (32, 16, s.sec.rowsUsed)])

/-- A SECURITY record (Table 10). -/
def State.securityRec (s : State) (code : Nat) : State := s.raiseRec 0x05 (code % 2 ^ 16)

/-- Every waiting record takes its number, in queue order. -/
def State.numberAll (s : State) : State :=
  let q := s.sec.queue
  let s := { s with sec.queue := [] }
  q.foldl (fun s r => if r.bytes.isSome then { s with sec.queue := s.sec.queue ++ [r] }
                      else let (r, s) := s.numberNext r; { s with sec.queue := s.sec.queue ++ [r] }) s

/-! ### Programming (R455, R462, R463) -/

/-- Some bits of a row are programmed. -/
def State.burn (s : State) (p : Nat × Word) : State := { s with sec.otp := s.sec.otp.upd p.1 (· ||| p.2) }

/-- A programming that stops part-way leaves a free prefix of its rows, the first bits among them, and a free part of the next row; a commit
word that is cut off misses its first bit (log entry 1). -/
def State.abandonOtp (s : State) : State :=
  match s.sec.job with
  | none => s
  | some j =>
    let (k, s) := s.draw 16
    let (m, s) := s.draw 32
    let z := (j.rows.takeWhile fun p => p.2 == 0).length
    let done := j.rows.take (z + 1 + k.toNat)
    let next : List (Nat × Word) :=
      match j.rows.drop (z + 1 + k.toNat), j.commit with
      | p :: _, _ => [(p.1, p.2 &&& m)]
      | [], c :: _ => [(c.1, c.2 &&& m &&& 0xFFFFFFFE)]
      | [], [] => []
    let s := (done ++ next).foldl State.burn s
    { s with sec.job := none, sec.suspended := false }

end Sys2Proof.Machine
end

