-- ==== Sys2Proof/Machine/Security.lean ====
section
/-! DEFINITION. The class 0xA commands: OTP programming, keys, attestation, debug and the ledger (R454 to R474). -/

namespace Sys2Proof.Machine

/-! ### OTP-writing commands (R455, R456, R460, R462, R463) -/

/-- Status codes (Table 12). -/
def secAccess : Nat := 0xA001
def secState : Nat := 0xA002
def secParam : Nat := 0xA003
def secAuth : Nat := 0xA004
def secRollback : Nat := 0xA005

/-- No OTP write may be accepted: a supply hold, or another write (R463, R484). -/
def State.otpRefused (s : State) : List (Bool × Nat) := [(s.pwr.hold != 0, 0xA007), (s.sec.job.isSome, 0xA006)]

/-- A command begins to program its rows and is answered when they are verified. -/
def State.program (s : State) (h : Hdr) (kind which value : Nat) (rows commit : List (Nat × Word)) : Ans :=
  .later { s with sec.job := some { h := some h, kind := kind, which := which, value := value, rows := rows, commit := commit }, sec.suspended := false }

/-- The data rows of a slot that takes some bytes, and its commit word. -/
def slotRows (t : Slot) (data : List Byte) : List (Nat × Word) :=
  (List.range t.n).map fun i => (t.first + i, BitVec.ofNat 32 (leNat ((data.drop (4 * i)).take 4)))

def slotCommit (t : Slot) (data : List Byte) : List (Nat × Word) := [(t.first + t.n, BitVec.ofNat 32 (commitWord t.idx data))]

/-- OTP_COMMIT (R461, R462). -/
def doOtpCommit (h : Hdr) (block : BitVec 1024) (s : State) : Ans :=
  checks ([(h.fn != 0, secAccess), (settingsBad block.toNat, secParam)] ++ s.otpRefused ++ [(s.sec.noSlots || s.sec.nextSlot.isNone, 0xA008)])
    (let i := s.sec.nextSlot.getD 0
     let data := leBytes 128 block.toNat
     s.program h 1 i 0 (slotRows (settingsSlot i) data) (slotCommit (settingsSlot i) data))

def execOtpCommit (h : Hdr) (block : BitVec 1024) (s : State) : Out := firmware h s (doOtpCommit h block s)

/-- OTP_QUERY (R451, R473). -/
def doOtpQuery (h : Hdr) (first rows : BitVec 16) (s : State) : Ans :=
  let a := first.toNat
  let n := rows.toNat
  checks [(h.fn != 0, secAccess), (!within 1 60 n || decide (1024 < a + n), secParam)]
    (let mask := (List.range n).foldl (fun x i => x + b2n (s.sec.weak.get (a + i)) * 2 ^ i) 0
     .ok s { ext := some (leBytes 8 mask ++ (List.range n).flatMap fun i => leBytes 4 (if fleetRow (a + i) then 0 else s.sec.row (a + i))) })

def execOtpQuery (h : Hdr) (first rows : BitVec 16) (s : State) : Out := firmware h s (doOtpQuery h first rows s)

/-- SVN of the firmware, the loaded plan or the applied override (R460). -/
def State.svnOf (s : State) (k : Nat) : Option Nat :=
  match k with
  | 0 => some s.sec.fwSvn
  | 1 => s.pln.plan.map Plan.svn
  | _ => s.sec.overrideOn.map fun _ => s.sec.overrideSvn

/-- SVN_ADVANCE (R452, R460). -/
def doSvnAdvance (h : Hdr) (counter target : Byte) (s : State) : Ans :=
  let k := counter.toNat
  let v := target.toNat
  let high := match s.svnOf k with | some x => decide (x < v) | none => true
  if h.fn = 0 ∧ k ≤ 2 ∧ v ≤ s.sec.counter k then .ok s {}
  else checks ([(h.fn != 0, secAccess), (decide (2 < k), secParam), (high, secRollback)] ++ s.otpRefused) (s.program h 2 k v (s.sec.pulses k v) [])

def execSvnAdvance (h : Hdr) (counter target : Byte) (s : State) : Out := firmware h s (doSvnAdvance h counter target s)

/-- OWNER_PROVISION (R455). -/
def doOwnerProvision (h : Hdr) (params : List Byte) (s : State) : Ans :=
  let slot := (List.range 2).find? fun i => !s.sec.consumed (provSlot i)
  checks ([(h.fn != 0, secAccess), (s.sec.lifecycle != .shipped, secState)] ++ s.otpRefused ++ [(slot.isNone, 0xA008)])
    (let i := slot.getD 0
     let data := padTo 148 params
     s.program h 3 i 0 (slotRows (provSlot i) data) (slotCommit (provSlot i) data))

def execOwnerProvision (h : Hdr) (params : List Byte) (s : State) : Out := firmware h s (doOwnerProvision h params s)

/-- A refusal with SEC_AUTH leaves a SECURITY record. -/
def authFail (s : State) : Ans := .ok (s.securityRec secAuth) { status := secAuth }

/-- OWNER_KEY_LOAD (R456). -/
def doOwnerKeyLoad (h : Hdr) (slot : Byte) (key : List Byte) (s : State) : Ans :=
  let j := slot.toNat
  checks [(h.fn != 0, secAccess), (decide (1 < j), secParam), (s.sec.revoked j, secState)]
    (if s.sec.prov.isNone || sha384 key != s.sec.keyHash j then authFail s
     else .ok { s with sec.keys := s.sec.keys.set j (some (BitVec.ofNat 768 (leNat key))) } {})

def execOwnerKeyLoad (h : Hdr) (slot : Byte) (key : List Byte) (s : State) : Out := firmware h s (doOwnerKeyLoad h slot key s)

/-- The pulses that set bit `b` of three marker copies from row `first`. -/
def Sec.markPulses (s : Sec) (first b : Nat) : List (Nat × Word) :=
  ((List.range 3).filter fun c => !bit (s.row (first + c)) b).map fun c => (first + c, BitVec.ofNat 32 (2 ^ b))

/-- OWNER_KEY_REVOKE (R456): the loaded key is discarded at once. -/
def doOwnerKeyRevoke (h : Hdr) (slot : Byte) (s : State) : Ans :=
  let j := slot.toNat
  checks ([(h.fn != 0, secAccess), (decide (1 < j) || s.sec.revoked (1 - j), secParam)] ++ s.otpRefused)
    ({ s with sec.keys := s.sec.keys.set j none }.program h 4 j 0 (s.sec.markPulses 104 j) [])

def execOwnerKeyRevoke (h : Hdr) (slot : Byte) (s : State) : Out := firmware h s (doOwnerKeyRevoke h slot s)

/-- LC_RETIRE (R473). -/
def doLcRetire (h : Hdr) (s : State) : Ans :=
  checks ([(h.fn != 0, secAccess), (s.sec.lifecycle != .owned && s.sec.lifecycle != .shipped, secState)] ++ s.otpRefused)
    (s.program h 5 0 0 (s.sec.markPulses 77 1) [])

def execLcRetire (h : Hdr) (s : State) : Out := firmware h s (doLcRetire h s)

/-- LEDGER_NEW (R469). -/
def doLedgerNew (h : Hdr) (s : State) : Ans :=
  let v := s.sec.counter 3 + 1
  checks ([(h.fn != 0, secAccess), (s.sec.ledgerOpen, 0xA00B)] ++ s.otpRefused ++ [(decide (64 < v), 0xA008)]) (s.program h 6 3 v (s.sec.pulses 3 v) [])

def execLedgerNew (h : Hdr) (s : State) : Out := firmware h s (doLedgerNew h s)

/-- A new chain begins: GENESIS, then the waiting records (R469). -/
def State.openChain (s : State) (old : Nat) : State :=
  let s := { s with sec.epoch := BitVec.ofNat 32 (s.sec.counter 3), sec.ledgerOpen := true, sec.lostOpen := 0, sec.fetched := none }
  let r : LedgerRec := { type := 1, time := s.now, payload := BitVec.ofNat 1024 (if old = 0 then 0xFFFFFFFF else old), bytes := none, seq := 0 }
  let (r, s) := s.numberRec r 0 []
  { s with sec.queue := r :: s.sec.queue }.numberAll

/-- What a finished OTP write brings about, with its OTP_EVENT record. -/
def State.otpDone (s : State) (j : OtpJob) : State :=
  match j.kind with
  | 1 =>
    let s := { s with sec.pendingGen := BitVec.ofNat 3 j.which }.otpEvent 1 j.which 0
    if s.sec.noSlots then s.otpEvent 4 j.which 0 else s
  | 2 => s.otpEvent 5 j.which j.value
  | 3 => s.otpEvent 6 j.which 0
  | 4 => s.otpEvent 7 j.which 0
  | 5 => s.otpEvent 8 0 0
  | _ => (s.otpEvent 5 3 j.value).openChain s.sec.epoch.toNat

/-- OTP_PROGRAM_DONE (R462): every row is programmed and verified; or one row fails its verify, with some bits lost or the margin gone. A data
row that fails leaves the commit word unwritten. -/
def execOtpProgramDone (bad : Option (BitVec 10 × Word)) (s : State) : Out :=
  match s.sec.job with
  | none => .next s
  | some j =>
    if s.sec.suspended then .next s
    else
      let fails := match bad with | some b => (j.rows ++ j.commit).any fun p => p.1 == b.1.toNat | none => false
      let inData := match bad with | some b => j.rows.any fun p => p.1 == b.1.toNat | none => false
      let s := (if inData then j.rows else j.rows ++ j.commit).foldl (fun s p =>
        match bad with
        | some b => if p.1 = b.1.toNat then { s.burn (p.1, p.2 &&& ~~~b.2) with sec.weak := s.sec.weak.set p.1 true } else s.burn p
        | none => s.burn p) { s with sec.job := none }
      if fails then .next ((s.otpEvent 10 j.which 0).replyOpt j.h { status := 0xA009 })
      else .next ((s.otpDone j).replyOpt j.h {})

/-- OTP_SUSPEND_TIMEOUT (R463). -/
def execOtpSuspendTimeout (s : State) : Out :=
  match s.sec.job with
  | some j => .next (if s.sec.suspended then s.abandonOtp.replyOpt j.h { status := 0xA007 } else s)
  | none => .next s

/-! ### Settings override (R464) -/

/-- Owner key `j` is held and verifies a signature over bytes. -/
def Sec.ownerOk (s : Sec) (j : Nat) (body sig : List Byte) : Bool :=
  match s.keys.get j with
  | some k => ecdsaOk (leBytes 96 k.toNat) (sha384 body) sig
  | none => false

/-- Memory initialisation begins (MEM_STATUS.STATE 1, R426), with the BOOT record (R457). ACTIVE by Table 10. -/
def State.beginMemInit (s : State) : State :=
  let act := if s.sec.overrideOn.isSome then 0xFE
    else match s.sec.lastValid with
      | some i => if s.sec.slotMarginal (settingsSlot i) then 0x80 + i else i
      | none => 0xFF
  let warm := decide (2 ≤ s.pwr.cause.toNat) && decide (s.pwr.cause.toNat ≤ 4)
  let svn := (List.range 4).foldl (fun x k => x + s.sec.counter k * 2 ^ (8 * k)) 0
  { s with sec.boot := .memInit, memc.state := 1 }.raiseRec 0x02
    (pack [(0, 8, b2n warm), (8, 8, s.sec.lifecycle.code), (16, 8, act), (24, 384, s.sec.fwMeasure.toNat), (408, 32, s.sec.fwVersion.toNat), (440, 32, svn)])

/-- SETTINGS_OVERRIDE (R461, R464): an accepted block is applied at once. -/
def doSettingsOverride (h : Hdr) (block : BitVec 2048) (s : State) : Ans :=
  let x := block.toNat
  let bytes := leBytes 256 x
  let key := fld x 16 1
  let set := fld x 64 1024
  let rsvd := fld x 14 2 != 0 || fld x 17 15 != 0 || x / 2 ^ 1856 != 0
  let owned := s.sec.lifecycle == .owned
  checks [(h.fn != 0, secAccess), (fld x 0 8 != 0x10 || rsvd || settingsBad set, secParam),
          (s.sec.boot != .awaitSettings || !s.sec.settings.overrideAllow || s.sec.lifecycle == .retired, secState)]
    (if owned && (fld x 32 32 != s.sec.fleetId || !s.sec.ownerOk key (bytes.take 136) ((bytes.drop 136).take 96)) then authFail s
     else if owned && decide (fld x 8 6 < s.sec.counter 2) then .no secRollback 0
     else
       let o := settingsOf set
       let s := { s with sec.overrideOn := some o, sec.overrideSvn := fld x 8 6, sec.settings := o, pwr.plan := o.powerPlan, tim.jumpLimit := s.settledLimit o.jumpLimit }
       .ok (s.otpEvent 9 key 0).beginMemInit {})

def execSettingsOverride (h : Hdr) (block : BitVec 2048) (s : State) : Out := firmware h s (doSettingsOverride h block s)

/-! ### Attestation and debug (R465, R466) -/

/-- The 256-byte report (Table 8). -/
def State.report (s : State) (nonce : BitVec 384) : List Byte :=
  let c := s.sec
  let svn := (List.range 4).foldl (fun x k => x + c.counter k * 2 ^ (7 * k)) 0
  leBytes 256 (pack [(0, 8, 0x10), (8, 2, c.lifecycle.code), (10, 1, b2n c.debugOpen), (11, 1, b2n c.overrideOn.isSome), (12, 1, b2n c.marginal),
    (13, 3, c.activeGen.toNat), (32, 32, c.fleetId), (64, 28, svn), (96, 384, c.fwMeasure.toNat), (480, 384, ((s.pln.plan.map Plan.hash).getD 0).toNat),
    (864, 384, nonce.toNat), (1248, 64, if c.ledgerOpen then c.headSeq.toNat else 0), (1312, 32, c.epoch.toNat), (1344, 384, leNat (c.head.getD []))])

/-- ATTEST: report and signature at DEST. -/
def doAttest (h : Hdr) (nonce : BitVec 384) (dest : BitVec 64) (s : State) : Ans :=
  checks [(h.fn != 0, secAccess), (!lineAligned dest.toNat || !inAperture dest.toNat 352, secParam), (s.sec.lifecycle != .owned, secState)]
    (let r := s.report nonce
     .ok (s.wr dest.toNat (r ++ ecdsaSign s.sec.fleetKey (sha384 r))) {})

def execAttest (h : Hdr) (nonce : BitVec 384) (dest : BitVec 64) (s : State) : Out := firmware h s (doAttest h nonce dest s)

/-- The challenge in force: head chain hash, SEQ, EPOCH and the bytes DEBUG. -/
def Sec.challenge (s : Sec) : Option (List Byte) :=
  if s.ledgerOpen then
    some (sha384 (padTo 48 (s.head.getD []) ++ leBytes 8 s.headSeq.toNat ++ leBytes 4 s.epoch.toNat ++ ("DEBUG".toList.map fun c => BitVec.ofNat 8 c.toNat)))
  else none

/-- DEBUG_CHALLENGE. -/
def doDebugChallenge (h : Hdr) (s : State) : Ans :=
  checks [(h.fn != 0, secAccess), (!s.sec.ledgerOpen, 0xA00B)] (.ok s { ext := some (s.sec.challenge.getD []) })

def execDebugChallenge (h : Hdr) (s : State) : Out := firmware h s (doDebugChallenge h s)

/-- DEBUG_UNLOCK. -/
def doDebugUnlock (h : Hdr) (token : List Byte) (s : State) : Ans :=
  let key := leNat ((token.drop 52).take 1)
  checks [(h.fn != 0, secAccess), (decide (1 < key) || ((token.drop 53).take 11).any (· != 0), secParam),
          (s.sec.lifecycle != .owned || s.sec.settings.debugPolicy != 1, secState)]
    (if s.sec.challenge != some (token.take 48) || leNat ((token.drop 48).take 4) != s.sec.fleetId ||
        !s.sec.ownerOk key (token.take 64) ((token.drop 64).take 96) then authFail s
     else .ok ({ s with sec.debugOpen := true }.securityRec 0) {})

def execDebugUnlock (h : Hdr) (token : List Byte) (s : State) : Out := firmware h s (doDebugUnlock h token s)

/-- Debug is open (R466): in SHIPPED and RETIRED, and after an unlock. -/
def Sec.debugIsOpen (s : Sec) : Bool := s.lifecycle == .shipped || s.lifecycle == .retired || s.debugOpen

/-- JTAG_INSTRUCTION (R466). With debug closed every instruction but IDCODE selects the bypass register, as IEEE 1149.1 gives. -/
def execJtagInstruction (ir : JtagIr) (s : State) : Out :=
  match ir with
  | .idcode => .next { s with sec.jtag := 0x2064A0E9 }
  | .bypass => .next { s with sec.jtag := 0 }
  | .other => if s.sec.debugIsOpen then .refused .debugUnit else .next { s with sec.jtag := 0 }

/-! ### Ledger commands (R469, R470) -/

/-- Reserved bits of a payload by record type (Table 10). -/
def payloadFields : Nat → List (Nat × Nat)
  | 1 => [(0, 32)]
  | 2 => [(0, 472)]
  | 3 => [(0, 24), (32, 16)]
  | 4 => [(0, 864)]
  | 5 => [(0, 16)]
  | 6 => [(0, 32)]
  | 7 => [(0, 512)]
  | _ => []

/-- A record with a reserved value or bit. -/
def recordBad (x : Nat) : Bool :=
  !within 1 7 (fld x 0 8) || fld x 8 8 != 0x10 || fld x 16 16 != 0 || fld x 576 64 != 0 ||
  !(fld x 640 1024 == pack ((payloadFields (fld x 0 8)).map fun f => (f.1, f.2, fld (fld x 640 1024) f.1 f.2)))

/-- LEDGER_OPEN. -/
def doLedgerOpen (h : Hdr) (record : List Byte) (s : State) : Ans :=
  let x := leNat (record.take 256)
  let epoch := fld x 32 32
  checks [(h.fn != 0, secAccess), (recordBad x, 0xA00C), (s.sec.ledgerOpen, 0xA00B),
          ((record.drop 208).take 48 != s.sec.seal (record.take 208) || decide (s.sec.counter 3 < epoch), 0xA00C), (decide (epoch < s.sec.counter 3), 0xA00D)]
    (let s := { s with
       sec.ledgerOpen := true, sec.head := some (sha384 (record.take 208)), sec.headSeq := BitVec.ofNat 64 (fld x 64 64),
       sec.epoch := BitVec.ofNat 32 (s.sec.counter 3), sec.lostOpen := 0, sec.fetched := none }
     .ok s.numberAll {})

def execLedgerOpen (h : Hdr) (record : List Byte) (s : State) : Out := firmware h s (doLedgerOpen h record s)

/-- LEDGER_FETCH. -/
def doLedgerFetch (h : Hdr) (s : State) : Ans :=
  match if h.fn = 0 then s.sec.queue.find? fun r => r.bytes.isSome else none with
  | some r => .ok { s with sec.fetched := some (max r.seq (s.sec.fetched.getD 0)) } { ext := some (r.bytes.getD []) }
  | none => .no (if h.fn = 0 then 0xA00E else secAccess) 0

def execLedgerFetch (h : Hdr) (s : State) : Out := firmware h s (doLedgerFetch h s)

/-- LEDGER_ACK. -/
def doLedgerAck (h : Hdr) (seq : BitVec 64) (s : State) : Ans :=
  checks [(h.fn != 0, secAccess), (match s.sec.fetched with | some n => decide (n < seq.toNat) | none => true, secParam)]
    (.ok { s with sec.queue := s.sec.queue.filter fun r => r.bytes.isNone || decide (seq.toNat < r.seq) }.flushRecs {})

def execLedgerAck (h : Hdr) (seq : BitVec 64) (s : State) : Out := firmware h s (doLedgerAck h seq s)

/-- LEDGER_NOTE. -/
def doLedgerNote (h : Hdr) (note : List Byte) (s : State) : Ans :=
  checks [(h.fn != 0, secAccess), (!s.sec.ledgerOpen, 0xA00B)] (.ok (s.raiseRec 0x07 (leNat (note.take 64))) {})

def execLedgerNote (h : Hdr) (note : List Byte) (s : State) : Out := firmware h s (doLedgerNote h note s)

end Sys2Proof.Machine
end

