-- ==== Sys2Proof/Machine/Boot.lean ====
section
/-! DEFINITION. The boot flow: boot ROM, firmware image, settings wait, memory initialisation, READY, and the hourly WEAR record (R426, R427,
R436, R457, R458, R472). -/

namespace Sys2Proof.Machine

/-! ### Firmware image (R457, R458) -/

/-- SEC_BOOT_WINDOW_WRITE: only in BOOT_WAIT, and only by PF0 (R257, R474). -/
def execSecBootWindowWrite (fn : Fin 16) (off : BitVec 19) (data : List Byte) (s : State) : Out :=
  if fn = 0 ∧ s.sec.boot = .bootWait then
    let bs := data.take (0x80000 - off.toNat)
    .next { s with sec.window := bs.zipIdx.foldl (fun (t : Tab Byte) x => t.set (off.toNat + x.2) x.1) s.sec.window }
  else .next s

/-- Bytes of the boot window. -/
def Sec.image (s : Sec) (a n : Nat) : List Byte := (List.range n).map fun i => s.window.get (a + i)

/-- The measurement of an image of some length: its SHA-384 with the signature taken as zero. -/
def Sec.measure (s : Sec) (len : Nat) : List Byte := sha384 (s.image 0 128 ++ List.replicate 96 0 ++ s.image 224 (len - 224))

/-- RESULT of the check of the image in the window: 1 pass, 2 length, 3 key hash, 4 signature, 5 rollback, 6 format (Table 13). -/
def Sec.verify (s : Sec) : Nat :=
  let x := leNat (s.image 0 256)
  let len := fld x 64 32
  let key := s.image 32 96
  if fld x 0 32 != 0x4D574B52 || fld x 32 8 != 0x10 then 6
  else if !within 256 524288 len then 2
  else if sha384 key != s.rowBytes 64 12 then 3
  else if !ecdsaOk key (s.measure len) (s.image 128 96) then 4
  else if fld x 40 6 < s.counter 0 then 5
  else 1

/-- VERIFY: the firmware starts, or the ROM waits for another image (Table 3). `next` is what follows a start. -/
def State.verifyImage (s : State) (next : State → State) : State :=
  let r := s.sec.verify
  if r = 1 then
    let x := leNat (s.sec.image 0 256)
    next { s with
      sec.result := 1, sec.fwMeasure := BitVec.ofNat 384 (leNat (s.sec.measure (fld x 64 32))), sec.fwVersion := BitVec.ofNat 32 (fld x 96 32),
      sec.fwSvn := fld x 40 6, pgk.ready := true }
  else
    { s with sec.result := BitVec.ofNat 4 r, sec.failures := if s.sec.failures = 0xFF then 0xFF else s.sec.failures + 1, sec.boot := .bootWait }

/-- SEC_BOOT_GO (R458). -/
def execSecBootGo (fn : Fin 16) (value : Word) (s : State) : Out :=
  if fn = 0 ∧ s.sec.boot = .bootWait ∧ bit value.toNat 0 then .next (s.verifyImage fun s => { s with sec.boot := .awaitSettings }) else .next s

/-! ### Boot ROM (R454, R457, R463) -/

/-- The OTP_EVENT records of what the ROM finds: spoiled slots, and marginal slots in use (R463). -/
def State.romEvents (s : State) : State :=
  let c := s.sec
  let spoilt := ((List.range 6).filter fun i => c.spoiled (settingsSlot i)) ++ ((List.range 2).filter fun i => c.spoiled (provSlot i))
  let weak := ((c.lastValid.toList.filter fun i => c.slotMarginal (settingsSlot i))) ++ (c.prov.toList.filter fun i => c.slotMarginal (provSlot i))
  let s := spoilt.foldl (fun s i => s.otpEvent 2 i 0) s
  let s := weak.foldl (fun s i => (s.otpEvent 3 i 0).blockEvent 0xA00A) s
  { s with sec.marginal := !weak.isEmpty }

/-- BOOT_ROM: the OTP is read with the marks that its reads show (1 corrected, 2 uncorrectable, 3 margin), the lifecycle, the settings and the
link are fixed; after a warm reset the held image is verified again and memory follows at once. Without a link the ROM goes on waiting for one. -/
def execBootRom (marks : List (BitVec 10 × Fin 4)) (link : UcieLink) (s0 : State) : Out :=
  if s0.sec.boot ≠ .rom then .next s0
  else
    let bad := marks.foldl (fun (t : Tab Nat) m => if m.2 = 1 ∨ m.2 = 2 then t.set m.1.toNat m.2.val else t) {}
    let weak := marks.foldl (fun (t : Tab Bool) m => if m.2 = 3 then t.set m.1.toNat true else t) {}
    let s : State := { s0 with sec.otpBad := bad, sec.weak := weak }
    let life : Lifecycle := s.sec.lifeNow
    if life = .test then .fault .lifecycleTest
    else
      let set := s.sec.active
      let s := { s with
        sec.lifecycle := life, sec.settings := set, sec.boot := .bootWait, sec.activeGen := BitVec.ofNat 3 (s.sec.lastValid.getD 7), sec.pendingGen := 7,
        sec.epoch := BitVec.ofNat 32 (s.sec.counter 3), pwr.plan := set.powerPlan,
        tim.jumpLimit := s.settledLimit set.jumpLimit,
        hif.linkUp := false }
      match s.trained link with
      | none => .next s0
      | some s => let s := s.romEvents; .next (if s.pwr.warm then s.verifyImage State.beginMemInit else s)

/-- OVERRIDE_WAIT_EXPIRY (R457). -/
def execOverrideWaitExpiry (s : State) : Out := .next (if s.sec.boot = .awaitSettings then s.beginMemInit else s)

/-! ### Memory initialisation (R410, R426, R427) -/

/-- The populated size (R410). -/
def memSize (density : BitVec 2) (twoRanks : Bool) : Nat := 4 * (if twoRanks then 2 else 1) * (8 * 2 ^ density.toNat) * 2 ^ 30

/-- MEM_INIT_SEQUENCE: training by the active settings, or the devices brought out of self-refresh after a warm reset. -/
def execMemInitSequence (dev : MemDev) (fail : Option (Fin 32 × Fin 7)) (s : State) : Out :=
  if s.sec.boot ≠ .memInit ∨ s.memc.state = 2 ∨ s.memc.state = 3 then .next s
  else
    let set := s.sec.settings
    let trained := (List.range 32).all fun c => (s.memc.train.get c).step == 6
    if s.pwr.warm && trained then .next { s with memc.state := 2, memc.size := memSize s.memc.density s.memc.ranks }
    else
      let s := { s with memc.rate := set.memRate, memc.density := set.density, memc.ranks := set.twoRanks, memc.lp5x := set.lp5x }
      let wrong := dev.lp5x != set.lp5x || dev.density != set.density || (set.memRate && !dev.lp5x)
      let steps := fun (n : Nat) (bad : Nat → Bool) => (List.range 32).foldl (fun (t : Tab Train) c =>
        t.upd c fun q => { q with step := BitVec.ofNat 3 n, failed := bad c }) s.memc.train
      let failed := fun (n : Nat) (bad : Nat → Bool) =>
        Host.Outcome.next ({ s with memc.train := steps n bad, memc.state := 3, memc.size := 0 }.raiseDev 0x1004).settle
      if wrong then failed 1 fun _ => true
      else match fail with
        | some f => failed f.2.val fun c => c == f.1.val
        | none => .next { s with memc.train := steps 6 fun _ => false, memc.state := 2, memc.size := memSize set.density set.twoRanks, pwr.memOnce := true }

/-! ### READY and wear (R436, R457, R472) -/

/-- Sum of a table's words. -/
def Tab.total (t : Tab Word) : Nat := t.cells.foldl (fun a c => a + c.2.toNat) 0

/-- The counts that WEAR records follow: corrections, uncorrectable errors, SUPPLY_WARN latches, retrains. -/
def State.wearSums (s : State) : Nat × Nat × Nat × Nat :=
  (s.memc.rdCe.total + s.memc.wrCe.total + s.memc.inlineCe.total, s.memc.ueCount.total, s.pwr.warnCount.toNat,
   s.hif.retrains.toNat + (s.tyb.ports.get 0).retrains.toNat + (s.tyb.ports.get 1).retrains.toNat)

/-- The sums become the base of the hour that begins. -/
def State.wearBase (s : State) : State :=
  let (ce, ue, w, r) := s.wearSums
  { s with sec.wear.ces := ce, sec.wear.ues := ue, sec.wear.supplyWarns := w, sec.wear.retrains := r }

/-- BOOT_READY: memory is ready or failed, and the firmware writes SAF_CTL.RELEASE. -/
def execBootReady (s : State) : Out :=
  if s.sec.boot = .memInit ∧ (s.memc.state = 2 ∨ s.memc.state = 3) then
    .next { s with sec.boot := .ready, saf.pins := s.saf.safe, sns.ready := true }.wearBase
  else .next s

/-- WEAR_RECORD: the ageing ratios and the seconds in each temperature bin are measured; the rest is counted. -/
def execWearRecord (age : BitVec 384) (temps : BitVec 128) (s : State) : Out :=
  if s.sec.boot ≠ .ready then .next s
  else
    let (ce, ue, w, r) := s.wearSums
    let b := s.sec.wear
    let m := s.tyb.witness.toNat
    let s := { s with sec.wear.hour := b.hour + 1 }
    .next ((s.raiseRec 0x04 (pack [(0, 32, s.sec.wear.hour.toNat), (32, 384, age.toNat), (416, 128, temps.toNat), (544, 32, min 0xFFFFFFFF (ce - b.ces)),
      (576, 16, min 0xFFFF (ue - b.ues)), (592, 16, min 0xFFFF (w - b.supplyWarns)), (608, 16, min 0xFFFF (r - b.retrains)), (624, 16, s.sec.rowsUsed),
      (640, 64, fld m 384 64), (704, 32, fld m 448 32), (736, 128, fld m 0 128)])).wearBase)

end Sys2Proof.Machine
end

