-- ==== Sys2Proof/Machine/MemSys.lean ====
section
/-! DEFINITION. The memory controllers: data slots, refresh and scrubbing (R411 to R425). -/

namespace Sys2Proof.Machine

/-! ### Addresses and the slot pattern (R411 to R415, R419) -/

/-- Channel and bank of an address (Table 2). -/
def chanOf (a : Nat) : Nat := fld a 6 5
def bankOf (a : Nat) : Nat := fld a 11 4

/-- Data slots of a pattern, and its first plannable round, at the rate in force (Table 3). -/
def State.patternLen (s : State) : Nat × Nat := if s.memc.rate then (256, 4) else (192, 3)

/-- Data slot `j` lies in a plannable round. -/
def State.plannable (s : State) (j : Nat) : Bool := let (p, r) := s.patternLen; decide (r ≤ j % p / 16)

/-- The partition and port to which the plan assigns data slot `j` of an island in the window in force (R414). -/
def State.slotOwner (s : State) (island j : Nat) : Option (Nat × Nat) :=
  (s.pln.plan.bind fun pl => pl.memSlots.find? fun t => t.which == island && t.window == s.pln.window).bind fun t =>
    (t.slots[j % t.slots.length]?).bind fun e => if bit e 4 then some (fld e 0 4, fld e 5 5) else none

/-! ### Service (R416, R417) -/

/-- Data slots of an access (Table 5): reads and whole-word writes of a line, longer in a protected region, and partial writes. -/
def State.accessSlots (s : State) (q : MemReq) : Nat :=
  let prot := s.protectedAt q.addr
  let whole := q.addr % 64 == 0 && q.len == 64
  match q.wr with
  | none => if prot then 2 else 1
  | some _ => if whole then (if prot then 3 else 1) else if prot then 4 else 2

/-- A request is served: the data moves, and the access it came from completes (R258, R425). -/
def State.serve (s : State) (q : MemReq) : State :=
  match q.wr with
  | some bs => s.wr q.addr bs
  | none =>
    if s.errIn q.addr q.len = 2 then
      let s := s.noteUe q.addr
      match q.fn with
      | some _ => { s with hif.cpl := { aborted := true } }
      | none => s.raiseDev 0x1001
    else
      let d := s.rd q.addr q.len
      let s := s.noteRead q.addr q.len
      match q.fn with
      | some _ => { s with hif.cpl.data := padTo q.at_ s.hif.cpl.data ++ d ++ s.hif.cpl.data.drop (q.at_ + d.length) }
      | none => s

/-- The opened accesses of a queue take one more slot each, and move their data in their last: what is left of the queue (R417, R418). -/
def State.continueQueue (s : State) : List MemReq → State × List MemReq
  | [] => (s, [])
  | q :: rest =>
    if q.left = 1 then (s.serve q).continueQueue rest
    else let (s', l) := s.continueQueue rest; (s', { q with left := q.left - 1 } :: l)

/-- Opens accesses for a queue's requests in order, from the head, on channels not yet used, as long as they have crossed, their line is at the slot's
position and every slot of the access is the queue's (R416, R417). -/
def State.serveQueue (s : State) (pos : Nat) (mine : Nat → Bool) : List MemReq → List Nat → State × List MemReq
  | [], _ => (s, [])
  | q :: rest, used =>
    let n := s.accessSlots q
    if q.left ≠ 0 then let (s', l) := s.serveQueue pos mine rest used; (s', q :: l)
    else if q.arrival + 8 ≤ s.tick && bankOf q.addr == pos && !used.contains (chanOf q.addr) && (List.range n).all mine then
      let used := chanOf q.addr :: used
      if n = 1 then (s.serve q).serveQueue pos mine rest used
      else let (s', l) := s.serveQueue pos mine rest used; (s', { q with left := n - 1 } :: l)
    else (s, q :: rest)

/-- A data slot that is a queue's: its opened accesses go on, each keeping its channel, and others open. -/
def State.serveSlot (s : State) (pos : Nat) (mine : Nat → Bool) (l : List MemReq) : State × List MemReq :=
  let used := (l.filter fun q => q.left != 0).map fun q => chanOf q.addr
  let (s, l) := s.continueQueue l
  s.serveQueue pos mine l used

/-- Without a running plan: every queue of the island together, by arrival tick, then port (R419). -/
def State.allQueues (s : State) (island : Nat) : List MemReq :=
  let qs := (s.memc.queues.cells.filter fun c => c.1 / 512 == island).flatMap fun c => c.2
  qs.mergeSort fun a b => a.arrival < b.arrival || (a.arrival == b.arrival && a.port ≤ b.port)

/-- What is left of the island's queues. -/
def State.keepQueues (s : State) (island : Nat) (left : List MemReq) : State :=
  { s with memc.queues := ⟨s.memc.queues.cells.filterMap fun c =>
      if c.1 / 512 = island then
        let l := left.filter fun q => queueKey island q.part q.port == c.1
        if l = [] then none else some (c.1, l)
      else some c⟩ }

/-- MEM_DATA_SLOT: data slot `j` of an island, counted from the guard that follows the beam. -/
def execMemDataSlot (island : Fin 4) (j : Nat) (s : State) : Out :=
  let i := island.val
  if s.memc.state ≠ 2 || !s.plannable j then .next s
  else match s.pln.state with
    | .running | .stopping =>
      match s.slotOwner i j with
      | some (p, port) =>
        let k := 512 * i + 32 * p + port
        let mine := fun n => s.plannable (j + n) && s.slotOwner i (j + n) == some (p, port)
        let (s, left) := s.serveSlot (j % 16) mine (s.memc.queues.get k)
        .next { s with memc.queues := s.memc.queues.set k left }.settle
      | none => .next s
    | _ =>
      let (s, left) := s.serveSlot (j % 16) (fun n => s.plannable (j + n)) (s.allQueues i)
      .next (s.keepQueues i left).settle

/-! ### Refresh rounds (R413, R420, R428) -/

/-- Some channel reports a temperature above its highest refresh band: MEM_STATUS.TEMP_HIGH. -/
def State.tempHigh (s : State) : Bool := s.memc.train.cells.any fun c => c.2.high

/-- MEM_REFRESH: the device's temperature code, whether it is above the highest band, and the write-link counts it reports. -/
def execMemRefresh (channel : Fin 32) (temp : Byte) (high : Bool) (wrCe : Word) (wrUe : Bool) (s : State) : Out :=
  if s.memc.state ≠ 2 then .next s
  else
    let c := channel.val
    let was := (s.memc.train.get c).high
    let s := { s with
      memc.train := s.memc.train.upd c fun t => { t with hottest := if t.hottest.toNat < temp.toNat then temp else t.hottest, high := high },
      memc.wrCe := s.memc.wrCe.upd c fun x => BitVec.ofNat 32 (satAdd 0xFFFFFFFF x.toNat wrCe.toNat) }
    let s := if high && !was then s.raiseDev 0x1005 else s
    .next (if wrUe then s.raiseDev 0x1003 else s).settle

/-! ### Scrubbing (R424) -/

/-- The protected regions in address order. -/
def State.protRegions (s : State) : List MemRegion := s.memc.prot.mergeSort fun a b => a.base ≤ b.base

/-- Protected data lines of one bank of one channel. -/
def State.scrubLines (s : State) : Nat := (s.memc.prot.map fun r => r.len / 0x100000 * 28).foldl (· + ·) 0

/-- The base of the `k`-th protected 1 MiB block. -/
def blockBase : List MemRegion → Nat → Nat
  | [], _ => 0
  | r :: rest, k => if k < r.len / 0x100000 then r.base + k * 0x100000 else blockBase rest (k - r.len / 0x100000)

/-- The address of the `k`-th protected line of channel `c`, bank `b`. -/
def State.scrubAddr (s : State) (c b k : Nat) : Nat := blockBase s.protRegions (k / 28) + k % 28 * 2 ^ 15 + b * 2 ^ 11 + c * 2 ^ 6

/-- MEM_SCRUB: the bank's next protected line is read; a correction is written back, an uncorrectable line is left and reported. A pass is
complete when the last bank has gone round. -/
def execMemScrub (channel : Fin 32) (bank : Fin 16) (s : State) : Out :=
  let n := s.scrubLines
  if s.memc.state ≠ 2 || n = 0 then .next s
  else
    let c := channel.val
    let key := 16 * c + bank.val
    let k := s.memc.scrub.get key
    let a := s.scrubAddr c bank.val (k % n)
    let e := s.errIn a 64
    let s := if e = 2 then (s.noteUe a).raiseDev 0x1002
      else if e = 1 then
        let s := s.noteRead a 64
        { s with errs := ⟨s.errs.cells.filter fun x => !(decide (a ≤ x.1 * 4) && decide (x.1 * 4 < a + 64))⟩ }
      else s
    let done := (k + 1) % n == 0 && (List.range 512).all fun i => i == key || decide (k + 1 ≤ s.memc.scrub.get i)
    .next ({ s with memc.scrub := s.memc.scrub.set key (k + 1), memc.passes := if done then satInc s.memc.passes else s.memc.passes }).settle

end Sys2Proof.Machine
end

