-- ==== Sys2Proof/Machine/Decoder.lean ====
section
/-! DEFINITION. The record decoders: baseline JPEG of ISO/IEC 10918-1 as far as R312 supports it, and CBOR arrays of numbers (R311 to R314). -/

namespace Sys2Proof.Machine

/-! ### JPEG: tables and headers -/

/-- A component of a frame header: identifier, sampling factors, quantisation table. -/
structure JpComp where
  id : Nat
  hs : Nat
  vs : Nat
  tq : Nat
deriving DecidableEq, Repr, Inhabited

/-- What the segments read so far have set. Huffman tables by 4 × class + destination: (length, code, value). -/
structure Jp where
  q : Tab (List Nat) := {}
  huff : Tab (List (Nat × Nat × Nat)) := {}
  ri : Nat := 0
  /-- SOF marker, precision, height, width and components. -/
  sof : Option (Nat × Nat × Nat × Nat × List JpComp) := none
  /-- The quantisation table of each component, as its scan found it. -/
  qs : Tab (List Nat) := {}
  /-- Decoded blocks, in zigzag order, by component, block row and block column. -/
  blocks : Tab (List Int) := {}
deriving DecidableEq, Repr, Inhabited

/-- Table key of a block. -/
def blockKey (c by_ bx : Nat) : Nat := c * 2 ^ 32 + by_ * 2 ^ 16 + bx

/-- The codes of a Huffman table from its 16 length counts and its values (ISO/IEC 10918-1, annex C). -/
def huffCodes : List Nat → List Nat → Nat → Nat → List (Nat × Nat × Nat)
  | [], _, _, _ => []
  | n :: ns, vs, len, code =>
    ((vs.take n).zipIdx.map fun p => (len, code + p.2, p.1)) ++ huffCodes ns (vs.drop n) (len + 1) ((code + n) * 2)

/-- The tables of a DHT segment. -/
def readDht : Nat → List Nat → Jp → Jp
  | fuel + 1, t :: bs, j =>
    let counts := bs.take 16
    let n := counts.foldl (· + ·) 0
    let vs := (bs.drop 16).take n
    readDht fuel (bs.drop (16 + n)) { j with huff := j.huff.set (t / 16 * 4 + t % 16) (huffCodes counts vs 1 0) }
  | _, _, j => j

/-- The tables of a DQT segment, in zigzag order. -/
def readDqt : Nat → List Nat → Jp → Jp
  | fuel + 1, t :: bs, j =>
    let wide := decide (16 ≤ t)
    let n := if wide then 128 else 64
    let tab := if wide then (List.range 64).map fun i => bs.getD (2 * i) 0 * 256 + bs.getD (2 * i + 1) 0 else bs.take 64
    readDqt fuel (bs.drop n) { j with q := j.q.set (t % 16) tab }
  | _, _, j => j

/-- The frame header of a SOF segment. -/
def readSof (m : Nat) (bs : List Nat) : Nat × Nat × Nat × Nat × List JpComp :=
  let g := fun i => bs.getD i 0
  (m, g 0, g 1 * 256 + g 2, g 3 * 256 + g 4,
    (List.range (g 5)).map fun i => { id := g (6 + 3 * i), hs := g (7 + 3 * i) / 16, vs := g (7 + 3 * i) % 16, tq := g (8 + 3 * i) })

/-- A marker of a frame header: SOF0 to SOF15 but DHT, JPG and DAC. -/
def isSof (m : Nat) : Bool := decide (0xC0 ≤ m) && decide (m ≤ 0xCF) && m != 0xC4 && m != 0xC8 && m != 0xCC

/-- One table or header segment; APPn, COM and others are skipped (R312). -/
def Jp.segment (j : Jp) (m : Nat) (bs : List Nat) : Jp :=
  if m = 0xC4 then readDht bs.length bs j
  else if m = 0xDB then readDqt bs.length bs j
  else if m = 0xDD then { j with ri := bs.getD 0 0 * 256 + bs.getD 1 0 }
  else if isSof m && j.sof.isNone then { j with sof := some (readSof m bs) }
  else j

/-- The next marker, its segment and what follows; none where the data ends or no marker stands there. Markers without a segment have an empty one. -/
def nextMarker : List Byte → Option (Nat × List Nat × List Byte)
  | a :: rest =>
    if a != 0xFF then none
    else
      let r := rest.dropWhile (· == 0xFF)
      match r with
      | m :: t =>
        if m = 0xD8 || m = 0xD9 || (decide (0xD0 ≤ m) && decide (m ≤ 0xD7)) || m = 0x01 then some (m.toNat, [], t)
        else match t with
          | hi :: lo :: body =>
            let n := hi.toNat * 256 + lo.toNat
            if n < 2 || body.length < n - 2 then none
            else some (m.toNat, (body.take (n - 2)).map BitVec.toNat, body.drop (n - 2))
          | _ => none
      | [] => none
  | [] => none

/-- The segments up to the frame header. -/
def jpegHeader : Nat → List Byte → Jp → Jp
  | 0, _, j => j
  | fuel + 1, bs, j =>
    match nextMarker bs with
    | some (m, seg, rest) =>
      let j := j.segment m seg
      if j.sof.isSome || m == 0xD9 || m == 0xDA then j else jpegHeader fuel rest j
    | none => j

/-- Why a JPEG record is refused: 1 over the limit, 2 unsupported or malformed (R311, R312). -/
def jpegRefuse (bs : List Byte) (maxW maxH : Nat) : Option Nat :=
  if bs.take 2 != [0xFF, 0xD8] then some 2
  else match (jpegHeader bs.length bs {}).sof with
    | none => some 2
    | some (m, prec, h, w, cs) =>
      if maxW < w || maxH < h then some 1
      else if m != 0xC0 || prec != 8 || w == 0 || h == 0 then some 2
      else match cs with
        | [_] => none
        | [y, u, v] =>
          if u.hs == 1 && u.vs == 1 && v.hs == 1 && v.vs == 1 && [(1, 1), (2, 1), (2, 2)].contains (y.hs, y.vs) then none else some 2
        | _ => some 2

/-! ### JPEG: entropy-coded data -/

/-- The bits of an entropy-coded segment, highest first, and what follows it from its marker on. -/
def entropyBits : List Byte → List Bool × List Byte
  | [] => ([], [])
  | a :: rest =>
    let bits := fun (x : Byte) => [x.getLsbD 7, x.getLsbD 6, x.getLsbD 5, x.getLsbD 4, x.getLsbD 3, x.getLsbD 2, x.getLsbD 1, x.getLsbD 0]
    if a = 0xFF then
      match rest with
      | b :: t => if b = 0 then let (x, y) := entropyBits t; (bits 0xFF ++ x, y) else ([], a :: rest)
      | [] => ([], [])
    else let (x, y) := entropyBits rest; (bits a ++ x, y)

/-- The next Huffman value. -/
def huffNext (t : List (Nat × Nat × Nat)) : Nat → Nat → Nat → List Bool → Option (Nat × List Bool)
  | 0, _, _, _ => none
  | _, _, _, [] => none
  | fuel + 1, len, code, b :: bs =>
    let code := code * 2 + b2n b
    match t.find? fun e => e.1 == len + 1 && e.2.1 == code with
    | some e => some (e.2.2, bs)
    | none => huffNext t fuel (len + 1) code bs

/-- `n` bits as a number. -/
def takeBits : Nat → Nat → List Bool → Option (Nat × List Bool)
  | 0, v, bs => some (v, bs)
  | _ + 1, _, [] => none
  | n + 1, v, b :: bs => takeBits n (v * 2 + b2n b) bs

/-- A difference or coefficient of `n` bits (EXTEND of ISO/IEC 10918-1). -/
def takeSigned (n : Nat) (bs : List Bool) : Option (Int × List Bool) :=
  (takeBits n 0 bs).map fun p => (if n = 0 then 0 else if p.1 < 2 ^ (n - 1) then (p.1 : Int) - (2 ^ n - 1) else p.1, p.2)

/-- The AC coefficients of a block from index `k`, in zigzag order. -/
def acCoefs (t : List (Nat × Nat × Nat)) : Nat → Nat → List Bool → Option (List Int × List Bool)
  | 0, k, bs => if k = 64 then some ([], bs) else none
  | fuel + 1, k, bs =>
    if k = 64 then some ([], bs)
    else match huffNext t 16 0 0 bs with
      | none => none
      | some (rs, bs) =>
        let r := rs / 16
        let n := rs % 16
        if n = 0 then
          if r = 15 then (if 48 < k then none else (acCoefs t fuel (k + 16) bs).map fun p => (List.replicate 16 0 ++ p.1, p.2))
          else some (List.replicate (64 - k) 0, bs)
        else if 63 < k + r || 10 < n then none
        else match takeSigned n bs with
          | none => none
          | some (v, bs) => (acCoefs t fuel (k + r + 1) bs).map fun p => (List.replicate r 0 ++ [v] ++ p.1, p.2)

/-- One block: its coefficients and the bits after it, from the prediction in hand. -/
def jpBlock (dc ac : List (Nat × Nat × Nat)) (pred : Int) (bs : List Bool) : Option (List Int × List Bool) :=
  match huffNext dc 16 0 0 bs with
  | none => none
  | some (n, bs) =>
    if 11 < n then none
    else match takeSigned n bs with
      | none => none
      | some (d, bs) => (acCoefs ac 64 1 bs).map fun p => ((pred + d) :: p.1, p.2)

/-- A scan in progress: bits of the interval in hand, what follows, predictions, and blocks decoded. -/
structure JpScan where
  bits : List Bool
  rest : List Byte
  pred : Tab Int := {}
  blocks : Tab (List Int)
  bad : Bool := false
deriving DecidableEq, Repr, Inhabited

/-- The blocks of one coding unit. Tables of a component: DC and AC. -/
def unitBlocks (tabs : Nat → List (Nat × Nat × Nat) × List (Nat × Nat × Nat)) : List (Nat × Nat × Nat) → JpScan → JpScan
  | [], z => z
  | (c, by_, bx) :: us, z =>
    match jpBlock (tabs c).1 (tabs c).2 (z.pred.get c) z.bits with
    | none => { z with bad := true }
    | some (co, bits) =>
      unitBlocks tabs us { z with bits := bits, pred := z.pred.set c (co.headD 0), blocks := z.blocks.set (blockKey c by_ bx) co }

/-- The coding units of a scan in order, with restart intervals of `ri` units; fill bytes may stand before a restart marker. -/
def scanUnits (tabs : Nat → List (Nat × Nat × Nat) × List (Nat × Nat × Nat)) (ri : Nat) : List (List (Nat × Nat × Nat)) → Nat → JpScan → JpScan
  | [], _, z => z
  | u :: us, i, z =>
    if z.bad then z
    else
      let z := if ri != 0 && i != 0 && i % ri == 0 then
          match z.rest.head?, z.rest.dropWhile (· == 0xFF) with
          | some a, m :: t =>
            if a = 0xFF && m.toNat == 0xD0 + (i / ri - 1) % 8 then let e := entropyBits t; { z with bits := e.1, rest := e.2, pred := {} }
            else { z with bad := true }
          | _, _ => { z with bad := true }
        else z
      if z.bad then z else scanUnits tabs ri us (i + 1) (unitBlocks tabs u z)

/-- Largest sampling factors of a frame; one component counts as 1 × 1. -/
def maxSamp (cs : List JpComp) : Nat × Nat := if cs.length = 1 then (1, 1) else cs.foldl (fun a c => (max a.1 c.hs, max a.2 c.vs)) (1, 1)
def compSamp (cs : List JpComp) (c : Nat) : Nat × Nat := if cs.length = 1 then (1, 1) else ((cs.getD c default).hs, (cs.getD c default).vs)

/-- MCUs across and down. -/
def mcuGrid (w h : Nat) (cs : List JpComp) : Nat × Nat := let m := maxSamp cs; (cdiv w (8 * m.1), cdiv h (8 * m.2))

/-- Blocks of component `c` across and down. -/
def compGrid (w h : Nat) (cs : List JpComp) (c : Nat) : Nat × Nat :=
  let m := maxSamp cs
  let k := compSamp cs c
  (cdiv (cdiv (w * k.1) m.1) 8, cdiv (cdiv (h * k.2) m.2) 8)

/-- The blocks of MCU (mx, my) of the components listed. -/
def mcuBlocks (cs : List JpComp) (list : List Nat) (mx my : Nat) : List (Nat × Nat × Nat) :=
  list.flatMap fun c =>
    let k := compSamp cs c
    (List.range k.2).flatMap fun v => (List.range k.1).map fun u => (c, my * k.2 + v, mx * k.1 + u)

/-- The coding units of a scan over some components. -/
def scanPlan (w h : Nat) (cs : List JpComp) (list : List Nat) : List (List (Nat × Nat × Nat)) :=
  match list with
  | [c] =>
    let g := compGrid w h cs c
    (List.range (g.1 * g.2)).map fun i => [(c, i / g.1, i % g.1)]
  | _ =>
    let g := mcuGrid w h cs
    (List.range (g.1 * g.2)).map fun i => mcuBlocks cs list (i % g.1) (i / g.1)

/-- All segments and scans until the image ends or decoding stops (R314). -/
def jpegRun : Nat → List Byte → Jp → Jp
  | 0, _, j => j
  | fuel + 1, bs, j =>
    match nextMarker bs with
    | none => j
    | some (m, seg, rest) =>
      if m = 0xD9 then j
      else if m = 0xDA then
        match j.sof with
        | none => j
        | some (_, _, h, w, cs) =>
          let n := seg.getD 0 0
          let sel := (List.range n).map fun i =>
            (cs.findIdx? fun c => c.id == seg.getD (1 + 2 * i) 0, seg.getD (2 + 2 * i) 0)
          if n == 0 || 3 < n || seg.length != 4 + 2 * n || sel.any (fun p => p.1.isNone) || seg.getD (1 + 2 * n) 0 != 0 || seg.getD (2 + 2 * n) 0 != 63 ||
              seg.getD (3 + 2 * n) 0 != 0 then j
          else
            let list := sel.filterMap (·.1)
            let tabs := fun (c : Nat) =>
              match sel.find? fun p => p.1 == some c with
              | some (_, t) => (j.huff.get (t / 16), j.huff.get (4 + t % 16))
              | none => ([], [])
            let e := entropyBits rest
            let z := scanUnits tabs j.ri (scanPlan w h cs list) 0 { bits := e.1, rest := e.2, blocks := j.blocks }
            let j := { j with blocks := z.blocks, qs := list.foldl (fun t c => t.set c (j.q.get (cs.getD c default).tq)) j.qs }
            if z.bad then j else jpegRun fuel z.rest j
      else jpegRun fuel rest (j.segment m seg)

/-! ### JPEG: samples -/

/-- 2^13 × cos(kπ / 16), rounded, for any k. -/
def cosTab (k : Nat) : Int :=
  let t : List Int := [8192, 8035, 7568, 6811, 5793, 4551, 3135, 1598, 0]
  let m := k % 32
  if m ≤ 8 then t.getD m 0 else if m ≤ 16 then -(t.getD (16 - m) 0) else if m ≤ 24 then -(t.getD (m - 16) 0) else t.getD (32 - m) 0

/-- C[x][u] (R312). -/
def idctC (x u : Nat) : Int := if u = 0 then 5793 else cosTab ((2 * x + 1) * u)

/-- The zigzag order: row and column of each index. -/
def zigzag : List (Nat × Nat) :=
  (List.range 15).flatMap fun d =>
    let cells := (List.range 8).filterMap fun i => if i ≤ d && d - i < 8 then some (i, d - i) else none
    if d % 2 = 0 then cells.reverse else cells

/-- The sample of a block at column x and row y (R312). -/
def idctSample (q : List Nat) (co : List Int) (x y : Nat) : Int :=
  let sum := ((zigzag.zip co).zip q).foldl (fun a p => a + idctC x p.1.1.2 * idctC y p.1.1.1 * (p.1.2 * (p.2 : Int))) 0
  max 0 (min 255 (roundNE (128 + (sum : ℚ) / 268435456)))

/-- The MCU at (mx, my) is decoded: every block of it that belongs to the image is there. -/
def Jp.mcuDone (j : Jp) (w h : Nat) (cs : List JpComp) (mx my : Nat) : Bool :=
  (mcuBlocks cs (List.range cs.length) mx my).all fun b =>
    let g := compGrid w h cs b.1
    decide (g.1 ≤ b.2.2) || decide (g.2 ≤ b.2.1) || j.blocks.get (blockKey b.1 b.2.1 b.2.2) != []

/-- Component `c`'s sample for pixel (x, y), chroma replicated (R302, R312). -/
def Jp.sample (j : Jp) (cs : List JpComp) (c x y : Nat) : Int :=
  let m := maxSamp cs
  let k := compSamp cs c
  let sx := x * k.1 / m.1
  let sy := y * k.2 / m.2
  idctSample (j.qs.get c) (j.blocks.get (blockKey c (sy / 8) (sx / 8))) (sx % 8) (sy % 8)

/-- Y, U and V of pixel (x, y); none where its MCU was not decoded. -/
def Jp.pixel (j : Jp) (w h : Nat) (cs : List JpComp) (x y : Nat) : Option (Int × Int × Int) :=
  let m := maxSamp cs
  if !j.mcuDone w h cs (x / (8 * m.1)) (y / (8 * m.2)) then none
  else if cs.length = 1 then some (j.sample cs 0 x y, 128, 128)
  else some (j.sample cs 0 x y, j.sample cs 1 x y, j.sample cs 2 x y)

/-- MCUs not decoded (R314). -/
def Jp.missing (j : Jp) (w h : Nat) (cs : List JpComp) : Nat :=
  let g := mcuGrid w h cs
  ((List.range (g.1 * g.2)).filter fun i => !j.mcuDone w h cs (i % g.1) (i / g.1)).length

/-! ### CBOR (RFC 8949, R311, R313) -/

/-- The head of a data item: major type, additional information, argument and what follows. -/
def cborHead : List Byte → Option (Nat × Nat × Nat × List Byte)
  | [] => none
  | b :: t =>
    let maj := b.toNat / 32
    let info := b.toNat % 32
    let n := match info with | 24 => 1 | 25 => 2 | 26 => 4 | 27 => 8 | _ => 0
    if info < 24 || info = 31 then some (maj, info, info, t)
    else if 27 < info then none
    else if t.length < n then none
    else some (maj, info, beNat (t.take n), t.drop n)

/-- The number of items of the top-level array: `.ok n` or why it is refused (1 over the limit, 2 not a definite-length array). -/
def cborCount (bs : List Byte) (maxItems : Nat) : Except Nat (Nat × List Byte) :=
  match cborHead bs with
  | some (4, info, n, t) => if info = 31 then .error 2 else if maxItems < n then .error 1 else .ok (n, t)
  | _ => .error 2

/-- A number (R313). -/
def cborNumber (bs : List Byte) : Option (Val × List Byte) :=
  match cborHead bs with
  | some (0, info, n, t) => if info = 31 then none else some (.ofRat (n : ℚ), t)
  | some (1, info, n, t) => if info = 31 then none else some (.ofRat (-1 - (n : ℚ)), t)
  | some (7, 25, n, t) => some (fp16.decode n, t)
  | some (7, 26, n, t) => some (fp32.decode n, t)
  | some (7, 27, n, t) => some (fp64.decode n, t)
  | _ => none

/-- `k` numbers in a row. -/
def cborNumbers : Nat → List Byte → Option (List Val × List Byte)
  | 0, bs => some ([], bs)
  | k + 1, bs => (cborNumber bs).bind fun p => (cborNumbers k p.2).map fun q => (p.1 :: q.1, q.2)

/-- Items of `fields` numbers until they end or one breaks R313. -/
def cborItems (fields : Nat) : Nat → List Byte → List (List Val)
  | 0, _ => []
  | n + 1, bs =>
    match cborHead bs with
    | some (4, info, k, t) =>
      if info = 31 || k != fields then []
      else match cborNumbers fields t with
        | some (vs, t) => vs :: cborItems fields n t
        | none => []
    | _ => []

end Sys2Proof.Machine
end

