-- ==== Sys2Proof/Machine/Sensor.lean ====
section
/-! DEFINITION. Sensor intake (R290 to R317): CSI-2 ports, camera streams, conversion, regions, pattern checks, record streams. -/

namespace Sys2Proof.Machine

/-! ### Descriptors -/

/-- Bits per pixel of a data type (R293), 0 for one that carries no image. -/
def dtBits : Nat → Nat
  | 0x18 => 12
  | 0x1E => 16
  | 0x24 => 24
  | 0x2B => 10
  | 0x2C => 12
  | _ => 0

/-- A camera descriptor's port, virtual channel, data type (R292). -/
def camPort (d : Nat) : Nat := fld d 0 4
def camVc (d : Nat) : Nat := fld d 4 2
def camDt (d : Nat) : Nat := fld d 6 6

/-- The owning partition of a point's stream (R292, R309). -/
def State.pointPart (s : State) (p : Nat) : Nat := let d := (s.point p).desc.toNat; if p < 32 then fld d 12 4 else fld d 4 4

/-- `[a, a + n)` may hold a stream's data (R316): the partition's memory while a plan is loaded, else populated LPDDR5 or a scratchpad. -/
def State.snsAddr (s : State) (part a n : Nat) : Bool :=
  if s.pln.plan.isSome then s.partAll part a n else s.inDram a n || inSpads a n

/-- MEAN and SCALE are finite. -/
def meanScaleOk (d : Nat) : Bool := (List.range 6).all fun i => fpFinite (fld d (512 + 32 * i) 32)

/-- FILL fields that a format of `w` bits cannot hold. -/
def fillBad (d w n : Nat) : Bool := (List.range n).any fun c => decide (2 ^ w ≤ fld d (704 + 16 * c) 16)

/-- What STREAM_CONFIG checks in a descriptor, in field order, whatever it enables (R292, R316, R533). -/
def State.cameraChecks (s : State) (d : Nat) : List (Bool × Nat) :=
  let part := fld d 12 4
  let dd := 2 * camDs d
  let rois := camRois d
  [(dtBits (camDt d) == 0 || (fld d 16 2 != 0 && camDt d != 0x2B && camDt d != 0x2C) || !([1, 2, 7, 8].contains (camFmt d)) || fld d 23 2 == 3 ||
      decide (8 < rois) || !within 16 8192 (camW d) || camW d % dd != 0 || !within 4 8192 (camH d) || camH d % dd != 0 ||
      !within 1000 1000000 (fld d 64 32) ||
      (if rois = 0 then fld d 96 16 != 0 || fld d 112 16 != 0 else !within 2 (camW d) (fld d 96 16) || !within 2 (camH d) (fld d 112 16)), 0x5003),
   (!lineAligned (fld d 128 48) || !s.snsAddr part (fld d 128 48) 64, 0x5004),
   (!meanScaleOk d || fillBad d (fmtBits (camFmt d)) 3 || !within 1 64 (fld d 784 8) || decide (fld d 784 8 ≤ fld d 800 8), 0x5003),
   (!lineAligned (fld d 816 48) || !s.snsAddr part (fld d 816 48) (fld d 784 8), 0x5004),
   (!lineAligned (fld d 880 48) || !s.snsAddr part (fld d 880 48) (injBytes d), 0x5004)]

/-- What RECORD_CONFIG checks in a descriptor, in field order (R309, R533). -/
def State.recordChecks (s : State) (d : Nat) : List (Bool × Nat) :=
  let cbor := recCbor d
  [(!((if cbor then [4, 7, 8, 9] else [1, 2, 7, 8]).contains (recFmt d)) ||
      (if cbor then !within 1 64 (fld d 16 16) || !within 1 65535 (fld d 32 16) else !within 8 8192 (fld d 16 16) || !within 8 8192 (fld d 32 16)) ||
      !within 64 (2 ^ 26) (fld d 96 32) || fld d 128 32 == 0 || !within 100 1000000 (fld d 160 32) ||
      (if cbor then fld d 192 296 != 0 || fld d 512 192 != 0 else !meanScaleOk d || fillBad d (fmtBits (recFmt d)) 3), 0x5003),
   (!lineAligned (fld d 768 48) || !s.snsAddr (fld d 4 4) (fld d 768 48) 64, 0x5004)]

/-! ### Commands (R291 to R293, R310, R316) -/

/-- Enabled camera streams. -/
def State.streamsOn (s : State) (p : Point → Bool) : List Nat := (List.range 32).filter fun i => (s.point i).enabled && p (s.point i)

/-- PORT_CONFIG (R291). -/
def doPortConfig (h : Hdr) (port phy lanes : Byte) (rate : BitVec 16) (s : State) : Ans :=
  let r := rate.toNat
  checks [(h.fn != 0, 0x5001),
          (decide (15 < port.toNat) || decide (1 < phy.toNat) ||
            (if phy = 0 then !([1, 2, 4].contains lanes.toNat) || !within 80 4500 r else !within 1 3 lanes.toNat || !within 80 6000 r), 0x5003),
          (!(s.streamsOn fun q => camPort q.desc.toNat == port.toNat).isEmpty, 0x5002)]
    (.ok { s with sns.ports := s.sns.ports.upd port.toNat fun q => { q with phy := phy == 1, lanes := lanes.setWidth 3, rate := rate } } {})

def execPortConfig (h : Hdr) (port phy lanes : Byte) (rate : BitVec 16) (s : State) : Out := firmware h s (doPortConfig h port phy lanes rate s)

/-- A point with its counters zeroed. -/
def Point.zeroCounts (q : Point) : Point :=
  { q with admitted := 0, superseded := 0, dropFull := 0, dropCrc := 0, dropGeometry := 0, dropRate := 0, dropPattern := 0, dropOther := 0,
           absent := 0, truncated := 0, injPass := 0, injFail := 0, injSkipped := 0 }

/-- STREAM_CONFIG (R292). -/
def doStreamConfig (h : Hdr) (point : Byte) (desc : BitVec 2048) (s : State) : Ans :=
  let p := point.toNat
  checks ([(h.fn != 0, 0x5001), (decide (31 < p), 0x5003)] ++ s.cameraChecks desc.toNat ++
      [((s.point p).enabled, 0x5002), ((s.binding p).isSome, 0x5005)])
    (.ok (s.updPoint p fun q => { q.zeroCounts with configured := true, desc := desc }) {})

def execStreamConfig (h : Hdr) (point : Byte) (desc : BitVec 2048) (s : State) : Out := firmware h s (doStreamConfig h point desc s)

/-- RECORD_CONFIG (R309). -/
def doRecordConfig (h : Hdr) (point : Byte) (desc : BitVec 2048) (s : State) : Ans :=
  let p := point.toNat
  checks ([(h.fn != 0, 0x5001), (!within 32 63 p, 0x5003)] ++ s.recordChecks desc.toNat ++
      [((s.point p).enabled, 0x5002), ((s.binding p).isSome, 0x5005)])
    (.ok (s.updPoint p fun q => { q.zeroCounts with configured := true, desc := desc }) {})

def execRecordConfig (h : Hdr) (point : Byte) (desc : BitVec 2048) (s : State) : Out := firmware h s (doRecordConfig h point desc s)

/-- A stream's rate in Mb/s (R293). -/
def camRate (d : Nat) : ℚ := mkRat (camW d * camH d * dtBits (camDt d)) (fld d 64 32)

/-- The streams of `l` together exceed `m` Mb/s. -/
def State.rateOver (s : State) (l : List Nat) (m : Nat) : Bool := decide ((m : ℚ) < l.foldl (fun a i => a + camRate (s.point i).desc.toNat) 0)

/-- STREAM_ENABLE (R291, R293, R316). -/
def doStreamEnable (h : Hdr) (point : Byte) (s : State) : Ans :=
  let p := point.toNat
  let q := s.point p
  let d := q.desc.toNat
  let cam := decide (p < 32)
  let others := s.streamsOn fun _ => true
  checks [(h.fn != 0, 0x5001), (decide (63 < p), 0x5003),
          (!q.configured || (cam && (s.sns.ports.get (camPort d)).lanes == 0), 0x5002),
          (cam && !q.enabled && (s.rateOver (p :: s.streamsOn fun o => camPort o.desc.toNat == camPort d) 18000 || s.rateOver (p :: others) 288000), 0x5006)]
    (if q.enabled then .ok s {}
     else .ok (s.updPoint p fun q => { q with enabled := true, lastStart := none, embCnt := none, skips := 0, injDue := false }) {})

def execStreamEnable (h : Hdr) (point : Byte) (s : State) : Out := firmware h s (doStreamEnable h point s)

/-- A frame in progress is dropped and counted under its first cause (R296). -/
def State.dropFrame (s : State) (p cause : Nat) : State :=
  match (s.point p).frame with
  | none => s
  | some f =>
    let c := f.causes ||| cause
    s.updPoint p fun q =>
      let q := { q with frame := none }
      if bit c 0 then { q with dropOther := satInc q.dropOther } else if bit c 1 then { q with dropRate := satInc q.dropRate }
      else if bit c 2 then { q with dropFull := satInc q.dropFull } else if bit c 3 then { q with dropCrc := satInc q.dropCrc }
      else if bit c 4 then { q with dropGeometry := satInc q.dropGeometry } else { q with dropPattern := satInc q.dropPattern }

/-- STREAM_DISABLE (R295, R316). -/
def doStreamDisable (h : Hdr) (point : Byte) (s : State) : Ans :=
  let p := point.toNat
  checks [(h.fn != 0, 0x5001), (decide (63 < p), 0x5003)]
    (.ok ((s.dropFrame p 1).updPoint p fun q => { q with enabled := false, queue := [], injDue := false }) {})

def execStreamDisable (h : Hdr) (point : Byte) (s : State) : Out := firmware h s (doStreamDisable h point s)

/-- RECORD_SUBMIT (R310, R316). -/
def doRecordSubmit (h : Hdr) (point : Byte) (addr : BitVec 64) (bytes : Word) (s : State) : Ans :=
  let p := point.toNat
  let q := s.point p
  let seq := q.srcSeq + 1
  checks [(within 32 63 p && h.fn != 0 && s.pointPart p != h.fn.val, 0x5001), (!within 32 63 p, 0x5003),
          (!s.snsAddr (s.pointPart p) addr.toNat bytes.toNat, 0x5004), (!q.enabled, 0x5002),
          ((match q.lastSubmit with | some t => decide ((s.now - t).toNat < fld q.desc.toNat 160 32 * 1000) | none => false), 0x5006),
          (decide (16 ≤ q.queue.length), 0x5007)]
    (.ok (s.updPoint p fun q =>
        { q with srcSeq := seq, lastSubmit := some s.now, queue := q.queue ++ [{ addr := addr.toNat, bytes := bytes.toNat, seq := seq.toNat }] })
      { r0 := seq.toNat })

def execRecordSubmit (h : Hdr) (point : Byte) (addr : BitVec 64) (bytes : Word) (s : State) : Out := firmware h s (doRecordSubmit h point addr bytes s)

/-- The point entry (R317, Table 10). -/
def State.pointEntry (s : State) (p : Nat) : Nat :=
  let q := s.point p
  let st := if !q.enabled then 0 else if q.frame.isSome || q.decode.isSome then 2 else 1
  pack [(0, 2, st), (2, 1, b2n q.configured), (3, 1, b2n (s.binding p).isSome), (4, 4, s.pointPart p), (8, 5, q.queue.length), (32, 32, q.srcSeq.toNat),
    (64, 32, q.admitted.toNat), (96, 32, q.superseded.toNat), (128, 32, q.dropFull.toNat), (160, 32, q.dropCrc.toNat),
    (192, 32, q.dropGeometry.toNat), (224, 32, q.dropRate.toNat), (256, 32, q.dropPattern.toNat), (288, 32, q.dropOther.toNat),
    (320, 32, q.absent.toNat), (352, 32, q.truncated.toNat), (384, 32, q.injPass.toNat), (416, 32, q.injFail.toNat),
    (448, 32, q.injSkipped.toNat), (480, 32, s.slotBytes p)]

/-- STREAM_QUERY (R316). -/
def doStreamQuery (h : Hdr) (point clear : Byte) (s : State) : Ans :=
  let p := point.toNat
  checks [(decide (p ≤ 63) && h.fn != 0 && s.pointPart p != h.fn.val, 0x5001), (decide (63 < p) || decide (1 < clear.toNat), 0x5003)]
    (.ok (if clear = 1 then s.updPoint p Point.zeroCounts else s) { ext := some (leBytes 64 (s.pointEntry p)) })

def execStreamQuery (h : Hdr) (point clear : Byte) (s : State) : Out := firmware h s (doStreamQuery h point clear s)

/-! ### Conversion (R302 to R304, R306) -/

/-- Bytes of line `y` of a data type (R290): in YUV420 the first line of a pair carries luma only (R302). -/
def lineBytes (dt w y : Nat) : Nat := if dt = 0x18 then (if y % 2 = 0 then w else 2 * w) else cdiv (w * dtBits dt) 8

/-- The samples of a line as CSI-2 packs them (PRESUMED from MIPI CSI-2, log entry 14). -/
def unpackLine (dt w : Nat) (bs : List Byte) : List Nat :=
  let g := fun i => (bs.getD i 0).toNat
  if dt = 0x2B then (List.range w).map fun x => g (x / 4 * 5 + x % 4) * 4 + fld (g (x / 4 * 5 + 4)) (2 * (x % 4)) 2
  else if dt = 0x2C then (List.range w).map fun x => g (x / 2 * 3 + x % 2) * 16 + fld (g (x / 2 * 3 + 2)) (4 * (x % 2)) 4
  else bs.map BitVec.toNat

/-- A coordinate outside the image is taken from its reflection about the edge pixel (R303). -/
def reflect (n : Nat) (i : Int) : Nat := if i < 0 then (-i).toNat else if (n : Int) ≤ i then (2 * ((n : Int) - 1) - i).toNat else i.toNat

/-- Colour of a site: 0 red, 1 green, 2 blue (R292, BAYER). -/
def bayerColour (order x y : Nat) : Nat :=
  let t := match order with | 0 => [0, 1, 1, 2] | 1 => [1, 0, 2, 1] | 2 => [1, 2, 0, 1] | _ => [2, 1, 1, 0]
  t.getD (2 * (y % 2) + x % 2) 0

/-- Demosaic of colour `c` at (x, y): its own sample, or the mean of the nearest sites of that colour (R303). -/
def demosaic (order w h : Nat) (line : Nat → List Nat) (c x y : Nat) : ℚ :=
  let g := fun (p : Int × Int) => (((line (reflect h p.2)).getD (reflect w p.1) 0 : Nat) : ℚ)
  let X : Int := x
  let Y : Int := y
  if bayerColour order x y = c then g (X, Y)
  else
    let near : List (Int × Int) := [(X - 1, Y), (X + 1, Y), (X, Y - 1), (X, Y + 1)]
    let sel := near.filter fun p => bayerColour order (reflect w p.1) (reflect h p.2) == c
    let use : List (Int × Int) := if sel.isEmpty then [(X - 1, Y - 1), (X + 1, Y - 1), (X - 1, Y + 1), (X + 1, Y + 1)] else sel
    use.foldl (fun a p => a + g p) 0 / (use.length : ℚ)

/-- The input vector of pixel (x, y) (R302). -/
def pixelVec (d dt w h : Nat) (line : Nat → List Nat) (x y : Nat) : List ℚ :=
  let yo : ℚ := (fld d 480 8 : Nat)
  let n := fun (l k : Nat) => (((line l).getD k 0 : Nat) : ℚ)
  if dt = 0x24 then [n y (3 * x + 2), n y (3 * x + 1), n y (3 * x)]
  else if dt = 0x1E then [n y (x / 2 * 4 + 1 + 2 * (x % 2)) - yo, n y (x / 2 * 4) - 128, n y (x / 2 * 4 + 2) - 128]
  else if dt = 0x18 then
    let l := y / 2 * 2 + 1
    [(if y % 2 = 0 then n y x else n y (x / 2 * 4 + 1 + 2 * (x % 2))) - yo, n l (x / 2 * 4) - 128, n l (x / 2 * 4 + 2) - 128]
  else [demosaic (fld d 16 2) w h line 0 x y, demosaic (fld d 16 2) w h line 1 x y, demosaic (fld d 16 2) w h line 2 x y]

/-- The largest value of a data type (R302). -/
def dtFull (dt : Nat) : ℚ := if dt = 0x2B then 1023 else if dt = 0x2C then 4095 else 255

/-- The converted value of channel i (R302). -/
def convertVec (d : Nat) (full : ℚ) (v : List ℚ) (i : Nat) : ℚ :=
  let m := fun j => (sgn 32 (fld d (192 + 32 * (3 * i + j)) 32) : ℚ)
  max 0 (min full ((m 0 * v.getD 0 0 + m 1 * v.getD 1 0 + m 2 * v.getD 2 0) / 65536))

/-- The stored bits of channel c's value (R304). -/
def normElem (d fmt c : Nat) (u : ℚ) : Nat :=
  (store fmt true 0 (.ofRat ((u - (fpVal (fld d (512 + 32 * c) 32)).rat) * (fpVal (fld d (608 + 32 * c) 32)).rat))).bits

/-- u at a pixel of a camera image. -/
def camU (d w h : Nat) (line : Nat → List Nat) (c x y : Nat) : ℚ := convertVec d (dtFull (camDt d)) (pixelVec d (camDt d) w h line x y) c

/-- Row Y of main plane c at downscale k, of an image of w × h pixels (R304). -/
def mainRow (d k w h : Nat) (line : Nat → List Nat) (c y : Nat) : List Byte :=
  (List.range (w / k)).flatMap fun x =>
    let sum := (List.range (k * k)).foldl (fun a i => a + camU d w h line c (k * x + i % k) (k * y + i / k)) 0
    leBytes (fmtBits (camFmt d) / 8) (normElem d (camFmt d) c (sum / ((k * k : Nat) : ℚ)))

/-- The line store of a frame: line `y` of those received. -/
def FrameRun.line (f : FrameRun) (y : Nat) : List Nat := f.raw.getD (f.raw.length - 1 - y) []

/-- X0, Y0, W and H of region i of a list (R305). -/
def roiOf (rois i : Nat) : Nat × Nat × Nat × Nat := (fld rois (64 * i) 16, fld rois (64 * i + 16) 16, fld rois (64 * i + 32) 16, fld rois (64 * i + 48) 16)

/-- The running plan gives the intake's port of a partition a data slot in every island that `[a, a + n)` meets, if that is LPDDR5 (R414). -/
def State.intakeServed (s : State) (part a n : Nat) : Bool :=
  match s.pln.plan with
  | some pl =>
    let served := fun (i : Nat) => pl.memSlots.any fun t => t.which == i && t.slots.any fun x => bit x 4 && fld x 0 4 == part && fld x 5 5 == 19
    !s.inDram a n || s.pln.state != .running || (List.range (min 32 (cdiv n 64 + 1))).all fun j => served ((a / 64 + j) % 32 / 8)
  | none => true

/-- A write to a frame's buffer that no data slot of the plan can serve misses its slot: the frame is marked as DROP_OTHER (R296, R317). R296 does not
say when a write misses (DESIGN CHOICE, log entry 104). -/
def State.missSlot (s : State) (p : Nat) : State :=
  { s.updPoint p fun q => { q with frame := q.frame.map fun f => { f with causes := f.causes ||| 1 } } with sns.slotMiss := true }

/-- Image row `y` is converted and written: the main row it completes, and its part of each region (R295, R304, R306). -/
def State.writeRow (s : State) (p k y : Nat) (f : FrameRun) : State :=
  if !s.intakeServed (s.pointPart p) (s.slotAddr p k) (s.slotBytes p) then s.missSlot p else
  let d := (s.point p).desc.toNat
  let w := camW d
  let h := camH d
  let ds := camDs d
  let e := fmtBits (camFmt d) / 8
  let base := s.slotAddr p k + 128
  let s := if (y + 1) % ds = 0 then
      (List.range 3).foldl (fun s c => s.wr (base + c * camP d + y / ds * (w / ds) * e) (mainRow d ds w h f.line c (y / ds))) s
    else s
  (List.range (camRois d)).foldl (fun s i =>
    let (x0, y0, rw, rh) := roiOf f.rois i
    let mw := fld d 96 16
    let n := min (min rw mw) (w - x0)
    if y0 ≤ y && decide (y - y0 < min rh (fld d 112 16)) then
      (List.range 3).foldl (fun s c =>
        s.wr (base + 3 * camP d + (3 * i + c) * camQ d + (y - y0) * mw * e)
          ((List.range n).flatMap fun j => leBytes e (normElem d (camFmt d) c (camU d w h f.line c (x0 + j) y)))) s
    else s) s

/-! ### CSI-2 packets (R290, R294 to R297, R307, R308) -/

/-- A packet of a configured port is discarded and counted (R290). -/
def State.discardPkt (s : State) (port : Nat) (unknown : Bool) : State :=
  { s with sns.ports := s.sns.ports.upd port fun q =>
      { q with unknown := q.unknown || unknown, unmatched := q.unmatched || !unknown,
               discarded := if q.discarded = 0xFFFF then q.discarded else q.discarded + 1 } }

/-- A frame in progress is marked for drop. -/
def State.markFrame (s : State) (p cause : Nat) : State :=
  s.updPoint p fun q => { q with frame := q.frame.map fun f => { f with causes := f.causes ||| cause } }

/-- A header's ECC is noted; an uncorrectable one marks the frames of the port (R290, R296). -/
def State.noteEcc (s : State) (port : Nat) (ecc : Fin 3) : State :=
  let s := { s with sns.ports := s.sns.ports.upd port fun q => { q with corrected := q.corrected || ecc == 1, failed := q.failed || ecc == 2 } }
  if ecc = 2 then (s.streamsOn fun q => camPort q.desc.toNat == port).foldl (fun s p => s.markFrame p 8) s else s

/-- Enabled streams of a port and virtual channel. -/
def State.streamsAt (s : State) (port vc : Nat) : List Nat := s.streamsOn fun q => camPort q.desc.toNat == port && camVc q.desc.toNat == vc

/-- A frame start ends an injection in progress on the port (R308). -/
def State.abandonInjection (s : State) (port : Nat) : State :=
  let mine := s.streamsOn fun q => camPort q.desc.toNat == port
  if mine.any fun p => (s.point p).frame.isSome then s
  else (mine.filter fun p => (s.point p).injDue).foldl (fun s p =>
    let n := (s.point p).skips + 1
    let s := s.updPoint p fun q => { q with injDue := false, injSkipped := satInc q.injSkipped, skips := if n = 8 then 0 else n }
    if n = 8 then s.raiseDev 0x0503 else s) s

/-- The region list of a frame that starts in tick `t`: one written in that same tick applies from the next frame (R306). -/
def Point.roisFor (q : Point) (t : Nat) : BitVec 512 := if q.roisAt = some t then q.roisOld else q.rois

/-- A stream's frame start (R294 to R297, R306). -/
def State.frameStart (s : State) (p num : Nat) : State :=
  let s := s.dropFrame p 16
  let q := s.point p
  let d := q.desc.toNat
  let late := match q.lastStart with | some t => decide (s.tick - t < fld d 64 32 * 600) | none => false
  let live := s.pointLive p
  let slot := if live && !late then s.freeSlot p else none
  let causes := b2n (!live) + 2 * b2n late + 4 * b2n (live && !late && slot.isNone)
  let s := s.updPoint p fun q =>
    { q with srcSeq := q.srcSeq + 1, lastStart := some s.tick, frame := some { slot := slot, causes := causes, csiNo := num, rois := (q.roisFor s.tick).toNat } }
  match slot with
  | some k => s.wr (s.slotAddr p k + 128 + 3 * camP d)
      ((List.range (camRois d)).flatMap fun _ => (List.range 3).flatMap fun c => fillPlane (camFmt d) (fld d (704 + 16 * c) 16) (camQ d))
  | none => s

/-- CSI_FRAME_START. -/
def execCsiFrameStart (port : Fin 16) (vc : BitVec 2) (num : BitVec 16) (ecc : Fin 3) (s : State) : Out :=
  if (s.sns.ports.get port.val).lanes = 0 then .next s
  else
    let s := s.noteEcc port.val ecc
    if ecc = 2 then .next s
    else
      let s := s.abandonInjection port.val
      let l := s.streamsAt port.val vc.toNat
      .next (if l.isEmpty then s.discardPkt port.val false else l.foldl (fun s p => s.frameStart p num.toNat) s).settle

/-- A line of a stream's image (R295, R296). -/
def State.lineIn (s : State) (p : Nat) (data : List Byte) (crcOk : Bool) : State :=
  let d := (s.point p).desc.toNat
  match (s.point p).frame with
  | none => s
  | some f =>
    let bad := decide (camH d ≤ f.lines) || data.length != lineBytes (camDt d) (camW d) f.lines
    let c := f.causes ||| b2n (!s.pointLive p) ||| 8 * b2n (!crcOk) ||| 16 * b2n bad
    let f := { f with causes := c, lines := f.lines + 1, raw := if c = 0 then unpackLine (camDt d) (camW d) data :: f.raw else f.raw }
    let s := s.updPoint p fun q => { q with frame := some f }
    match f.slot with
    | some k => if c = 0 && decide (2 ≤ f.lines) then s.writeRow p k (f.lines - 2) f else s
    | none => s

/-- A packet of embedded data (R290, R307). -/
def State.embeddedIn (s : State) (p : Nat) (data : List Byte) (crcOk : Bool) : State :=
  if bit (s.point p).desc.toNat 29 then
    s.updPoint p fun q => { q with frame := q.frame.map fun f => { f with emb := f.emb ++ [data], causes := f.causes ||| 8 * b2n (!crcOk) } }
  else s

/-- CSI_LINE: a packet that is neither a frame start nor a frame end. -/
def execCsiLine (port : Fin 16) (k : CsiPkt) (s : State) : Out :=
  if (s.sns.ports.get port.val).lanes = 0 then .next s
  else
    let s := s.noteEcc port.val k.ecc
    if k.ecc = 2 then .next s
    else
      let dt := k.dt.toNat
      if 3 < k.vc.toNat || (dtBits dt == 0 && dt != 0x12 && decide (3 < dt)) then .next (s.discardPkt port.val true)
      else if dt ≤ 3 then .next s
      else
        let l := (s.streamsAt port.val k.vc.toNat).filter fun p => dt == 0x12 || camDt (s.point p).desc.toNat == dt
        .next (if l.isEmpty then s.discardPkt port.val false
          else l.foldl (fun s p => if dt = 0x12 then s.embeddedIn p k.data k.crcOk else s.lineIn p k.data k.crcOk) s)

/-- The embedded pattern of a frame is right (R307); with it the state after the check. -/
def State.embCheck (s : State) (p : Nat) (f : FrameRun) : Bool × State :=
  let d := (s.point p).desc.toNat
  if !bit d 29 then (true, s)
  else
    match f.emb[fld d 792 2]? with
    | none => (false, s.raiseDev 0x0501)
    | some line =>
      let n := fld d 784 8
      let off := fld d 800 8
      let cnt := bit d 794
      let got := (line.drop (fld d 768 16)).take n
      let (want, s) := s.blockRead (fld d 816 48) n
      let same := got.length == n && (List.range n).all fun i => (cnt && i == off) || got.getD i 0 == want.getD i 0
      let prev := (s.point p).embCnt
      let seen := got.getD off 0
      let s := if cnt && decide (off < got.length) then s.updPoint p fun q => { q with embCnt := some seen } else s
      let good := same && (!cnt || match prev with | some c => seen == c + 1 | none => true)
      (good, if good then s else s.raiseDev 0x0501)

/-- A stream's frame end (R295, R296). OUT_W and OUT_H of a camera slot are those of its main planes (DEDUCED, log entry 41). -/
def State.frameEnd (s : State) (p : Nat) : State :=
  match (s.point p).frame with
  | none => s
  | some f =>
    let d := (s.point p).desc.toNat
    let (good, s) := s.embCheck p f
    let c := f.causes ||| b2n (!s.pointLive p) ||| 16 * b2n (f.lines != camH d) ||| 32 * b2n (!good)
    let s := if bit d 30 then s.updPoint p fun q => { q with injDue := true } else s
    match f.slot with
    | some k =>
      if c != 0 then (s.dropFrame p c).freeNext p [k]
      else
        let s := s.writeRow p k (camH d - 1) f
        if ((s.point p).frame.map FrameRun.causes) != some 0 then (s.dropFrame p 0).freeNext p [k] else
        let valid := (List.range (camRois d)).foldl (fun a i => let r := roiOf f.rois i; a + 2 ^ i * b2n (r.2.2.1 != 0 && r.2.2.2 != 0)) 0
        let seq := (s.point p).srcSeq.toNat
        let s := s.wr (s.slotAddr p k) (slotHeader p false false valid seq 0 0 0 (camW d / camDs d) (camH d / camDs d) f.csiNo f.rois)
        (s.updPoint p fun q => { q with frame := none }).release p k seq
    | none => s.dropFrame p (if c = 0 then 4 else c)

/-- CSI_FRAME_END. -/
def execCsiFrameEnd (port : Fin 16) (vc : BitVec 2) (ecc : Fin 3) (s : State) : Out :=
  if (s.sns.ports.get port.val).lanes = 0 then .next s
  else
    let s := s.noteEcc port.val ecc
    if ecc = 2 then .next s
    else
      let l := s.streamsAt port.val vc.toNat
      .next (if l.isEmpty then s.discardPkt port.val false else l.foldl (fun s p => s.frameEnd p) s).settle

/-- Pixels of an injected line (R308). -/
def injPixels : Nat → Nat
  | 0x2B => 192
  | 0x2C => 160
  | 0x24 => 80
  | _ => 120

/-- The injected image of a stream is converted at d = 1 and its elements checked (R308). -/
def State.inject (s : State) (p : Nat) : State :=
  let d := (s.point p).desc.toNat
  let dt := camDt d
  let w := injPixels dt
  let n0 := lineBytes dt w 0
  let (bs, s) := s.blockRead (fld d 880 48) (n0 + lineBytes dt w 1)
  let l0 := unpackLine dt w (bs.take n0)
  let l1 := unpackLine dt w (bs.drop n0)
  let line := fun (y : Nat) => if y = 0 then l0 else l1
  let out := (List.range 3).flatMap fun c => (List.range 2).flatMap fun y => mainRow d 1 w 2 line c y
  if crc32c out = fld d 928 32 then s.updPoint p fun q => { q with injDue := false, skips := 0, injPass := satInc q.injPass }
  else (s.updPoint p fun q => { q with injDue := false, skips := 0, injFail := satInc q.injFail }).raiseDev 0x0502

/-- PATTERN_INJECTION. -/
def execPatternInjection (port : Fin 16) (s : State) : Out :=
  let mine := s.streamsOn fun q => camPort q.desc.toNat == port.val
  if mine.any fun p => (s.point p).frame.isSome then .next s
  else .next ((mine.filter fun p => (s.point p).injDue).foldl (fun s p => s.inject p) s).settle

/-- CSI_PHY_LOCK_CHANGE (R317). -/
def execCsiPhyLockChange (port : Fin 16) (locked : Bool) (s : State) : Out :=
  if (s.sns.ports.get port.val).lanes = 0 then .next s
  else .next { s with sns.ports := s.sns.ports.upd port.val fun q => { q with locked := locked } }

/-! ### Region lists (R305) -/

/-- A job's write to SNS_ROI_PORT of a stream: one whole line from a job of the stream's partition, else it is discarded with a fault. -/
def State.roiWrite (s : State) (job rod stream : Nat) (data : List Byte) : State :=
  if data.length = 64 && ((s.jobRec job).map JobRec.part) == some (s.pointPart stream) then
    s.updPoint stream fun q => { q with rois := BitVec.ofNat 512 (leNat data), roisOld := q.roisFor s.tick, roisAt := some s.tick }
  else s.raiseJob 0x0504 job (some rod)

/-- SNS_ROI_WRITE: by the job the rod runs. -/
def execSnsRoiWrite (rod : Fin 64) (stream : Fin 32) (data : List Byte) (s : State) : Out :=
  match (s.rods.get rod.val).job with
  | some j => .next (s.roiWrite j rod.val stream.val data).settle
  | none => .next s

/-! ### Record streams (R310 to R315) -/

/-- Why a record is refused before it claims a slot: INPUT_LIMIT or INPUT_FORMAT (R311). -/
def recordRefuse (d bytes : Nat) (data : List Byte) : Option Nat :=
  if fld d 96 32 < bytes then some 0x5008
  else
    let why := fun n => if n = 1 then 0x5008 else 0x5009
    if recCbor d then match cborCount data (fld d 32 16) with | .ok _ => none | .error n => some (why n)
    else (jpegRefuse data (fld d 16 16) (fld d 32 16)).map why

/-- RECORD_DECODE_START: the stream's next record is dropped, refused, or given a slot and its decoder (R298, R310, R311). -/
def execRecordDecodeStart (dec : Fin 3) (n : Fin 32) (s : State) : Out :=
  let p := 32 + n.val
  let q := s.point p
  match q.queue, q.decode with
  | j :: t, none =>
    let s1 := s.updPoint p fun q => { q with queue := t }
    if (s.binding p).isNone || s.jrn.r.running then .next (s1.dropOther p)
    else if s.pln.state != .running then .next s
    else
      let d := q.desc.toNat
      let (data, s1) := s1.blockRead j.addr (if fld d 96 32 < j.bytes then 0 else j.bytes)
      match recordRefuse d j.bytes data with
      | some r => .next (s1.absent p j.seq r).settle
      | none =>
        match s1.freeSlot p with
        | none => .next (s1.dropFull p).settle
        | some k => .next (s1.updPoint p fun q => { q with decode := some { job := j, slot := k, dec := dec.val } }).settle
  | _, _ => .next s

/-- A decoded record: MISSING, OUT_W, OUT_H and the planes (R309, R312 to R314). Of CBOR numbers only integer outputs saturate (R313). -/
def decodeRecord (d : Nat) (data : List Byte) : Nat × Nat × Nat × List Byte :=
  let fmt := recFmt d
  let e := fmtBits fmt / 8
  let a := fld d 16 16
  let b := fld d 32 16
  let fill := fun c => leBytes e (fld d (704 + 16 * c) 16)
  if recCbor d then
    match cborCount data b with
    | .error _ => (0, 0, 0, [])
    | .ok (n, t) =>
      let items := cborItems a n t
      let body := items.flatMap fun it => it.flatMap fun v => leBytes e (store fmt false 0 v).bits
      (n - items.length, items.length, 0, body ++ fillPlane fmt (fld d 704 (fmtBits fmt)) (recP d - body.length))
  else
    let j := jpegRun data.length data {}
    match j.sof with
    | none => (0, 0, 0, [])
    | some (_, _, h, w, cs) =>
      let yo : ℚ := (fld d 480 8 : Nat)
      let plane := fun c => padTo (recP d) <| (List.range (a * b)).flatMap fun i =>
        let x := i % a
        let y := i / a
        if x < w && y < h then
          match j.pixel w h cs x y with
          | some (yv, u, v) => leBytes e (normElem d fmt c (convertVec d 255 [(yv : ℚ) - yo, (u : ℚ) - 128, (v : ℚ) - 128] c))
          | none => fill c
        else fill c
      (j.missing w h cs, w, h, (List.range 3).flatMap plane)

/-- RECORD_DECODE_END: the decoded record is written and released for admission (R314). -/
def execRecordDecodeEnd (n : Fin 32) (s : State) : Out :=
  let p := 32 + n.val
  match (s.point p).decode with
  | none => .next s
  | some r =>
    let (data, s) := s.blockRead r.job.addr r.job.bytes
    let (miss, w, h, body) := decodeRecord (s.point p).desc.toNat data
    let s := s.wr (s.slotAddr p r.slot) (slotHeader p (miss != 0) false 0 r.job.seq 0 0 miss w h 0 0 ++ body)
    .next (s.updPoint p fun q =>
      { q with decode := none, waiting := q.waiting ++ [{ slot := some r.slot, seq := r.job.seq, trunc := miss != 0 }] }).settle

/-- DECODE_BUDGET: the record in the decoder is aborted and a marker admitted (R315). -/
def execDecodeBudget (n : Fin 32) (s : State) : Out :=
  let p := 32 + n.val
  match (s.point p).decode with
  | none => .next s
  | some r => .next ((s.updPoint p fun q => { q with decode := none }).absent p r.job.seq 0x500A)

end Sys2Proof.Machine
end

