-- ==== Sys2Proof/Machine/Mover.lean ====
section
/-! DEFINITION. DMA_MOVE, over the mesh where it joins two rods (R35, R77, R78, R88, R119, R534). -/

namespace Sys2Proof.Machine

/-- A whole line written to a job port (R178, R305, R332, R403). -/
def State.portWrite (s : State) (rod job block port : Nat) (data : List Byte) : State :=
  match block with
  | 0 => s.jobPort rod port data
  | 1 => s.roiWrite job rod port data
  | 2 => s.mailboxPort rod port data
  | _ => s.tybSigWrite job rod port data

/-- The bytes of a line that some elements fill. -/
def filledLine (s : State) (oa oc : Opnd) : List Byte :=
  let ws := (List.range oc.pat.count).filterMap fun i => (oc.pat.off i).map fun e => oc.write i e (s.rawAt oa i)
  let lo := (ws.map ElW.addr).foldl min ((ws.map ElW.addr).headD 0)
  (List.range 64).map fun b =>
    BitVec.ofNat 8 (ws.foldl (fun v w =>
      if w.addr ≤ lo + b && decide (lo + b < w.addr + w.bytes) then
        (match w.kind with
         | 0 => fld w.bits (8 * (lo + b - w.addr)) 8
         | 1 => v / 16 * 16 + w.bits % 16
         | 2 => v % 16 + w.bits % 16 * 16
         | _ => w.bits % 16)
      else v) 0)

/-- The directed mesh links from rod `a` to rod `b`, first along x, then along y (R77, R534). -/
def meshRoute (a b : Nat) : List Nat :=
  let steps := fun (i j d : Nat) (at_ : Nat → Nat) =>
    if i ≤ j then (List.range (j - i)).map fun k => 4 * at_ (i + k) + d else (List.range (i - j)).map fun k => 4 * at_ (i - k) + d + 1
  steps (a % 8) (b % 8) 0 (fun x => 8 * (a / 8) + x) ++ steps (a / 8) (b / 8) 2 (fun y => 8 * y + b % 8)

/-- The tables of the window in force give rod `src` a slot of mesh link `link` (R78, R207). -/
def State.linkServes (s : State) (src link : Nat) : Bool :=
  match s.pln.plan with
  | some pl => pl.meshSlots.any fun t => t.which == link && t.window == s.pln.window && t.slots.any fun x => bit x 7 && fld x 0 6 == src
  | none => false

/-- The rods in whose scratchpads an operand lies. -/
def Opnd.rods (o : Opnd) : List Nat :=
  (o.fetches.filterMap fun t => if inSpads t.1 t.2 then some ((t.1 - spadBase) / spadSize) else none).eraseDups

/-- Lines of A's scratchpad on their way to C's meet a mesh link that gives their source no slot in the window in force: they are not sent (R78).
A link whose table has slots of the source carries them there (log entry 46). -/
def State.meshBlocked (s : State) (oa oc : Opnd) : Bool :=
  oa.rods.any fun a => oc.rods.any fun c => (meshRoute a c).any fun l => !s.linkServes a l

/-- DMA_MOVE: A's walk copied to C's, raw bits and, for block formats, scale bytes; an access to a scratchpad in a hand-over is discarded, and the
rod that issued the move latches HANDOVER_ACCESS: R88's 'the rod' could also be the one in hand-over (DESIGN CHOICE, log entry 88). A move over the
mesh outside its links' slots moves nothing and raises MESH_COLLISION (R78). -/
def State.dmaMove (s : State) (n : Nat) (d : Desc) (e : DescEnv) : State :=
  let oa := e.get d.a d.aFmt
  let oc := e.get d.c d.aFmt
  let j := (s.rod n).job.getD 0
  if (oa.fetches ++ oc.fetches).any fun t => s.inHandover t.1 t.2 then s.rodFault n 0x0109 (some 6)
  else if s.meshBlocked oa oc then s.rodFault n 0x0108 (some 5)
  else match s.touch n oa.fetches with
    | (false, s) => s
    | (true, s) =>
      let s := s.count n 18 (if oa.fetches.any fun t => inSpads t.1 t.2 then oa.lines (List.range oa.pat.count) else 0)
      match portLine oc with
      | some (b, p) =>
        let data := filledLine s oa oc
        let line := (oc.fetches.headD (0, 0)).1 / 64
        let t := s
        let s := { s with watch := s.watch.map (· ++ [(64 * line, data)]) }.portWrite n j b p data
        match s.goldenOf j with
        | none => s
        | some g =>
          let c := (t.saf.goldens.get g).crcInv.toNat ^^^ (2 ^ 64 - 1)
          { s with saf.goldens := s.saf.goldens.upd g fun q => { q with crcInv := BitVec.ofNat 64 (crc64 c (leBytes 8 (64 * line) ++ data) ^^^ (2 ^ 64 - 1)) } }
      | none =>
        let ws := (List.range oc.pat.count).flatMap fun i =>
          match oc.pat.off i with
          | none => []
          | some x => oc.write i x (s.rawAt oa i) ::
              (match isBlock d.aFmt && i % 32 == 0, oa.pat.off i with
               | true, some y => [{ addr := (oc.scaleByte x).toNat, kind := 0, bits := s.scaleAt oa y, bytes := 1 }]
               | _, _ => [])
        s.putAll n ws

/-- The move at the front of unit D's queue names an engine in which its job has no slot in the window in force: it waits (R119, R207). -/
def State.moveWaits (s : State) (n : Nat) : Bool :=
  match ((s.rod n).units.get 3).queue, (s.rod n).job with
  | i :: _, some j => !s.engineServes (Desc.ofNat (s.rdN (spadAddr n i.off) 128)).engine (s.jobPart j) (some j)
  | _, _ => false

def execDmaMove (rod : Fin 64) (s : State) : Out :=
  if s.moveWaits rod.val then .next s else s.start rod.val 0x0B fun d e s => s.dmaMove rod.val d e

end Sys2Proof.Machine
end

