-- ==== Sys2Proof/Machine/Power.lean ====
section
/-! DEFINITION. Power plans, the current guard, temperature and supplies (R478 to R485, R492). -/

namespace Sys2Proof.Machine

/-! ### Register writes (R479, R483, R492) -/

/-- PWR_PLAN_WRITE: discarded when the loaded plan does not fit the new plan. -/
def execPwrPlanWrite (fn : Fin 16) (value : Word) (s : State) : Out :=
  let v := value.toNat % 4
  let bad := match s.pln.plan with
    | some pl => decide (powerCap v < (pl.wins.map WinEnt.power).foldl max 0) || decide (v < pl.powerMin)
    | none => false
  if fn ≠ 0 then .next s
  else if bad then .next { s with pwr.planReject := true }
  else .next { s with pwr.plan := BitVec.ofNat 2 v }

/-- PWR_THERM_WARN_WRITE. -/
def execPwrThermWarnWrite (fn : Fin 16) (value : Word) (s : State) : Out :=
  let v := value.toNat % 256
  if fn ≠ 0 then .next s
  else if within 85 125 v then .next { s with pwr.warnAt := BitVec.ofNat 8 v }
  else .next { s with pwr.cfgReject := true }

/-- PWR_SUP_CLEAR: the detectors of the selected rails restart from their present level. -/
def execPwrSupClear (fn : Fin 16) (value : Word) (s : State) : Out :=
  if fn ≠ 0 then .next s
  else .next ((List.range 4).foldl (fun s r =>
    if bit value.toNat r then { s with pwr.supMin := s.pwr.supMin.set r (s.pwr.level.get r) } else s) s)

/-! ### The current guard (R480) -/

/-- The limit of a guard domain in microwatts: 3.6 W for an island, 1.05 times the selected cap for the die. -/
def State.guardLimit (s : State) (i : Nat) : Nat := if i < 16 then 3600000 else powerCap s.pwr.plan.toNat * 105000

/-- The jobs that have a rod in rod island `i`. -/
def State.islandJobs (s : State) (i : Nat) : List Nat :=
  ((List.range 4).filterMap fun k => (s.rod (4 * i + k)).job).eraseDups

/-- Domain `i` averages `avg` microwatts. -/
def State.guardDomain (s : State) (i avg : Nat) : State :=
  let lim := s.guardLimit i
  if s.pwr.tripped.get i then (if avg * 10 < lim * 9 then { s with pwr.tripped := s.pwr.tripped.set i false } else s)
  else if lim < avg then
    let js := if i < 16 then s.islandJobs i else []
    let s := { s with pwr.tripped := s.pwr.tripped.set i true, pwr.trips := s.pwr.trips.upd i satInc, pwr.guardTrip := true }
    if js.isEmpty then s.raiseDev 0x1104 else js.foldl (fun s j => s.raiseJob 0x1104 j) s
  else s

/-- GUARD_SAMPLE: the average power of the 17 domains, in microwatts. -/
def execGuardSample (avg : List Word) (s : State) : Out :=
  let now := ((avg[16]?).getD 0).toNat / 10000
  let s := avg.zipIdx.foldl (fun s x => if x.2 < 17 then s.guardDomain x.2 x.1.toNat else s) s
  .next ({ s with pwr.powerNow := BitVec.ofNat 32 now, pwr.powerPeak := BitVec.ofNat 32 (max now s.pwr.powerPeak.toNat) }).settle

/-! ### Temperature (R481) -/

/-- The hottest of some readings and its sensor; the lowest sensor where several are equal. -/
def hottest (l : List (BitVec 16)) : Int × Nat :=
  l.zipIdx.foldl (fun (m : Int × Nat) x => if m.1 < x.1.toInt then (x.1.toInt, x.2) else m) (-32769, 0)

/-- THERM_SAMPLE: the sensors' readings in quarters of a degree. -/
def execThermSample (temps : List (BitVec 16)) (s : State) : Out :=
  if temps = [] then .next s
  else
    let (hot, n) := hottest temps
    let now : Word := BitVec.ofNat 32 (wrap 16 hot + n * 2 ^ 16)
    let p := s.pwr
    let warn : Int := 4 * p.warnAt.toNat
    let raiseW := p.warnArmed && decide (warn ≤ hot)
    let raiseC := p.critArmed && decide (520 ≤ hot)
    let newMax := !p.thermSeen || decide (sgn 16 (p.thermMax.toNat % 2 ^ 16) < hot)
    let s := { s with
      pwr.thermNow := now, pwr.thermMax := if newMax then now else p.thermMax, pwr.thermSeen := true,
      pwr.cold := temps.any fun t => decide (t.toInt < -160),
      pwr.thermWarn := p.thermWarn || raiseW, pwr.thermCrit := p.thermCrit || raiseC,
      pwr.warnArmed := if raiseW then false else p.warnArmed || decide (hot ≤ warn - 20), pwr.critArmed := decide (hot < 520) }
    let s := if raiseW then s.raiseDev 0x1106 else s
    .next (if raiseC then s.raiseDev 0x1107 else s).settle

/-! ### Supplies (R482 to R485) -/

/-- A bit of a rail register. -/
def railBit (r : Fin 4) : BitVec 4 := BitVec.ofNat 4 (2 ^ r.val)

/-- Rail `r` was seen at a level. -/
def State.sawLevel (s : State) (r : Fin 4) (low level : BitVec 16) : State :=
  { s with pwr.level := s.pwr.level.set r.val level,
           pwr.supMin := s.pwr.supMin.upd r.val fun m => if low.toNat < m.toNat then low else m }

/-- SUPPLY_WARN (R484): rail `r` falls below its warning level. -/
def execSupplyWarn (r : Fin 4) (low : BitVec 16) (s : State) : Out :=
  let s := s.sawLevel r low low
  if s.pwr.below &&& railBit r != 0 then .next s
  else .next { s with
    pwr.below := s.pwr.below ||| railBit r, pwr.warn := s.pwr.warn ||| railBit r, pwr.hold := s.pwr.hold ||| railBit r,
    pwr.supplyWarn := true, pwr.warnTime := if s.pwr.supplyWarn then s.pwr.warnTime else s.now, pwr.warnCount := satInc s.pwr.warnCount,
    sec.suspended := s.sec.job.isSome }

/-- SUPPLY_UNDER_SPEC (R485): raised again only after the rail has returned above its warning level. -/
def execSupplyUnderSpec (r : Fin 4) (low : BitVec 16) (s : State) : Out :=
  let s := s.sawLevel r low low
  let again := s.pwr.underHeld &&& railBit r != 0
  let s := { s with pwr.under := s.pwr.under ||| railBit r, pwr.underSpec := true, pwr.underHeld := s.pwr.underHeld ||| railBit r }
  .next (if again then s else s.raiseDev 0x1105).settle

/-- SUPPLY_WARN_CLEAR: rail `r` is above its warning level again, having been at `low` at the lowest; its hold runs on. -/
def execSupplyWarnClear (r : Fin 4) (low level : BitVec 16) (s : State) : Out :=
  let s := s.sawLevel r low level
  .next { s with pwr.below := s.pwr.below &&& ~~~railBit r, pwr.underHeld := s.pwr.underHeld &&& ~~~railBit r }

/-- OTP_HOLD_EXPIRY (R484): 1 ms above the warning level; programming resumes once no hold is left. -/
def execOtpHoldExpiry (r : Fin 4) (s : State) : Out :=
  if s.pwr.below &&& railBit r != 0 then .next s
  else
    let h := s.pwr.hold &&& ~~~railBit r
    .next { s with pwr.hold := h, sec.suspended := s.sec.suspended && h != 0 }

end Sys2Proof.Machine
end

