-- ==== Sys2Proof/Machine/Reset.lean ====
section
/-! DEFINITION. Resets and their scopes (R348, R435, R463, R477, R486 to R490). -/

namespace Sys2Proof.Machine

/-- What a reset never touches: the waiting commands, the model's own counters, the OTP, the rails, the levels of the SAFE_EN_N pins (R338), and the
host's memory. -/
def State.resetBase (s : State) : State :=
  { State.reset with
    pending := s.pending, free := s.free, tick := s.tick, mem := ⟨s.mem.cells.filter fun c => decide (apertureBase ≤ c.1)⟩,
    sec.otp := s.sec.otp, sec.otpBad := s.sec.otpBad, sec.weak := s.sec.weak, pwr.level := s.pwr.level, cle.safeIn := s.cle.safeIn }

/-- A reset of power-on scope, with its cause and rail (Table 5, Table 9). -/
def State.powerOn (s0 : State) (cause rail : Nat) : State :=
  let s := s0.abandonOtp
  { s.resetBase with pwr.cause := BitVec.ofNat 3 cause, pwr.rail := BitVec.ofNat 2 rail }

/-- A reset of warm scope (Table 5): what it keeps, by field. -/
def State.warm (s0 : State) (cause : Nat) : State :=
  let s := s0.abandonOtp
  let b := s.resetBase
  { b with
    mem := ⟨s.mem.cells.filter fun c => !inSpads c.1 1⟩, errs := ⟨s.errs.cells.filter fun c => !inSpads (4 * c.1) 4⟩,
    tim := { time := s.tim.time, past := s.tim.past, incr := s.tim.incr, stepped := s.tim.stepped, jumpLimit := s.tim.jumpLimit },
    memc := { rate := s.memc.rate, density := s.memc.density, ranks := s.memc.ranks, lp5x := s.memc.lp5x, passes := s.memc.passes, rdCe := s.memc.rdCe,
              wrCe := s.memc.wrCe, inlineCe := s.memc.inlineCe, ueCount := s.memc.ueCount, train := s.memc.train.mapV fun t => { t with hottest := 0 } },
    rods := s.rods.mapV fun r => { ceCount := r.ceCount, mismatchCount := r.mismatchCount },
    hif.retrains := s.hif.retrains,
    sec := { otp := s.sec.otp, otpBad := s.sec.otpBad, weak := s.sec.weak, window := s.sec.window, overrideOn := s.sec.overrideOn,
             overrideSvn := s.sec.overrideSvn, keys := s.sec.keys, wear := { hour := s.sec.wear.hour }, jtag := s.sec.jtag },
    pwr := { cause := BitVec.ofNat 3 cause, warmCount := if s.pwr.warmCount = 0xFFFF then s.pwr.warmCount else s.pwr.warmCount + 1,
             supMin := s.pwr.supMin, warnCount := s.pwr.warnCount, trips := s.pwr.trips, thermMax := s.pwr.thermMax, thermSeen := s.pwr.thermSeen,
             level := s.pwr.level, below := s.pwr.below, hold := s.pwr.hold, memOnce := true } }

/-- A warm cause: before memory was first ready it is carried out as a power-on reset (R490). -/
def State.warmCause (s : State) (cause : Nat) : State := if s.pwr.memOnce then s.warm cause else s.powerOn 0 0

/-- POWER_ON_RESET: power applied, or PORST_N low for 1 µs. -/
def execPowerOnReset (s : State) : Out := .next (s.powerOn 0 0)

/-- SUPPLY_RESET (R486): the rail is recorded only if VDD_IO stayed above 1,200 mV. -/
def execSupplyReset (r : Fin 4) (ioHeld : Bool) (s : State) : Out := .next (if ioHeld then s.powerOn 1 r.val else s.powerOn 0 0)

/-- CLOCK_LOSS_RESET (R477). -/
def execClockLossReset (s : State) : Out := .next (s.powerOn 5 0)

/-- CAUSE of a warm reset (Table 9). -/
def PwrCause.code : PwrCause → Nat
  | .pin => 2 | .request => 3 | .firmware => 4

/-- WARM_RESET. -/
def execWarmReset (c : PwrCause) (s : State) : Out := .next (s.warmCause (PwrCause.code c))

/-- PWR_RESET_REQ (R489). -/
def execPwrResetReq (fn : Fin 16) (value : Word) (s : State) : Out :=
  .next (if fn = 0 ∧ value.toNat % 256 = 0x5A then s.warmCause 3 else s)

/-- JTAG_TEST_RESET: the test logic alone, which selects IDCODE. -/
def execJtagTestReset (s : State) : Out := .next { s with sec.jtag := 0x2064A0E9 }

end Sys2Proof.Machine
end

