-- ==== Sys2Proof/Machine/Trace.lean ====
section
/-! DEFINITION. Trace collection, triggers and the class 0xB commands, and the reads that latch (R493 to R511). -/

namespace Sys2Proof.Machine

/-! ### The trace buffer (R497 to R499) -/

/-- A record as 16 bytes (R494, Table 1). -/
def TraceRec.bytes (r : TraceRec) : List Byte :=
  leBytes 16 (pack [(0, 4, r.type), (4, 7, r.source), (16, 48, r.stamp.toNat), (64, 32, r.a.toNat), (96, 32, r.b.toNat)])

/-- Records that DEST holds. -/
def Trc.size (t : Trc) : Nat := t.destBytes / 16

/-- A record goes to DEST at index W. -/
def State.traceOut (s : State) (r : TraceRec) : State :=
  { s.wr (s.trc.dest + 16 * (s.trc.w.toNat % s.trc.size)) r.bytes with trc.w := s.trc.w + 1 }

/-- In mode 1 the history drains while DEST has room, the trigger slot ahead of it; a stop that waited for the drain then ends. -/
def State.traceDrain (s : State) : Nat → State
  | 0 => s
  | n + 1 =>
    let t := s.trc
    if t.mode = 1 ∧ (t.w - t.r).toNat < t.size then
      match t.trig, t.hist with
      | some r, _ => { s.traceOut r with trc.trig := none }.traceDrain n
      | none, r :: rest => { s.traceOut r with trc.hist := rest }.traceDrain n
      | none, [] => s
    else s

/-- Nothing is left to drain. -/
def Trc.empty (t : Trc) : Bool := t.trig.isNone && t.hist.isEmpty && t.bufLost == 0 && t.srcs.cells.all fun c => c.2.fifo.isEmpty && c.2.lost == 0

/-- TRACE_STOP is answered once the history has drained: trace is off (R509). -/
def State.traceOff (s : State) : State :=
  match s.trc.stopping with
  | some h => if s.trc.empty then { s with trc.mode := 0, trc.state := .off, trc.stopping := none }.replyOpt h {} else s
  | none => s

/-- The history's 65,535 slots. -/
def histMax : Nat := 65535

/-- A record enters the history, or is lost at a full one in mode 1 (R499); in mode 2 it may be the last that the post phase keeps (R501). -/
def State.traceKeep (s : State) (r : TraceRec) : State :=
  let t := s.trc
  let full := decide (histMax ≤ t.hist.length)
  if t.mode = 2 then
    let s := { s with trc.hist := (if full then t.hist.drop 1 else t.hist) ++ [r], trc.wrapped := t.wrapped || full }
    if t.state == .post && decide (0 < wdiff 48 r.stamp.toNat t.trigStamp.toNat) then
      let s := { s with trc.postLeft := t.postLeft - 1 }
      if t.postLeft ≤ 1 then s.traceFreeze else s
    else s
  else if full || t.bufLost != 0 then
    { s with trc.bufLost := satAdd 0xFFFFFFFF t.bufLost 1, trc.bufFirst := if t.bufLost = 0 then r.stamp else t.bufFirst, trc.bufLast := r.stamp,
             trc.lost := satInc t.lost, trc.lostBit := true }
  else { s with trc.hist := t.hist ++ [r] }

/-- The buffer's GAP record, once the history has room again. -/
def State.traceBufGap (s : State) : State :=
  let t := s.trc
  if t.mode = 1 ∧ t.bufLost ≠ 0 ∧ t.hist.length < histMax then
    { s with trc.bufLost := 0,
             trc.hist := t.hist ++ [{ type := 8, source := 127, stamp := t.bufLast, a := BitVec.ofNat 32 t.bufLost,
                                      b := BitVec.ofNat 32 (min 0xFFFFFFFF (t.bufLast - t.bufFirst).toNat) }] }
  else s

/-- The source whose oldest record goes next: the oldest stamp, and the lower source between equal stamps (R498). -/
def Trc.nextSource (t : Trc) : Option Nat :=
  let heads := t.srcs.cells.filterMap fun c => c.2.fifo.head?.map fun r => (c.1, r.stamp)
  match heads with
  | [] => none
  | h :: rest => some (rest.foldl (fun (m : Nat × BitVec 48) x => if wdiff 48 x.2.toNat m.2.toNat < 0 then x else m) h).1

/-- One record moves from its source's FIFO into the buffer. -/
def State.traceMove (s : State) : State :=
  match s.trc.nextSource with
  | some k =>
    match (s.trc.srcs.get k).fifo with
    | r :: rest => { s with trc.srcs := s.trc.srcs.upd k fun q => { q with fifo := rest } }.traceKeep r
    | [] => s
  | none => s

/-- The buffer still takes records. -/
def Trc.taking (t : Trc) : Bool := t.state == .armed || t.state == .post || t.stopping.isSome

/-- TRACE_MERGE: one tick of the merge, and what then drains. -/
def execTraceMerge (s : State) : Out :=
  let s := if s.trc.taking then s.traceMove else s
  let s := if s.trc.taking then s.traceMove else s
  .next ((s.traceDrain 65536).traceBufGap.traceDrain 1).traceOff

/-- TRACE_GAP_RECORD (R497, R499): sources whose FIFO has room again, and the buffer, write the GAP records they owe. -/
def execTraceGapRecord (s : State) : Out :=
  let s := { s with trc.srcs := ⟨s.trc.srcs.cells.map fun (c : Nat × TraceSrc) => (c.1, c.2.flush c.1)⟩ }
  .next s.traceBufGap

/-- A SYNC record of source 66 (R496). -/
def State.traceSyncRec (s : State) : State := s.trace 66 1 9 (s.now.toNat % 2 ^ 32) (s.now.toNat / 2 ^ 32)

/-- TRACE_SYNC: every 2^24 ticks. -/
def execTraceSync (s : State) : Out := .next s.traceSyncRec

/-! ### Commands (R500 to R504, R509) -/

/-- The checks every trace command begins with. -/
def State.dbgChecks (s : State) (h : Hdr) : List (Bool × Nat) := [(h.fn != 0, 0xB001), (!s.sec.debugIsOpen, 0xB002)]

/-- DEST_BYTES: a power of two from 64 KiB to 1 GiB. -/
def destBytesOk (n : Nat) : Bool := (List.range 15).any fun k => n == 2 ^ (16 + k)

/-- TRACE_CONFIG. -/
def doTraceConfig (h : Hdr) (params : BitVec 384) (s : State) : Ans :=
  let x := params.toNat
  let mode := par x 0 8
  let mask := par x 1 8
  let post := par x 4 16
  let pin := par x 12 8
  let dest := par x 16 64
  let n := par x 24 32
  checks (s.dbgChecks h ++
      [(!within 1 2 mode || decide (64 ≤ mask) || post == 0xFFFF || decide (66 < par x 6 8) || decide (3 < pin), 0xB003), (dest % 4096 != 0 || !inAperture dest 1, 0xB005),
       (!destBytesOk n, 0xB003), (!inAperture dest n, 0xB005), (s.trc.mode != 0, 0xB004)])
    (.ok { s with
      trc.cfgMode := BitVec.ofNat 2 mode, trc.trigMask := BitVec.ofNat 8 mask, trc.trigFault := BitVec.ofNat 16 (par x 2 16), trc.postCount := post,
      trc.trigSrc := par x 6 8, trc.trigWindow := par x 7 8, trc.trigPc := BitVec.ofNat 32 (par x 8 32), trc.trigPin := pin, trc.dest := dest,
      trc.destBytes := n } {})

def execTraceConfig (h : Hdr) (params : BitVec 384) (s : State) : Out := firmware h s (doTraceConfig h params s)

/-- TRACE_SOURCES. -/
def doTraceSources (h : Hdr) (params : BitVec 384) (s : State) : Ans :=
  let x := params.toNat
  let first := par x 0 8
  let n := par x 1 8
  checks (s.dbgChecks h ++ [(decide (66 < first) || !within 1 (67 - first) n, 0xB003)])
    (.ok { s with trc.srcs := (List.range n).foldl (fun (t : Tab TraceSrc) i =>
             t.upd (first + i) fun q => { q with level := BitVec.ofNat 2 (fld x (64 + 2 * i) 2) }) s.trc.srcs } {})

def execTraceSources (h : Hdr) (params : BitVec 384) (s : State) : Out := firmware h s (doTraceSources h params s)

/-- TRACE_START: the buffer is emptied, W = R = 0, and trace is on in the mode configured. -/
def doTraceStart (h : Hdr) (s : State) : Ans :=
  let runs := match s.pln.state with | .running | .stopping => true | _ => false
  checks (s.dbgChecks h ++ [(s.trc.mode != 0 || s.trc.cfgMode == 0, 0xB004)])
    (.ok { s with
      trc.mode := s.trc.cfgMode, trc.state := .armed, trc.srcs := s.trc.srcs.mapV (fun q => { level := q.level }), trc.hist := [], trc.wrapped := false,
      trc.trig := none, trc.trigCause := 0, trc.trigCount := 0, trc.postLeft := 0, trc.lastTrig := none, trc.bufLost := 0, trc.w := 0, trc.r := 0, trc.startTick := s.tick,
      trc.stamp := if runs then s.trc.stamp else 0 }.traceSyncRec {})

def execTraceStart (h : Hdr) (s : State) : Out := firmware h s (doTraceStart h s)

/-- TRACE_STOP: no further capture; in mode 1 the reply follows the drain. -/
def doTraceStop (h : Hdr) (s : State) : Ans :=
  checks (s.dbgChecks h ++ [(s.trc.stopping.isSome, 0xB004)])
    (if s.trc.mode = 1 then .later { s with trc.state := .off, trc.stopping := some (some h) }.traceOff
     else .ok { s with trc.mode := 0, trc.state := .off } {})

def execTraceStop (h : Hdr) (s : State) : Out := firmware h s (doTraceStop h s)

/-- TRACE_TRIGGER: cause 0 (R500). -/
def doTraceTrigger (h : Hdr) (s : State) : Ans := checks (s.dbgChecks h) (.ok (s.trigger 0 0) {})

def execTraceTrigger (h : Hdr) (s : State) : Out := firmware h s (doTraceTrigger h s)

/-- TRACE_DUMP (R502): the trigger slot, then the history from the oldest, as far as DEST holds them. -/
def doTraceDump (h : Hdr) (s : State) : Ans :=
  let rs := (s.trc.trig.toList ++ s.trc.hist).take s.trc.size
  checks (s.dbgChecks h ++ [(s.trc.state != .frozen, 0xB004)])
    (.ok (rs.zipIdx.foldl (fun s x => s.wr (s.trc.dest + 16 * x.2) x.1.bytes) s) { r0 := rs.length })

def execTraceDump (h : Hdr) (s : State) : Out := firmware h s (doTraceDump h s)

/-! ### Counters (R505, R508, R509, R511) -/

/-- A bank as a read samples it: in the boundary tick RUN still has the values of the segment that ended. -/
def Counters.bank (c : Counters) (b : Nat) : Tab (BitVec 64) :=
  if b = 0 then (if c.atBoundary then c.shadow else c.run) else if b = 1 then c.shadow else c.total

/-- The job and generation whose segment a bank samples. -/
def State.bankJob (s : State) (n b : Nat) : Option (Nat × Nat) :=
  let r := s.rod n
  if b = 1 || (b = 0 && r.cnt.atBoundary) then
    (if r.cnt.shadowStamp = 0 then none else some (r.cnt.shadowJob.toNat, r.cnt.shadowGen.toNat))
  else if b = 0 then
    match r.cnt.closing with
    | some (j, g, _) => some (j.toNat, g.toNat)
    | none => if r.inSegment then r.job.map fun j => (j, (s.jobRun j).gen.toNat) else none
  else none

/-- CNT_READ. -/
def doCntRead (h : Hdr) (rod bank : Byte) (s : State) : Ans :=
  let n := rod.toNat
  let b := bank.toNat
  let c := (s.rod n).cnt
  let own := match s.bankJob n b with | some (j, _) => s.jobPart j == h.fn.val && (s.jobRec j).isSome | none => false
  let foreign := h.fn != 0 && !own
  let (j, g) := (s.bankJob n b).getD (0, 0)
  let vals := (List.range 20).flatMap fun k => leBytes 8 (if foreign then 0 else ((c.bank b).get k).toNat)
  checks [(h.fn != 0 && b == 2, 0xB001), (decide (63 < n) || decide (2 < b), 0xB003)]
    (.ok s { ext := some (leBytes 8 s.trc.stamp.toNat ++ leBytes 4 (b2n c.atBoundary + 2 * b2n foreign) ++ leBytes 4 (j + g * 2 ^ 16) ++
      leBytes 4 (if b = 1 || (b = 0 && c.atBoundary) then c.shadowEnd.toNat else 0) ++ List.replicate 12 0 ++ vals) })

def execCntRead (h : Hdr) (rod bank : Byte) (s : State) : Out := firmware h s (doCntRead h rod bank s)

/-- A host read returns a word. -/
def State.answerRead (s : State) (w : Nat) : State := { s with hif.cpl := { data := leBytes 4 w } }

/-- A function's BAR0 shows the DBG and CNT blocks: PF0's, with debug open (R257, R504). -/
def State.dbgReach (s : State) (fn : Fin 16) : Bool := fn == 0 && s.sec.debugIsOpen

/-- CNT_LO_READ: the LO word is returned, the HI word latched, and AT_BOUNDARY recorded. -/
def execCntLoRead (fn : Fin 16) (rod : Fin 64) (bank : Fin 3) (k : Fin 32) (s : State) : Out :=
  if !s.dbgReach fn then .next (s.answerRead 0)
  else
    let v := (((s.rod rod.val).cnt.bank bank.val).get k.val).toNat
    .next ((s.updRod rod.val fun r => { r with cnt.hiLatch := BitVec.ofNat 32 (v / 2 ^ 32), cnt.boundary := r.cnt.atBoundary }).answerRead (v % 2 ^ 32))

/-- DBG_STAMP_LO_READ (R510). -/
def execDbgStampLoRead (fn : Fin 16) (s : State) : Out :=
  if !s.dbgReach fn then .next (s.answerRead 0)
  else .next ({ s with trc.stampHi := BitVec.ofNat 16 (s.trc.stamp.toNat / 2 ^ 32) }.answerRead (s.trc.stamp.toNat % 2 ^ 32))

/-- DBG_TRACE_RPTR_WRITE (R262, R499). -/
def execDbgTraceRptrWrite (fn : Fin 16) (value : Word) (s : State) : Out :=
  let t := s.trc
  if !s.dbgReach fn then .next s
  else if 0 ≤ wdiff 32 value.toNat t.r.toNat ∧ 0 ≤ wdiff 32 t.w.toNat value.toNat then
    .next (({ s with trc.r := value }.traceDrain 65536).traceBufGap.traceDrain 1).traceOff
  else .next { s with trc.rptrBad := true }

end Sys2Proof.Machine
end

