-- ==== Sys2Proof/Machine/Regs.lean ====
section
/-! DEFINITION. The register space (R9, R10, R21, R22): what every listed register reads as, and a write of a register. -/

namespace Sys2Proof.Machine

/-- Word `i` of a number. -/
def wordAt (x i : Nat) : Nat := fld x (32 * i) 32

/-! ### Reads, by block and byte offset. Unlisted offsets, reserved bits and write-only registers read zero. -/

/-- HIF_FN_RING, HIF_FN_TAG, HIF_FN_VEC and HIF_FN_EVENT (R288, Table 18). -/
def Fn.word (n : Fn) (i : Nat) : Nat :=
  match i with
  | 0 => pack [(0, 14, n.ringFirst.toNat), (16, 14, n.ringCount.toNat)]
  | 1 => pack [(0, 12, n.tagFirst.toNat), (16, 13, n.tagCount.toNat)]
  | 2 => pack [(0, 11, n.vecFirst.toNat), (16, 12, n.vecCount.toNat)]
  | 3 => pack [(0, 13, n.eventRing.toNat), (31, 1, b2n n.bound)]
  | _ => 0

/-- A ring descriptor (R260, Table 4). -/
def Ring.image (r : Ring) : Nat :=
  pack [(0, 48, r.base.toNat), (64, 48, r.wb.toNat), (128, 3, r.type.toNat), (131, 5, r.log2.toNat), (136, 1, b2n r.enable), (137, 1, b2n r.irqEn),
    (138, 1, b2n r.armed), (139, 2, r.state.toNat), (144, 11, r.vector.toNat), (160, 13, r.pair.toNat), (192, 32, r.head.toNat), (224, 32, r.tail.toNat)]

/-- An MSI-X table entry, as PCIe lays it out. -/
def MsixEntry.image (e : MsixEntry) : Nat := pack [(0, 64, e.addr.toNat), (64, 32, e.data.toNat), (96, 1, b2n !e.unmasked)]

/-- Pending bits of the 32 vectors from `v`. -/
def State.pendWord (s : State) (v : Nat) : Nat := (List.range 32).foldl (fun a i => a + 2 ^ i * b2n (s.hif.msix.get (v + i)).pend) 0

/-- HIF (R288). -/
def State.hifReg (s : State) (o : Nat) : Nat :=
  if o = 0 then pack [(0, 1, b2n s.hif.linkUp), (1, 1, b2n s.hif.cfgReject), (2, 1, b2n s.hif.dbBad), (3, 1, b2n s.hif.ringError)]
  else if o = 4 then (hifLink s).toNat
  else if within 0x100 0x1FF o then (s.hif.fns.get ((o - 0x100) / 16)).word (o / 4 % 4)
  else if within 0x40000 0x47FFF o then wordAt (s.hif.msix.get ((o - 0x40000) / 16)).image (o / 4 % 4)
  else if within 0x48000 0x480FF o then s.pendWord ((o - 0x48000) * 8)
  else if within 0x80000 0xFFFFF o then wordAt (s.hif.rings.get ((o - 0x80000) / 32)).image (o / 4 % 8)
  else 0

/-- TLY (R289). -/
def State.tlyReg (s : State) (o : Nat) : Nat :=
  if o < 0x10000 then (s.tly.values.get (o / 4)).toNat
  else if o = 0x10000 then pack [(0, 14, s.tly.remoteFirst.toNat), (16, 15, s.tly.remoteCount.toNat)]
  else if o = 0x10004 then pack [(0, 13, s.tly.waits.length), (16, 13, s.tly.maxUsed)]
  else if o = 0x10008 then s.tly.waitFull.toNat
  else 0

/-- PLN (R230). -/
def State.plnReg (s : State) (o : Nat) : Nat :=
  let p := s.pln
  if o = 0 then pack [(0, 3, p.state.code), (8, 8, p.window)]
  else if o = 4 then p.frameTick
  else if o = 8 then fld p.frameCount.toNat 0 32
  else if o = 0xC then fld p.frameCount.toNat 32 32
  else if o = 0x10 then ((p.plan.map Plan.planId).getD 0).toNat
  else if o = 0x14 then ((p.plan.map Plan.version).getD 0).toNat
  else if o = 0x18 then p.jobSel.toNat
  else if within 0x20 0x3F o then wordAt (p.jobs.get p.jobSel.toNat).word (o / 4 - 8)
  else if within 0x40 0x7F o then
    let n := o / 4 - 16
    if p.halted.get n then 2 else if ((p.plan.map fun pl => pl.hasPart n).getD false) then 1 else 0
  else if within 0x100 0x1FF o then (p.selftest.get (o / 4 - 64)).word
  else 0

/-- The registers of a rod (R91). -/
def State.rodReg (s : State) (n o : Nat) : Nat :=
  let r := s.rods.get n
  let even := n % 2 = 0
  if o = 0 then pack [(0, 6, n), (6, 2, n / 16), (8, 4, n / 4), (12, 3, n % 8), (15, 3, n / 8)]
  else if o = 4 then pack [(0, 2, r.state.toNat), (2, 1, b2n r.locked), (3, 1, b2n (r.locked && n % 2 == 1)), (4, 4, r.part.toNat), (8, 1, b2n r.ctxSaved)]
  else if o = 8 then (if even then r.req.toNat else 0)
  else if o = 0xC then
    (if even then pack [(0, 2, r.pairState.toNat), (2, 1, b2n r.lockFailed), (3, 1, b2n r.mismatch), (4, 1, b2n r.cmpDisagree), (16, 16, r.mismatchCount.toNat)]
     else 0)
  else if o = 0x10 then r.fault.toNat
  else if o = 0x14 then r.ceCount.toNat
  else if o = 0x18 then r.mismatchAddr.toNat
  else if o = 0x1C then r.ctxSaveBase.toNat
  else 0

/-- A ring context as PGK_RING_STATUS shows it (R181, Table 16). -/
def RingCtx.word (g : RingCtx) : Nat := pack [(0, 2, g.state.toNat), (2, 6, g.lastArrived), (8, 6, g.lastSent), (14, 2, g.error.toNat)]

/-- PGK and its carry registers (R181, R198). -/
def State.pgkReg (s : State) (o : Nat) : Nat :=
  let k := s.pgk
  if o = 0 then pack [(0, 1, b2n k.ready), (1, 1, b2n k.tableUe)]
  else if o = 4 then k.seqSel.toNat
  else if o = 8 then k.pageSel.toNat
  else if within 0x20 0x3F o then leNat (((k.seqs.get k.seqSel.toNat).bytes.drop (o - 0x20)).take 4)
  else if within 0x40 0x47 o then wordAt (s.pageEntry k.pageSel.toNat) (o / 4 % 2)
  else if within 0x100 0x1FF o then
    (match s.pool ((o - 0x100) / 16) with
     | some p => (match o / 4 % 4 with
       | 0 => s.poolFree p | 1 => s.poolResv p.part | 2 => s.poolUnowned p | _ => (k.pools.get p.part).waits.toNat)
     | none => 0)
  else if within 0x200 0x23F o then (k.rings.get ((o - 0x200) / 4)).word
  else if o = 0x2000 then s.cry.sel.toNat
  else if within 0x2020 0x203F o then leNat (((s.stream s.cry.sel.toNat).bytes.drop (o - 0x2020)).take 4)
  else 0

/-- SNS (R317). -/
def State.snsReg (s : State) (o : Nat) : Nat :=
  let n := s.sns
  if o = 0 then pack [(0, 1, b2n n.ready), (1, 1, b2n n.slotMiss)]
  else if within 0x100 0x1FF o then
    let p := n.ports.get ((o - 0x100) / 16)
    (match o / 4 % 4 with
     | 0 => pack [(0, 1, b2n p.phy), (1, 3, p.lanes.toNat), (16, 16, p.rate.toNat)]
     | 1 => pack [(0, 1, b2n p.locked), (1, 1, b2n p.corrected), (2, 1, b2n p.failed), (3, 1, b2n p.unknown), (4, 1, b2n p.unmatched), (16, 16, p.discarded.toNat)]
     | _ => 0)
  else if o = 0x400 then n.sel.toNat
  else if within 0x420 0x45F o then wordAt (s.pointEntry n.sel.toNat) (o / 4 - 0x108)
  else 0

/-- CLE (R342). -/
def State.cleReg (s : State) (o : Nat) : Nat :=
  let c := s.cle
  let n := o / 4 % 128
  if o = 0 then pack [(0, 2, c.state.toNat), (2, 2, c.safeIn.toNat), (4, 1, b2n (c.pwms.cells.any fun q => q.2.forced)), (5, 1, b2n c.start.isSome)]
  else if o = 8 then fld c.period.toNat 0 32
  else if o = 0xC then fld c.period.toNat 32 32
  else if within 0x100 0x2FF o then (c.loops.get ((o - 0x100) / 4)).ctl
  else if within 0x300 0x4FF o then s.loopStatus ((o - 0x300) / 4)
  else if within 0x500 0x6FF o then (c.loops.get ((o - 0x500) / 4)).evalSeq.toNat
  else if within 0x700 0x8FF o then wrap 32 (c.loops.get ((o - 0x700) / 4)).out
  else if within 0x900 0xAFF o then (c.mails.get ((o - 0x900) / 4)).seq.toNat
  else if within 0xB00 0xCFF o then (c.loops.get ((o - 0xB00) / 4)).snapDrops.toNat
  else if within 0x3000 0x30BF o then (c.pwms.get (n % 64)).cmp
  else if within 0x3100 0x31BF o then let q := c.pwms.get (n % 64); pack [(0, 1, b2n q.forced), (1, 1, b2n q.latched)]
  else if within 0x3400 0x347F o then (c.encs.get (n % 64)).pos.toNat
  else if within 0x3500 0x357F o then (c.encs.get (n % 64)).errors.toNat
  else if within 0x3600 0x367F o then (c.sds.get (n % 64)).out.toNat
  else 0

/-- TIM (R365). A read of TIM_NOW_FRAC that latches is TIM_NOW_FRAC_READ; here it is the latch. -/
def State.timReg (s : State) (o : Nat) : Nat :=
  let t := s.tim
  if o = 0 then pack [(0, 1, b2n t.stepped), (1, 1, b2n t.jumpRefused), (2, 1, b2n (t.slewLeft != 0)), (3, 1, b2n t.capLost), (4, 1, b2n t.cmpLate)]
  else if o = 4 then t.jumpLimit.toNat
  else if o = 8 then fld t.incr.toNat 0 32
  else if o = 0xC then fld t.incr.toNat 32 16
  else if o = 0x10 then fld t.latch.toNat 0 16
  else if o = 0x14 then fld t.latch.toNat 16 32
  else if o = 0x18 then fld t.latch.toNat 48 32
  else if o = 0x1C then fld t.latch.toNat 80 16
  else if o = 0x20 then t.refused.toNat
  else if o = 0x24 then t.slewLeft.toNat
  else if within 0x40 0x57 o then let p := t.pins.get (o / 4 - 16); pack [(0, 2, p.mode.toNat), (2, 1, b2n p.edge), (3, 3, p.fifo.length)]
  else if within 0x60 0x77 o then (t.pins.get (o / 4 - 24)).lost.toNat
  else 0

/-- A CAN controller's registers and windows (R385). -/
def CanCtl.reg (q : CanCtl) (o : Nat) : Nat :=
  if o < 0x40 then (q.word (o / 4)).toNat
  else if within 0x100 0x1FF o then
    let m := q.mbs.get (o / 4 - 64)
    pack [(0, 2, m.kind.toNat), (2, 2, m.mode.toNat), (4, 1, b2n m.full), (5, 1, b2n m.pend), (6, 1, b2n m.shadow.isSome), (7, 1, b2n m.oneShot)]
  else if within 0x1000 0x30FF o && decide (o % 0x80 < 0x60) then wordAt (q.window (o / 0x80 - 32)).toNat (o / 4 % 32)
  else 0

/-- TYB (R407): the common registers, then the ports in 64 KiB each. -/
def State.tybReg (s : State) (o : Nat) : Nat :=
  let t := s.tyb
  if 0x10000 ≤ o then
    let q := s.port (o / 0x10000 - 1)
    let i := o % 0x10000
    if 0x20000 < o - i then 0
    else if i < 0x24 then (q.word (i / 4)).toNat
    else if within 0x24 0x33 i then q.credit.get (i / 4 - 9)
    else 0
  else if o = 0 then t.node.toNat
  else if o = 4 then pack [(0, 1, b2n t.partner.up), (1, 1, b2n t.lost), (2, 1, b2n t.mismatch), (3, 1, b2n t.timeBad), (4, 1, b2n t.conflict)]
  else if o = 8 then t.noRoute.toNat
  else if o = 0xC then t.hopsExpired.toNat
  else if o = 0x10 then t.routeSel.toNat
  else if o = 0x14 then
    let r := t.routes.get t.routeSel.toNat
    pack [(0, 14, r.prefix_.toNat), (16, 4, r.len.toNat), (20, 1, b2n r.port), (21, 1, b2n r.valid)]
  else if o = 0x20 then t.partnerOffset.toNat
  else if o = 0x24 then t.partnerDelay.toNat
  else if o = 0x28 then t.hbRxSeq.toNat
  else if o = 0x2C then t.unmatched.toNat
  else if within 0x40 0x7F o then wordAt t.witness.toNat (o / 4 - 16)
  else 0

/-- MEM (R428). -/
def State.memReg (s : State) (o : Nat) : Nat :=
  let m := s.memc
  let c := o / 4 % 32
  if o = 0 then pack [(0, 2, m.state.toNat), (2, 1, b2n m.ue), (3, 1, b2n s.tempHigh)]
  else if o = 4 then pack [(0, 1, b2n m.rate), (1, 2, m.density.toNat), (3, 1, b2n m.ranks), (4, 1, b2n m.lp5x)]
  else if o = 8 then fld m.size 0 32
  else if o = 0xC then fld m.size 32 32
  else if o = 0x10 then fld m.ueAddr.toNat 0 32
  else if o = 0x14 then fld m.ueAddr.toNat 32 16
  else if o = 0x18 then m.passes.toNat
  else if within 0x100 0x17F o then (m.rdCe.get c).toNat
  else if within 0x180 0x1FF o then (m.wrCe.get c).toNat
  else if within 0x200 0x27F o then (m.inlineCe.get c).toNat
  else if within 0x280 0x2FF o then (m.ueCount.get c).toNat
  else if within 0x300 0x37F o then let t := m.train.get c; pack [(0, 3, t.step.toNat), (3, 1, b2n t.failed), (4, 8, t.hottest.toNat)]
  else 0

/-- The boot states as SEC_STATUS shows them (R474, Table 14). -/
def Boot.code : Boot → Nat
  | .rom => 0 | .bootWait => 1 | .verify => 2 | .awaitSettings => 3 | .memInit => 4 | .ready => 5

/-- A bit for each of the first `n` numbers. -/
def bitsOf (n : Nat) (p : Nat → Bool) : Nat := (List.range n).foldl (fun a i => a + 2 ^ i * b2n (p i)) 0

/-- SEC (R474). -/
def State.secReg (s : State) (o : Nat) : Nat :=
  let c := s.sec
  if o = 0 then pack [(0, 2, c.lifecycle.code), (2, 3, c.boot.code), (5, 1, b2n c.debugIsOpen), (6, 1, b2n c.overrideOn.isSome),
    (7, 2, bitsOf 2 fun j => (c.keys.get j).isSome), (9, 2, bitsOf 2 c.revoked), (11, 1, b2n c.ledgerOpen)]
  else if o = 4 then pack [(0, 1, b2n c.job.isSome), (1, 1, b2n c.suspended), (2, 1, b2n c.marginal), (3, 1, b2n c.noSlots), (4, 3, c.activeGen.toNat),
    (7, 3, c.pendingGen.toNat), (10, 6, bitsOf 6 fun i => c.consumed (settingsSlot i)), (16, 6, bitsOf 6 fun i => c.spoiled (settingsSlot i)),
    (22, 2, bitsOf 2 fun i => c.consumed (provSlot i)), (24, 2, bitsOf 2 fun i => c.valid (provSlot i))]
  else if o = 8 then (List.range 4).foldl (fun x k => x + c.counter k * 2 ^ (8 * k)) 0
  else if o = 0x10 then pack [(0, 4, c.result.toNat), (8, 8, c.failures.toNat)]
  else if o = 0x14 then fld c.headSeq.toNat 0 32
  else if o = 0x18 then fld c.headSeq.toNat 32 32
  else if o = 0x1C then c.epoch.toNat
  else if o = 0x20 then pack [(0, 7, c.queue.length), (7, 7, (c.queue.filter fun r => r.bytes.isNone).length), (16, 16, c.lostOpen.toNat)]
  else if o = 0x24 then c.rowsUsed
  else if within 0x40 0x6F o then wordAt c.fwMeasure.toNat (o / 4 - 16)
  else 0

/-- PWR (R492). -/
def State.pwrReg (s : State) (o : Nat) : Nat :=
  let p := s.pwr
  if o = 0 then pack [(0, 1, b2n p.planReject), (1, 1, b2n p.cfgReject), (2, 1, b2n p.guardTrip), (3, 1, b2n p.thermWarn), (4, 1, b2n p.thermCrit),
    (5, 1, b2n p.cold), (6, 1, b2n p.supplyWarn), (7, 1, b2n p.underSpec)]
  else if o = 4 then p.plan.toNat
  else if o = 8 then pack [(0, 3, p.cause.toNat), (3, 2, p.rail.toNat), (16, 16, p.warmCount.toNat)]
  else if o = 0x10 then fld p.warnTime.toNat 0 32
  else if o = 0x14 then fld p.warnTime.toNat 32 32
  else if o = 0x18 then p.powerNow.toNat
  else if o = 0x1C then p.powerPeak.toNat
  else if o = 0x20 then p.thermNow.toNat
  else if o = 0x24 then p.thermMax.toNat
  else if o = 0x28 then p.warnAt.toNat
  else if within 0x30 0x3F o then (p.supMin.get (o / 4 - 12)).toNat
  else if o = 0x40 then pack [(0, 4, p.below.toNat), (4, 4, p.warn.toNat), (8, 4, p.under.toNat), (12, 4, p.hold.toNat)]
  else if o = 0x48 then p.warnCount.toNat
  else if within 0x50 0x93 o then (p.trips.get (o / 4 - 20)).toNat
  else 0

/-- The trace states as DBG_TRACE_STATUS shows them (R510, Table 7). -/
def TraceState.code : TraceState → Nat
  | .off => 0 | .armed => 1 | .post => 2 | .frozen => 3

/-- DBG (R510). -/
def State.dbgReg (s : State) (o : Nat) : Nat :=
  let t := s.trc
  if o = 0 then pack [(0, 2, t.mode.toNat), (2, 2, t.state.code), (4, 1, b2n t.wrapped), (5, 1, b2n t.trig.isSome), (6, 1, b2n t.lostBit),
    (7, 1, b2n t.rptrBad), (8, 8, t.trigCause.toNat)]
  else if o = 4 then t.w.toNat
  else if o = 8 then t.r.toNat
  else if o = 0xC then t.trigCount.toNat
  else if o = 0x10 then min 0xFFFF t.hist.length
  else if o = 0x14 then t.lost.toNat
  else if o = 0x18 then fld t.stamp.toNat 0 32
  else if o = 0x1C then t.stampHi.toNat
  else if within 0x100 0x20B o then let q := t.srcs.get (o / 4 - 64); pack [(0, 2, q.level.toNat), (2, 1, b2n q.lossSeen)]
  else 0

/-- CNT of one rod (R511). A LO read that latches is CNT_LO_READ; the HI words read the latch (R508). -/
def Counters.reg (c : Counters) (o : Nat) : Nat :=
  let half := fun (t : Tab (BitVec 64)) => if o / 4 % 2 = 0 then fld (t.get (o / 8 % 32)).toNat 0 32 else c.hiLatch.toNat
  if o < 0x100 then half (c.bank 0)
  else if o < 0x200 then half c.shadow
  else if o < 0x300 then half c.total
  else if o = 0x300 then pack [(0, 16, c.shadowJob.toNat), (16, 16, c.shadowGen.toNat)]
  else if o = 0x304 then c.shadowEnd.toNat
  else if o = 0x308 then fld c.shadowStamp.toNat 0 32
  else if o = 0x30C then fld c.shadowStamp.toNat 32 16
  else if o = 0x310 then b2n c.boundary
  else 0

/-- What PF0 reads at an offset of the register space (R22, Table 4): the word at 0x0200_0000_0000 plus the offset. The trace and counter
blocks read zero while debug is closed (R466). -/
def State.regRead (s : State) (off : Nat) : Word :=
  let o := off % 0x100000
  BitVec.ofNat 32 (match off / 0x100000 with
    | 0x00 => if o % 4 = 0 then (capWord s (o / 4)).toNat else 0
    | 0x01 => s.hifReg o
    | 0x02 => s.tlyReg o
    | 0x03 => s.plnReg o
    | 0x04 => s.rodReg (o / 0x10000) (o % 0x10000)
    | 0x05 => s.rodReg (16 + o / 0x10000) (o % 0x10000)
    | 0x06 => s.rodReg (32 + o / 0x10000) (o % 0x10000)
    | 0x07 => s.rodReg (48 + o / 0x10000) (o % 0x10000)
    | 0x08 => s.pgkReg o
    | 0x09 => s.snsReg o
    | 0x0A => s.cleReg o
    | 0x0B => s.timReg o
    | 0x0C => if o < 0x80000 && decide (o % 0x10000 < 0x140) then ((s.mac (o / 0x10000)).word (o % 0x10000 / 4)).toNat else 0
    | 0x0D => (s.ctl (o / 0x10000)).reg (o % 0x10000)
    | 0x0E => s.tybReg o
    | 0x0F => s.memReg o
    | 0x10 => s.safReg o
    | 0x11 => s.secReg o
    | 0x12 => s.pwrReg o
    | 0x13 => if s.dbgReach 0 then s.dbgReg o else 0
    | 0x14 => if s.dbgReach 0 && decide (o < 0x10000) then ((s.rods.get (o / 0x400)).cnt).reg (o % 0x400) else 0
    | _ => 0)

/-- What a VF reads at an offset of its BAR0 (R257, Table 2). -/
def State.vfRead (s : State) (f : Fin 16) (off : Nat) : Word :=
  let n := s.hif.fns.get f.val
  BitVec.ofNat 32 (
    if off < 0x10 then n.word (off / 4)
    else if within 0x10000 0x17FFF off && decide ((off - 0x10000) / 16 < n.vecCount.toNat) then
      wordAt (s.hif.msix.get (n.vecFirst.toNat + (off - 0x10000) / 16)).image (off / 4 % 4)
    else if within 0x18000 0x180FF off then
      (List.range 32).foldl (fun a i =>
        let v := (off - 0x18000) * 8 + i
        a + 2 ^ i * b2n (decide (v < n.vecCount.toNat) && (s.hif.msix.get (n.vecFirst.toNat + v)).pend)) 0
    else if within 0x40000 0x7FFFF off && decide ((off - 0x40000) / 32 < n.ringCount.toNat) then
      wordAt (s.hif.rings.get (n.ringFirst.toNat + (off - 0x40000) / 32)).image (off / 4 % 8)
    else 0)

/-! ### Writes -/

/-- W1C: a written 1 clears the bit (R9). -/
def w1c (b : Bool) (v : Word) (i : Nat) : Bool := b && !v.getLsbD i

/-- A write of word `i` of MSI-X entry `v`; unmasking a pending vector sends its message, as PCIe gives. -/
def State.msixWrite (s : State) (v i : Nat) (w : Word) : State :=
  let e := s.hif.msix.get v
  match i with
  | 0 => { s with hif.msix := s.hif.msix.set v { e with addr := e.addr.extractLsb' 32 32 ++ (w &&& 0xFFFFFFFC) } }
  | 1 => { s with hif.msix := s.hif.msix.set v { e with addr := w ++ e.addr.extractLsb' 0 32 } }
  | 2 => { s with hif.msix := s.hif.msix.set v { e with data := w } }
  | _ =>
    let on := !w.getLsbD 0
    let t := { s with hif.msix := s.hif.msix.set v { e with unmasked := on, pend := e.pend && !on } }
    if on && e.pend then { t with hif.msgs := t.hif.msgs ++ [(e.addr, e.data)] } else t

/-- A write of a HIF register by PF0 (R256, R260, R288). -/
def State.hifWrite (s : State) (o : Nat) (w : Word) : Out :=
  if o = 0 then
    .next { s with hif.cfgReject := w1c s.hif.cfgReject w 1, hif.dbBad := w1c s.hif.dbBad w 2, hif.ringError := w1c s.hif.ringError w 3 }
  else if within 0x100 0x1FF o then
    let f : Fin 16 := Fin.ofNat 16 ((o - 0x100) / 16)
    match o / 4 % 4 with
    | 0 => execHifFnWrite 0 f .ring w s
    | 1 => execHifFnWrite 0 f .tag w s
    | 2 => execHifFnWrite 0 f .vec w s
    | _ => .next s
  else if within 0x40000 0x47FFF o then .next (s.msixWrite ((o - 0x40000) / 16) (o / 4 % 4) w)
  else if within 0x80000 0xFFFFF o then execRingDescWrite 0 (BitVec.ofNat 14 ((o - 0x80000) / 32)) (Fin.ofNat 8 (o / 4)) w s
  else .next s

/-- A write of a PWR register by PF0 (R492). -/
def State.pwrWrite (s : State) (o : Nat) (w : Word) : Out :=
  let p := s.pwr
  match o with
  | 0x00 => .next { s with pwr := { p with
      planReject := w1c p.planReject w 0, cfgReject := w1c p.cfgReject w 1, guardTrip := w1c p.guardTrip w 2, thermWarn := w1c p.thermWarn w 3,
      thermCrit := w1c p.thermCrit w 4, supplyWarn := w1c p.supplyWarn w 6, underSpec := w1c p.underSpec w 7 } }
  | 0x04 => execPwrPlanWrite 0 w s
  | 0x0C => execPwrResetReq 0 w s
  | 0x28 => execPwrThermWarnWrite 0 w s
  | 0x40 => .next { s with pwr := { p with warn := p.warn &&& ~~~ w.extractLsb' 4 4, under := p.under &&& ~~~ w.extractLsb' 8 4 } }
  | 0x44 => execPwrSupClear 0 w s
  | _ => .next s

/-- A write of a TYB register by PF0 (R407). -/
def State.tybWrite (s : State) (o : Nat) (w : Word) : Out :=
  let t := s.tyb
  match o with
  | 0x04 => .next { s with tyb := { t with
      lost := w1c t.lost w 1, mismatch := w1c t.mismatch w 2, timeBad := w1c t.timeBad w 3, conflict := w1c t.conflict w 4 } }
  | 0x10 => .next { s with tyb := { t with routeSel := w.extractLsb' 0 10 } }
  | _ => .next s

/-- A write of a PGK register by PF0 (R181, R198). -/
def State.pgkWrite (s : State) (o : Nat) (w : Word) : Out :=
  match o with
  | 0x0000 => .next { s with pgk.tableUe := w1c s.pgk.tableUe w 1 }
  | 0x0004 => .next { s with pgk.seqSel := w.extractLsb' 0 12 }
  | 0x0008 => .next { s with pgk.pageSel := w.extractLsb' 0 20 }
  | 0x2000 => .next { s with cry.sel := w.extractLsb' 0 12 }
  | _ => .next s

/-- A write of an SNS register by PF0 (R317). -/
def State.snsWrite (s : State) (o : Nat) (w : Word) : Out :=
  if o = 0 then .next { s with sns.slotMiss := w1c s.sns.slotMiss w 1 }
  else if o = 0x400 then .next { s with sns.sel := w.extractLsb' 0 6 |>.setWidth 8 }
  else if within 0x100 0x1FF o && o % 16 == 4 then
    .next { s with sns.ports := s.sns.ports.upd ((o - 0x100) / 16) fun p =>
      { p with corrected := w1c p.corrected w 1, failed := w1c p.failed w 2, unknown := w1c p.unknown w 3, unmatched := w1c p.unmatched w 4 } }
  else .next s

/-- A write of a SAF register by PF0 (R449). -/
def State.safWrite (s : State) (o : Nat) (w : Word) : Out :=
  match o with
  | 0x00 => .next { s with
      saf.deviceFault := w1c s.saf.deviceFault w 3, saf.jobFault := w1c s.saf.jobFault w 4, saf.injected := w1c s.saf.injected w 5 }
  | 0x24 => .next { s with saf.wdgSel := w.extractLsb' 0 8 }
  | 0x2C => .next { s with saf.goldenSel := w.extractLsb' 0 8 }
  | _ => .next s

/-- A write at an offset of the register space by PF0 (R22, R287 to R289, R181, R198, R230, R317, R342, R365, R366, R385, R407, R428, R449,
R474, R492, R510, R511). A register with a command of its own acts as that command. -/
def State.pf0Write (s : State) (off : Nat) (w : Word) : Out :=
  let o := off % 0x100000
  match off / 0x100000 with
  | 0x01 => s.hifWrite o w
  | 0x02 => if o = 0x10000 then .next { s with tly.remoteFirst := w.extractLsb' 0 14, tly.remoteCount := w.extractLsb' 16 15 } else .next s
  | 0x03 => if o = 0x18 then .next { s with pln.jobSel := w.extractLsb' 0 10 } else .next s
  | 0x08 => s.pgkWrite o w
  | 0x09 => s.snsWrite o w
  | 0x0B =>
    if o = 0 then
      .next { s with tim.jumpRefused := w1c s.tim.jumpRefused w 1, tim.capLost := w1c s.tim.capLost w 3, tim.cmpLate := w1c s.tim.cmpLate w 4 }
    else .next s
  | 0x0C =>
    if o < 0x80000 && within 0x100 0x13F (o % 0x10000) && o % 16 == 0 then
      execEthRxqHeadWrite (Fin.ofNat 8 (o / 0x10000)) (Fin.ofNat 4 (o / 16)) w s
    else .next s
  | 0x0E => s.tybWrite o w
  | 0x0F => if o = 0 then .next { s with memc.ue := w1c s.memc.ue w 2 } else .next s
  | 0x10 => s.safWrite o w
  | 0x11 =>
    if o = 0xC then execSecBootGo 0 w s
    else if 0x80000 ≤ o then execSecBootWindowWrite 0 (BitVec.ofNat 19 o) (leBytes 4 w.toNat) s
    else .next s
  | 0x12 => s.pwrWrite o w
  | 0x13 =>
    if !s.dbgReach 0 then .next s
    else if o = 0 then .next { s with trc.lostBit := w1c s.trc.lostBit w 6, trc.rptrBad := w1c s.trc.rptrBad w 7 }
    else if o = 8 then execDbgTraceRptrWrite 0 w s
    else .next s
  | _ => .next s

/-- A write of a rod's register by the firmware (R91, R92). -/
def State.rodWrite (s : State) (n : Fin 64) (o : Nat) (w : Word) : Out :=
  match o with
  | 0x08 => execRodPairCtlWrite .firmware n w s
  | 0x0C =>
    .next (if n.val % 2 = 1 then s else s.updRod n.val fun r =>
      { r with lockFailed := w1c r.lockFailed w 2, mismatch := w1c r.mismatch w 3, cmpDisagree := w1c r.cmpDisagree w 4 })
  | 0x10 =>
    let s := s.updRod n.val fun r => { r with fault := r.fault &&& ~~~ w }
    if w.getLsbD 31 then execCeClear .firmware n s else .next s
  | 0x1C => .next (s.updRod n.val fun r => { r with ctxSaveBase := w &&& 0x3FFFC0 })
  | _ => .next s

/-- A write at an offset of the register space by the firmware: the ROD block and SAF_CTL, the registers the manual has it write (R91, R449). -/
def State.fwWrite (s : State) (off : Nat) (w : Word) : Out :=
  if within 0x400000 0x7FFFFF off then s.rodWrite (Fin.ofNat 64 ((off - 0x400000) / 0x10000)) (off % 0x10000) w
  else if off = 0x1000004 then execSafCtlRelease .firmware w s
  else .next s

/-- A write at an offset of a VF's BAR0 (R257): its MSI-X table and its ring descriptors. -/
def State.vfWrite (s : State) (f : Fin 16) (off : Nat) (w : Word) : Out :=
  let n := s.hif.fns.get f.val
  if within 0x10000 0x17FFF off && decide ((off - 0x10000) / 16 < n.vecCount.toNat) then
    .next (s.msixWrite (n.vecFirst.toNat + (off - 0x10000) / 16) (off / 4 % 4) w)
  else if within 0x40000 0x7FFFF off && decide ((off - 0x40000) / 32 < n.ringCount.toNat) then
    execRingDescWrite f (BitVec.ofNat 14 (n.ringFirst.toNat + (off - 0x40000) / 32)) (Fin.ofNat 8 (off / 4)) w s
  else .next s

/-- REGISTER_WRITE (R9, R10, R21, R257): PF0 and the firmware name a device address, a VF an offset of its BAR0. PF0's write outside the
register blocks is unmapped. -/
def execRegisterWrite (by_ : Writer) (addr : BitVec 48) (value : Word) (s : State) : Out :=
  let a := addr.toNat
  let space := decide (0x020000000000 ≤ a) && decide (a < 0x020001500000)
  match by_ with
  | .firmware => if space then s.fwWrite (a - 0x020000000000) value else .next s
  | .host f =>
    if f.val ≠ 0 then s.vfWrite f a value
    else if space then s.pf0Write (a - 0x020000000000) value
    else .next { s with hif.cpl := { unsupported := true } }

end Sys2Proof.Machine
end

