-- ==== Sys2Proof/Machine/Take.lean ====
section
/-! DEFINITION. Taking a command from its ring (R263 to R273): the packet, the generic checks, and the opcode's own meaning; and the resets
of the link (R275). -/

namespace Sys2Proof.Machine

/-! ### Opcodes (the command tables of the chapters) -/

/-- `n` bits of the parameters from bit `b`. -/
abbrev prm (x b n : Nat) : BitVec n := BitVec.ofNat n (fld x b n)

/-- Classes 0x0 and 0x1. -/
def run01 (op x : Nat) (h : Hdr) (s : State) : Option Out :=
  match op with
  | 0x0001 => some (execOpenSession h (prm x 0 8) (prm x 8 8) (prm x 64 64) s)
  | 0x0002 => some (execCloseSession h s)
  | 0x0003 => some (execEventBind h (prm x 0 16) s)
  | 0x0004 => some (execNop h (prm x 0 32) s)
  | 0x0005 => some (execDeviceQuery h s)
  | 0x0040 => some (execJournalOpen h (prm x 0 16) (prm x 64 64) (prm x 128 64) s)
  | 0x0041 => some (execJournalClose h s)
  | 0x0042 => some (execReplayOpen h (prm x 0 16) (prm x 64 64) (prm x 128 64) s)
  | 0x0043 => some (execReplayClose h s)
  | 0x0044 => some (execCrossingQuery h (prm x 0 8) (prm x 8 8) s)
  | 0x1001 => some (execLoadPlan h (prm x 0 64) (prm x 64 32) s)
  | 0x1002 => some (execStartPlan h (prm x 0 8) (prm x 8 8) (prm x 64 64) s)
  | 0x1003 => some (execStopPlan h (prm x 0 8) s)
  | 0x1004 => some (execUnloadPlan h s)
  | 0x1005 => some (execPlanQuery h s)
  | 0x1006 => some (execJobStart h (prm x 0 16) s)
  | 0x1007 => some (execJobQuery h (prm x 0 16) s)
  | 0x1008 => some (execPartitionHalt h (prm x 0 8) s)
  | 0x1009 => some (execPartitionResume h (prm x 0 8) s)
  | 0x100A => some (execSelftestQuery h (prm x 0 8) s)
  | _ => none

/-- Classes 0x2 and 0x3. -/
def run23 (op x : Nat) (h : Hdr) (s : State) : Option Out :=
  match op with
  | 0x2001 => some (execDmaCopy h (prm x 0 8) (prm x 64 64) (prm x 128 64) (prm x 192 32) s)
  | 0x2002 => some (execDmaFill h (prm x 0 8) (prm x 32 32) (prm x 128 64) (prm x 192 32) s)
  | 0x2003 => some (execBar4Set h (prm x 64 64) s)
  | 0x3001 => some (execTallyAdd h (prm x 0 16) (prm x 32 32) s)
  | 0x3002 => some (execTallySet h (prm x 0 16) (prm x 32 32) s)
  | 0x3003 => some (execTallyRead h (prm x 0 16) s)
  | 0x3004 => some (execTallyWait h (prm x 0 16) (prm x 32 32) (prm x 64 32) s)
  | 0x3005 => some (execTallyRemoteAdd h (prm x 0 16) (prm x 16 16) (prm x 32 32) s)
  | 0x3006 => some (execTallyRemoteSet h (prm x 0 16) (prm x 16 16) (prm x 32 32) s)
  | 0x3007 => some (execTallyRemoteRead h (prm x 0 16) (prm x 16 16) s)
  | 0x3008 => some (execTallyRemoteWait h (prm x 0 16) (prm x 16 16) (prm x 32 32) (prm x 64 32) s)
  | _ => none

/-- Class 0x4: the parameter area goes whole to the keeper and the streams. -/
def run4 (op x : Nat) (h : Hdr) (s : State) : Option Out :=
  let p := prm x 0 384
  match op with
  | 0x4001 => some (execKvSeqOpen h p s)
  | 0x4002 => some (execKvSeqFork h p s)
  | 0x4003 => some (execKvAppend h p s)
  | 0x4004 => some (execKvSeqClose h p s)
  | 0x4005 => some (execKvSeqQuery h p s)
  | 0x4006 => some (execKvPoolQuery h p s)
  | 0x4007 => some (execKvRingOpen h p s)
  | 0x4008 => some (execKvRingStep h p s)
  | 0x4009 => some (execKvPartialSend h p s)
  | 0x400A => some (execKvRingClose h p s)
  | 0x4020 => some (execCarryOpen h p s)
  | 0x4021 => some (execCarryClose h p s)
  | 0x4022 => some (execCarrySwapOut h p s)
  | 0x4023 => some (execCarrySwapIn h p s)
  | 0x4024 => some (execCarryReset h p s)
  | 0x4025 => some (execCarryQuery h p s)
  | 0x4026 => some (execCarryExport h p s)
  | 0x4027 => some (execCarryImport h p s)
  | _ => none

/-- Classes 0x5 and 0x6. -/
def run56 (op x : Nat) (h : Hdr) (s : State) : Option Out :=
  match op with
  | 0x5001 => some (execPortConfig h (prm x 0 8) (prm x 8 8) (prm x 16 8) (prm x 32 16) s)
  | 0x5002 => some (execStreamConfig h (prm x 0 8) (prm x 64 2048) s)
  | 0x5003 => some (execStreamEnable h (prm x 0 8) s)
  | 0x5004 => some (execStreamDisable h (prm x 0 8) s)
  | 0x5005 => some (execRecordConfig h (prm x 0 8) (prm x 64 2048) s)
  | 0x5006 => some (execRecordSubmit h (prm x 0 8) (prm x 64 64) (prm x 128 32) s)
  | 0x5007 => some (execStreamQuery h (prm x 0 8) (prm x 8 8) s)
  | 0x6001 => some (execCleLoopConfig h (prm x 0 8) (prm x 64 2048) s)
  | 0x6002 => some (execCleCoefSet h (prm x 0 8) (prm x 8 8) (prm x 64 512) s)
  | 0x6003 => some (execCleLoopEnable h (prm x 0 8) s)
  | 0x6004 => some (execCleLoopDisable h (prm x 0 8) s)
  | 0x6005 => some (execCleLoopResume h (prm x 0 8) s)
  | 0x6006 => some (execCleMailboxWrite h (prm x 0 8) (prm x 32 32) (prm x 64 32) (prm x 96 32) s)
  | 0x6007 => some (execCleInputConfig h (prm x 0 8) (prm x 8 8) (prm x 32 112) s)
  | 0x6008 => some (execClePwmConfig h (prm x 0 8) (prm x 32 32) (prm x 64 8) (prm x 72 8) (prm x 80 16) (prm x 96 16) (prm x 112 8) (prm x 120 8)
      (prm x 128 8) (prm x 136 8) (prm x 144 8) s)
  | 0x6009 => some (execClePwmRelease h (prm x 0 8) s)
  | 0x600A => some (execCleStart h (prm x 0 8) (prm x 8 8) (prm x 64 64) s)
  | 0x600B => some (execCleStop h s)
  | 0x600C => some (execCleInject h (prm x 0 8) (prm x 8 8) (prm x 16 8) (prm x 24 8) (prm x 32 32) (prm x 64 32) (prm x 96 16) (prm x 128 32)
      (prm x 160 32) (prm x 192 32) s)
  | 0x600D => some (execCleCapture h (prm x 0 8) (prm x 8 8) (prm x 16 8) (prm x 24 8) (prm x 32 16) (prm x 64 32) (prm x 128 64) s)
  | 0x600E => some (execCleQuery h (prm x 0 8) s)
  | _ => none

/-- Class 0x7. -/
def run7 (op x : Nat) (h : Hdr) (s : State) : Option Out :=
  match op with
  | 0x7001 => some (execTimeSet h (prm x 0 16) (prm x 32 32) (prm x 64 64) s)
  | 0x7002 => some (execTimeStep h (prm x 0 16) (prm x 32 32) (prm x 64 64) s)
  | 0x7003 => some (execTimeRate h (prm x 0 64) s)
  | 0x7004 => some (execTimeSlew h (prm x 0 32) (prm x 32 32) s)
  | 0x7005 => some (execTimeRead h s)
  | 0x7006 => some (execTimePinConfig h (prm x 0 8) (prm x 8 8) (prm x 16 8) (prm x 64 64) (prm x 128 32) (prm x 160 32) s)
  | 0x7007 => some (execTimeCapture h (prm x 0 8) s)
  | 0x7008 => some (execTimeJumpLimit h (prm x 0 32) s)
  | 0x7020 => some (execEthPortConfig h (prm x 0 8) (prm x 8 8) (prm x 16 8) (prm x 32 16) (prm x 64 32) (prm x 96 32) (prm x 128 32) s)
  | 0x7021 => some (execEthRxqConfig h (prm x 0 8) (prm x 8 8) (prm x 16 8) (prm x 24 8) (prm x 32 32) (prm x 64 64) (prm x 128 64) s)
  | 0x7022 => some (execEthFilterSet h (prm x 0 8) (prm x 8 8) (prm x 16 8) (prm x 24 8) (prm x 32 16) (prm x 48 16) (prm x 64 48) s)
  | 0x7023 => some (execEthGclSet h (prm x 0 8) (prm x 16 16) (prm x 32 32) (prm x 64 64)
      ((List.range (min 256 (fld x 16 16))).map fun i => prm x (128 + 64 * i) 64) s)
  | 0x7024 => some (execEthTxPost h (prm x 0 8) (prm x 8 8) (prm x 16 8) (prm x 32 16) (prm x 64 64) (prm x 128 64) s)
  | 0x7025 => some (execEthLaunchSet h (prm x 0 8) (prm x 8 8) (prm x 16 8) (prm x 24 8) (prm x 32 16) (prm x 64 64) (prm x 128 64) s)
  | 0x7026 => some (execEthLaunchQuery h (prm x 0 8) (prm x 8 8) s)
  | 0x7027 => some (execEthQuery h (prm x 0 8) s)
  | 0x7040 => some (execCanConfig h (prm x 0 8) (prm x 8 8) (prm x 32 32) (prm x 64 32) s)
  | 0x7041 => some (execCanTiming h (prm x 0 8) (prm x 16 16) (prm x 32 16) (prm x 48 16) (prm x 64 16) (prm x 80 8) (prm x 88 8) (prm x 96 8)
      (prm x 104 8) (prm x 112 8) (prm x 120 8) s)
  | 0x7042 => some (execCanFilterSet h (prm x 0 8) (prm x 8 8) (prm x 16 8) (prm x 24 8) (prm x 32 8) (prm x 64 32) (prm x 96 32) s)
  | 0x7043 => some (execCanMbSet h (prm x 0 8) (prm x 8 8) (prm x 16 8) (prm x 24 8) (prm x 32 8) (prm x 64 64) (prm x 128 64) s)
  | 0x7044 => some (execCanMbSend h (prm x 0 8) (prm x 8 8) s)
  | 0x7045 => some (execCanMbAbort h (prm x 0 8) (prm x 8 8) s)
  | 0x7046 => some (execCanRxfConfig h (prm x 0 8) (prm x 8 8) (prm x 16 8) s)
  | 0x7047 => some (execCanRecover h (prm x 0 8) s)
  | 0x7048 => some (execCanQuery h (prm x 0 8) s)
  | _ => none

/-- Classes 0x8 and 0x9. -/
def run89 (op x : Nat) (h : Hdr) (s : State) : Option Out :=
  match op with
  | 0x8001 => some (execTybNodeSet h (prm x 0 16) s)
  | 0x8002 => some (execTybPortConfig h (prm x 0 8) (prm x 8 8) (prm x 16 8) (prm x 24 8) (prm x 32 8) (prm x 40 8) (prm x 48 8) (prm x 64 48) s)
  | 0x8003 => some (execTybRouteSet h (prm x 0 16) (prm x 16 16) (prm x 32 8) (prm x 40 8) (prm x 48 8) s)
  | 0x8004 => some (execTybMsgSend h (prm x 0 16) (prm x 128 224) s)
  | 0x8005 => some (execTybOffsetMeasure h (prm x 0 8) s)
  | 0x8006 => some (execTybPartnerConfig h (prm x 0 8) (prm x 8 8) (prm x 16 8) (prm x 32 32) (prm x 64 32) (prm x 96 16) s)
  | 0x8007 => some (execTybSigConfig h (prm x 0 8) (prm x 8 8) (prm x 16 8) s)
  | 0x8008 => some (execTybQuery h (prm x 0 8) s)
  | 0x9001 => some (execSafReactSet h (prm x 0 16) (prm x 16 8) (prm x 24 8) s)
  | 0x9002 => some (execSafReactQuery h (prm x 0 16) (prm x 16 8) s)
  | 0x9003 => some (execSafGoldenSet h (prm x 0 8) (prm x 64 64) s)
  | 0x9004 => some (execSafFaultInject h (prm x 0 16) (prm x 16 8) (prm x 32 16) s)
  | 0x9005 => some (execSafQuery h s)
  | _ => none

/-- Classes 0xA and 0xB. -/
def runAB (op x : Nat) (h : Hdr) (s : State) : Option Out :=
  match op with
  | 0xA001 => some (execOtpCommit h (prm x 0 1024) s)
  | 0xA002 => some (execOtpQuery h (prm x 0 16) (prm x 16 16) s)
  | 0xA003 => some (execSvnAdvance h (prm x 0 8) (prm x 8 8) s)
  | 0xA004 => some (execOwnerProvision h (leBytes 148 x) s)
  | 0xA005 => some (execOwnerKeyLoad h (prm x 0 8) (leBytes 96 (fld x 64 768)) s)
  | 0xA006 => some (execOwnerKeyRevoke h (prm x 0 8) s)
  | 0xA007 => some (execLcRetire h s)
  | 0xA008 => some (execSettingsOverride h (prm x 0 2048) s)
  | 0xA009 => some (execAttest h (prm x 0 384) (prm x 384 64) s)
  | 0xA00A => some (execDebugChallenge h s)
  | 0xA00B => some (execDebugUnlock h (leBytes 160 x) s)
  | 0xA00C => some (execLedgerOpen h (leBytes 256 x) s)
  | 0xA00D => some (execLedgerNew h s)
  | 0xA00E => some (execLedgerFetch h s)
  | 0xA00F => some (execLedgerAck h (prm x 0 64) s)
  | 0xA010 => some (execLedgerNote h (leBytes 64 x) s)
  | 0xB001 => some (execTraceConfig h (prm x 0 384) s)
  | 0xB002 => some (execTraceSources h (prm x 0 384) s)
  | 0xB003 => some (execTraceStart h s)
  | 0xB004 => some (execTraceStop h s)
  | 0xB005 => some (execTraceTrigger h s)
  | 0xB006 => some (execTraceDump h s)
  | 0xB007 => some (execCntRead h (prm x 0 8) (prm x 8 8) s)
  | _ => none

/-- The opcode's meaning, with its parameters; none for an unassigned opcode. -/
def runOpcode (op x : Nat) (h : Hdr) (s : State) : Option Out :=
  match op / 0x1000 with
  | 0x0 | 0x1 => run01 op x h s
  | 0x2 | 0x3 => run23 op x h s
  | 0x4 => run4 op x h s
  | 0x5 | 0x6 => run56 op x h s
  | 0x7 => run7 op x h s
  | 0x8 | 0x9 => run89 op x h s
  | 0xA | 0xB => runAB op x h s
  | _ => none

/-! ### Taking (R264 to R271) -/

/-- The header fields; every other bit of the 16 bytes is reserved (R266, Table 6). -/
def headerFields : List (Nat × Nat) := [(0, 16), (16, 8), (24, 1), (25, 1), (32, 12), (48, 16), (64, 32)]

/-- The fields of a parameter area that lie below PARAM_LEN. -/
def fieldsBelow (fs : List (Nat × Nat)) (len : Nat) : List (Nat × Nat) :=
  fs.filterMap fun f => if f.1 < 8 * len then some (f.1, min f.2 (8 * len - f.1)) else none

/-- The lowest byte of `n` with a bit that is neither in a field nor below PARAM_LEN. -/
def badParam (op x len n : Nat) : Option Nat := firstReserved (fieldsBelow ((fieldsOf op x).getD []) len) x n

/-- Orders 4 to 8 of the generic checks (Table 8), and the opcode's meaning after them. -/
def State.runPacket (s : State) (h : Hdr) (pkt : Nat) : Out :=
  let op := fld pkt 0 16
  let ext := bit pkt 24
  let len := fld pkt 48 16
  let inline_ := pkt / 2 ^ 128
  let addr := fld inline_ 0 64
  let no := fun (st d : Nat) => Host.Outcome.next (s.reply h { status := st, detail := d })
  if (fieldsOf op inline_).isNone then no 0xF001 0
  else if (if ext then !within 49 4096 len else decide (48 < len)) then no 0xF007 0
  else if ext && (!lineAligned addr || !s.hostMem h.fn addr len || s.errIn addr len == 2) then no 0xF008 0
  else
    let x := if ext then s.rdN addr len else inline_
    match firstReserved headerFields (fld pkt 0 128) 16 with
    | some i => no 0xF003 i
    | none =>
      match if ext then firstReserved [(0, 64)] inline_ 48 else badParam op x len 48 with
      | some i => no 0xF003 (16 + i)
      | none =>
        match if ext then badParam op x len len else none with
        | some i => no 0xF003 (0x1000 + i)
        | none =>
          match runOpcode op x h (if ext then s.noteRead addr len else s) with
          | some o => o
          | none => no 0xF001 0

/-- Orders 1 to 4 of the generic checks (R269, R270, Table 8). -/
def State.checkPacket (s : State) (h : Hdr) (pkt : Nat) : Out :=
  let op := fld pkt 0 16
  let e := s.hif.sessions.get (s.devRing h.fn h.ring.toNat)
  let want := e.base + e.taken
  let no := fun (s : State) (st d : Nat) => Host.Outcome.next (s.reply h { status := st, detail := d })
  let used := s.hif.held.any fun c => c.h.fn == h.fn && c.h.tag == h.tag
  if used || decide ((s.hif.fns.get h.fn.val).tagCount.toNat ≤ h.tag.toNat) then .next (s.postReply h { status := 0xF004, detail := h.tag.toNat })
  else
    let s := { s with hif.held := s.hif.held ++ [{ h := h }] }
    if op = 1 then s.runPacket h pkt
    else if !e.isOpen then no s 0xF005 0
    else if fld pkt 16 8 ≠ e.version.toNat then no s 0xF002 e.version.toNat
    else if h.seq ≠ want then no s 0xF006 want.toNat
    else s.runPacket h pkt

/-- Replies owed on status ring `k`: the commands taken, without a reply, whose command ring is paired with it (R264). -/
def State.owed (s : State) (k : Nat) : Nat := (s.hif.held.filter fun c => s.statusRing c.h == k).length

/-- The firmware runs: the boot has passed VERIFY (R457). -/
def Boot.started : Boot → Bool
  | .rom | .bootWait | .verify => false
  | .awaitSettings | .memInit | .ready => true

/-- The firmware runs, the ring has a command to take, its session takes commands, and its status ring has room for the reply (R262, R264, R274, R457). -/
def State.canTake (s : State) (fn : Fin 16) (ring : BitVec 13) : Bool :=
  let k := s.devRing fn ring.toNat
  let g := s.hif.rings.get k
  let e := s.hif.sessions.get k
  let t := s.devRing fn g.pair.toNat
  let q := s.hif.rings.get t
  s.sec.boot.started && decide (ring.toNat < (s.hif.fns.get fn.val).ringCount.toNat) && g.type == 1 && g.enable && g.state == 1 && g.used != 0 &&
    e.closing.isNone && !e.draining && q.type == 2 && q.enable && q.state == 1 && decide (q.used + s.owed t < q.size)

/-- A fast-path command other than a DMA, behind a host DMA of its ring that still runs: it would take effect before the DMA (R272). -/
def State.behindDma (s : State) (h : Hdr) (op : Nat) : Bool :=
  [0x1006, 0x3001, 0x3002, 0x3003, 0x3004].contains op && s.hif.dma.any fun d => d.h.fn == h.fn && d.h.ring == h.ring

/-- COMMAND_TAKE: the packet at HEAD is read; a FENCE command waits until every earlier command of the ring has its reply, and a fast-path command
until the host DMAs before it are done (R272). -/
def execCommandTake (fn : Fin 16) (ring : BitVec 13) (s : State) : Out :=
  let k := s.devRing fn ring.toNat
  let g := s.hif.rings.get k
  if !s.canTake fn ring then .next s
  else
    let (bs, s') := s.blockRead (g.entry g.head) 64
    let pkt := leNat bs
    let h : Hdr := { fn := fn, ring := ring, tag := prm pkt 32 12, seq := prm pkt 64 32 }
    if (bit pkt 25 && !(s.heldOn h).isEmpty) || s.behindDma h (fld pkt 0 16) then .next s
    else
      let g' := { g with head := g.head + 1 }
      let s := { s' with hif.rings := s'.hif.rings.set k g',
                         hif.sessions := s'.hif.sessions.upd k fun e => if e.isOpen then { e with taken := e.taken + 1 } else e }
      let s := (s.writeBack g' g'.head).ringIrq k
      match s.checkPacket h pkt with
      | .next s => .next s.settle
      | o => o

/-! ### Resets of the link (R275) -/

/-- The reply of a command of function `f` is discarded. -/
def dropHdr (f : Fin 16) (h : Option Hdr) : Option Hdr := h.bind fun h => if h.fn = f then none else some h

/-- Commands of the firmware and of the interfaces run to their end without a reply. -/
def State.dropReplies (s : State) (f : Fin 16) : State :=
  let d := dropHdr f
  { s with
    pln.start := s.pln.start.map (fun p => { p with h := d p.h }), pln.load := s.pln.load.map (fun p => { p with h := d p.h }), pln.stop := s.pln.stop.map d,
    cle.start := s.cle.start.map (fun p => { p with h := d p.h }), cle.stop := s.cle.stop.map d, trc.stopping := s.trc.stopping.map d,
    sec.job := s.sec.job.map (fun j => { j with h := d j.h }),
    tyb.offs := s.tyb.offs.map (fun o => { o with h := d o.h }),
    tyb.ports := s.tyb.ports.mapV (fun q => { q with txq := q.txq.map (fun x => { x with reply := d x.reply }), replay := q.replay.map (fun x => { x with reply := d x.reply }) }),
    eth.macs := s.eth.macs.mapV (fun m => { m with
      classes := m.classes.mapV (fun l => l.map fun p => { p with h := d p.h }),
      tx := m.tx.map fun t => { t with from_ := match t.from_ with | .post h => .post (d h) | x => x } }),
    can.ctls := s.can.ctls.mapV (fun c => { c with mbs := c.mbs.mapV fun b => { b with h := d b.h, abort := b.abort.filterMap fun h => d (some h) } }),
    pgk.queues := s.pgk.queues.mapV (fun l => l.map fun c => { c with from_ := match c.from_ with | .host h => .host (d h) | x => x }),
    pgk.runs := s.pgk.runs.mapV (fun r => r.map fun r => { r with cmd.from_ := match r.cmd.from_ with | .host h => .host (d h) | x => x }) }

/-- A Function Level Reset in full. -/
def State.functionReset (s : State) (f : Fin 16) : State := (s.fnReset f).dropReplies f

/-- FUNCTION_LEVEL_RESET (R275). -/
def execFunctionLevelReset (fn : Fin 16) (s : State) : Out := .next (s.functionReset fn)

/-- HOT_RESET (R275): a hot reset or a loss of the UCIe link. -/
def execHotReset (s : State) : Out :=
  let s := (List.finRange 16).foldl State.functionReset s
  .next { s with hif.vfEnable := false, hif.linkUp := false }

/-- UCIE_LINK_RETRAIN (R252, R288): the link comes back up. -/
def execUcieLinkRetrain (link : UcieLink) (s : State) : Out :=
  .next (match s.trained link with
    | some s => { s with hif.retrains := if s.hif.retrains = 0xFFFF then s.hif.retrains else s.hif.retrains + 1 }
    | none => s)

end Sys2Proof.Machine
end

