-- ==== Sys2Proof/Machine/Vision.lean ====
section
/-! DEFINITION. CROP_RESIZE, CH_ARGMAX and SCAN (R138 to R146, R186 to R190). -/

namespace Sys2Proof.Machine

/-! ### CROP_RESIZE -/

/-- A box record (R139, Table 2). -/
structure Box where
  x0 : Val
  y0 : Val
  x1 : Val
  y1 : Val
  image : Nat
  rsvd : Bool
deriving DecidableEq, Repr

def Box.ofNat (w : Nat) : Box :=
  { x0 := fpVal (fld w 0 32), y0 := fpVal (fld w 32 32), x1 := fpVal (fld w 64 32), y1 := fpVal (fld w 96 32), image := fld w 128 16,
    rsvd := fld w 144 112 != 0 }

/-- An empty box, of `n` images (R140). -/
def Box.empty (b : Box) (n : Nat) : Bool :=
  [b.x0, b.y0, b.x1, b.y1].any (fun v => !v.isFin || decide (65536 < |v.rat|)) || decide (b.x1.rat ≤ b.x0.rat) || decide (b.y1.rat ≤ b.y0.rat) ||
    decide (n ≤ b.image) || b.rsvd

/-- A coordinate rounded to a multiple of 2^-16 (R141). -/
def grid (x : ℚ) : ℚ := (roundNE (x * 65536) : ℚ) / 65536

/-- The image that slot A describes: its operand, channels, width, height and images (R138). -/
structure Image where
  o : Opnd
  c : Nat
  w : Nat
  h : Nat
  n : Nat
deriving DecidableEq, Repr

def Image.ofOpnd (o : Opnd) : Image :=
  { o := o, c := o.pat.ext.getD 0 0, w := o.pat.ext.getD 1 0, h := o.pat.ext.getD 2 0, n := o.pat.ext.getD 3 1 }

/-- The walk element of a pixel of a channel of image `k`. -/
def Image.index (m : Image) (k ch x y : Nat) : Nat := ch + m.c * (x + m.w * (y + m.h * k))

/-- The walk elements and weights that a point inside the image samples (R142). -/
def Image.taps (m : Image) (near : Bool) (u v : ℚ) : List (Nat × Nat × ℚ) :=
  if near then [(min u.floor.toNat (m.w - 1), min v.floor.toNat (m.h - 1), 1)]
  else
    let p : ℚ := max 0 (min (u - 1 / 2) (m.w - 1))
    let q : ℚ := max 0 (min (v - 1 / 2) (m.h - 1))
    let i := p.floor.toNat
    let j := q.floor.toNat
    let f := p - i
    let g := q - j
    [(i, j, (1 - f) * (1 - g)), (i + 1, j, f * (1 - g)), (i, j + 1, (1 - f) * g), (i + 1, j + 1, f * g)].filter fun t => t.2.2 ≠ 0

/-- The pixels and weights that a point of a box samples, those of weight zero apart; none when it lies outside the image (R141, R142). An image of
no width or no height has no pixel to clamp to: every point lies outside it (DESIGN CHOICE, log entry 86). -/
def Image.sampled (m : Image) (d : Desc) (b : Box) (ox oy : Nat) : Option (List (Nat × Nat × ℚ)) :=
  let u := grid (b.x0.rat + (ox + 1 / 2) * (b.x1.rat - b.x0.rat) / d.outW)
  let v := grid (b.y0.rat + (oy + 1 / 2) * (b.y1.rat - b.y0.rat) / d.outH)
  if b.empty m.n || u < 0 || (m.w : ℚ) < u || v < 0 || (m.h : ℚ) < v || m.w = 0 || m.h = 0 then none else some (m.taps d.nearest u v)

/-- The sampled value of a channel at a point of a box: PAD_VALUE outside the image (R141, R142). -/
def State.sample (s : State) (m : Image) (d : Desc) (b : Box) (ch ox oy : Nat) : Val :=
  match m.sampled d b ox oy with
  | none => load m.o.fmt m.o.pat.pad
  | some ts => ts.foldl (fun a t => a.add ((s.valAt m.o (m.index b.image ch t.1 t.2.1)).mul (.ofRat t.2.2))) (.ofRat 0)

/-- CROP_RESIZE (R138 to R143). -/
def State.cropResize (s : State) (n : Nat) (d : Desc) (e : DescEnv) : State :=
  let m := Image.ofOpnd (e.get d.a d.aFmt)
  let oc := e.get d.c d.outFmt
  let boxes := (List.range d.boxCount).map fun b => (d.b.base + 32 * b, 32)
  if d.boxCount = 0 then s
  else if !s.spanOk n false (boxes.map fun b => ((b.1 : Int), b.2)) then s.rodFault n 0x020C
  else match s.touch n boxes with
    | (false, s) => s
    | (true, s) =>
      let s := s.count n 18 (linesOf d.b.base (32 * d.boxCount))
      let pts := (List.range (m.c * d.outW * d.outH * d.boxCount)).map fun i =>
        (Box.ofNat (s.rdN (d.b.base + 32 * (i / (m.c * d.outW * d.outH))) 32), i % m.c, i / m.c % d.outW, i / (m.c * d.outW) % d.outH)
      let want := pts.flatMap fun q => ((m.sampled d q.1 q.2.2.1 q.2.2.2).getD []).map fun t => m.index q.1.image q.2.1 t.1 t.2.1
      match s.fetchSome n m.o want with
      | (false, s) => s
      | (true, s) => s.emit n 1 d oc d.zp true (pts.map fun q => s.outX d false false q.2.1 (s.sample m d q.1 q.2.1 q.2.2.1 q.2.2.2))

def execCropResize (rod : Fin 64) (s : State) : Out := s.start rod.val 0x05 fun d e s => s.cropResize rod.val d e

/-! ### CH_ARGMAX -/

/-- `b` outranks `a` (R145): NaN above every number, zeros equal. -/
def Val.outranks (a b : Val) : Bool := if a.isNan then false else b.isNan || a.lt b

/-- The first walk element of the largest value, of a list of them in channel order. -/
def State.argmax (s : State) (o : Opnd) : List Nat → Nat → Nat → Nat → Nat × Nat
  | [], _, best, at_ => (best, at_)
  | i :: is, k, best, at_ => if (s.valAt o at_).outranks (s.valAt o i) then s.argmax o is (k + 1) k i else s.argmax o is (k + 1) best at_

/-- CH_ARGMAX (R144 to R146). -/
def State.chArgmax (s : State) (n : Nat) (d : Desc) (e : DescEnv) : State :=
  let oa := e.get d.a d.aFmt
  let oc := e.get d.c 3
  match s.fetchAll n [(oa, 1)] with
  | (false, s) => s
  | (true, s) =>
    let best := (List.range oc.pat.count).map fun p =>
      match oa.pat.window (2 ^ d.chDim) p with
      | [] => (0xFFFF, oa.pat.pad)
      | i :: is => let (k, at_) := s.argmax oa is 1 0 i; (k, s.rawAt oa at_)
    let put := fun (s : State) (o : Opnd) (f : Nat × Nat → Nat) =>
      s.putAll n (best.zipIdx.filterMap fun t => (o.pat.off t.2).map fun x => o.write t.2 x (f t.1))
    let s := put s oc (·.1)
    if d.opt then put s (e.get d.d d.aFmt) (·.2) else s

def execChArgmax (rod : Fin 64) (s : State) : Out := s.start rod.val 0x06 fun d e s => s.chArgmax rod.val d e

/-! ### SCAN -/

/-- An element of the segmented scan (R188): FP32 words and whether a segment starts at or before it. -/
structure ScanEl where
  alpha : Nat
  beta : Nat
  seg : Bool
deriving DecidableEq, Repr

/-- fma rounded once to FP32. -/
def fma32 (a b c : Nat) : Nat := fpBits (((fpVal a).mul (fpVal b)).add (fpVal c))

/-- The combination of an element with an earlier one (R188). -/
def ScanEl.join (x lo : ScanEl) : ScanEl :=
  if x.seg then x else { alpha := fpBits ((fpVal x.alpha).mul (fpVal lo.alpha)), beta := fma32 x.alpha lo.beta x.beta, seg := lo.seg }

/-- One level: every element from `d` on joins the one `d` before it, on the previous level's values. -/
def scanLevel (d : Nat) (es : List ScanEl) : List ScanEl := es.take d ++ List.zipWith ScanEl.join (es.drop d) es

/-- The levels d, 2d, 4d … below the length. -/
def scanLevels : Nat → Nat → List ScanEl → List ScanEl
  | 0, _, es => es
  | f + 1, d, es => if d < es.length then scanLevels f (2 * d) (scanLevel d es) else es

/-- The outputs h of one channel from its state, INIT, and coefficients with marks (R188). -/
def scanChannel (state init : Nat) (abm : List (Nat × Nat × Bool)) : List Nat :=
  let es := abm.map fun t => if t.2.2 then { alpha := 0, beta := fma32 t.1 init t.2.1, seg := true : ScanEl } else { alpha := t.1, beta := t.2.1, seg := false }
  ((scanLevels 11 1 ({ alpha := 0, beta := state, seg := true } :: es)).drop 1).map ScanEl.beta

/-- SCAN (R186 to R190): the outputs through the output stage, the new state into the bank opposite ACTIVE, and the stream pending. -/
def State.scan (s : State) (n : Nat) (d : Desc) (e : DescEnv) : State :=
  let oa := e.get d.a d.aFmt
  let ob := e.get d.b d.bFmt
  let oc := e.get d.c d.outFmt
  let od := e.get d.d 2
  let w := oa.pat.ext.getD 0 0
  let t := s.stream d.stream
  if t.width ≠ w then s.rodFault n 0x0306
  else
    let slot := spadAddr n t.slot + 64
    match s.touch n [(slot, 12 * w)] with
    | (false, s) => s
    | (true, s) =>
      match s.fetchAll n ([(oa, 1), (ob, 1)] ++ if d.opt then [(od, 1)] else []) with
      | (false, s) => s
      | (true, s) =>
        let bank := t.active != t.pending
        let word := fun (o : Opnd) i => fpBits (s.valAt o i)
        let mark := fun k => d.opt && s.rawAt od k != 0
        let hs := (List.range w).map fun j =>
          scanChannel (s.rdN (slot + (if bank then 4 * w else 0) + 4 * j) 4) (s.rdN (slot + 8 * w + 4 * j) 4)
            ((List.range d.steps).map fun k => (word oa (j + w * k), word ob (j + w * k), mark k))
        let xs := (List.range (w * d.steps)).map fun i => s.outX d false false (i % w) (fpVal ((hs.getD (i % w) []).getD (i / w) 0))
        let s := s.emit n 1 d oc d.zp true xs
        let s := s.putBytes n (slot + if t.active then 0 else 4 * w) (hs.flatMap fun h => leBytes 4 (h.getLastD 0))
        s.updStream d.stream fun q =>
          { q with pending := true, pendSteps := q.pendSteps + d.steps, pendChunks := q.pendChunks + 1,
                   pendMark := match (List.range d.steps).reverse.find? mark with
                     | some k => some ((q.stepsDone.toNat + q.pendSteps + k) % 2 ^ 32)
                     | none => q.pendMark }

def execScan (rod : Fin 64) (s : State) : Out := s.start rod.val 0x09 fun d e s => s.scan rod.val d e

end Sys2Proof.Machine
end

