-- ==== Sys2Proof/Machine/Dispatch.lean ====
section
/-! DEFINITION. The meaning of each command, one arm per row of the table. -/

namespace Sys2Proof.Machine

/-- The effect of a command on everything but the queue. -/
def exec (i : Instr) (s : State) : Host.Outcome State Fault Refusal :=
  match i with
  | .registerWrite a b c => Sys2Proof.Machine.execRegisterWrite a b c s
  | .hostUnmappedAccess a b => Sys2Proof.Machine.execHostUnmappedAccess a b s
  | .bar4Access a b c => Sys2Proof.Machine.execBar4Access a b c s
  | .hifFnWrite a b c d => Sys2Proof.Machine.execHifFnWrite a b c d s
  | .ringDescWrite a b c d => Sys2Proof.Machine.execRingDescWrite a b c d s
  | .doorbell a b c d => Sys2Proof.Machine.execDoorbell a b c d s
  | .commandTake a b => Sys2Proof.Machine.execCommandTake a b s
  | .eventsLostRecord a => Sys2Proof.Machine.execEventsLostRecord a s
  | .openSession a b c d => Sys2Proof.Machine.execOpenSession a b c d s
  | .closeSession a => Sys2Proof.Machine.execCloseSession a s
  | .eventBind a b => Sys2Proof.Machine.execEventBind a b s
  | .nop a b => Sys2Proof.Machine.execNop a b s
  | .deviceQuery a => Sys2Proof.Machine.execDeviceQuery a s
  | .dmaCopy a b c d e => Sys2Proof.Machine.execDmaCopy a b c d e s
  | .dmaFill a b c d e => Sys2Proof.Machine.execDmaFill a b c d e s
  | .hostDmaDone a => Sys2Proof.Machine.execHostDmaDone a s
  | .bar4Set a b => Sys2Proof.Machine.execBar4Set a b s
  | .tallyAdd a b c => Sys2Proof.Machine.execTallyAdd a b c s
  | .tallySet a b c => Sys2Proof.Machine.execTallySet a b c s
  | .tallyRead a b => Sys2Proof.Machine.execTallyRead a b s
  | .tallyWait a b c d => Sys2Proof.Machine.execTallyWait a b c d s
  | .tallyApply a => Sys2Proof.Machine.execTallyApply a s
  | .tallyWaitSatisfied a => Sys2Proof.Machine.execTallyWaitSatisfied a s
  | .tallyWaitTimeout a => Sys2Proof.Machine.execTallyWaitTimeout a s
  | .tallyRemoteAdd a b c d => Sys2Proof.Machine.execTallyRemoteAdd a b c d s
  | .tallyRemoteSet a b c d => Sys2Proof.Machine.execTallyRemoteSet a b c d s
  | .tallyRemoteRead a b c => Sys2Proof.Machine.execTallyRemoteRead a b c s
  | .tallyRemoteWait a b c d e => Sys2Proof.Machine.execTallyRemoteWait a b c d e s
  | .remoteResponseTimeout a => Sys2Proof.Machine.execRemoteResponseTimeout a s
  | .functionLevelReset a => Sys2Proof.Machine.execFunctionLevelReset a s
  | .hotReset => Sys2Proof.Machine.execHotReset s
  | .loadPlan a b c => Sys2Proof.Machine.execLoadPlan a b c s
  | .startPlan a b c d => Sys2Proof.Machine.execStartPlan a b c d s
  | .planStartFire => Sys2Proof.Machine.execPlanStartFire s
  | .stopPlan a b => Sys2Proof.Machine.execStopPlan a b s
  | .planStopFrameEnd => Sys2Proof.Machine.execPlanStopFrameEnd s
  | .unloadPlan a => Sys2Proof.Machine.execUnloadPlan a s
  | .planQuery a => Sys2Proof.Machine.execPlanQuery a s
  | .jobStart a b => Sys2Proof.Machine.execJobStart a b s
  | .jobQuery a b => Sys2Proof.Machine.execJobQuery a b s
  | .partitionHalt a b => Sys2Proof.Machine.execPartitionHalt a b s
  | .partitionResume a b => Sys2Proof.Machine.execPartitionResume a b s
  | .selftestQuery a b => Sys2Proof.Machine.execSelftestQuery a b s
  | .beam a => Sys2Proof.Machine.execBeam a s
  | .preemptRequest => Sys2Proof.Machine.execPreemptRequest s
  | .jobRunStart a => Sys2Proof.Machine.execJobRunStart a s
  | .contextSaveDone a => Sys2Proof.Machine.execContextSaveDone a s
  | .contextRestoreDone a => Sys2Proof.Machine.execContextRestoreDone a s
  | .reloadComplete a => Sys2Proof.Machine.execReloadComplete a s
  | .selftestSliceStop a => Sys2Proof.Machine.execSelftestSliceStop a s
  | .selftestSegmentDone a b c => Sys2Proof.Machine.execSelftestSegmentDone a b c s
  | .issue a => Sys2Proof.Machine.execIssue a s
  | .scanIssueResume a => Sys2Proof.Machine.execScanIssueResume a s
  | .loop a => Sys2Proof.Machine.execLoop a s
  | .loopi a => Sys2Proof.Machine.execLoopi a s
  | .addi a => Sys2Proof.Machine.execAddi a s
  | .alu a => Sys2Proof.Machine.execAlu a s
  | .lui a => Sys2Proof.Machine.execLui a s
  | .ldw a => Sys2Proof.Machine.execLdw a s
  | .br a => Sys2Proof.Machine.execBr a s
  | .wait a => Sys2Proof.Machine.execWait a s
  | .waitSatisfied a => Sys2Proof.Machine.execWaitSatisfied a s
  | .signal a => Sys2Proof.Machine.execSignal a s
  | .fence a => Sys2Proof.Machine.execFence a s
  | .tileEnd a => Sys2Proof.Machine.execTileEnd a s
  | .align a => Sys2Proof.Machine.execAlign a s
  | .rds a => Sys2Proof.Machine.execRds a s
  | .setb a => Sys2Proof.Machine.execSetb a s
  | .halt a => Sys2Proof.Machine.execHalt a s
  | .trap a => Sys2Proof.Machine.execTrap a s
  | .tileOverrun a => Sys2Proof.Machine.execTileOverrun a s
  | .descOverrun a b => Sys2Proof.Machine.execDescOverrun a b s
  | .descEnd a b => Sys2Proof.Machine.execDescEnd a b s
  | .matmul a => Sys2Proof.Machine.execMatmul a s
  | .conv a => Sys2Proof.Machine.execConv a s
  | .elemwise a => Sys2Proof.Machine.execElemwise a s
  | .pool a => Sys2Proof.Machine.execPool a s
  | .cropResize a => Sys2Proof.Machine.execCropResize a s
  | .chArgmax a => Sys2Proof.Machine.execChArgmax a s
  | .attnScore a => Sys2Proof.Machine.execAttnScore a s
  | .attnMerge a => Sys2Proof.Machine.execAttnMerge a s
  | .scan a => Sys2Proof.Machine.execScan a s
  | .convert a => Sys2Proof.Machine.execConvert a s
  | .dmaMove a => Sys2Proof.Machine.execDmaMove a s
  | .rodPairCtlWrite a b c => Sys2Proof.Machine.execRodPairCtlWrite a b c s
  | .lockHandover a => Sys2Proof.Machine.execLockHandover a s
  | .splitHandover a => Sys2Proof.Machine.execSplitHandover a s
  | .ceClear a b => Sys2Proof.Machine.execCeClear a b s
  | .scrubGap a => Sys2Proof.Machine.execScrubGap a s
  | .kvSeqOpen a b => Sys2Proof.Machine.execKvSeqOpen a b s
  | .kvSeqFork a b => Sys2Proof.Machine.execKvSeqFork a b s
  | .kvAppend a b => Sys2Proof.Machine.execKvAppend a b s
  | .kvSeqClose a b => Sys2Proof.Machine.execKvSeqClose a b s
  | .kvSeqQuery a b => Sys2Proof.Machine.execKvSeqQuery a b s
  | .kvPoolQuery a b => Sys2Proof.Machine.execKvPoolQuery a b s
  | .kvRingOpen a b => Sys2Proof.Machine.execKvRingOpen a b s
  | .kvRingStep a b => Sys2Proof.Machine.execKvRingStep a b s
  | .kvPartialSend a b => Sys2Proof.Machine.execKvPartialSend a b s
  | .kvRingClose a b => Sys2Proof.Machine.execKvRingClose a b s
  | .kvJobPortRequest a b c => Sys2Proof.Machine.execKvJobPortRequest a b c s
  | .pageTakeResume a => Sys2Proof.Machine.execPageTakeResume a s
  | .ringArrival a => Sys2Proof.Machine.execRingArrival a s
  | .ringSendDone a => Sys2Proof.Machine.execRingSendDone a s
  | .partialArrival a => Sys2Proof.Machine.execPartialArrival a s
  | .kvTableUe => Sys2Proof.Machine.execKvTableUe s
  | .carryOpen a b => Sys2Proof.Machine.execCarryOpen a b s
  | .carryClose a b => Sys2Proof.Machine.execCarryClose a b s
  | .carrySwapOut a b => Sys2Proof.Machine.execCarrySwapOut a b s
  | .carrySwapIn a b => Sys2Proof.Machine.execCarrySwapIn a b s
  | .carrySwapDone a => Sys2Proof.Machine.execCarrySwapDone a s
  | .carryReset a b => Sys2Proof.Machine.execCarryReset a b s
  | .carryQuery a b => Sys2Proof.Machine.execCarryQuery a b s
  | .carryExport a b => Sys2Proof.Machine.execCarryExport a b s
  | .carryImport a b => Sys2Proof.Machine.execCarryImport a b s
  | .inputAdmit a => Sys2Proof.Machine.execInputAdmit a s
  | .journalGapRecord => Sys2Proof.Machine.execJournalGapRecord s
  | .crossingLate a b c d => Sys2Proof.Machine.execCrossingLate a b c d s
  | .journalOpen a b c d => Sys2Proof.Machine.execJournalOpen a b c d s
  | .journalClose a => Sys2Proof.Machine.execJournalClose a s
  | .replayOpen a b c d => Sys2Proof.Machine.execReplayOpen a b c d s
  | .replayClose a => Sys2Proof.Machine.execReplayClose a s
  | .crossingQuery a b c => Sys2Proof.Machine.execCrossingQuery a b c s
  | .replayAdmit => Sys2Proof.Machine.execReplayAdmit s
  | .portConfig a b c d e => Sys2Proof.Machine.execPortConfig a b c d e s
  | .streamConfig a b c => Sys2Proof.Machine.execStreamConfig a b c s
  | .streamEnable a b => Sys2Proof.Machine.execStreamEnable a b s
  | .streamDisable a b => Sys2Proof.Machine.execStreamDisable a b s
  | .recordConfig a b c => Sys2Proof.Machine.execRecordConfig a b c s
  | .recordSubmit a b c d => Sys2Proof.Machine.execRecordSubmit a b c d s
  | .streamQuery a b c => Sys2Proof.Machine.execStreamQuery a b c s
  | .csiFrameStart a b c d => Sys2Proof.Machine.execCsiFrameStart a b c d s
  | .csiLine a b => Sys2Proof.Machine.execCsiLine a b s
  | .csiFrameEnd a b c => Sys2Proof.Machine.execCsiFrameEnd a b c s
  | .patternInjection a => Sys2Proof.Machine.execPatternInjection a s
  | .snsRoiWrite a b c => Sys2Proof.Machine.execSnsRoiWrite a b c s
  | .recordDecodeStart a b => Sys2Proof.Machine.execRecordDecodeStart a b s
  | .recordDecodeEnd a => Sys2Proof.Machine.execRecordDecodeEnd a s
  | .decodeBudget a => Sys2Proof.Machine.execDecodeBudget a s
  | .cleLoopConfig a b c => Sys2Proof.Machine.execCleLoopConfig a b c s
  | .cleCoefSet a b c d => Sys2Proof.Machine.execCleCoefSet a b c d s
  | .cleLoopEnable a b => Sys2Proof.Machine.execCleLoopEnable a b s
  | .cleLoopDisable a b => Sys2Proof.Machine.execCleLoopDisable a b s
  | .cleLoopResume a b => Sys2Proof.Machine.execCleLoopResume a b s
  | .cleMailboxWrite a b c d e => Sys2Proof.Machine.execCleMailboxWrite a b c d e s
  | .cleMailboxPortWrite a b c => Sys2Proof.Machine.execCleMailboxPortWrite a b c s
  | .cleInputConfig a b c d => Sys2Proof.Machine.execCleInputConfig a b c d s
  | .clePwmConfig a b c d e f g h j k l m => Sys2Proof.Machine.execClePwmConfig a b c d e f g h j k l m s
  | .clePwmRelease a b => Sys2Proof.Machine.execClePwmRelease a b s
  | .cleStart a b c d => Sys2Proof.Machine.execCleStart a b c d s
  | .cleStartFire => Sys2Proof.Machine.execCleStartFire s
  | .cleStop a => Sys2Proof.Machine.execCleStop a s
  | .cleInject a b c d e f g h j k l => Sys2Proof.Machine.execCleInject a b c d e f g h j k l s
  | .cleCapture a b c d e f g h => Sys2Proof.Machine.execCleCapture a b c d e f g h s
  | .cleQuery a b => Sys2Proof.Machine.execCleQuery a b s
  | .clePeriodStart => Sys2Proof.Machine.execClePeriodStart s
  | .loopEvaluation a => Sys2Proof.Machine.execLoopEvaluation a s
  | .spiFrame a b => Sys2Proof.Machine.execSpiFrame a b s
  | .encoderUpdate a b c d => Sys2Proof.Machine.execEncoderUpdate a b c d s
  | .sdDecimation a b => Sys2Proof.Machine.execSdDecimation a b s
  | .cleSdClock a => Sys2Proof.Machine.execCleSdClock a s
  | .safeEnForce a b => Sys2Proof.Machine.execSafeEnForce a b s
  | .pwmLoadPoint a b => Sys2Proof.Machine.execPwmLoadPoint a b s
  | .timeSet a b c d => Sys2Proof.Machine.execTimeSet a b c d s
  | .timeStep a b c d => Sys2Proof.Machine.execTimeStep a b c d s
  | .timeRate a b => Sys2Proof.Machine.execTimeRate a b s
  | .timeSlew a b c => Sys2Proof.Machine.execTimeSlew a b c s
  | .slewEnd => Sys2Proof.Machine.execSlewEnd s
  | .timeRead a => Sys2Proof.Machine.execTimeRead a s
  | .timePinConfig a b c d e f g => Sys2Proof.Machine.execTimePinConfig a b c d e f g s
  | .timeCapture a b => Sys2Proof.Machine.execTimeCapture a b s
  | .timeJumpLimit a b => Sys2Proof.Machine.execTimeJumpLimit a b s
  | .timNowFracRead a => Sys2Proof.Machine.execTimNowFracRead a s
  | .comparatorFire a => Sys2Proof.Machine.execComparatorFire a s
  | .timePinEdge a b => Sys2Proof.Machine.execTimePinEdge a b s
  | .ppsOutPulse => Sys2Proof.Machine.execPpsOutPulse s
  | .ethPortConfig a b c d e f g h => Sys2Proof.Machine.execEthPortConfig a b c d e f g h s
  | .ethRxqConfig a b c d e f g h => Sys2Proof.Machine.execEthRxqConfig a b c d e f g h s
  | .ethFilterSet a b c d e f g h => Sys2Proof.Machine.execEthFilterSet a b c d e f g h s
  | .ethGclSet a b c d e f => Sys2Proof.Machine.execEthGclSet a b c d e f s
  | .ethTxPost a b c d e f g => Sys2Proof.Machine.execEthTxPost a b c d e f g s
  | .ethLaunchSet a b c d e f g h => Sys2Proof.Machine.execEthLaunchSet a b c d e f g h s
  | .ethLaunchQuery a b c => Sys2Proof.Machine.execEthLaunchQuery a b c s
  | .ethQuery a b => Sys2Proof.Machine.execEthQuery a b s
  | .ethRxqHeadWrite a b c => Sys2Proof.Machine.execEthRxqHeadWrite a b c s
  | .ethFrameReceive a b => Sys2Proof.Machine.execEthFrameReceive a b s
  | .ethTxStart a => Sys2Proof.Machine.execEthTxStart a s
  | .ethTxDone a => Sys2Proof.Machine.execEthTxDone a s
  | .ethGateChange a => Sys2Proof.Machine.execEthGateChange a s
  | .ethGclSwitch a => Sys2Proof.Machine.execEthGclSwitch a s
  | .ethLaunchDiscard a => Sys2Proof.Machine.execEthLaunchDiscard a s
  | .canConfig a b c d e => Sys2Proof.Machine.execCanConfig a b c d e s
  | .canTiming a b c d e f g h j k l m => Sys2Proof.Machine.execCanTiming a b c d e f g h j k l m s
  | .canFilterSet a b c d e f g h => Sys2Proof.Machine.execCanFilterSet a b c d e f g h s
  | .canMbSet a b c d e f g h => Sys2Proof.Machine.execCanMbSet a b c d e f g h s
  | .canMbSend a b c => Sys2Proof.Machine.execCanMbSend a b c s
  | .canMbAbort a b c => Sys2Proof.Machine.execCanMbAbort a b c s
  | .canRxfConfig a b c d => Sys2Proof.Machine.execCanRxfConfig a b c d s
  | .canRecover a b => Sys2Proof.Machine.execCanRecover a b s
  | .canQuery a b => Sys2Proof.Machine.execCanQuery a b s
  | .canMbWord0Read a b => Sys2Proof.Machine.execCanMbWord0Read a b s
  | .canMbWord23Read a b => Sys2Proof.Machine.execCanMbWord23Read a b s
  | .canFrameReceive a b c => Sys2Proof.Machine.execCanFrameReceive a b c s
  | .canArbitration a => Sys2Proof.Machine.execCanArbitration a s
  | .canTxDone a b c => Sys2Proof.Machine.execCanTxDone a b c s
  | .canLaunchWithdraw a b => Sys2Proof.Machine.execCanLaunchWithdraw a b s
  | .canError a b => Sys2Proof.Machine.execCanError a b s
  | .canRecoveryDone a => Sys2Proof.Machine.execCanRecoveryDone a s
  | .tybNodeSet a b => Sys2Proof.Machine.execTybNodeSet a b s
  | .tybPortConfig a b c d e f g h j => Sys2Proof.Machine.execTybPortConfig a b c d e f g h j s
  | .tybRouteSet a b c d e f => Sys2Proof.Machine.execTybRouteSet a b c d e f s
  | .tybMsgSend a b c => Sys2Proof.Machine.execTybMsgSend a b c s
  | .tybOffsetMeasure a b => Sys2Proof.Machine.execTybOffsetMeasure a b s
  | .tybPartnerConfig a b c d e f g => Sys2Proof.Machine.execTybPartnerConfig a b c d e f g s
  | .tybSigConfig a b c d => Sys2Proof.Machine.execTybSigConfig a b c d s
  | .tybQuery a b => Sys2Proof.Machine.execTybQuery a b s
  | .tybPeerDetect a => Sys2Proof.Machine.execTybPeerDetect a s
  | .tybTrainDone a b => Sys2Proof.Machine.execTybTrainDone a b s
  | .tybDetectRetry a => Sys2Proof.Machine.execTybDetectRetry a s
  | .tybConfigFlitSend a => Sys2Proof.Machine.execTybConfigFlitSend a s
  | .tybConfigFlitRx a b => Sys2Proof.Machine.execTybConfigFlitRx a b s
  | .tybFlitRx a b => Sys2Proof.Machine.execTybFlitRx a b s
  | .tybRetrainEntry a b => Sys2Proof.Machine.execTybRetrainEntry a b s
  | .tybRetrainDone a b c => Sys2Proof.Machine.execTybRetrainDone a b c s
  | .tybRetrainTimeout a => Sys2Proof.Machine.execTybRetrainTimeout a s
  | .tybMsgRx a => Sys2Proof.Machine.execTybMsgRx a s
  | .tallyReqRx a => Sys2Proof.Machine.execTallyReqRx a s
  | .tallyRespRx a => Sys2Proof.Machine.execTallyRespRx a s
  | .hostMsgRx a => Sys2Proof.Machine.execHostMsgRx a s
  | .offsetProbeRx a => Sys2Proof.Machine.execOffsetProbeRx a s
  | .offsetReplyRx a => Sys2Proof.Machine.execOffsetReplyRx a s
  | .heartbeatSend => Sys2Proof.Machine.execHeartbeatSend s
  | .heartbeatRx a => Sys2Proof.Machine.execHeartbeatRx a s
  | .partnerLost => Sys2Proof.Machine.execPartnerLost s
  | .tybSigWrite a b c => Sys2Proof.Machine.execTybSigWrite a b c s
  | .signatureRx a => Sys2Proof.Machine.execSignatureRx a s
  | .witnessRx a => Sys2Proof.Machine.execWitnessRx a s
  | .memDataSlot a b => Sys2Proof.Machine.execMemDataSlot a b s
  | .memRefresh a b c d e => Sys2Proof.Machine.execMemRefresh a b c d e s
  | .memScrub a b => Sys2Proof.Machine.execMemScrub a b s
  | .memInitSequence a b => Sys2Proof.Machine.execMemInitSequence a b s
  | .safReactSet a b c d => Sys2Proof.Machine.execSafReactSet a b c d s
  | .safReactQuery a b c => Sys2Proof.Machine.execSafReactQuery a b c s
  | .safGoldenSet a b c => Sys2Proof.Machine.execSafGoldenSet a b c s
  | .safFaultInject a b c d => Sys2Proof.Machine.execSafFaultInject a b c d s
  | .safQuery a => Sys2Proof.Machine.execSafQuery a s
  | .safCtlRelease a b => Sys2Proof.Machine.execSafCtlRelease a b s
  | .supLockstep a => Sys2Proof.Machine.execSupLockstep a s
  | .safDisagree => Sys2Proof.Machine.execSafDisagree s
  | .wdgLate a b c => Sys2Proof.Machine.execWdgLate a b c s
  | .otpCommit a b => Sys2Proof.Machine.execOtpCommit a b s
  | .otpQuery a b c => Sys2Proof.Machine.execOtpQuery a b c s
  | .svnAdvance a b c => Sys2Proof.Machine.execSvnAdvance a b c s
  | .ownerProvision a b => Sys2Proof.Machine.execOwnerProvision a b s
  | .ownerKeyLoad a b c => Sys2Proof.Machine.execOwnerKeyLoad a b c s
  | .ownerKeyRevoke a b => Sys2Proof.Machine.execOwnerKeyRevoke a b s
  | .lcRetire a => Sys2Proof.Machine.execLcRetire a s
  | .settingsOverride a b => Sys2Proof.Machine.execSettingsOverride a b s
  | .attest a b c => Sys2Proof.Machine.execAttest a b c s
  | .debugChallenge a => Sys2Proof.Machine.execDebugChallenge a s
  | .debugUnlock a b => Sys2Proof.Machine.execDebugUnlock a b s
  | .ledgerOpen a b => Sys2Proof.Machine.execLedgerOpen a b s
  | .ledgerNew a => Sys2Proof.Machine.execLedgerNew a s
  | .ledgerFetch a => Sys2Proof.Machine.execLedgerFetch a s
  | .ledgerAck a b => Sys2Proof.Machine.execLedgerAck a b s
  | .ledgerNote a b => Sys2Proof.Machine.execLedgerNote a b s
  | .otpSuspendTimeout => Sys2Proof.Machine.execOtpSuspendTimeout s
  | .secBootWindowWrite a b c => Sys2Proof.Machine.execSecBootWindowWrite a b c s
  | .secBootGo a b => Sys2Proof.Machine.execSecBootGo a b s
  | .bootRom a b => Sys2Proof.Machine.execBootRom a b s
  | .overrideWaitExpiry => Sys2Proof.Machine.execOverrideWaitExpiry s
  | .bootReady => Sys2Proof.Machine.execBootReady s
  | .wearRecord a b => Sys2Proof.Machine.execWearRecord a b s
  | .jtagInstruction a => Sys2Proof.Machine.execJtagInstruction a s
  | .pwrPlanWrite a b => Sys2Proof.Machine.execPwrPlanWrite a b s
  | .pwrThermWarnWrite a b => Sys2Proof.Machine.execPwrThermWarnWrite a b s
  | .pwrResetReq a b => Sys2Proof.Machine.execPwrResetReq a b s
  | .pwrSupClear a b => Sys2Proof.Machine.execPwrSupClear a b s
  | .guardSample a => Sys2Proof.Machine.execGuardSample a s
  | .thermSample a => Sys2Proof.Machine.execThermSample a s
  | .supplyWarn a b => Sys2Proof.Machine.execSupplyWarn a b s
  | .supplyUnderSpec a b => Sys2Proof.Machine.execSupplyUnderSpec a b s
  | .otpHoldExpiry a => Sys2Proof.Machine.execOtpHoldExpiry a s
  | .supplyReset a b => Sys2Proof.Machine.execSupplyReset a b s
  | .clockLossReset => Sys2Proof.Machine.execClockLossReset s
  | .powerOnReset => Sys2Proof.Machine.execPowerOnReset s
  | .warmReset a => Sys2Proof.Machine.execWarmReset a s
  | .jtagTestReset => Sys2Proof.Machine.execJtagTestReset s
  | .traceConfig a b => Sys2Proof.Machine.execTraceConfig a b s
  | .traceSources a b => Sys2Proof.Machine.execTraceSources a b s
  | .traceStart a => Sys2Proof.Machine.execTraceStart a s
  | .traceStop a => Sys2Proof.Machine.execTraceStop a s
  | .traceTrigger a => Sys2Proof.Machine.execTraceTrigger a s
  | .traceDump a => Sys2Proof.Machine.execTraceDump a s
  | .cntRead a b c => Sys2Proof.Machine.execCntRead a b c s
  | .traceMerge => Sys2Proof.Machine.execTraceMerge s
  | .traceGapRecord => Sys2Proof.Machine.execTraceGapRecord s
  | .traceSync => Sys2Proof.Machine.execTraceSync s
  | .dbgTraceRptrWrite a b => Sys2Proof.Machine.execDbgTraceRptrWrite a b s
  | .cntLoRead a b c d => Sys2Proof.Machine.execCntLoRead a b c d s
  | .dbgStampLoRead a => Sys2Proof.Machine.execDbgStampLoRead a s
  | .kvCommandDone a => Sys2Proof.Machine.execKvCommandDone a s
  | .otpProgramDone a => Sys2Proof.Machine.execOtpProgramDone a s
  | .planLoadDone => Sys2Proof.Machine.execPlanLoadDone s
  | .canBusIntegrationDone a => Sys2Proof.Machine.execCanBusIntegrationDone a s
  | .sdClockRestored a => Sys2Proof.Machine.execSdClockRestored a s
  | .supplyWarnClear a b c => Sys2Proof.Machine.execSupplyWarnClear a b c s
  | .csiPhyLockChange a b => Sys2Proof.Machine.execCsiPhyLockChange a b s
  | .ethLinkChange a b => Sys2Proof.Machine.execEthLinkChange a b s
  | .ucieLinkRetrain a => Sys2Proof.Machine.execUcieLinkRetrain a s

end Sys2Proof.Machine
end

