-- ==== Sys2Proof/Machine/Idle.lean ====
section
/-! DEFINITION. One tick of the clocks with no command waiting (log entry 3). -/

namespace Sys2Proof.Machine

/-- The time base after one time-clock cycle: INCR, and SLEW_RATE while a slew runs (R343, R345). -/
def Tim.cycle (t : Tim) : Tim :=
  let d : Int := t.incr.toNat + (if t.slewLeft = 0 then 0 else t.slewRate.toInt)
  { t with time := ((((t.time : Nat) : Int) + d) % (timeMod : Int)).toNat,
           slewLeft := if t.slewLeft = 0 then 0 else t.slewLeft - 1 }

/-- `n` time-clock cycles. -/
def Tim.cycles (t : Tim) : Nat → Tim
  | 0 => t
  | n + 1 => (Tim.cycle t).cycles n

/-- Six ticks of the arithmetic clock are ten nanoseconds, five time-clock cycles: the sixth tick has none (R7, R343). -/
def cyclesOf (tick : Nat) : Nat := if tick % 6 = 5 then 0 else 1

/-- The counts of the tick that ends join RUN and TOTAL. Where it was the last of a segment, the tick that starts, of this stamp, is its boundary
tick: SHADOW takes every RUN value, and RUN becomes zero (R507). -/
def Counters.turn (c : Counters) (stamp : BitVec 48) : Counters :=
  let c := c.fresh.cells.foldl (fun (c : Counters) x => { c with run := c.run.upd x.1 (· + x.2), total := c.total.upd x.1 (· + x.2) }) { c with fresh := {} }
  match c.closing with
  | some (j, g, k) => { c with shadow := c.run, run := {}, shadowJob := j, shadowGen := g, shadowEnd := k, shadowStamp := stamp, atBoundary := true, closing := none }
  | none => { c with atBoundary := false }

/-- A tick of a rod ends: TICKS_RUNNING of its segment, and TICKS_WAIT in a WAIT or an ALIGN (R505, R507); a locked pair's follower holds still (R506). -/
def Rod.tick (stamp : BitVec 48) (r : Rod) : Rod :=
  let tile := r.seq == .ready || r.seq == .waiting
  let c := if r.inSegment then r.cnt.add 16 1 else r.cnt
  let c := if r.seq == .waiting && r.waitCounts then c.add 17 1 else c
  { r with tileTicks := if tile then r.tileTicks + 1 else r.tileTicks, cnt := c.turn stamp }

/-- The 1.2 GHz counters of the configured PWM pairs advance twice in a tick while the engine runs (R336, R337). -/
def Cle.tick (c : Cle) : Cle :=
  if c.state = 0 then c else { c with pwms := c.pwms.mapV fun p => if p.configured then p.count1.count1 else p }

/-- One tick: the time base, FRAME_TICK while a plan runs, tile timers and tick counters, PWM counters, and the trace stamp (R496); the ALIGNs
that wait for the new FRAME_TICK end (R106). The tick that ends writes its journal records (R244); in the one that starts, ring messages take effect
(R235), waits are judged (R280) a closing journal ends (R251), waiting
capture records go out (R340), Tyben ports acknowledge what they received (R389), and a post phase of no records ends (R501). A fault still waiting is recorded and reacted to. -/
def idle (s0 : State) : State :=
  let s := s0.journalFlush
  let t := { s with
    tick := s.tick + 1,
    tim := { s.tim.cycles (cyclesOf s.tick) with past := (s.tim.time :: s.tim.past).take 6 },
    pln.frameTick := (match s.pln.state with | .running | .stopping => s.pln.frameTick + 1 | _ => s.pln.frameTick),
    rods := s.rods.mapV (Rod.tick (s.trc.stamp + 1)),
    cle := s.cle.tick,
    trc.stamp := s.trc.stamp + 1 }
  let t := (t.cle.caps.keys CleCap.running).foldl State.captureEnd t.land.judgeWaits.journalEnd
  (([0, 1].foldl State.nullFlit t).alignTo t.pln.frameTick).traceDue.settle

end Sys2Proof.Machine
end

