-- ==== Sys2Proof/Safety.lean ====
section
/-! DEFINITION. What the claims call a well-kept state: the canonical forms that every step keeps. -/

namespace Sys2Proof

/-- The memory is in its canonical form. -/
abbrev memoryKept (s : Machine.State) : Prop := s.mem.wf = true

end Sys2Proof
end

