-- ==== Sys2Proof/WellFormed.lean ====
section
/-! DEFINITION. What a command's operands must meet beyond their widths: the lengths of its byte strings and lists. -/

namespace Sys2Proof

/-- The operands are ones that the command's source can send: a read takes at most 4,096 bytes and a write at most
512 (R253), a packet's fields have their lengths (Table 12
of chapter 18, R361), a line of a rod's port has at most 64 bytes, a flit has 256 (R388), a CAN frame at most 64 data bytes, the guard
samples 17 domains (R480), 24 sensors are read (R481), a write of the boot window stays inside it (R458), and a link has one of Table 1's six rates (R252). -/
def Instr.wf : Instr → Bool
  | .bar4Access _ _ acc =>
    (match acc with | .read n => 0 < n && n ≤ 4096 | .write d => 0 < d.length && d.length ≤ 512)
  | .ownerProvision _ d => d.length == 148
  | .ownerKeyLoad _ _ d => d.length == 96
  | .debugUnlock _ d => d.length == 160
  | .ledgerOpen _ d => d.length == 256
  | .ledgerNote _ d => d.length == 64
  | .ethGclSet _ _ n _ _ es => es.length == n.toNat
  | .kvJobPortRequest _ _ d => d.length ≤ 64
  | .snsRoiWrite _ _ d => d.length ≤ 64
  | .cleMailboxPortWrite _ _ d => d.length ≤ 64
  | .tybSigWrite _ _ d => d.length ≤ 64
  | .tybConfigFlitRx _ d => d.length == 256
  | .tybFlitRx _ d => d.length == 256
  | .canFrameReceive _ f _ => f.data.length ≤ 64
  | .guardSample a => a.length == 17
  | .thermSample t => t.length == 24
  | .secBootWindowWrite _ off d => off.toNat + d.length ≤ 0x80000
  | .bootRom _ l => l.rate.toNat ≤ 5
  | .ucieLinkRetrain l => l.rate.toNat ≤ 5
  | _ => true

end Sys2Proof
end

