-- ==== Sys2Proof/Certificates/Slice0/Obligations.lean ====
section
/-! DEFINITION. The statements for the provers. -/

open Sys2Proof Sys2Proof.Machine

/-- PF0 sends the command and the supervisor runs, so that its firmware answers (R437). -/
abbrev Sys2Proof.Claims.pf0 (s : State) (h : Hdr) : Prop := s.saf.supHalted = false ∧ h.fn = 0

/-- The supervisor runs and the session of the command has a result area, so that an extended result can be written (R273). -/
abbrev Sys2Proof.Claims.area (s : State) (h : Hdr) : Prop := s.saf.supHalted = false ∧ s.hasResult h = true

open Sys2Proof.Claims

/-! ### The step, the queue and reset -/

/-- A step takes the command at the front of the queue and carries it out with the queue's rest. -/
def Obligations.StepRunsFront : Prop :=
  ∀ (c : Instr) (cs : List Instr) (s : State), step { s with pending := c :: cs } = exec c { s with pending := cs }

/-- On an empty queue one tick passes (log entry 3, the model's own): the tick counter, the time base by the cycles of the tick, the
trace stamp, and FRAME_TICK exactly while a plan runs. The waits are judged on the values the new tick starts with (R280). Where no journal record, no
admitted ring message and no capture waits for the tick and trace is off, a machine with no fault waiting changes no byte of memory. -/
def Obligations.StepIdle : Prop :=
  (∀ s : State, s.pending = [] → ∃ t, step s = .next t) ∧
  (∀ s : State, s.pending = [] → s.saf.raised = [] → s.jrn.j.batch = [] → s.jrn.j.closing = false → s.pgk.landing = [] → s.cle.caps.cells = [] →
    s.trc.state = .off →
    ∃ t, step s = .next t ∧ t.tick = s.tick + 1 ∧ t.trc.stamp = s.trc.stamp + 1 ∧
      t.tim.time = (s.tim.cycles (cyclesOf s.tick)).time ∧
      t.pln.frameTick = (if s.pln.state = .running ∨ s.pln.state = .stopping then s.pln.frameTick + 1 else s.pln.frameTick) ∧
      t.tly.waits = s.tly.waits.map (WaitEnt.judge s.tly.values (s.tick + 1)) ∧
      t.mem = s.mem ∧ t.hif = s.hif ∧ t.pending = [])

/-- Right after a power-on reset (R9 and the Reset columns): no plan, no session and no ring; PF0 holds 256 rings, 256 tags and 64 vectors from 0;
INCR is 2 ns in units of 2^-40 ns; the fault pins are asserted; the PWR registers and rail minima stand at their reset values; no tally, wait, route,
sequence or stream is set, and nothing waits. The memory is in canonical form right after reset, with nothing listed (that unlisted memory reads as
zero is the model's choice, log entry 2). -/
def Obligations.ResetValues : Prop :=
  (let s := State.reset;
    s.pending = [] ∧ s.pln.state = .none ∧ s.pln.plan = none ∧ s.hif.sessions.cells = [] ∧ s.hif.rings.cells = [] ∧
    s.hifReg 0x100 = 0x01000000 ∧ s.hifReg 0x104 = 0x01000000 ∧ s.hifReg 0x108 = 0x00400000 ∧ s.hifReg 0x110 = 0 ∧
    s.timReg 0x08 = 0 ∧ s.timReg 0x0C = 0x200 ∧ s.safReg 0 = 2 ∧ s.pwrReg 0x28 = 0x73 ∧ s.pwrReg 0x30 = 0xFFFF ∧ s.pwrReg 0x3C = 0xFFFF ∧
    s.tly.values.cells = [] ∧ s.tly.waits = [] ∧ s.tlyReg 0x10000 = 0 ∧ s.tyb.routes.cells = [] ∧ s.pgk.seqs.cells = [] ∧
    s.cry.streams.cells = [] ∧ (s.stream 0).bytes.drop 28 = [0xFF, 0xFF, 0xFF, 0xFF] ∧ s.mem.cells = []) ∧
  (memoryKept State.reset)

/-- Every step that answers a next state keeps the memory in its canonical form: addresses strictly rising and no byte listed that an
unlisted address already reads as, whatever the state. -/
def Obligations.EveryStepKeepsMemory : Prop :=
  ∀ s s' : State, memoryKept s → step s = .next s' → memoryKept s'

/-- No command touches the queue: a step that answers a next state leaves exactly the commands that waited behind its own. -/
def Obligations.EveryStepKeepsTheQueue : Prop :=
  ∀ s s' : State, step s = .next s' → s'.pending = s.pending.tail

/-- A write is read back, every byte outside it reads as before, and the canonical form is kept (R6, R7). The little-endian bytes of a number spell it
modulo 2^(8n), and the bytes of a byte string's number are the string (R6). -/
def Obligations.MemoryBytes : Prop :=
  (∀ (s : State) (a : Nat) (bs : List Byte),
      ((s.wr a bs).rd a bs.length = bs) ∧
      (∀ b, (b < a ∨ a + bs.length ≤ b) → (s.wr a bs).mem.get b = s.mem.get b) ∧
      (memoryKept s → memoryKept (s.wr a bs))) ∧
  ((∀ n x : Nat, leNat (leBytes n x) = x % 2 ^ (8 * n)) ∧ (∀ bs : List Byte, leBytes bs.length (leNat bs) = bs))

/-- The wrap-around comparison (R15): the difference of two N-bit values is the one number congruent to a - b modulo 2^N that an N-bit
two's-complement number can hold; `atOrLater` says that it is not negative, it is zero exactly for equal values, and a value 2^(N-1) away
counts as earlier. Tallies are compared with N = 32 (at the start of a tick after its admission a wait is satisfied exactly when its tally is at or
later than its target, and a host's wait then ends with that value), times with N = 64 (a start at a time fires exactly when it has come). -/
def Obligations.WrapAroundOrder : Prop :=
  (∀ n a b : Nat, 1 ≤ n →
    (2 ^ n : Int) ∣ (wdiff n a b - ((a : Int) - (b : Int))) ∧ -(2 ^ (n - 1) : Int) ≤ wdiff n a b ∧ wdiff n a b < 2 ^ (n - 1) ∧
    (atOrLater n a b = true ↔ 0 ≤ wdiff n a b) ∧ (wdiff n a b = 0 ↔ a % 2 ^ n = b % 2 ^ n) ∧
    ((b + 2 ^ (n - 1)) % 2 ^ n = a % 2 ^ n → wdiff n a b = -(2 ^ (n - 1) : Int))) ∧
  (∀ (i : Nat) (w : WaitEnt) (s : State), s.tly.waits[i]? = some w → w.hit = none → w.since < s.tick →
    s.judgeWaits.tly.waits[i]? = some (if 0 ≤ wdiff 32 (s.tly.values.get w.tally).toNat w.target.toNat then
      { w with hit := some (s.tly.values.get w.tally) } else w)) ∧
  (∀ (i : Nat) (h : Hdr) (w : WaitEnt) (v : Word) (s : State), s.tly.waits[i]? = some w → w.who = .host h → w.hit = some v →
    exec (.tallyWaitSatisfied i) s = .next ({ s with tly.waits := dropAt i s.tly.waits }.reply h { r0 := v.toNat })) ∧
  (∀ (p : PendStart) (pl : Plan) (s : State), s.pln.start = some p → s.pln.plan = some pl → p.mode = 1 →
    exec .planStartFire s = .next (if 0 ≤ wdiff 64 s.now.toNat p.at_.toNat then (s.beginPlan pl p.h).settle else s))
/-! ### Host link: registers, rings, doorbells, BAR4 -/

/-- Register writes (R9, R10): W1C bits of HIF_STATUS are cleared by ones, RW fields take the value with reserved bits discarded, writes of read-only
registers are ignored, and an address outside the register blocks completes with Unsupported Request (R21). What an unlisted offset, a write-only
register and the CAP block read as (R9, R10, R287). -/
def Obligations.RegisterAccesses : Prop :=
  (∀ (s : State) (w : Word),
      exec (.registerWrite (.host 0) 0x020000100000 w) s =
        .next { s with hif.cfgReject := s.hif.cfgReject && !w.getLsbD 1, hif.dbBad := s.hif.dbBad && !w.getLsbD 2,
                       hif.ringError := s.hif.ringError && !w.getLsbD 3 } ∧
      exec (.registerWrite (.host 0) 0x020000300018 w) s = .next { s with pln.jobSel := w.extractLsb' 0 10 } ∧
      exec (.registerWrite (.host 0) 0x020000210000 w) s =
        .next { s with tly.remoteFirst := w.extractLsb' 0 14, tly.remoteCount := w.extractLsb' 16 15 } ∧
      exec (.registerWrite (.host 0) 0x020000800004 w) s = .next { s with pgk.seqSel := w.extractLsb' 0 12 } ∧
      exec (.registerWrite (.host 0) 0x020001000024 w) s = .next { s with saf.wdgSel := w.extractLsb' 0 8 } ∧
      (∀ i : Fin 6, exec (.registerWrite (.host 0) (0x020000000000 + 4 * BitVec.ofNat 48 i.val) w) s = .next s) ∧
      (∀ n : Fin 64, exec (.registerWrite (.host 0) (0x020000400010 + 0x10000 * BitVec.ofNat 48 n.val) w) s = .next s) ∧
      exec (.registerWrite (.host 0) 0x020001500000 w) s = .next { s with hif.cpl := { unsupported := true } }) ∧
  (∀ s : State,
      s.regRead 0 = 0x00A12064 ∧ s.regRead 4 = 0x00001010 ∧ s.regRead 8 = 0x00100040 ∧ s.regRead 0xC = 0x40004000 ∧ s.regRead 0x10 = 0x08001000 ∧
      (∀ o, 0x18 ≤ o → o < 0x100000 → s.regRead o = 0) ∧ s.regRead 0x1000004 = 0 ∧ s.regRead 0x110000C = 0 ∧ s.regRead 0x120000C = 0 ∧
      (∀ n o, n < 64 → 0x20 ≤ o → o < 0x10000 → s.regRead (0x400000 + 0x10000 * n + o) = 0) ∧
      (∀ n, n < 64 → n % 2 = 1 → s.regRead (0x400000 + 0x10000 * n + 8) = 0))

/-- Host accesses and ring set-up, each under the conditions its rule gives: HOST_UNMAPPED_ACCESS (R21), BAR4_ACCESS by PF0 within one line and across
two (R258, R416), and its Unsupported Request where the address is not allowed, HIF_FN_WRITE (R256), RING_DESC_WRITE of a disabled ring and its
enabling (R260), DOORBELL (R262), EVENTS_LOST_RECORD (R277). Nothing else of the state changes but what is named. A doorbell that is malformed sets
DB_BAD and nothing else; one on a ring that is disabled or not active is ignored; an index that is not acceptable puts the ring into the error state
(R262). -/
def Obligations.HostAccessesComplete : Prop :=
  ((∀ (fn : Fin 16) (a : BitVec 48) (s : State), mapped s.memc.size a.toNat = false →
      exec (.hostUnmappedAccess fn a) s = .next { s with hif.cpl := { unsupported := true } }) ∧
    (∀ (off : BitVec 36) (acc : Access) (s : State),
      let a := (s.hif.fns.get 0).window.toNat + off.toNat
      s.inDram a (accBytes acc) = true → (s.protectedAt a && checkLine a (accBytes acc)) = false → a % 64 + accBytes acc ≤ 64 →
      ∃ q : MemReq, q.addr = a ∧ q.len = accBytes acc ∧ q.part = 0 ∧ q.port = 21 ∧ q.fn = some 0 ∧
        exec (.bar4Access 0 off acc) s =
          .next { s with memc.queues := s.memc.queues.upd (queueKey (a / 64 % 32 / 8) 0 21) (· ++ [q]), hif.cpl := {} }) ∧
    (∀ (off : BitVec 36) (acc : Access) (s : State),
      let a := (s.hif.fns.get 0).window.toNat + off.toNat
      let b := (a / 64 + 1) * 64
      s.inDram a (accBytes acc) = true → (s.protectedAt a && checkLine a (accBytes acc)) = false →
      64 < a % 64 + accBytes acc → a % 64 + accBytes acc ≤ 128 →
      ∃ q r : MemReq, q.addr = a ∧ q.len = b - a ∧ r.addr = b ∧ r.len = a + accBytes acc - b ∧ q.port = 21 ∧ r.port = 21 ∧
        exec (.bar4Access 0 off acc) s =
          .next { s with memc.queues := (s.memc.queues.upd (queueKey (a / 64 % 32 / 8) 0 21) (· ++ [q])).upd (queueKey (b / 64 % 32 / 8) 0 21) (· ++ [r]),
                         hif.cpl := {} }) ∧
    (∀ (fn : Fin 16) (off : BitVec 36) (acc : Access) (s : State),
      s.bar4Ok fn ((s.hif.fns.get fn.val).window.toNat + off.toNat) (accBytes acc) = false →
      exec (.bar4Access fn off acc) s = .next { s with hif.cpl := { unsupported := true } }) ∧
    (∀ (f : Fin 16) (reg : FnReg) (w : Word) (s : State),
      s.rangesOk f ((s.hif.fns.get f.val).withReg reg w) = true → s.fnEnabled f = false →
      exec (.hifFnWrite 0 f reg w) s = .next { s with hif.fns := s.hif.fns.set f.val ((s.hif.fns.get f.val).withReg reg w) }) ∧
    (∀ (fn : Fin 16) (r : BitVec 14) (i : Fin 8) (w : Word) (s : State),
      s.ringOwner r.toNat = some fn → (s.hif.rings.get r.toNat).enable = false → i ≠ 4 →
      exec (.ringDescWrite fn r i w) s = .next { s with hif.rings := s.hif.rings.set r.toNat ((s.hif.rings.get r.toNat).withWord i w) }) ∧
    (∀ (fn : Fin 16) (r : BitVec 14) (w : Word) (s : State),
      let g := (s.hif.rings.get r.toNat).withWord 4 w
      s.ringOwner r.toNat = some fn → (s.hif.rings.get r.toNat).enable = false → w.getLsbD 8 = true → s.ringOk fn g = true →
      exec (.ringDescWrite fn r 4 w) s =
        .next { s with hif.rings := s.hif.rings.set r.toNat { g with enable := true, armed := false, state := 1, head := 0, tail := 0, eseq := 0 } }) ∧
    (∀ (fn : Fin 16) (i : Nat) (v : BitVec 64) (s : State),
      let k := s.devRing fn i
      i < 8192 → i < (s.hif.fns.get fn.val).ringCount.toNat → (s.hif.rings.get k).enable = true → (s.hif.rings.get k).state = 1 →
      s.indexOk k (v.setWidth 32) = true → v.getLsbD 32 = false →
      exec (.doorbell fn (BitVec.ofNat 16 (8 * i)) 8 v) s =
        .next { s with hif.rings := s.hif.rings.upd k fun g =>
          if s.hostProduces k then { g with tail := v.setWidth 32 } else { g with head := v.setWidth 32 } }) ∧
    (∀ (fn : Fin 16) (k : Nat) (s : State), s.eventRing fn = some k → (s.hif.fns.get fn.val).lost ≠ 0 →
      ∃ t, exec (.eventsLostRecord fn) s = .next t ∧ (t.hif.fns.get fn.val).lost = 0 ∧ (t.hif.rings.get k).tail = (s.hif.rings.get k).tail + 1 ∧
        (t.hif.rings.get k).eseq = (s.hif.rings.get k).eseq + 1)) ∧
  ((∀ (fn : Fin 16) (off : BitVec 16) (size : Nat) (v : BitVec 64) (s : State),
      (size ≠ 8 ∨ off.toNat % 8 ≠ 0 ∨ (s.hif.fns.get fn.val).ringCount.toNat ≤ off.toNat / 8) →
      exec (.doorbell fn off size v) s = .next { s with hif.dbBad := true }) ∧
    (∀ (fn : Fin 16) (i : Nat) (v : BitVec 64) (s : State), i < 8192 → i < (s.hif.fns.get fn.val).ringCount.toNat →
      ((s.hif.rings.get (s.devRing fn i)).enable = false ∨ (s.hif.rings.get (s.devRing fn i)).state ≠ 1) →
      exec (.doorbell fn (BitVec.ofNat 16 (8 * i)) 8 v) s = .next s) ∧
    (∀ (fn : Fin 16) (i : Nat) (v : BitVec 64) (s : State),
      let k := s.devRing fn i
      i < 8192 → i < (s.hif.fns.get fn.val).ringCount.toNat → (s.hif.rings.get k).enable = true → (s.hif.rings.get k).state = 1 →
      s.indexOk k (v.setWidth 32) = false → (s.hif.fns.get fn.val).bound = false →
      ∃ t, exec (.doorbell fn (BitVec.ofNat 16 (8 * i)) 8 v) s = .next t ∧ (t.hif.rings.get k).state = 2 ∧ t.hif.ringError = true ∧
        (t.hif.rings.get k).head = (s.hif.rings.get k).head ∧ (t.hif.rings.get k).tail = (s.hif.rings.get k).tail))

/-- Session and management commands under the conditions of their rules: OPEN_SESSION (R28, R273), CLOSE_SESSION with no command before
it (R274), EVENT_BIND (R277), NOP, DEVICE_QUERY (R282), BAR4_SET (R284), DMA_COPY and DMA_FILL accepted (R284), and HOST_DMA_DONE of a
fill of one line into memory that no hand-over holds, while its engine serves the function (R207); one behind another of its ring waits (R272). -/
def Obligations.SessionCommandsComplete : Prop :=
  (∀ (h : Hdr) (low high : Byte) (rb : BitVec 64) (s : State), s.saf.supHalted = false →
    low.toNat ≤ 0x10 → 0x10 ≤ high.toNat → (rb = 0 ∨ (rb.toNat % 64 = 0 ∧ s.hostMem h.fn rb.toNat 64 = true)) →
    (s.hif.sessions.get (s.devRing h.fn h.ring.toNat)).isOpen = false →
    exec (.openSession h low high rb) s = .next
      (({ s with hif.sessions := s.hif.sessions.set (s.devRing h.fn h.ring.toNat) { isOpen := true, version := 0x10, base := h.seq, resultBase := rb } }).reply h
        { r0 := 0x10 + h.fn.val * 256, r1 := (s.hif.fns.get h.fn.val).tagFirst.toNat + (s.hif.fns.get h.fn.val).tagCount.toNat * 65536,
          r2 := (s.hif.fns.get h.fn.val).ringFirst.toNat + (s.hif.fns.get h.fn.val).ringCount.toNat * 65536 })) ∧
  (∀ (h : Hdr) (s : State), s.saf.supHalted = false → s.hif.held = [{ h := h }] → s.tly.waits = [] → s.pln.start = none →
    ∃ t, exec (.closeSession h) s = .next t ∧ t.hif.held = [] ∧
      t.hif.sessions = (s.hif.sessions.upd (s.devRing h.fn h.ring.toNat) fun e => { e with closing := some h }).set (s.devRing h.fn h.ring.toNat) {}) ∧
  (∀ (h : Hdr) (ring : BitVec 16) (s : State), s.saf.supHalted = false → ring.toNat < (s.hif.fns.get h.fn.val).ringCount.toNat →
    (s.hif.rings.get (s.devRing h.fn ring.toNat)).enable = true → (s.hif.rings.get (s.devRing h.fn ring.toNat)).type = 3 →
    exec (.eventBind h ring) s = .next
      (({ s with hif.fns := s.hif.fns.upd h.fn.val fun n => { n with eventRing := ring.setWidth 13, bound := true } }).reply h {})) ∧
  (∀ (h : Hdr) (x : Word) (s : State), exec (.nop h x) s = .next (s.reply h { r0 := x.toNat })) ∧
  (∀ (h : Hdr) (s : State), area s h →
    exec (.deviceQuery h) s = .next (s.reply h { ext := some (wordBytes [0x00A12064, 0x00001010, 0x00100040, 0x40004000, 0x08001000, s.sec.fwVersion, hifLink s]) })) ∧
  (∀ (h : Hdr) (b : BitVec 64) (s : State), s.saf.supHalted = false → b.toNat % 0x100000 = 0 → b.toNat < 0x004000000000 →
    exec (.bar4Set h b) s = .next
      (({ s with hif.fns := s.hif.fns.upd h.fn.val fun n => { n with window := b } }).reply h
        { r0 := (s.hif.fns.get h.fn.val).window.toNat % 2 ^ 32, r1 := (s.hif.fns.get h.fn.val).window.toNat / 2 ^ 32 })) ∧
  (∀ (h : Hdr) (e : Byte) (src dst : BitVec 64) (n : Word) (s : State), src.toNat % 4 = 0 → dst.toNat % 4 = 0 → n.toNat % 4 = 0 → 4 ≤ n.toNat →
    overlap src.toNat dst.toNat n.toNat = false → s.dmaAddrOk h.fn src.toNat n.toNat = true → s.dmaAddrOk h.fn dst.toNat n.toNat = true →
    s.dmaEngineOk h.fn e.toNat = true →
    exec (.dmaCopy h e src dst n) s =
      .next { s with hif.dma := s.hif.dma ++ [{ h := h, fill := none, src := src.toNat, dst := dst.toNat, bytes := n.toNat, engine := e.toNat }] }) ∧
  (∀ (h : Hdr) (e : Byte) (w : Word) (dst : BitVec 64) (n : Word) (s : State), dst.toNat % 4 = 0 → n.toNat % 4 = 0 → 4 ≤ n.toNat →
    s.dmaAddrOk h.fn dst.toNat n.toNat = true → s.dmaEngineOk h.fn e.toNat = true →
    exec (.dmaFill h e w dst n) s =
      .next { s with hif.dma := s.hif.dma ++ [{ h := h, fill := some w, src := 0, dst := dst.toNat, bytes := n.toNat, engine := e.toNat }] }) ∧
  (∀ (h : Hdr) (w : Word) (a e : Nat) (s : State), s.hif.dma = [{ h := h, fill := some w, src := 0, dst := a, bytes := 64, engine := e }] →
    s.inHandover a 64 = false → s.engineServes e h.fn.val none = true →
    exec (.hostDmaDone 0) s =
      .next (({ s with hif.dma := [] }.wrBoth a ((List.range 16).flatMap fun _ => leBytes 4 w.toNat)).reply h {})) ∧
  (∀ (i : Nat) (d : HostDma) (s : State), s.hif.dma[i]? = some d →
    ((s.hif.dma.take i).any fun e => e.h.fn == d.h.fn && e.h.ring == d.h.ring) = true → exec (.hostDmaDone i) s = .next s)

/-- Resets of the link (R275) and its training (R288): a Function Level Reset closes the function's sessions, disables its rings with their
descriptors at reset, ends its waits and commands and sets its window to zero, and leaves ranges, plan, tallies, memory and every other
function's rings; a hot reset does so for every function; the link comes up with the rate and width it trained to, at one of the six rates of
Table 1 (R252). -/
def Obligations.LinkResets : Prop :=
  (∀ (fn : Fin 16) (s : State), ∃ t, exec (.functionLevelReset fn) s = .next t ∧
    (∀ k, s.ringOwner k = some fn → t.hif.rings.get k = {} ∧ t.hif.sessions.get k = {}) ∧
    (∀ k, s.ringOwner k ≠ some fn → t.hif.rings.get k = s.hif.rings.get k ∧ t.hif.sessions.get k = s.hif.sessions.get k) ∧
    (∀ x ∈ t.hif.held, x.h.fn ≠ fn) ∧ (∀ d ∈ t.hif.dma, d.h.fn ≠ fn) ∧
    (t.hif.fns.get fn.val).window = 0 ∧ (t.hif.fns.get fn.val).ringCount = (s.hif.fns.get fn.val).ringCount ∧
    t.mem = s.mem ∧ t.tly.values = s.tly.values ∧ t.pln.plan = s.pln.plan ∧ t.pln.state = s.pln.state) ∧
  (∀ s : State, ∃ t, exec .hotReset s = .next t ∧ t.hif.linkUp = false ∧ t.hif.vfEnable = false ∧ t.hif.held = [] ∧ t.hif.dma = [] ∧
    t.mem = s.mem ∧ t.tly.values = s.tly.values ∧ t.pln.plan = s.pln.plan) ∧
  (∀ (l : UcieLink) (s : State), 5 < l.rate.toNat → exec (.ucieLinkRetrain l) s = .next s) ∧
  (∀ (l : UcieLink) (s : State), l.rate.toNat ≤ 5 → ∃ t, exec (.ucieLinkRetrain l) s = .next t ∧ t.hif.linkUp = true ∧ t.hif.rate = l.rate ∧ t.hif.width = l.narrow ∧
    t.hif.repaired = l.repaired ∧ (s.hif.retrains ≠ 0xFFFF → t.hif.retrains = s.hif.retrains + 1) ∧ (s.hif.retrains = 0xFFFF → t.hif.retrains = 0xFFFF))

/-- A command taken from its ring (R264 to R271): a NOP packet in an open session of the right version, with the expected sequence number, a free tag
and no reserved bit set, runs as the command NOP: HEAD advances and the reply echoes its word. What a reply does (R268, R269): when the paired status
ring is enabled, active and has room, the 32 bytes of the status entry stand at its TAIL, TAIL advances by one, and the command is no longer held; of
memory only the entry, the extended result and the two write-back words can change, and no rod, plan, tally or register of another block does. -/
def Obligations.CommandTakeAndReply : Prop :=
  (∀ (ring : BitVec 13) (tag : BitVec 12) (echo : Word) (s : State),
      let k := s.devRing 0 ring.toNat
      let g := s.hif.rings.get k
      let e := s.hif.sessions.get k
      let h : Hdr := { fn := 0, ring := ring, tag := tag, seq := e.base + (e.taken + 1) }
      s.canTake 0 ring = true → e.isOpen = true → e.version = 0x10 → s.hif.held = [] → tag.toNat < (s.hif.fns.get 0).tagCount.toNat →
      s.errs.cells = [] → s.heldRod (g.entry g.head) 64 = none → g.wb = 0 → g.irqEn = false → s.saf.raised = [] → s.tly.ops = [] →
      s.rdN (g.entry g.head) 64 = 0x0004 + 0x10 * 2 ^ 16 + tag.toNat * 2 ^ 32 + 4 * 2 ^ 48 + (e.base + (e.taken + 1)).toNat * 2 ^ 64 + echo.toNat * 2 ^ 128 →
      ∃ t, exec (.commandTake 0 ring) s = .next t ∧ (t.hif.rings.get k).head = g.head + 1 ∧ t.hif.held = [] ∧
        t.mem = (({ s with hif.rings := s.hif.rings.set k { g with head := g.head + 1 },
                           hif.sessions := s.hif.sessions.upd k fun e => { e with taken := e.taken + 1 }, hif.held := [{ h := h }] }).reply h
                  { r0 := echo.toNat }).mem) ∧
  (∀ (h : Hdr) (r : Rep) (s : State),
      let k := s.statusRing h
      let g := s.hif.rings.get k
      r.ext = none → g.type = 2 → g.canPost = true → g.wb = 0 → g.irqEn = false → (s.hif.sessions.get (s.devRing h.fn h.ring.toNat)).closing = none →
      let t := s.reply h r
      t.rd (g.entry g.tail) 32 = replyBytes s h r ∧ (t.hif.rings.get k).tail = g.tail + 1 ∧ (∀ x ∈ t.hif.held, x.h ≠ h) ∧
      (∀ a, (a < g.entry g.tail ∨ g.entry g.tail + 32 ≤ a) → t.mem.get a = s.mem.get a) ∧
      t.pln = s.pln ∧ t.tly = s.tly ∧ t.rods = s.rods ∧ t.tim = s.tim ∧ t.saf = s.saf ∧ t.sec = s.sec ∧ t.pwr = s.pwr ∧ t.trc = s.trc ∧
      t.memc = s.memc ∧ t.tyb = s.tyb ∧ t.sns = s.sns ∧ t.eth = s.eth ∧ t.can = s.can ∧ t.cle = s.cle ∧ t.pgk = s.pgk ∧ t.cry = s.cry ∧ t.jrn = s.jrn)

/-! ### Tallies -/

/-- Changes of one tick are applied together: the last SET in the order of R244, the host's before the ports', then the sum of the ADDs modulo 2^32,
so that the order of the ADDs does not count (R279). TALLY_APPLY (R279): when every waiting change of tally t is due in one tick, and that tick has
come, they are applied together, leave the queue, and nothing but tally t and the replies changes; no other tally does. A change that is due later
stays. -/
def Obligations.TallyChanges : Prop :=
  ((∀ (v : Word) (ops : List TallyOp),
      applyOps v ops =
        ((((ops.filter TallyOp.isSet).insertionSort fun a b => a.src ≤ b.src).getLast?.map TallyOp.value).getD v) + (((ops.filter fun o => !o.isSet).map TallyOp.value).sum)) ∧
    (∀ (v : Word) (a b : List TallyOp), a.Perm b → a.filter TallyOp.isSet = b.filter TallyOp.isSet → applyOps v a = applyOps v b)) ∧
  (∀ (t : BitVec 14) (due : Nat) (o : TallyOp) (os : List TallyOp) (s : State),
      s.tly.ops.filter (fun o => o.tally == t.toNat) = o :: os → due ≤ s.tick → (∀ x ∈ o :: os, x.due = due ∧ x.h = none ∧ x.resp = none) →
      (∀ v : State, v.tick < due → v.tly.ops = s.tly.ops → exec (.tallyApply t) v = .next v) ∧
      ∃ u, exec (.tallyApply t) s = .next u ∧ u.tly.values = s.tly.values.upd t.toNat (fun v => applyOps v (o :: os)) ∧
        (∀ k, k ≠ t.toNat → u.tly.values.get k = s.tly.values.get k) ∧ (∀ x ∈ u.tly.ops, x.tally ≠ t.toNat) ∧
        u.mem = s.mem ∧ u.hif = s.hif ∧ u.tly.waits = s.tly.waits ∧ u.pln = s.pln ∧ u.rods = s.rods)

/-- Local tally commands for a tally the function may use (R278 to R280): ADD and SET are admitted, one in a tick, for the end of the tick after their
admission and their replies wait for it; READ answers the value that the next tick starts with; WAIT takes an entry of the wait table. The ends of
waits (R280) and of remote commands (R281, R398): a satisfied entry of a host answers the value that satisfied it, one whose time-out has come
unsatisfied, TIMEOUT_US after its admission on the time base, answers TALLY_TIMEOUT with the tally's value in DETAIL, and a remote command without a
response answers REMOTE_UNREACHABLE; each leaves its table. Remote tally commands of a tally below 16,384 (R281): when the request's message finds a
way, the command waits for its response under a fresh request number; nothing of the local tallies changes. -/
def Obligations.TallyCommandsComplete : Prop :=
  (∀ (h : Hdr) (t : BitVec 16) (s : State), t.toNat < 16384 → (h.fn = 0 ∨ s.tallyOwner t.toNat = some h.fn.val) → s.jrn.j.isOpen = false →
      let a := max s.tick s.tly.hostNext
      (∀ v : Word, exec (.tallyAdd h t v) s = .next { s with
        tly.ops := s.tly.ops ++ [{ tally := t.toNat, isSet := false, value := v, due := a + 1, h := some h }], tly.hostNext := a + 1 }) ∧
      (∀ v : Word, exec (.tallySet h t v) s = .next { s with
        tly.ops := s.tly.ops ++ [{ tally := t.toNat, isSet := true, value := v, due := a + 1, h := some h }], tly.hostNext := a + 1 }) ∧
      exec (.tallyRead h t) s = .next (s.reply h { r0 := (s.tallyNext t.toNat).toNat }) ∧
      (∀ (v us : Word), s.tly.waits.length < 4096 → exec (.tallyWait h t v us) s = .next { s with
        tly.waits := s.tly.waits ++ [{ who := .host h, tally := t.toNat, target := v, timeoutUs := us, since := s.tick, from_ := s.now }], tly.maxUsed := max s.tly.maxUsed (s.tly.waits.length + 1) })) ∧
  ((∀ (i : Nat) (h : Hdr) (w : WaitEnt) (v : Word) (s : State), s.tly.waits[i]? = some w → w.who = .host h → w.hit = some v →
      exec (.tallyWaitSatisfied i) s = .next ({ s with tly.waits := s.tly.waits.eraseIdx i }.reply h { r0 := v.toNat })) ∧
    (∀ (i : Nat) (h : Hdr) (w : WaitEnt) (s : State), s.tly.waits[i]? = some w → w.who = .host h → w.timeoutUs ≠ 0 → w.hit = none →
      0 ≤ wdiff 64 s.now.toNat (w.from_ + BitVec.ofNat 64 (1000 * w.timeoutUs.toNat)).toNat →
      exec (.tallyWaitTimeout i) s =
        .next ({ s with tly.waits := s.tly.waits.eraseIdx i }.reply h { status := 0x3004, detail := (s.tly.values.get w.tally).toNat })) ∧
    (∀ (i : Nat) (c : RemoteCmd) (s : State), s.tly.remote[i]? = some c →
      exec (.remoteResponseTimeout i) s = .next ({ s with tly.remote := s.tly.remote.eraseIdx i }.reply c.h { status := 0x3005 }))) ∧
  (∀ (h : Hdr) (t node : BitVec 16) (v us : Word) (s : State), s.saf.supHalted = false → t.toNat < 16384 →
      (∀ u, s.sendMsg node.toNat 1 (tallyReq 0 t.toNat v.toNat 0 s.tly.nextReq) = some u →
        exec (.tallyRemoteAdd h t node v) s = .next { u with tly.remote := u.tly.remote ++ [{ h := h, node := node.toNat, reqId := s.tly.nextReq, op := 0, port := s.portTo node.toNat }], tly.nextReq := (s.tly.nextReq + 1) % 2 ^ 32 }) ∧
      (∀ u, s.sendMsg node.toNat 1 (tallyReq 1 t.toNat v.toNat 0 s.tly.nextReq) = some u →
        exec (.tallyRemoteSet h t node v) s = .next { u with tly.remote := u.tly.remote ++ [{ h := h, node := node.toNat, reqId := s.tly.nextReq, op := 1, port := s.portTo node.toNat }], tly.nextReq := (s.tly.nextReq + 1) % 2 ^ 32 }) ∧
      (∀ u, s.sendMsg node.toNat 1 (tallyReq 2 t.toNat 0 0 s.tly.nextReq) = some u →
        exec (.tallyRemoteRead h t node) s = .next { u with tly.remote := u.tly.remote ++ [{ h := h, node := node.toNat, reqId := s.tly.nextReq, op := 2, port := s.portTo node.toNat }], tly.nextReq := (s.tly.nextReq + 1) % 2 ^ 32 }) ∧
      (∀ u, s.sendMsg node.toNat 1 (tallyReq 3 t.toNat v.toNat us.toNat s.tly.nextReq) = some u →
        exec (.tallyRemoteWait h t node v us) s = .next { u with tly.remote := u.tly.remote ++ [{ h := h, node := node.toNat, reqId := s.tly.nextReq, op := 3, port := s.portTo node.toNat }], tly.nextReq := (s.tly.nextReq + 1) % 2 ^ 32 }))

/-! ### Time base -/

/-- Time commands of PF0 in their ranges (R344 to R349, R364): a step that is free or within JUMP_LIMIT moves the time by its offset and uses
the free step, TIME_SLEW starts or ends a slew, TIME_READ answers the 96-bit time, TIME_JUMP_LIMIT lowers the limit. -/
def Obligations.TimeCommandsComplete : Prop :=
  ∀ (h : Hdr) (s : State), pf0 s h →
    (∀ (frac : BitVec 16) (ns : Word) (sec : BitVec 64), ns.toNat < 1000000000 →
      let off : Int := timeUnits (sec.toNat % 2 ^ 48) ns.toNat frac.toNat - s.tim.time
      (s.tim.stepped = false ∨ |off| ≤ s.tim.jumpLimit.toNat * 2 ^ 40) →
      exec (.timeSet h frac ns sec) s = .next
        ({ s with tim.time := (timeUnits (sec.toNat % 2 ^ 48) ns.toNat frac.toNat % (timeMod : Int)).toNat, tim.stepped := true }.reply h {})) ∧
    (∀ (frac : BitVec 16) (ns : Word) (sec : BitVec 64), ns.toNat < 1000000000 → -(2 ^ 47) ≤ sec.toInt → sec.toInt < 2 ^ 47 →
      (s.tim.stepped = false ∨ |timeUnits sec.toInt ns.toNat frac.toNat| ≤ s.tim.jumpLimit.toNat * 2 ^ 40) →
      exec (.timeStep h frac ns sec) s = .next
        ({ s with tim.time := (((s.tim.time : Int) + timeUnits sec.toInt ns.toNat frac.toNat) % (timeMod : Int)).toNat, tim.stepped := true }.reply h {})) ∧
    (∀ rate count : Word, count ≠ 0 → s.tim.slewLeft = 0 → |(s.tim.incr.toNat : Int) + rate.toInt - 2 ^ 41| ≤ 2199023255 →
      exec (.timeSlew h rate count) s = .next ({ s with tim.slewRate := rate, tim.slewLeft := count }.reply h {})) ∧
    (∀ rate : Word, exec (.timeSlew h rate 0) s = .next ({ s with tim.slewLeft := 0 }.reply h {})) ∧
    exec (.timeRead h) s = .next (s.reply h (timeRep (time96 s.tim.time))) ∧
    (∀ limit : Word, limit.toNat ≤ s.tim.jumpLimit.toNat →
      exec (.timeJumpLimit h limit) s = .next ({ s with tim.jumpLimit := limit }.reply h {}))

/-- Time pins and events (R345, R349, R350, R352, R353): a pulse pin is configured and armed; the oldest capture is answered and leaves the
FIFO; an edge is captured, and a rising one is seen by a start that waits for its pin (R353); a slew ends with the rest of its sum; a comparator's pin rises; PPS_OUT rises at a second; a read of
TIM_NOW_FRAC latches all 96 bits. -/
def Obligations.TimePinsComplete : Prop :=
  (∀ (h : Hdr) (pin : Byte) (at_ : BitVec 64) (width : Word) (s : State), pf0 s h → pin.toNat ≤ 3 → 10 ≤ width.toNat → width.toNat ≤ 999999990 →
    atOrLater 64 s.now.toNat at_.toNat = false →
    exec (.timePinConfig h pin 2 0 at_ 0 width) s = .next
      ({ s with tim.pins := s.tim.pins.upd pin.toNat fun q =>
          { q with mode := 2, edge := false, at_ := at_, period := 0, width := width, level := false, armed := true, target := at_ } }.reply h {})) ∧
  (∀ (h : Hdr) (pin : Byte) (t : Nat) (rest : List Nat) (s : State), pf0 s h → pin.toNat ≤ 4 → (s.tim.pins.get pin.toNat).fifo = t :: rest →
    exec (.timeCapture h pin) s = .next
      ({ s with tim.pins := s.tim.pins.set pin.toNat { s.tim.pins.get pin.toNat with fifo := rest } }.reply h { timeRep (time96 t) with detail := rest.length })) ∧
  (∀ (p : Fin 6) (level : Bool) (s : State), p.val ≤ 4 → (s.tim.pins.get p.val).mode = 1 → (s.tim.pins.get p.val).edge ≠ level →
    (s.tim.pins.get p.val).fifo.length < 4 → s.trc.state = .off →
    let t := { s with tim.pins := s.tim.pins.set p.val { s.tim.pins.get p.val with fifo := (s.tim.pins.get p.val).fifo ++ [s.edgeTime] } }
    exec (.timePinEdge p level) s = .next (if level then t.seeEdge p.val else t)) ∧
  (∀ (p : Fin 6) (q : PendStart) (s : State), s.pln.start = some q → q.mode = 2 → q.pin = p.val → s.trc.state = .off →
    ∃ t, exec (.timePinEdge p true) s = .next t ∧ t.pln.start = some { q with seen := true }) ∧
  (∀ s : State, exec .slewEnd s =
    .next { s with tim.time := (((s.tim.time : Int) + s.tim.slewRate.toInt * s.tim.slewLeft.toNat) % (timeMod : Int)).toNat, tim.slewLeft := 0 }) ∧
  (∀ (p : Fin 6) (s : State), (s.tim.pins.get p.val).armed = true → (s.tim.pins.get p.val).level = false →
    atOrLater 64 s.now.toNat (s.tim.pins.get p.val).target.toNat = true →
    ∃ t, exec (.comparatorFire (.pin p)) s = .next t ∧ (t.tim.pins.get p.val).level = true ∧
      (t.tim.pins.get p.val).target = (s.tim.pins.get p.val).target + BitVec.ofNat 64 (s.tim.pins.get p.val).width.toNat) ∧
  (∀ s : State, (s.tim.pins.get 5).mode = 1 →
    ∃ t, exec .ppsOutPulse s = .next t ∧ (t.tim.pins.get 5).level = true ∧ (t.tim.pins.get 5).armed = true ∧
      (t.tim.pins.get 5).target = s.now + BitVec.ofNat 64 (s.tim.pins.get 5).width.toNat) ∧
  (∀ s : State, exec (.timNowFracRead 0) s =
    .next { s with tim.latch := time96 s.tim.time, hif.cpl := { data := leBytes 4 (fld (time96 s.tim.time).toNat 0 16) } })

/-! ### Plans and jobs -/

/-- Plan commands of PF0 in the states that Table 15 gives them (R227, R229): LOAD_PLAN is taken up, PLAN_LOAD_DONE refuses with the verdict's
status or installs, START_PLAN starts at once, at a time or at an edge, PLAN_START_FIRE starts, STOP_PLAN stops at the frame end or at
once or cancels, PLAN_STOP_FRAME_END stops, UNLOAD_PLAN drops the plan, and PLAN_QUERY answers. -/
def Obligations.PlanCommandsComplete : Prop :=
  (∀ (h : Hdr) (a : BitVec 64) (n : Word) (s : State), pf0 s h → (s.pln.state = .none ∨ s.pln.state = .loaded) →
    exec (.loadPlan h a n) s = .next { s with
      pln.state := .loading, pln.load := some { h := some h, addr := a.toNat, bytes := n.toNat, from_ := s.pln.state, power := s.pwr.plan.toNat } }) ∧
  (∀ (p : PendLoad) (s : State), s.pln.load = some p → s.pgk.ready = true →
    exec .planLoadDone s = .next (match s.loadVerdict p.addr p.bytes p.power with
      | some (st, d) => { s with pln.state := p.from_, pln.load := none }.replyOpt p.h { status := st, detail := d }
      | none => (s.install (s.planAt p.addr p.bytes)).replyOpt p.h {})) ∧
  (∀ (pl : Plan) (s : State), (s.install pl).pln.state = .loaded ∧ (s.install pl).pln.plan = some pl ∧ (s.install pl).pln.jobs = {} ∧ (s.install pl).pgk.pages = {}) ∧
  (∀ (h : Hdr) (pin : Byte) (at_ : BitVec 64) (pl : Plan) (s : State), pf0 s h → s.pln.plan = some pl → s.pln.state = .loaded → s.saf.safe = false →
    s.jrn.r.armed = false →
    exec (.startPlan h 0 pin at_) s = .next (s.beginPlan pl (some h)).settle ∧
    (atOrLater 64 s.now.toNat at_.toNat = false → exec (.startPlan h 1 pin at_) s = .next { s with
      pln.state := .starting, pln.start := some { h := some h, mode := 1, pin := pin.toNat, at_ := at_ } }) ∧
    (pin.toNat ≤ 3 → exec (.startPlan h 2 pin at_) s = .next { s with
      pln.state := .starting, pln.start := some { h := some h, mode := 2, pin := pin.toNat, at_ := at_ } })) ∧
  (∀ (p : PendStart) (pl : Plan) (s : State), s.pln.start = some p → s.pln.plan = some pl →
    ((p.mode = 2 ∧ p.seen = true) ∨ (p.mode ≠ 2 ∧ atOrLater 64 s.now.toNat p.at_.toNat = true)) → exec .planStartFire s = .next (s.beginPlan pl p.h).settle) ∧
  (∀ (h : Hdr) (s : State), pf0 s h →
    (s.pln.state = .running → exec (.stopPlan h 0) s = .next { s with pln.state := .stopping, pln.stop := some (some h) } ∧
      exec (.stopPlan h 1) s = .next { s with pln.stop := some (some h) }.stopNow.settle) ∧
    (s.pln.state = .starting → exec (.stopPlan h 0) s = .next (s.cancelStart.reply h {}) ∧ exec (.stopPlan h 1) s = .next (s.cancelStart.reply h {}))) ∧
  (∀ s : State, s.pln.state = .stopping → exec .planStopFrameEnd s = .next s.stopNow.settle) ∧
  (∀ (h : Hdr) (s : State), pf0 s h → s.pln.state = .loaded →
    exec (.unloadPlan h) s = .next ({ s.dropProt.zeroSpads with pln.plan := none, pln.state := .none, tyb.partner := {}, pln.halted := {}, pln.resuming := {} }.reply h {})) ∧
  (∀ (h : Hdr) (pl : Plan) (s : State), s.saf.supHalted = false → s.pln.plan = some pl →
    exec (.planQuery h) s = .next (s.reply h
      { r0 := pack [(0, 3, s.pln.state.code), (8, 8, s.pln.window), (16, 16, pl.version.toNat)], r1 := pl.planId.toNat, r2 := s.pln.frameCount.toNat % 2 ^ 32 }))

/-- Only PF0 names plans: LOAD_PLAN, START_PLAN, STOP_PLAN and UNLOAD_PLAN from a virtual function are refused with PLAN_ACCESS and change nothing
else (R229). JOB_START of a job that is not on demand or not IDLE is refused with JOB_STATE, and a job outside the function's partition with
JOB_RANGE; neither changes anything but its reply (R229). A step above JUMP_LIMIT after the free step is used leaves the time as it was, sets
JUMP_REFUSED and counts in TIM_REFUSED (R346, R347). -/
def Obligations.Refusals : Prop :=
  (∀ (h : Hdr) (s : State), s.saf.supHalted = false → h.fn ≠ 0 →
      (∀ a n, exec (.loadPlan h a n) s = .next (s.reply h { status := 0x1024 })) ∧
      (∀ m p a, exec (.startPlan h m p a) s = .next (s.reply h { status := 0x1024 })) ∧
      (∀ m, exec (.stopPlan h m) s = .next (s.reply h { status := 0x1024 })) ∧
      exec (.unloadPlan h) s = .next (s.reply h { status := 0x1024 })) ∧
  (∀ (h : Hdr) (j : BitVec 16) (s : State),
      (s.jobReach h j.toNat = false → exec (.jobStart h j) s = .next (s.reply h { status := 0x1022 })) ∧
      (∀ r, s.jobRec j.toNat = some r → (h.fn = 0 ∨ r.part = h.fn.val) → s.pln.state = .running →
        (r.onDemand = false ∨ (s.jobRun j.toNat).state ≠ .idle) → exec (.jobStart h j) s = .next (s.reply h { status := 0x1021 }))) ∧
  (∀ (h : Hdr) (frac : BitVec 16) (ns : Word) (sec : BitVec 64) (s : State), pf0 s h → ns.toNat < 1000000000 → -(2 ^ 47) ≤ sec.toInt → sec.toInt < 2 ^ 47 →
      s.tim.stepped = true → (s.tim.jumpLimit.toNat : Int) * 2 ^ 40 < |timeUnits sec.toInt ns.toNat frac.toNat| →
      ∃ t, exec (.timeStep h frac ns sec) s = .next t ∧ t.tim.time = s.tim.time ∧ t.tim.jumpRefused = true ∧ t.tim.refused = satInc s.tim.refused)

/-- Job and partition commands for a job or partition the function may name, while the plan runs (R212, R220, R229, R230). -/
def Obligations.JobCommandsComplete : Prop :=
  (∀ (h : Hdr) (j : BitVec 16) (r : JobRec) (s : State), s.jobRec j.toNat = some r → (h.fn = 0 ∨ r.part = h.fn.val) → s.pln.state = .running →
    r.onDemand = true → (s.jobRun j.toNat).state = .idle → s.jrn.j.isOpen = false →
    exec (.jobStart h j) s = .next ({ s with pln.jobs := s.pln.jobs.upd j.toNat fun q =>
      { q with requested := true, requestedAt := if q.requested then q.requestedAt else s.tick } }.reply h
      { r0 := b2n (!(s.jobRun j.toNat).requested) })) ∧
  (∀ (h : Hdr) (j : BitVec 16) (r : JobRec) (s : State), area s h → s.jobRec j.toNat = some r → (h.fn = 0 ∨ r.part = h.fn.val) →
    (s.pln.state = .running ∨ s.pln.state = .loaded) → exec (.jobQuery h j) s = .next (s.reply h { ext := some (leBytes 32 (s.jobRun j.toNat).word) })) ∧
  (∀ (h : Hdr) (p : Byte) (pl : Plan) (s : State), s.saf.supHalted = false → s.pln.plan = some pl → pl.hasPart p.toNat = true → (h.fn = 0 ∨ h.fn.val = p.toNat) →
    s.pln.state = .running →
    exec (.partitionHalt h p) s = .next ((s.haltPartition p.toNat).settle.reply h {}) ∧
    (s.pln.halted.get p.toNat = true →
      exec (.partitionResume h p) s = .next ({ s with pln.resuming := s.pln.resuming.set p.toNat true }.reply h {}))) ∧
  (∀ (h : Hdr) (n : Byte) (s : State), s.saf.supHalted = false → n.toNat ≤ 63 →
    exec (.selftestQuery h n) s = .next (s.reply h { r0 := (s.pln.selftest.get n.toNat).word }))

/-- A beam of a running plan opens the next window: WINDOW is its number, FRAME_TICK its START_TICK, and FRAME_COUNT counts a frame at window
0 (R204); at any other moment, or for another window, nothing happens. -/
def Obligations.BeamOpensTheNextWindow : Prop :=
  (∀ (w : Byte) (pl : Plan) (s : State), s.pln.plan = some pl → s.pln.state = .running → w.toNat = pl.nextWin s.pln.window →
    ∃ t, exec (.beam w) s = .next t ∧ t.pln.window = w.toNat ∧ t.pln.frameTick = pl.winStart w.toNat ∧
      t.pln.frameCount = (if w = 0 then s.pln.frameCount + 1 else s.pln.frameCount)) ∧
  (∀ (w : Byte) (s : State), (s.pln.plan = none ∨ (∃ pl, s.pln.plan = some pl ∧ w.toNat ≠ pl.nextWin s.pln.window)) → exec (.beam w) s = .next s)

/-- Runs of jobs (R79, R114, R212, R216, R218): a pre-emption request asks each running job that loses rods; a released job takes its rods at
their entry points and runs; a job whose rods have all saved is pre-empted; a rod restores the context of its save area; a job torn
down is released again by its reload. The code lines that a sequencer wants are held once it has read them (R94). -/
def Obligations.JobRunsComplete : Prop :=
  (∀ (pl : Plan) (s : State), s.pln.plan = some pl → ∃ t, exec .preemptRequest s = .next t ∧
    (∀ r ∈ s.jobList, (s.jobRun r.job).state = .running → pl.mayRun r (pl.nextWin s.pln.window) = false → (t.jobRun r.job).preemptReq = true) ∧
    t.mem = s.mem ∧ t.rods = s.rods ∧ t.pln.window = s.pln.window) ∧
  (∀ (j : BitVec 10) (pl : Plan) (r : JobRec) (s : State), s.pln.plan = some pl → s.jobRec j.toNat = some r → s.pln.state = .running →
    s.canStart pl r = true → s.outranked pl r = false → r.locked = false → ((pl.rodsOf r).map JobRod.rod).Nodup →
    s.errs.cells = [] → s.saf.raised = [] → (∀ c ∈ s.rods.cells, c.2.upset.banks = []) →
    ∃ t, exec (.jobRunStart j) s = .next t ∧ (t.jobRun r.job).state = .running ∧
      ∀ e ∈ pl.rodsOf r, (t.rod e.rod).job = some r.job ∧ (t.rod e.rod).seq = .ready ∧ (t.rod e.rod).pc = BitVec.ofNat 16 e.pc) ∧
  (∀ (j : BitVec 10) (r : JobRec) (s : State), s.jobRec j.toNat = some r → (s.jobRun j.toNat).state = .running →
    (r.rods.filter fun k => ((s.jobRun j.toNat).exits.get k).isNone) ≠ [] →
    (∀ k ∈ r.rods, ((s.jobRun j.toNat).exits.get k).isNone = true → (s.rod k).seq = .saving) →
    ∃ t, exec (.contextSaveDone j) s = .next t ∧ (t.jobRun j.toNat).state = .preempted ∧ (t.jobRun j.toNat).saves = (s.jobRun j.toNat).saves + 1) ∧
  (∀ (j : BitVec 10) (n : Nat) (s : State), ((List.range 64).filter fun n => (s.rod n).job == some j.toNat && (s.rod n).seq == .restoring) = [n] →
    s.errs.cells = [] → s.saf.raised = [] → (s.rod n).follower n = false → (∀ c ∈ s.rods.cells, c.2.upset.banks = []) →
    let x := s.rdN (spadAddr n (s.rod n).ctxSaveBase.toNat + 64 * 4160) 1024
    fld x 1152 16 = (s.jobRun j.toNat).gen.toNat → fld x 1168 4 = s.jobPart j.toNat →
    ∃ t, exec (.contextRestoreDone j) s = .next t ∧ (t.rod n).seq = .ready ∧ (t.rod n).pc = BitVec.ofNat 16 (fld x 0 16) ∧
      (t.rod n).descBase = BitVec.ofNat 32 (fld x 64 32) ∧ t.mem = s.mem) ∧
  (∀ (j : BitVec 10) (pl : Plan) (r : JobRec) (s : State), s.pln.plan = some pl → s.jobRec j.toNat = some r → (s.jobRun j.toNat).state = .teardown →
    (s.jobRun j.toNat).relock = false → s.saf.raised = [] → (∀ e ∈ pl.loadsOf r, s.heldRod (spadAddr e.rod e.off) (64 * e.lines) = none) →
    ∃ t, exec (.reloadComplete j) s = .next t ∧ (t.jobRun j.toNat).state = .released ∧ (t.jobRun j.toNat).restarts = (s.jobRun j.toNat).restarts + 1 ∧
      t.mem = ((pl.loadsOf r).foldl State.applyLoad s).mem) ∧
  (∀ (n : Nat) (s t : State), s.holdCode n = (true, t) → (t.rod n).holds (t.rod n).codeWant = true ∧ t.mem = s.mem) ∧
  (∀ (n : Fin 64) (s : State), (s.pln.selftest.get n.val).running = true →
    ∃ t, exec (.selftestSliceStop n) s = .next t ∧ (t.pln.selftest.get n.val).result = 3 ∧ (t.pln.selftest.get n.val).running = false) ∧
  (∀ (n : Fin 64) (s : State), (s.pln.selftest.get n.val).running = true → s.saf.raised = [] →
    exec (.selftestSegmentDone n true false) s = .next { s with
      pln.selftest := s.pln.selftest.upd n.val fun q => { q with result := 1, segment := q.segment + 1, passes := q.passes } })

/-! ### Rod sequencer -/

/-- Rod `n` is about to carry out the word `w` (R94, R99): it holds a job, alone or as a pair's leader, is ready or waits there, its PC is inside its
code, the code lines it wants are held, and the word that stands at its PC in them is an encoding of R99; no memory word is marked bad, no rod's hardware
fails, no fault is waiting, and trace is off. -/
abbrev Sys2Proof.Claims.fetches (s : State) (n w : Nat) : Prop :=
  (s.rod n).job.isSome = true ∧ (s.rod n).follower n = false ∧ ((s.rod n).seq = .ready ∨ (s.rod n).seq = .waiting) ∧
  (s.rod n).pc.toNat < (s.rod n).codeLen ∧ (s.rod n).holds (s.rod n).codeWant = true ∧ (s.rod n).codeWord = w ∧ instrOk w = true ∧
  s.errs.cells = [] ∧ (∀ c ∈ s.rods.cells, c.2.upset = {}) ∧ s.saf.raised = [] ∧ s.trc.state = .off

/-- Register instructions (R93, R103, R107, R108): ADDI, ALU, LUI, LDW, RDS and SETB write their destination and go on to the next instruction;
nothing but the rod that executes them changes (LDW also counts one bank access of the rod). L registers (R93): L0 reads as zero and keeps nothing; a
write of another register is read back and leaves every other register. -/
def Obligations.SequencerRegisters : Prop :=
  (∀ (n : Fin 64) (w : Nat) (s : State), fetches s n.val w →
      let r := s.rod n.val
      let d := fld w 22 4
      let a := r.l_ (fld w 18 4)
      (fld w 26 6 = 0x04 → exec (.addi n) s = .next (s.updRod n.val fun r => (r.setL d (a + sfld w 0 18)).advance)) ∧
      (fld w 26 6 = 0x05 → exec (.alu n) s = .next (s.updRod n.val fun r => (r.setL d (aluOp (fld w 0 4) a (r.l_ (fld w 14 4)))).advance)) ∧
      (fld w 26 6 = 0x06 → exec (.lui n) s = .next (s.updRod n.val fun r => (r.setL d (BitVec.ofNat 32 (fld w 0 22 * 2 ^ 10))).advance)) ∧
      (fld w 26 6 = 0x07 → (a + sfld w 0 18).toNat % 4 = 0 → s.inJobRange n.val (a + sfld w 0 18).toNat 4 = true →
        exec (.ldw n) s = .next ((s.count n.val 18 1).updRod n.val fun r =>
          (r.setL d (BitVec.ofNat 32 (s.rdN (spadAddr n.val (a + sfld w 0 18).toNat) 4))).advance)) ∧
      (fld w 26 6 = 0x0E → fld w 0 4 ≠ 6 →
        let q := s.jobRun (r.job.getD 0)
        let v : Word := match fld w 0 4 with
          | 0 => BitVec.ofNat 32 n.val
          | 1 => BitVec.ofNat 32 s.pln.frameTick
          | 2 => s.pln.frameCount.setWidth 32
          | 3 => q.gen.setWidth 32
          | 4 => BitVec.ofNat 32 q.restarts
          | 5 => BitVec.ofNat 32 (s.jobPart (r.job.getD 0))
          | 7 => r.latchSec.setWidth 32
          | _ => BitVec.ofNat 32 (r.latchSec.toNat / 2 ^ 32 + r.latchFrac.toNat * 2 ^ 16)
        exec (.rds n) s = .next (s.updRod n.val fun r => (r.setL d v).advance)) ∧
      (fld w 26 6 = 0x0E → fld w 0 4 = 6 → s.jrn.r.running = false → s.jrn.j.isOpen = false →
        exec (.rds n) s = .next (s.updRod n.val fun r =>
          ({ r with latchSec := BitVec.ofNat 48 (s.admittedTime.toNat / 2 ^ 48), latchFrac := s.admittedTime.setWidth 16 }.setL d
            (BitVec.ofNat 32 (fld s.admittedTime.toNat 16 32))).advance)) ∧
      (fld w 26 6 = 0x0F → lineAligned (r.l_ d).toNat = true → s.inJobRange n.val (r.l_ d).toNat 1 = true →
        exec (.setb n) s = .next (s.updRod n.val fun q =>
          (if fld w 0 2 = 0 then { q with descBase := r.l_ d } else { q with recBase := r.l_ d }).advance))) ∧
  (∀ (r : Rod) (i : Nat) (v : Word),
      r.l_ 0 = 0 ∧ (r.setL 0 v) = r ∧ (i ≠ 0 → (r.setL i v).l_ i = v) ∧ (∀ k, k ≠ i → (r.setL i v).l_ k = r.l_ k) ∧
      (r.l.wf = true → (r.setL i v).l.wf = true))

/-- Loops, branches and the end of an instruction (R101 to R103): outside a loop's last instruction PC moves by one; at the last instruction the next
iteration starts at the body's first instruction with L[i] its number, or the loop ends; LOOP and LOOPI enter a loop or, with a count of zero, skip
its body; BR goes to its target inside the innermost loop's body, or on. An instruction whose code lines are not held yet runs as it does once they
are read, and the word is then the one that stands in the scratchpad (R94). The HALT of a job's last rod ends the run: the job is IDLE and its
completion is recorded (R111, R212, R215). -/
def Obligations.SequencerFlow : Prop :=
  ((∀ r : Rod, (r.stack = [] ∨ ∃ t rest, r.stack = t :: rest ∧ t.last ≠ r.pc) →
      r.advance = { r with pc := r.pc + 1, prevPc := r.pc, seq := .ready, alignAt := none }) ∧
    (∀ (n op : Nat) (k : Nat → State → State) (s t : State), (s.rod n).job.isSome = true → (s.rod n).follower n = false →
      ((s.rod n).seq = .ready ∨ (s.rod n).seq = .waiting) → (s.rod n).pc.toNat < (s.rod n).codeLen → s.holdCode n = (true, t) →
      instrOk (t.rod n).codeWord = true → fld (t.rod n).codeWord 26 6 = op →
      s.instr n op k = .next (k (t.rod n).codeWord t).settle ∧
        ((s.rod n).code = [] → (t.rod n).codeWord = s.rdN (spadAddr n ((s.rod n).codeBase + 4 * (s.rod n).pc.toNat)) 4)) ∧
    (∀ (r : Rod) (t : LoopLvl) (rest : List LoopLvl), r.stack = t :: rest → t.last = r.pc → t.next < t.count →
      r.advance = { ({ r with pc := t.first, stack := { t with next := t.next + 1 } :: rest }.setL t.li.toNat t.next) with prevPc := r.pc, seq := .ready, alignAt := none }) ∧
    (∀ (r : Rod) (t : LoopLvl), r.stack = [t] → t.last = r.pc → ¬ t.next < t.count →
      r.advance = { r with pc := r.pc + 1, stack := [], prevPc := r.pc, seq := .ready, alignAt := none }) ∧
    (∀ (n : Fin 64) (w : Nat) (s : State), fetches s n.val w →
      let r := s.rod n.val
      let last := r.pc.toNat + fld w 0 12
      let fits := r.stack.length < 4 ∧ ∀ t rest, r.stack = t :: rest → last ≤ t.last.toNat
      let entered := fun (c : Word) (r : Rod) =>
        { ({ r with stack := { first := BitVec.ofNat 16 (r.pc.toNat + 1), last := BitVec.ofNat 16 last, count := c, next := 1,
                               li := BitVec.ofNat 4 (fld w 22 4) } :: r.stack }.setL (fld w 22 4) 0) with pc := BitVec.ofNat 16 (r.pc.toNat + 1), prevPc := r.pc, seq := .ready }
      let skipped := fun (r : Rod) => { r.stepFrom last 5 with prevPc := r.pc, seq := .ready }
      (fld w 26 6 = 0x02 → fits → r.l_ (fld w 18 4) ≠ 0 → exec (.loop n) s = .next (s.updRod n.val (entered (r.l_ (fld w 18 4))))) ∧
      (fld w 26 6 = 0x02 → fits → r.l_ (fld w 18 4) = 0 → exec (.loop n) s = .next (s.updRod n.val skipped)) ∧
      (fld w 26 6 = 0x03 → fits → fld w 12 10 ≠ 0 → exec (.loopi n) s = .next (s.updRod n.val (entered (BitVec.ofNat 32 (fld w 12 10))))) ∧
      (fld w 26 6 = 0x03 → fits → fld w 12 10 = 0 → exec (.loopi n) s = .next (s.updRod n.val skipped)) ∧
      (fld w 26 6 = 0x08 → brCond (fld w 15 3) (r.l_ (fld w 22 4)) (r.l_ (fld w 18 4)) = false → exec (.br n) s = .next (s.updRod n.val Rod.advance)) ∧
      (fld w 26 6 = 0x08 → brCond (fld w 15 3) (r.l_ (fld w 22 4)) (r.l_ (fld w 18 4)) = true →
        let t := (r.pc.toNat : Int) + sgn 15 (fld w 0 15)
        (∀ q rest, r.stack = q :: rest → (q.first.toNat : Int) ≤ t ∧ t ≤ q.last.toNat) →
        exec (.br n) s = .next (s.updRod n.val fun r => { r with pc := BitVec.ofInt 16 t, prevPc := r.pc, seq := .ready })))) ∧
  (∀ (n : Fin 64) (w j : Nat) (rec_ : JobRec) (pl : Plan) (s : State), fetches s n.val w → fld w 26 6 = 0x10 → (s.rod n.val).job = some j →
      s.jobRec j = some rec_ → (s.rod n.val).unitsIdle 15 = true → s.pln.plan = some pl → pl.watchdogs = [] →
      (∀ k ∈ rec_.rods, k ≠ n.val → (s.jobRun j).exits.get k ≠ none) →
      ∃ t, exec (.halt n) s = .next t ∧ (t.jobRun j).state = .idle ∧ (t.jobRun j).runs = (s.jobRun j).runs + 1 ∧ (t.jobRun j).lastStatus = 0 ∧
        ∀ k, (t.rod k).job ≠ some j)

/-- WAIT, SIGNAL, FENCE, ALIGN, TILE_END and HALT (R104 to R111): each goes on when what it waits for is there, and waits otherwise; an ALIGN
whose target FRAME_TICK had passed when it first executes raises SEQ_ALIGN_LATE. -/
def Obligations.SequencerWaits : Prop :=
  ∀ (n : Fin 64) (w : Nat) (s : State), fetches s n.val w →
    let r := s.rod n.val
    let on : Out := .next (s.updRod n.val Rod.advance)
    (∀ t, fld w 26 6 = 0x09 → s.jobTally n.val w false = some t → atOrLater 32 (s.tly.values.get t).toNat (r.l_ (fld w 22 4)).toNat = true →
      exec (.wait n) s = on ∧ (r.seq = .waiting → exec (.waitSatisfied n) s = on)) ∧
    (∀ t, fld w 26 6 = 0x09 → s.jobTally n.val w false = some t → atOrLater 32 (s.tly.values.get t).toNat (r.l_ (fld w 22 4)).toNat = false →
      exec (.wait n) s = .next (s.updRod n.val fun r => { r with seq := .waiting, waitCounts := true })) ∧
    (∀ t j, fld w 26 6 = 0x0A → s.jobTally n.val w true = some t → r.job = some j → r.unitsIdle (fld w 14 4) = true →
      let v : Word := if fld w 22 4 = 0 then 1 else r.l_ (fld w 22 4)
      exec (.signal n) s = .next (((s.updJob j fun q => { q with signalled := q.signalled.upd t (· + v) }).signalTally t v).updRod n.val Rod.advance) ∧
        (s.signalTally t v) = { s with tly.ops := s.tly.ops ++ [{ tally := t, isSet := false, value := v, due := s.tick }] }) ∧
    (fld w 26 6 = 0x0B → r.unitsIdle (fld w 0 4) = true → exec (.fence n) s = on) ∧
    (fld w 26 6 = 0x0B → r.unitsIdle (fld w 0 4) = false → exec (.fence n) s = .next (s.updRod n.val fun r => { r with seq := .waiting, waitCounts := false })) ∧
    (∀ pl, fld w 26 6 = 0x0D → s.pln.plan = some pl →
      let t := (r.l_ (fld w 22 4) + BitVec.ofNat 32 (fld w 0 22)).toNat
      t < pl.frameTicks → (t = s.pln.frameTick → exec (.align n) s = on) ∧
        (s.pln.frameTick < t → exec (.align n) s = .next (s.updRod n.val fun r => { r with seq := .waiting, waitCounts := true, alignAt := some t })) ∧
        (t < s.pln.frameTick → exec (.align n) s = if r.alignAt = none then .next (s.rodFault n.val 0x0206).settle else on)) ∧
    (∀ j, fld w 26 6 = 0x0C → r.job = some j → r.unitsIdle 15 = true →
      exec (.tileEnd n) s = .next ((s.updRod n.val Rod.advance).updRod n.val fun r =>
        { r with tileTicks := 0, seq := if (s.jobRun j).preemptReq then .saving else .ready, state := if (s.jobRun j).preemptReq then 3 else r.state })) ∧
    (∀ j rec_, fld w 26 6 = 0x10 → r.job = some j → s.jobRec j = some rec_ → r.unitsIdle 15 = true →
      (∃ k ∈ rec_.rods, k ≠ n.val ∧ (s.jobRun j).exits.get k = none) →
      ∃ t, exec (.halt n) s = .next t ∧ (t.rod n.val).seq = .halted ∧ (t.rod n.val).job = some j ∧
        t.pln.jobs = s.pln.jobs.upd j (fun q => { q with exits := q.exits.set n.val (some (fld w 0 16)) }) ∧ t.mem = s.mem ∧ t.tly = s.tly)

/-- ISSUE puts its descriptor at the end of its unit's queue, with the two L registers as offsets of slots A and C (R97, R100); a SCAN whose
stream is resident on the rod marks the stream executing (R193), also where the ISSUE waited for it. -/
def Obligations.IssueQueuesTheDescriptor : Prop :=
  ∀ (n : Fin 64) (w : Nat) (s : State), fetches s n.val w → fld w 26 6 = 0x01 →
    let r := s.rod n.val
    let off := r.descBase.toNat + ((r.l_ (fld w 22 4)).toNat + fld w 0 14) * 128
    let d := s.rdN (spadAddr n.val off) 128
    let op := fld d 0 8
    let i : Issued := { op := op, ticks := fld d 32 32, off := off, la := (r.l_ (fld w 18 4)).toInt, lc := (r.l_ (fld w 14 4)).toInt }
    let queued := fun (s : State) => (s.count n.val 18 1).updRod n.val fun r =>
      { r with units := r.units.upd (unitOf op) fun q => { q with queue := q.queue ++ [i] } }.advance
    s.inJobRange n.val off 128 = true → 1 ≤ op → op ≤ 0x0B → fld d 32 32 ≠ 0 → off % 128 = 0 → (r.units.get (unitOf op)).queue.length < 4 →
    (op ≠ 0x09 → exec (.issue n) s = .next (queued s)) ∧
    (∀ j, op = 0x09 → r.job = some j →
      let t := s.stream (fld d 784 12)
      t.isOpen = true → t.part = s.jobPart j → t.resident = true → t.motion ≠ 1 → t.motion ≠ 2 → t.rod = n.val →
      let u := queued (s.updStream (fld d 784 12) fun t => { t with executing := true, job := some j })
      exec (.issue n) s = .next u ∧ (r.seq = .waiting → exec (.scanIssueResume n) s = .next u))

/-- TRAP and the two overruns raise their faults against the job of the rod (R96, R109, R110). -/
def Obligations.SequencerFaults : Prop :=
  (∀ (n : Fin 64) (w : Nat) (s : State), fetches s n.val w → fld w 26 6 = 0x11 →
    exec (.trap n) s = .next (s.rodFault n.val 0x0207 none (BitVec.ofNat 32 (fld w 0 16))).settle) ∧
  (∀ (n : Fin 64) (s : State), ((s.rod n.val).seq = .ready ∨ (s.rod n.val).seq = .waiting) → exec (.tileOverrun n) s = .next (s.rodFault n.val 0x0208).settle) ∧
  (∀ (n : Fin 64) (u : Fin 4) (s : State), ((s.rod n.val).units.get u.val).run.isSome = true → exec (.descOverrun n u) s = .next (s.rodFault n.val 0x020A).settle) ∧
  (∀ (n : Fin 64) (w : Nat) (s : State), (s.rod n.val).job.isSome = true → (s.rod n.val).follower n.val = false → (s.rod n.val).seq = .ready →
    (s.rod n.val).pc.toNat < (s.rod n.val).codeLen → (s.rod n.val).holds (s.rod n.val).codeWant = true → (s.rod n.val).codeWord = w → instrOk w = false →
    exec (.addi n) s = .next (s.rodFault n.val 0x0201).settle) ∧
  (∀ (n code j : Nat) (k : Option Nat) (d : Word) (s : State), (s.rod n).job = some j →
    (s.rodFault n code k d).saf.raised = s.saf.raised ++ [{ code := code, job := some j, rod := some n, detail := d }])

/-! ### Units -/

/-- Rod `n` with the descriptor at the front of the queue of the unit of `op` running. -/
def Sys2Proof.Claims.begun (s : State) (n op : Nat) (i : Issued) (rest : List Issued) : State :=
  s.updRod n fun r => { r with units := r.units.upd (unitOf op) fun q => { q with run := some i, queue := rest } }

/-- The unit of `op` on rod `n` has at the front of its queue an `op` whose descriptor, with the offsets issued, is `d` and passes every check of its setup
(R97, R120 to R126): fields, arrays, bounds and ranges; no word is marked bad, no rod's hardware fails, no fault waits, and trace is off. -/
abbrev Sys2Proof.Claims.setUp (s : State) (n op : Nat) (i : Issued) (rest : List Issued) (d : Desc) : Prop :=
  let q := (s.rod n).units.get (unitOf op)
  let s0 := begun s n op i rest
  let e := s0.descEnv n
  q.queue = i :: rest ∧ i.op = op ∧ q.run = none ∧ (s.rod n).job.isSome = true ∧ (s.rod n).follower n = false ∧
  s.errs.cells = [] ∧ (∀ c ∈ s.rods.cells, c.2.upset = {}) ∧ s.saf.raised = [] ∧ s.trc.state = .off ∧
  ({ Desc.ofNat (s.rdN (spadAddr n i.off) 128) with op := i.op, ticks := i.ticks } : Desc).shifted i = some d ∧ d.fails e = [] ∧
  (∀ a ∈ d.arrays (d.channels e) (d.statRecs e), a.1 % a.2.2 = 0 ∧ s0.mayHold n a.1 a.2.1 = true) ∧ d.outOfBounds e = false ∧
  s0.outOfRange n d e = false

/-- The state in which the unit carries its descriptor out: two bank accesses for the descriptor and for each record counted, and one for each line of its
per-channel arrays, its DESC_ID noted. -/
def Sys2Proof.Claims.ran (s : State) (n op : Nat) (i : Issued) (rest : List Issued) (d : Desc) : State :=
  let e := (begun s n op i rest).descEnv n
  let chs := (d.arrays (d.channels e) (d.statRecs e)).filter fun a => a.2.2 == 64
  (((begun s n op i rest).count n 18 (2 + 2 * d.recIdx.length)).updRod n fun r =>
    { r with units := r.units.upd (unitOf op) fun q => { q with id := d.id } }).count n 18
      ((chs.map fun a => if inSpads a.1 a.2.1 then linesOf a.1 a.2.1 else 0).foldl (· + ·) 0)

/-- Each of the eleven operations runs when its descriptor passes its setup, in its own unit, with the operands the descriptor names (R95, R97, R118
to R149, R186): the state that follows is the operation's own on the state in which the unit has started, on a locked pair carried out by both copies
(R80, R82). A move waits while its engine has no slot of its job in the window in force (R207). DESC_END (R96): the unit is free again, its descriptor
is counted, and an operation that left no fault to its end changes nothing else. -/
def Obligations.UnitsCarryOutTheirDescriptors : Prop :=
  (∀ (n : Fin 64) (i : Issued) (rest : List Issued) (d : Desc) (s : State),
      let env := fun op => (begun s n.val op i rest).descEnv n.val
      (setUp s n.val 1 i rest d → exec (.matmul n) s = .next ((ran s n.val 1 i rest d).lockstep n.val fun s => s.matmul n.val d (env 1)).settle) ∧
      (setUp s n.val 2 i rest d → exec (.conv n) s = .next ((ran s n.val 2 i rest d).lockstep n.val fun s => s.matmul n.val d (env 2)).settle) ∧
      (setUp s n.val 3 i rest d → exec (.elemwise n) s = .next ((ran s n.val 3 i rest d).lockstep n.val fun s => s.elemwise n.val d (env 3)).settle) ∧
      (setUp s n.val 4 i rest d → exec (.pool n) s = .next ((ran s n.val 4 i rest d).lockstep n.val fun s => s.poolUnit n.val d (env 4)).settle) ∧
      (setUp s n.val 5 i rest d → exec (.cropResize n) s = .next ((ran s n.val 5 i rest d).lockstep n.val fun s => s.cropResize n.val d (env 5)).settle) ∧
      (setUp s n.val 6 i rest d → exec (.chArgmax n) s = .next ((ran s n.val 6 i rest d).lockstep n.val fun s => s.chArgmax n.val d (env 6)).settle) ∧
      (setUp s n.val 7 i rest d → exec (.attnScore n) s = .next ((ran s n.val 7 i rest d).lockstep n.val fun s => s.attnScore n.val d (env 7)).settle) ∧
      (setUp s n.val 8 i rest d → exec (.attnMerge n) s = .next ((ran s n.val 8 i rest d).lockstep n.val fun s => s.attnMerge n.val d (env 8)).settle) ∧
      (setUp s n.val 9 i rest d → exec (.scan n) s = .next ((ran s n.val 9 i rest d).lockstep n.val fun s => s.scan n.val d (env 9)).settle) ∧
      (setUp s n.val 10 i rest d → exec (.convert n) s = .next ((ran s n.val 10 i rest d).lockstep n.val fun s => s.convert n.val d (env 10)).settle) ∧
      (setUp s n.val 11 i rest d → s.moveWaits n.val = false → exec (.dmaMove n) s = .next ((ran s n.val 11 i rest d).lockstep n.val fun s => s.dmaMove n.val d (env 11)).settle) ∧
      (s.moveWaits n.val = true → exec (.dmaMove n) s = .next s)) ∧
  (∀ (n : Fin 64) (u : Fin 4) (i : Issued) (s : State), ((s.rod n.val).units.get u.val).run = some i → ((s.rod n.val).units.get u.val).pins = [] →
      ((s.rod n.val).units.get u.val).atEnd = [] → s.trc.state = .off → s.saf.raised = [] →
      exec (.descEnd n u) s = .next ((s.count n.val (9 + u.val) 1).updRod n.val fun r =>
        { r with units := r.units.upd u.val fun q => { q with run := none, pins := [], atEnd := [], stats := [] } }))

/-! ### Rods in pairs -/

/-- Pairs (R75, R85 to R91): ROD_PAIR_CTL takes the firmware's request, which begins its hand-over once both rods are free; the lock hand-over
copies the leader's scratchpad to the follower and locks the pair, or fails the lock on an uncorrectable word, which is a fault of the job that was to
run locked (R89); the split hand-over leaves
the follower's scratchpad zero; CE_CLEAR empties ROD_CE_COUNT; a scrub gap rewrites corrected words. -/
def Obligations.PairCommandsComplete : Prop :=
  (∀ (n : Fin 64) (v : Word) (s : State), n.val % 2 = 0 →
    (v.toNat % 4 = 1 → (s.rod n.val).pairState = 0 → s.pairFree (n.val / 2) = false →
      exec (.rodPairCtlWrite .firmware n v) s = .next (s.updRod n.val fun r => { r with req := 1 })) ∧
    (v.toNat % 4 = 2 → (s.rod n.val).pairState = 2 → s.pairFree (n.val / 2) = false →
      exec (.rodPairCtlWrite .firmware n v) s = .next (s.updRod n.val fun r => { r with req := 2 })) ∧
    (v.toNat % 4 = 1 → (s.rod n.val).pairState = 0 → s.pairFree (n.val / 2) = true →
      ∃ t, exec (.rodPairCtlWrite .firmware n v) s = .next t ∧ (t.rod n.val).pairState = 1 ∧ (t.rod n.val).req = 1 ∧ (t.rod (n.val + 1)).state = 2 ∧
        t.mem = s.mem) ∧
    (v.toNat % 4 = 2 → (s.rod n.val).pairState = 2 → (s.rod n.val).again = false → s.pairFree (n.val / 2) = true →
      ∃ t, exec (.rodPairCtlWrite .firmware n v) s = .next t ∧ (t.rod n.val).pairState = 3 ∧ (t.rod n.val).req = 2 ∧ (t.rod (n.val + 1)).state = 2 ∧
        t.mem = s.mem)) ∧
  (∀ (p : Fin 32) (s : State), (s.rod (2 * p.val)).pairState = 1 → s.errs.cells = [] →
    ∃ t, exec (.lockHandover p) s = .next t ∧ (t.rod (2 * p.val)).pairState = 2 ∧ (t.rod (2 * p.val)).locked = true ∧
      (t.rod (2 * p.val + 1)).locked = true ∧
      (∀ o, o < spadSize → t.mem.get (spadAddr (2 * p.val + 1) o) = s.mem.get (spadAddr (2 * p.val) o)) ∧
      (∀ a, (a < spadAddr (2 * p.val + 1) 0 ∨ spadAddr (2 * p.val + 1) 0 + spadSize ≤ a) → t.mem.get a = s.mem.get a)) ∧
  (∀ (p : Fin 32) (s : State), (s.rod (2 * p.val)).pairState = 1 → s.errIn (spadAddr (2 * p.val) 0) spadSize = 2 →
    ∃ u : State, exec (.lockHandover p) s = .next u.settle ∧ (u.rod (2 * p.val)).pairState = 3 ∧ (u.rod (2 * p.val)).lockFailed = true ∧ u.mem = s.mem ∧
      u.saf.raised = s.saf.raised ++ (s.lockJob p.val).toList.map fun j => { code := 0x0103, job := some j, rod := some (2 * p.val) }) ∧
  (∀ (p : Fin 32) (s : State), (s.rod (2 * p.val)).pairState = 3 → (s.rod (2 * p.val)).again = false →
    ∃ t, exec (.splitHandover p) s = .next t ∧ t.pln = s.pln ∧
      (∀ o, o < spadSize → t.mem.get (spadAddr (2 * p.val + 1) o) = 0) ∧
      (∀ a, (a < spadAddr (2 * p.val + 1) 0 ∨ spadAddr (2 * p.val + 1) 0 + spadSize ≤ a) → t.mem.get a = s.mem.get a) ∧
      (t.rod (2 * p.val)).pairState = 0 ∧ (t.rod (2 * p.val)).req = 0) ∧
  (∀ (n : Fin 64) (s : State), exec (.ceClear .firmware n) s = .next (s.updRod n.val fun r => { r with ceCount := 0 })) ∧
  (∀ (b : Writer) (n : Fin 64) (s : State), b ≠ .firmware → exec (.ceClear b n) s = .next s) ∧
  (∀ (n : Fin 64) (s : State), ∃ t, exec (.scrubGap n) s = .next t ∧ t.mem = s.mem ∧ t.rods = s.rods ∧
    ∀ c, c ∈ t.errs.cells ↔ c ∈ s.errs.cells ∧ ¬ (c.2 = 1 ∧ spadAddr n.val 0 ≤ c.1 * 4 ∧ c.1 * 4 < spadAddr n.val 0 + spadSize))

/-! ### Page keeper -/

/-- The keeper of partition `p` has nothing to do, it serves the partition in the window in force (R207), and the supervisor runs. -/
abbrev Sys2Proof.Claims.keeperFree (s : State) (p : Nat) : Prop :=
  s.saf.supHalted = false ∧ s.pgk.runs.get p = none ∧ s.pgk.queues.get p = [] ∧ s.engineServes 23 p none = true

/-- A host command `op` of `h` has run to its result in the keeper: status, DETAIL, the two result words and the extended result. -/
def Sys2Proof.Claims.kvRan (t : State) (h : Hdr) (op : Nat) (x : BitVec 384) (res : Nat × Nat × Nat × Nat) (ext : Option (List Byte)) : Prop :=
  ∃ r, t.pgk.runs.get h.fn.val = some r ∧ r.cmd = { from_ := .host (some h), op := op, params := x, came := t.tick } ∧ r.res = some res ∧ r.ext = ext ∧ r.waiting = false

/-- Sequence commands of a free keeper whose checks pass (R163 to R168, R179): OPEN reserves and opens with the next generation, FORK shares
the pages of its prefix, CLOSE gives the reservation back, the queries answer the sequence's 32 bytes and the pool's four counts; an APPEND
runs until every token is written or waits for a page, and one past MAX_LEN of a sliding sequence completes with KV_LIMIT (R165; where it drops no block
the spec names no DETAIL, log entry 100). -/
def Obligations.KeeperSequencesComplete : Prop :=
  ∀ (h : Hdr) (x : BitVec 384) (k : KvPool) (s : State),
    let p := h.fn.val
    let n := par x.toNat 0 12
    let mine := k.hasSeq n = true
    keeperFree s p → s.pool p = some k →
    (let policy := par x.toNat 2 8; let maxLen := par x.toNat 4 32; let base := par x.toNat 8 32;
      mine → lenOk k policy maxLen base = true → (s.seq n).isOpen = false → s.poolResv p + resvOf (policy == 1) maxLen ≤ k.pageCount →
      ∃ t, exec (.kvSeqOpen h x) s = .next t ∧ kvRan t h 0x4001 x (0, 0, ((s.seq n).gen + 1).toNat, 0) none ∧
        t.pgk.seqs = s.pgk.seqs.set n { isOpen := true, sliding := policy == 1, part := p, gen := (s.seq n).gen + 1, len := 0, tokBase := base, qposLast := BitVec.ofInt 32 ((base : Int) - 1), maxLen := maxLen, resv := resvOf (policy == 1) maxLen } ∧ t.mem = s.mem) ∧
    (let policy := par x.toNat 2 8; let maxLen := par x.toNat 4 32; let m := par x.toNat 8 12; let pre := par x.toNat 12 32; let q := s.seq m;
      mine → k.hasSeq m = true → lenOk k policy maxLen q.tokBase = true → pre ≤ maxLen → (s.seq n).isOpen = false → q.isOpen = true →
      q.gen.toNat = par x.toNat 10 16 → pre ≤ q.len → q.first = 0 → s.poolResv p + resvOf (policy == 1) maxLen ≤ k.pageCount →
      ∃ t, exec (.kvSeqFork h x) s = .next t ∧ kvRan t h 0x4002 x (0, 0, ((s.seq n).gen + 1).toNat, 0) none ∧ (t.seq n).len = pre ∧
        (∀ g, (t.pgk.pages.get g).refs = (s.pgk.pages.get g).refs + ((List.range (cdiv pre 64)).filter fun b => s.pageOf k m b == some g).length) ∧
        t.mem = s.mem) ∧
    (mine → (s.seq n).isOpen = true → (s.seq n).gen.toNat = par x.toNat 2 16 →
      ∃ t c, exec (.kvSeqClose h x) s = .next t ∧ kvRan t h 0x4004 x (0, 0, c, 0) none ∧
        t.pgk.seqs = s.pgk.seqs.upd n (fun q => { q with isOpen := false, resv := 0 }) ∧ t.mem = s.mem) ∧
    (mine → (s.seq n).isOpen = true → ∃ t, exec (.kvSeqQuery h x) s = .next t ∧ kvRan t h 0x4005 x (0, 0, 0, 0) (some (s.seq n).bytes) ∧ t.pgk.seqs = s.pgk.seqs) ∧
    (∀ k', par x.toNat 0 8 ≤ 15 → s.pool (par x.toNat 0 8) = some k' → ∃ t, exec (.kvPoolQuery h x) s = .next t ∧ kvRan t h 0x4006 x (0, 0, 0, 0)
      (some ([s.poolFree k', s.poolResv (par x.toNat 0 8), s.poolUnowned k', (s.pgk.pools.get (par x.toNat 0 8)).waits.toNat].flatMap (leBytes 4))) ∧ t.pgk.pools = s.pgk.pools) ∧
    (let at_ := par x.toNat 4 32; let count := par x.toNat 8 16; let src := par x.toNat 16 64; let stride := par x.toNat 24 32; let q := s.seq n;
      mine → within 1 64 count = true → (∀ j < count, s.partAll p (src + j * stride) (k.planes * k.planeRow) = true) → k.planes * k.planeRow ≤ stride →
      stride % 64 = 0 → q.isOpen = true → q.gen.toNat = par x.toNat 2 16 → q.guest = false → at_ ≤ q.len → q.exhausted = false →
      (q.sliding = true ∨ at_ + count ≤ q.maxLen) →
      let c : KvCmd := { from_ := .host (some h), op := 0x4003, params := x, came := s.tick };
      let u : State := { s with pgk.queues := (s.pgk.queues.upd p c.joins).set p [] };
      let limit := decide (q.maxLen < at_ + count) && decide (q.len < at_ + count);
      let r := u.appendRun k n at_ src stride none count { cmd := c, started := true, limit := limit };
      ∃ t, exec (.kvAppend h x) s = .next t ∧ t.pgk.seqs = r.2.pgk.seqs ∧ t.pgk.pages = r.2.pgk.pages ∧ t.mem = r.2.mem ∧
        (r.1.waiting = true → t.pgk.runs.get p = some r.1) ∧
        (r.1.waiting = false → (limit = true → r.1.dropped ≠ none) →
          kvRan t h 0x4003 x (if r.1.dropped.isSome then 0x4005 else 0, r.1.dropped.getD 0, (r.2.seq n).len, r.1.taken) none) ∧
        (r.1.waiting = false → limit = true → r.1.dropped = none →
          kvRan t h 0x4003 x (0x4005, (Config.free 32 r.2.free).toNat, (r.2.seq n).len, r.1.taken) none))

/-- Rings of devices in a free keeper whose checks pass (R172 to R177): OPEN binds the two guests, STEP pins and sends the held shard, a
partial send leaves the pages alone, CLOSE frees the guests; what arrives for an open context is admitted, and in the next tick fills the guest, or is
stored (R235). -/
def Obligations.KeeperRingsComplete : Prop :=
  (∀ (h : Hdr) (x : BitVec 384) (k : KvPool) (s : State),
    let p := h.fn.val
    let g := par x.toNat 0 8
    keeperFree s p → s.pool p = some k → g ≤ 15 →
    (let c := ringOf p x.toNat;
      within 2 64 c.n = true → c.pos < c.n → within 1 16383 c.eastNode = true → within 1 16383 c.westNode = true →
      k.hasSeq c.home = true → k.hasSeq c.guest0 = true → k.hasSeq c.guest1 = true → s.tallyOwner c.arrive = some p → s.tallyOwner c.sent = some p →
      c.recvBase % 64 = 0 → c.recvStride % 64 = 0 → s.partAll p c.recvBase (max 64 (64 * c.recvStride)) = true → (s.ring g).state = 0 →
      (s.seq c.home).isOpen = true → c.guest0 ≠ c.guest1 → s.guestOk c c.guest0 = true → s.guestOk c c.guest1 = true →
      ∃ t, exec (.kvRingOpen h x) s = .next t ∧ kvRan t h 0x4007 x (0, 0, 0, 0) none ∧ t.ring g = c ∧ (t.seq c.guest0).guest = true ∧
        (t.seq c.guest1).guest = true ∧ t.mem = s.mem) ∧
    (let c := s.ring g; let m := par x.toNat 1 8; let n := c.shardSeq m;
      s.errs.cells = [] → c.state = 1 → c.part = p → c.sending = none → m = nextStep c.n c.lastSent → (m = 1 ∨ c.lastArrived = m - 1 ∨ c.lastArrived = m) →
      (s.seq n).isOpen = true → s.portUp c.east = true →
      ∃ t, exec (.kvRingStep h x) s = .next t ∧ kvRan t h 0x4008 x (0, 0, 0, 0) none ∧ (t.ring g).sending = some (m, n, s.heldPages k n) ∧
        t.mem = s.mem ∧ t.pgk.seqs = s.pgk.seqs) ∧
    (let c := s.ring g; let src := par x.toNat 8 64; let lines := par x.toNat 16 32;
      s.errs.cells = [] → par x.toNat 1 8 ≤ 63 → par x.toNat 2 8 ≤ 1 → s.partAll p src (64 * lines) = true → lines ≠ 0 → c.state = 1 → c.part = p →
      s.portUp (if par x.toNat 2 8 = 0 then c.east else c.west) = true →
      ∃ t, exec (.kvPartialSend h x) s = .next t ∧ kvRan t h 0x4009 x (0, 0, 0, 0) none ∧ t.mem = s.mem ∧ t.pgk.rings = s.pgk.rings) ∧
    ((s.ring g).state ≠ 0 → (s.ring g).part = p →
      ∃ t, exec (.kvRingClose h x) s = .next t ∧ kvRan t h 0x400A x (0, 0, 0, 0) none ∧ t.pgk.rings = s.pgk.rings.set g {} ∧ t.mem = s.mem)) ∧
  (∀ (g : Fin 16) (m n : Nat) (pages : List Nat) (s : State), (s.ring g.val).state = 1 → (s.ring g.val).sending = some (m, n, pages) →
    (s.port (s.ring g.val).east).txq.all (fun f => f.vc != 1) = true →
    ∃ t, exec (.ringSendDone g) s = .next t ∧ (t.ring g.val).sending = none ∧ (t.ring g.val).lastSent = m ∧ t.mem = s.mem ∧
      t.tly.ops = s.tly.ops ++ [{ tally := (s.ring g.val).sent, isSet := false, value := 1, due := s.tick }]) ∧
  (∀ (g : Fin 16) (p : Fin 2) (i : Nat) (m : Msg) (s u : State), (p = 1 → s.ringMsg 2 g.val 0 = none) → s.ringMsg 2 g.val p.val = some (i, m) → s.jrn.r.running = false → s.jrn.j.isOpen = false →
    (s.ring g.val).state = 1 → (s.ring g.val).west = p.val → s.landingAt g.val = false →
    (s.dropMsg p.val i m).shardIn g.val m.payload = some u → (u.ring g.val).state = 1 →
    exec (.ringArrival g) s = .next ((s.dropMsg p.val i m).admitRing g.val 2 m.payload)) ∧
  (∀ (g : Fin 16) (p : Fin 2) (i : Nat) (m : Msg) (s : State), (p = 1 → s.ringMsg 3 g.val 0 = none) → s.ringMsg 3 g.val p.val = some (i, m) → s.jrn.r.running = false → s.jrn.j.isOpen = false →
    (s.ring g.val).state = 1 → s.landingAt g.val = false → (((s.dropMsg p.val i m).partialIn g.val m.payload).ring g.val).state = 1 →
    exec (.partialArrival g) s = .next ((s.dropMsg p.val i m).admitRing g.val 3 m.payload)) ∧
  (∀ (x : Landing) (s u : State), (s.ring x.ring).state = 1 → x.kind = 2 → s.shardIn x.ring x.payload = some u →
    s.landOne x = { u with pgk.landing := u.pgk.landing.filter fun y => y.ring != x.ring }) ∧
  (∀ (x : Landing) (s : State), (s.ring x.ring).state = 1 → x.kind = 3 →
    let u := s.partialIn x.ring x.payload
    s.landOne x = { u with pgk.landing := u.pgk.landing.filter fun y => y.ring != x.ring }) ∧
  (∀ (x : Landing) (s : State), s.pgk.landing = [x] → s.land = if x.at_ < s.tick then s.landOne x else s)

/-- The keeper's other events (R163, R171, R178, R181): a job's line at its partition's port posts a command, a completed command replies and leaves
the keeper free, an append that waits goes on, and an error of a keeper table sets TABLE_UE and raises its fault. One token of an append (R163, R164):
into the page that the sequence alone holds for its block, its rows go to the token's row in every plane, and LEN grows to cover it; with an empty
free list and no page for the block the append waits and changes no page. -/
def Obligations.KeeperEventsComplete : Prop :=
  ((∀ (n : Fin 64) (port : Fin 16) (data : List Byte) (j : Nat) (r : JobRec) (s : State), (s.rods.get n.val).job = some j → s.jobRec j = some r →
      r.part = port.val → data.length = 64 →
      let w := leNat data
      let x := w / 2 ^ 128
      exec (.kvJobPortRequest n port data) s = .next (s.kvPost port.val
        { from_ := .job j (BitVec.ofNat 12 (fld w 32 12)) (BitVec.ofNat 32 (fld w 64 32)) (par x 32 64) (par x 40 16), op := fld w 0 16,
          params := BitVec.ofNat 384 x, bad := (portRefusal w).map fun r => (r.status, r.detail) }).settle) ∧
    (∀ (p : Fin 16) (r : KvRun) (h : Hdr) (st d a b : Nat) (s : State), s.pgk.runs.get p.val = some r → r.cmd.from_ = .host (some h) → r.cmd.op < 0x4020 →
      r.res = some (st, d, a, b) → r.ext = none → s.pgk.queues.get p.val = [] → s.saf.raised = [] →
      exec (.kvCommandDone p) s =
        .next { s.reply h { status := st, detail := d, r0 := a, r1 := b } with pgk.runs := s.pgk.runs.set p.val none }) ∧
    (∀ (p : Fin 16) (r : KvRun) (s : State), s.pgk.runs.get p.val = some r → r.waiting = true →
      exec (.pageTakeResume p) s = .next { (s.kvAppend p.val r).2 with pgk.runs := (s.kvAppend p.val r).2.pgk.runs.set p.val (some (s.kvAppend p.val r).1) }) ∧
    (∀ s : State, exec .kvTableUe s = .next ({ s with pgk.tableUe := true }.raiseDev 0x0305).settle)) ∧
  (∀ (k : KvPool) (n src stride g : Nat) (job : Option Nat) (r : KvRun) (s : State),
      let q := s.seq n
      (q.len % 64 ≠ 0 → q.first ≤ q.len / 64 → s.pageOf k n (q.len / 64) = some g → (s.pgk.pages.get g).refs ≤ 1 → r.at_ = 0 →
        s.appendRun k n q.len src stride job 1 r =
          ({ r with at_ := 1, waiting := false },
            (s.writeToken k g (q.len % 64) src job).updSeq n fun q => { q with len := q.len + 1, qposLast := BitVec.ofInt 32 (q.tokBase + q.len : Int) })) ∧
      (q.sliding = false → q.len % 64 = 0 → (s.pgk.pools.get k.part).next = k.pageCount → (s.pgk.pools.get k.part).back = [] → r.at_ = 0 → r.waiting = true →
        s.appendRun k n q.len src stride job 1 r = (r, s)))

/-! ### Carry records -/

/-- Carry commands of a free keeper whose checks pass, while no hand-over holds a scratchpad (R190 to R197): OPEN writes a new record at the stream's
home, CLOSE keeps only the generation, RESET fills the active bank with INIT, QUERY answers the entry, EXPORT copies the record, IMPORT takes one, and
a swap moves the record when its last slot is done, a swap-in with a signal on the residency tally. The last slot of a swap (R194, R195): residency
changes and the stream stands still; a swap-in adds 1 to the residency tally. -/
def Obligations.CarryCommandsComplete : Prop :=
  (∀ (h : Hdr) (x : BitVec 384) (k : CarryDecl) (s : State),
      let p := h.fn.val
      let n := par x.toNat 0 16
      let t0 := s.stream n
      let named := t0.isOpen = true ∧ t0.gen.toNat = par x.toNat 2 16 ∧ t0.executing = false
      keeperFree s p → s.carryDecl p = some k → k.has n = true → s.errs.cells = [] → (∀ a m, s.heldRod a m = none) →
      (let w := par x.toNat 2 16;
        widthOk k.maxWidth w = true → par x.toNat 4 8 = 0 → s.partTally p (par x.toNat 6 16) = true → t0.isOpen = false →
        ∃ t, exec (.carryOpen h x) s = .next t ∧ kvRan t h 0x4020 x (0, 0, (t0.gen + 1).toNat, 0) none ∧
          t.stream n = { isOpen := true, motion := 3, part := p, gen := t0.gen + 1, width := w, resTally := par x.toNat 6 16 } ∧
          t.mem = (s.wr (k.home n) ((t.stream n).header n ++ List.replicate (12 * w) 0)).mem) ∧
      (named → ∃ t, exec (.carryClose h x) s = .next t ∧ kvRan t h 0x4021 x (0, 0, 0, 0) none ∧
        t.cry.streams = s.cry.streams.set n { t0 with isOpen := false, resident := false } ∧ t.mem = s.mem) ∧
      (t0.isOpen = true → t0.gen.toNat = par x.toNat 2 16 → t0.resident = true → t0.executing = false →
        ∃ t, exec (.carrySwapOut h x) s = .next t ∧ (t.stream n).motion = 2 ∧ (∃ r, t.pgk.runs.get p = some r ∧ r.res = none) ∧ t.mem = s.mem) ∧
      (let rod := par x.toNat 4 8; let off := par x.toNat 8 32;
        named → t0.resident = false → s.slotOk k rod off (recordBytes t0.width) = true → s.slotTaken rod off (recordBytes t0.width) = false →
        ∃ t, exec (.carrySwapIn h x) s = .next t ∧ (t.stream n).motion = 1 ∧ (t.stream n).rod = rod ∧ (t.stream n).slot = off ∧ t.mem = s.mem) ∧
      (named →
        let init := s.rd (s.recordAt k n + 64 + 8 * t0.width) (4 * t0.width)
        ∃ t, exec (.carryReset h x) s = .next t ∧ kvRan t h 0x4024 x (0, 0, 0, 0) none ∧ (t.stream n).lastReset = t0.stepsDone.setWidth 32 ∧
          (t0.width ≤ 5440 →
            t.rd (s.recordAt k n + 64 + (if t0.active then 4 * t0.width else 0)) (4 * t0.width) = init)) ∧
      (t0.isOpen = true → ∃ t, exec (.carryQuery h x) s = .next t ∧ kvRan t h 0x4025 x (0, 0, 0, 0) (some t0.bytes) ∧ t.cry = s.cry) ∧
      (let d := par x.toNat 8 64;
        named → lineAligned d = true → s.partAll p d (recordBytes t0.width) = true →
        ∃ t, exec (.carryExport h x) s = .next t ∧ kvRan t h 0x4026 x (0, 0, 0, 0) none ∧ t.cry = s.cry ∧
          t.mem = (s.wrBoth d (t0.header n ++ s.rd (s.recordAt k n + 64) (12 * t0.width))).mem) ∧
      (let d := par x.toNat 8 64; let g := s.rdN d 64;
        named → lineAligned d = true → s.partAll p d (recordBytes t0.width) = true → fld g 0 12 = n → fld g 32 16 = t0.width → fld g 12 4 = 0 →
        fld g 49 15 = 0 → fld g 192 320 = 0 →
        ∃ t, exec (.carryImport h x) s = .next t ∧ kvRan t h 0x4027 x (0, 0, 0, 0) none ∧ (t.stream n).active = bit g 48 ∧
          (t.stream n).stepsDone.toNat = fld g 64 64 ∧ (t.stream n).chunks.toNat = fld g 128 32 ∧ (t.stream n).lastReset.toNat = fld g 160 32)) ∧
  (∀ (n : BitVec 12) (r : KvRun) (k : CarryDecl) (s : State),
      let t0 := s.stream n.toNat
      s.pgk.runs.get t0.part = some r → r.res = none → par r.cmd.params.toNat 0 16 = n.toNat → s.carryDecl t0.part = some k → s.errs.cells = [] →
      (∀ a m, s.heldRod a m = none) → t0.isOpen = true →
      (r.cmd.op = 0x4023 → t0.motion = 1 → ∃ t, exec (.carrySwapDone n) s = .next t ∧ (t.stream n.toNat).resident = true ∧ (t.stream n.toNat).motion = 0 ∧
        t.tly.ops = s.tly.ops ++ [{ tally := t0.resTally, isSet := false, value := 1, due := s.tick }] ∧
        t.mem = (s.wrBoth (spadAddr t0.rod t0.slot) (s.rd (k.home n.toNat) (recordBytes t0.width))).mem) ∧
      (r.cmd.op = 0x4022 → t0.motion = 2 → ∃ t, exec (.carrySwapDone n) s = .next t ∧ (t.stream n.toNat).resident = false ∧ (t.stream n.toNat).motion = 0 ∧
        t.tly = s.tly ∧ t.mem = (s.wr (k.home n.toNat) (t0.header n.toNat ++ s.rd (spadAddr t0.rod t0.slot + 64) (12 * t0.width))).mem))

/-! ### Journal, replay and crossings -/

/-- Journal and replay commands of PF0 (R242, R246, R251): with the plan LOADED, JOURNAL_OPEN opens while no replay is armed, and REPLAY_OPEN arms
while no journal is open, on an enabled journal ring and a data area in the aperture; JOURNAL_CLOSE lets the next tick's STOP record end the journal,
REPLAY_CLOSE ends a replay that does not run; CROSSING_QUERY answers the late count and a margin that never grows, and refuses an instance that is not
there (which instances are there: log entry 19). Journal and replay events (R240, R245, R247, R249): a late crossing counts at its monitor and raises
its fault; the GAP record clears the losses it covers; the record read ahead earliest is applied at its recorded frame and tick, in the order of R15
across FRAME's wrap (R519), one of KIND 0x09 or 0x08 stops the replay and the plan, one whose tick has passed stops it as late, one that fails a check
stops it with REPLAY_RECORD. -/
def Obligations.JournalCompletes : Prop :=
  ((∀ (h : Hdr) (ring : BitVec 16) (base bytes : BitVec 64) (s : State), pf0 s h → s.isJournalRing ring.toNat = true → areaOk base.toNat bytes.toNat = true →
      s.pln.state = .loaded →
      (s.jrn.r.armed = false → s.jrn.j.closing = false → exec (.journalOpen h ring base bytes) s =
        .next ({ s with jrn.j := { isOpen := true, ring := s.devRing 0 ring.toNat, base := base.toNat, bytes := bytes.toNat } }.reply h {})) ∧
      (s.jrn.j.isOpen = false ∨ s.jrn.j.closing = true → exec (.replayOpen h ring base bytes) s =
        .next ({ s with jrn.r := { armed := true, ring := s.devRing 0 ring.toNat, base := base.toNat, bytes := bytes.toNat } }.reply h {}))) ∧
    (∀ (h : Hdr) (s : State), pf0 s h → s.jrn.j.isOpen = true → s.jrn.j.closing = false → exec (.journalClose h) s = .next ({ s with jrn.j.closing := true }.reply h {})) ∧
    (∀ s : State, s.jrn.j.closing = true → s.journalEnd = { ({ s with jrn.j.started := true }.journalStop) with jrn.j := {} }) ∧
    (∀ (h : Hdr) (s : State), pf0 s h → s.jrn.r.armed = true → s.pln.state ≠ .running → exec (.replayClose h) s = .next ({ s with jrn.r := {} }.reply h {})) ∧
    (∀ (h : Hdr) (kind inst : Byte) (s : State), pf0 s h →
      (crossInstances kind.toNat ≤ inst.toNat → exec (.crossingQuery h kind inst) s = .next (s.reply h { status := 0x0046 })) ∧
      (inst.toNat < crossInstances kind.toNat →
        let k := kind.toNat * 256 + inst.toNat
        let c := s.jrn.cross.get k
        ∃ m, (c.seen = true → m ≤ c.margin) ∧ exec (.crossingQuery h kind inst) s = .next
          ({ s with free := s.free + 1, jrn.cross := s.jrn.cross.set k { c with seen := true, margin := m } }.reply h { r0 := m, r1 := c.late.toNat })))) ∧
  ((∀ (kind inst : Byte) (j : BitVec 10) (s : State), exec (.crossingLate kind inst (some j) none) s =
      .next ({ s with jrn.cross := s.jrn.cross.upd (kind.toNat * 256 + inst.toNat) fun c => { c with late := satInc c.late } }.raise
        { code := 0x0402, job := some j.toNat, detail := BitVec.ofNat 32 (kind.toNat + 256 * inst.toNat) }).settle) ∧
    (∀ s : State, s.jrn.j.isOpen = true → s.jrn.j.lost ≠ 0 → s.journalRoom (min s.jrn.j.lostBytes s.jrn.j.bytes) = true →
      ∃ t, exec .journalGapRecord s = .next t ∧ t.jrn.j.lost = 0 ∧ t.jrn.j.jseq = s.jrn.j.jseq + 1) ∧
    (∀ (s t : State) (a : Ahead) (rest : List Ahead), s.jrn.r.running = true → s.readAhead = (false, t) → t.jrn.r.ahead = a :: rest →
      let kind := fld a.rec_ 0 8
      (t.tickOf a.rec_ < 0 → exec .replayAdmit s = .next t) ∧
      (0 ≤ t.tickOf a.rec_ → kind = 9 → exec .replayAdmit s = .next (t.replayStop 0).settle) ∧
      (0 ≤ t.tickOf a.rec_ → kind = 8 → exec .replayAdmit s = .next (t.replayStop 0x0045).settle) ∧
      (kind ≠ 8 → kind ≠ 9 → 0 < t.tickOf a.rec_ → exec .replayAdmit s = .next (t.replayStop 0x0043).settle) ∧
      (kind ≠ 8 → kind ≠ 9 → t.tickOf a.rec_ = 0 → exec .replayAdmit s = .next ({ t with jrn.r.ahead := rest }.replayApply a).settle)) ∧
    (∀ s t : State, s.jrn.r.running = true → s.readAhead = (true, t) → exec .replayAdmit s = .next (t.replayStop 0x0044).settle) ∧
    (∀ (x : Nat) (s : State), s.jrn.r.ahead.length < 64 → s.replayHead = some x → fld x 0 8 ≠ 2 → fld x 0 8 ≠ 7 → recordReserved x = false →
      within 2 9 (fld x 0 8) = true → fld x 32 32 = s.jrn.r.jseq.toNat → fld x 160 32 = 0 →
      s.readAhead = (false, { s.replayTake with jrn.r.ahead := s.jrn.r.ahead ++ [{ rec_ := x, data := [], slot := none }] })) ∧
    (∀ (a : Ahead) (s : State), let x := a.rec_; let t := s.replayApply a
      (fld x 0 8 = 5 → t = s.updJob (fld x 256 16) fun q => { q with requested := true, requestedAt := s.tick }) ∧
      (fld x 0 8 = 4 → t.tly.ops = s.tly.ops ++ [{ tally := fld x 256 14, isSet := fld x 270 2 == 1, value := BitVec.ofNat 32 (fld x 288 32), due := s.tick + 1 }]) ∧
      (fld x 0 8 = 3 → (t.point (fld x 8 8)).arrivals =
        (s.point (fld x 8 8)).arrivals ++ [{ slot := none, seq := fld x 128 32, reason := fld x 256 16, at_ := s.tick }])))

/-! ### Sensor intake -/

/-- Intake commands whose checks pass (R291 to R293, R309, R310, R316): a port is configured, a stream's descriptor is stored with its counters
zero, a stream is enabled and disabled, a record joins its stream's queue with the next sequence number, and a point's entry is answered. -/
def Obligations.IntakeCommandsComplete : Prop :=
  (∀ (h : Hdr) (port phy lanes : Byte) (rate : BitVec 16) (s : State), pf0 s h → port.toNat ≤ 15 →
    (phy = 0 ∧ (lanes = 1 ∨ lanes = 2 ∨ lanes = 4) ∧ within 80 4500 rate.toNat = true ∨ phy = 1 ∧ within 1 3 lanes.toNat = true ∧ within 80 6000 rate.toNat = true) →
    (s.streamsOn fun q => camPort q.desc.toNat == port.toNat) = [] →
    exec (.portConfig h port phy lanes rate) s =
      .next ({ s with sns.ports := s.sns.ports.upd port.toNat fun q => { q with phy := phy == 1, lanes := lanes.setWidth 3, rate := rate } }.reply h {})) ∧
  (∀ (h : Hdr) (p : Byte) (d : BitVec 2048) (s : State), pf0 s h → (s.point p.toNat).enabled = false → s.binding p.toNat = none →
    let done : Out := .next ((s.updPoint p.toNat fun q => { q.zeroCounts with configured := true, desc := d }).reply h {})
    (p.toNat ≤ 31 → (∀ c ∈ s.cameraChecks d.toNat, c.1 = false) → exec (.streamConfig h p d) s = done) ∧
    (within 32 63 p.toNat = true → (∀ c ∈ s.recordChecks d.toNat, c.1 = false) → exec (.recordConfig h p d) s = done)) ∧
  (∀ (h : Hdr) (p : Byte) (s : State), pf0 s h → p.toNat ≤ 63 → (s.point p.toNat).configured = true →
    ((s.point p.toNat).enabled = true → (32 ≤ p.toNat ∨ (s.sns.ports.get (camPort (s.point p.toNat).desc.toNat)).lanes ≠ 0) → exec (.streamEnable h p) s = .next (s.reply h {})) ∧
    ((s.point p.toNat).enabled = false → 32 ≤ p.toNat → exec (.streamEnable h p) s =
      .next ((s.updPoint p.toNat fun q => { q with enabled := true, lastStart := none, embCnt := none, skips := 0, injDue := false }).reply h {})) ∧
    (let d := (s.point p.toNat).desc.toNat;
      (s.point p.toNat).enabled = false → p.toNat < 32 → (s.sns.ports.get (camPort d)).lanes ≠ 0 →
      s.rateOver (p.toNat :: s.streamsOn fun o => camPort o.desc.toNat == camPort d) 18000 = false → s.rateOver (p.toNat :: s.streamsOn fun _ => true) 288000 = false →
      exec (.streamEnable h p) s =
        .next ((s.updPoint p.toNat fun q => { q with enabled := true, lastStart := none, embCnt := none, skips := 0, injDue := false }).reply h {}))) ∧
  (∀ (h : Hdr) (p : Byte) (s : State), pf0 s h → p.toNat ≤ 63 →
    exec (.streamDisable h p) s = .next (((s.dropFrame p.toNat 1).updPoint p.toNat fun q => { q with enabled := false, queue := [], injDue := false }).reply h {})) ∧
  (∀ (h : Hdr) (p : Byte) (a : BitVec 64) (n : Word) (s : State), s.saf.supHalted = false → within 32 63 p.toNat = true →
    (h.fn = 0 ∨ s.pointPart p.toNat = h.fn.val) → s.snsAddr (s.pointPart p.toNat) a.toNat n.toNat = true → (s.point p.toNat).enabled = true →
    (∀ t, (s.point p.toNat).lastSubmit = some t → fld (s.point p.toNat).desc.toNat 160 32 * 1000 ≤ (s.now - t).toNat) → (s.point p.toNat).queue.length < 16 →
    let seq := (s.point p.toNat).srcSeq + 1
    exec (.recordSubmit h p a n) s = .next ((s.updPoint p.toNat fun q =>
      { q with srcSeq := seq, lastSubmit := some s.now, queue := q.queue ++ [{ addr := a.toNat, bytes := n.toNat, seq := seq.toNat }] }).reply h { r0 := seq.toNat })) ∧
  (∀ (h : Hdr) (p clear : Byte) (s : State), area s h → p.toNat ≤ 63 → (h.fn = 0 ∨ s.pointPart p.toNat = h.fn.val) → clear.toNat ≤ 1 →
    exec (.streamQuery h p clear) s = .next ((if clear = 1 then s.updPoint p.toNat Point.zeroCounts else s).reply h { ext := some (leBytes 64 (s.pointEntry p.toNat)) }))

/-- A camera port's packets (R290, R294 to R297, R305, R308): the frame start, lines and frame end of one enabled stream go to that stream; a packet
of no stream is counted as discarded; a due pattern is injected; a region list is taken from a job of the stream's partition, for the frames that
start in a later tick (R306). Inputs become admitted in order (R234, R298, R310 to R315): the oldest waiting input of a live point is admitted, one in
a tick; a record leaves its queue for the lowest free slot and a decoder; its decoded form is written and released; one past its budget is given up
with a marker. -/
def Obligations.CameraCompletes : Prop :=
  ((∀ (port : Fin 16) (vc : BitVec 2) (num : BitVec 16) (s : State), (s.sns.ports.get port.val).lanes ≠ 0 →
      let t := (s.noteEcc port.val 0).abandonInjection port.val
      (∀ p, t.streamsAt port.val vc.toNat = [p] → exec (.csiFrameStart port vc num 0) s = .next (t.frameStart p num.toNat).settle) ∧
      (t.streamsAt port.val vc.toNat = [] → exec (.csiFrameStart port vc num 0) s = .next (t.discardPkt port.val false).settle)) ∧
    (∀ (port : Fin 16) (k : CsiPkt) (p : Nat) (s : State), (s.sns.ports.get port.val).lanes ≠ 0 → k.ecc = 0 → k.vc.toNat ≤ 3 → dtBits k.dt.toNat ≠ 0 →
      let t := s.noteEcc port.val 0
      ((t.streamsAt port.val k.vc.toNat).filter fun p => camDt (t.point p).desc.toNat == k.dt.toNat) = [p] →
      exec (.csiLine port k) s = .next (t.lineIn p k.data k.crcOk)) ∧
    (∀ (port : Fin 16) (vc : BitVec 2) (p : Nat) (s : State), (s.sns.ports.get port.val).lanes ≠ 0 → (s.noteEcc port.val 0).streamsAt port.val vc.toNat = [p] →
      exec (.csiFrameEnd port vc 0) s = .next ((s.noteEcc port.val 0).frameEnd p).settle) ∧
    (∀ (port : Fin 16) (p : Nat) (s : State), (s.streamsOn fun q => camPort q.desc.toNat == port.val) = [p] → (s.point p).frame = none → (s.point p).injDue = true →
      exec (.patternInjection port) s = .next (s.inject p).settle) ∧
    (∀ (port : Fin 16) (b : Bool) (s : State), (s.sns.ports.get port.val).lanes ≠ 0 →
      exec (.csiPhyLockChange port b) s = .next { s with sns.ports := s.sns.ports.upd port.val fun q => { q with locked := b } }) ∧
    (∀ (n : Fin 64) (st : Fin 32) (data : List Byte) (j : Nat) (s : State), (s.rods.get n.val).job = some j → data.length = 64 →
      (s.jobRec j).map JobRec.part = some (s.pointPart st.val) → s.saf.raised = [] →
      exec (.snsRoiWrite n st data) s = .next (s.updPoint st.val fun q =>
        { q with rois := BitVec.ofNat 512 (leNat data), roisOld := q.roisFor s.tick, roisAt := some s.tick }))) ∧
  ((∀ (p : Byte) (a : Arrival) (rest : List Arrival) (s : State), (s.point p.toNat).waiting = a :: rest → s.pointLive p.toNat = true →
      ((s.point p.toNat).lastAdm = some s.tick → exec (.inputAdmit p) s = .next s.settle) ∧
      ((s.point p.toNat).lastAdm ≠ some s.tick → exec (.inputAdmit p) s = .next ((s.updPoint p.toNat fun q => { q with waiting := rest }).admitAt p.toNat a).settle)) ∧
    (∀ (dec : Fin 3) (n : Fin 32) (j : RecordJob) (rest : List RecordJob) (k : Nat) (s : State),
      let p := 32 + n.val
      let d := (s.point p).desc.toNat
      (s.point p).queue = j :: rest → (s.point p).decode = none → (s.binding p).isSome = true → s.jrn.r.running = false → s.pln.state = .running →
      s.errs.cells = [] → (∀ a m, s.heldRod a m = none) → s.saf.raised = [] → j.bytes ≤ fld d 96 32 → recordRefuse d j.bytes (s.rd j.addr j.bytes) = none →
      (s.updPoint p fun q => { q with queue := rest }).freeSlot p = some k →
      exec (.recordDecodeStart dec n) s =
        .next ((s.updPoint p fun q => { q with queue := rest }).updPoint p fun q => { q with decode := some { job := j, slot := k, dec := dec.val } })) ∧
    (∀ (n : Fin 32) (r : DecodeRun) (s : State),
      let p := 32 + n.val
      let o := decodeRecord (s.point p).desc.toNat (s.rd r.job.addr r.job.bytes)
      (s.point p).decode = some r → s.errs.cells = [] → (∀ a m, s.heldRod a m = none) → s.saf.raised = [] →
      exec (.recordDecodeEnd n) s =
        .next ((s.wr (s.slotAddr p r.slot) (slotHeader p (o.1 != 0) false 0 r.job.seq 0 0 o.1 o.2.1 o.2.2.1 0 0 ++ o.2.2.2)).updPoint p fun q =>
          { q with decode := none, waiting := q.waiting ++ [{ slot := some r.slot, seq := r.job.seq, trunc := o.1 != 0 }] })) ∧
    (∀ (n : Fin 32) (r : DecodeRun) (s : State), (s.point (32 + n.val)).decode = some r →
      exec (.decodeBudget n) s = .next ((s.updPoint (32 + n.val) fun q => { q with decode := none }).absent (32 + n.val) r.job.seq 0x500A)))

/-! ### Control loop engine -/

/-- Control loop commands whose checks pass (R320 to R323, R328, R332, R333, R336, R338 to R342, R531, R532): a loop is configured, gets a coefficient set,
is enabled, disabled, resumed; its mailbox takes a write; an input and a PWM pair are configured, a pair is released; evaluation starts at
once or at a time, and stops; a generator and a capture run; a query answers. -/
def Obligations.ControlLoopCommandsComplete : Prop :=
  ∀ (h : Hdr) (loop : Byte) (s : State), s.saf.supHalted = false → loop.toNat ≤ 127 → s.cleMay h.fn loop.toNat = true →
    let n := loop.toNat
    let l := s.loopSt n
    (∀ d : BitVec 2048, let new : CleLoop := { l with configured := true, desc := d, evaled := false }
      new.recordOk n = true → l.enabled = false → s.binding (64 + n) = none →
      exec (.cleLoopConfig h loop d) s = .next ((s.updLoop n fun _ => new).forcePairs.reply h {})) ∧
    (∀ (set : Byte) (c : BitVec 512), set.toNat ≤ 7 → coefOk c.toNat = true →
      exec (.cleCoefSet h loop set c) s = .next ((s.updLoop n fun l => { l with sets := l.sets.set set.toNat c }).reply h {})) ∧
    (l.configured = true → l.enabled = false → s.inputsReady l = true → (∀ c ∈ s.cle.loops.cells, c.2.enabled = true → loopsConflict l c.2 = false) →
      s.latencyOk l = true →
      exec (.cleLoopEnable h loop) s = .next (((s.updLoop n fun l =>
        { l.fresh with enabled := true, stopped := false, live := false, evaled := false, evalSeq := 0, evals := 0, encPrev := {}, snap := 0 }).forcePairs.stopIfLost n).reply h {})) ∧
    exec (.cleLoopDisable h loop) s =
      .next ((((s.updLoop n fun l => { l with enabled := false, stopped := false, live := false }).endTests n).forcePairs).reply h {}) ∧
    (l.enabled = true → l.stopped = true →
      exec (.cleLoopResume h loop) s = .next (((s.updLoop n fun l => { l.fresh with stopped := false, live := false }).stopIfLost n).reply h {})) ∧
    (∀ sp a sc : Word, exec (.cleMailboxWrite h loop sp a sc) s = .next
      ({ s with cle.mails := s.cle.mails.upd n fun m => { setpoint := sp, accel := a, sched := sc, seq := m.seq + 1, written := true } }.reply h {})) ∧
    (∀ (gen kind point : Byte) (amp len : Word) (hold : BitVec 16) (f0 df seed : Word), gen.toNat ≤ 3 → within 1 4 kind.toNat = true → point.toNat ≤ 2 → len ≠ 0 →
      (kind = 2 → hold ≠ 0 ∧ seed ≠ 0 ∧ seed.getLsbD 31 = false) → (s.cle.gens.get gen.toNat).running = false → l.enabled = true →
      exec (.cleInject h gen kind loop point amp len hold f0 df seed) s = .next
        ({ s with cle.gens := s.cle.gens.set gen.toNat { running := true, kind := kind.toNat, loop := n, point := point.toNat, amp := amp.toInt, left := len.toNat, hold := hold.toNat, inc := f0, df := if kind = 4 then 0 else df, lfsr := seed } }.reply h {})) ∧
    (∀ (ch gen : Byte) (decim : BitVec 16) (count : Word) (dest : BitVec 64), ch.toNat ≤ 3 → gen.toNat ≤ 3 → decim ≠ 0 → within 1 65536 count.toNat = true →
      lineAligned dest.toNat = true → inAperture dest.toNat (32 * count.toNat) = true → (s.cle.caps.get ch.toNat).running = false →
      exec (.cleCapture h ch loop 0 gen decim count dest) s = .next
        ({ s with cle.caps := s.cle.caps.set ch.toNat { running := true, loop := n, gen := none, decim := decim.toNat, left := count.toNat, dest := dest.toNat, fn := h.fn.val } }.reply h {})) ∧
    (s.hasResult h = true → exec (.cleQuery h loop) s = .next (s.reply h
      { ext := some (([s.loopStatus n, l.ctl, l.evalSeq.toNat, wrap 32 l.out, (s.cle.mails.get n).seq.toNat, l.snapDrops.toNat, 0, 0].flatMap (leBytes 4)) ++
        leBytes 64 l.snap.toNat) }))

/-- Commands of PF0 on the engine's inputs, pairs and evaluation (R328, R331, R336, R338, R531). -/
def Obligations.ControlEngineCommandsComplete : Prop :=
  ∀ (h : Hdr) (s : State), pf0 s h →
    (∀ (i : Byte) (x : BitVec 112), i.toNat < 32 → fld x.toNat 0 16 ≤ 255 → fld x.toNat 16 16 ≤ 2 → fld x.toNat 32 16 ≤ 1 →
      (∀ c ∈ s.cle.loops.cells, c.2.enabled = true → c.2.reads 0 i.toNat = false) →
      exec (.cleInputConfig h 0 i x) s = .next ({ s with cle.encs := s.cle.encs.upd i.toNat fun e =>
        { e with configured := true, filt := fld x.toNat 0 16, indexMode := fld x.toNat 16 16, dir := fld x.toNat 32 16 == 1, fault := false } }.reply h {})) ∧
    (∀ (q : Byte) (period : Word) (dr df : BitVec 16), q.toNat ≤ 47 → within 2 16777215 period.toNat = true → dr.toNat ≤ 4095 → df.toNat ≤ 4095 →
      (∀ c ∈ s.cle.loops.cells, c.2.enabled = true → ¬ (c.2.outKind = 1 ∧ c.2.outIndex = q.toNat)) →
      exec (.clePwmConfig h q period 0 0 dr df 0 0 0 0 0) s = .next ((s.updPair q.toNat fun p =>
        Pwm.follow { p with configured := true, period := period.toNat, centre := false, update := 0, dtRise := dr.toNat, dtFall := df.toNat, polA := false, polB := false, safeA := false, safeB := false, group := 0, forced := true }).reply h {})) ∧
    (∀ q : Byte, q.toNat ≤ 47 → (s.cle.pwms.get q.toNat).configured = true → s.saf.safe = false → s.safeLow (s.cle.pwms.get q.toNat).group = false →
      exec (.clePwmRelease h q) s = .next ((s.updPair q.toNat fun p => { p with latched := false }).reply h {})) ∧
    (s.saf.safe = false → s.cle.state = 0 → s.cle.start = none → ∀ (pin : Byte) (at_ : BitVec 64), pin.toNat ≤ 3 →
      exec (.cleStart h 0 pin at_) s = .next (s.cleBegin (some h)) ∧
      exec (.cleStart h 2 pin at_) s = .next { s with cle.start := some { h := some h, mode := 2, pin := pin.toNat, at_ := at_ } } ∧
      (atOrLater 64 s.now.toNat at_.toNat = false →
        exec (.cleStart h 1 pin at_) s = .next { s with cle.start := some { h := some h, mode := 1, pin := pin.toNat, at_ := at_ } })) ∧
    (s.cle.start = none → (s.cle.state = 1 ∨ s.cle.state = 2) → exec (.cleStop h) s = .next { s with cle.state := 3, cle.stop := some (some h) })

/-- What happens to the engine in time (R318, R319, R321, R329 to R338, R531): a pending start fires; a period starts or ends the evaluation; a
due loop is evaluated; an encoder's step moves its position; a decimated output and an SPI frame are latched; a lost clock is noted, and
restored; SAFE_EN_N low latches its pairs; a load point loads the shadow; a job's line writes a mailbox. -/
def Obligations.ControlEventsComplete : Prop :=
  (∀ (c : CleStart) (s : State), s.cle.start = some c → (if c.mode = 2 then c.seen = true else atOrLater 64 s.now.toNat c.at_.toNat = true) →
    exec .cleStartFire s = .next (s.cleBegin c.h)) ∧
  (∀ (h : Option Hdr) (s : State), ∃ t, .next (s.cleBegin h) = (.next t : Out) ∧ t.cle.state = 1 ∧ t.cle.period = 0 ∧ t.cle.start = none) ∧
  (∀ s : State, (s.cle.state = 1 ∨ s.cle.state = 2) →
    exec .clePeriodStart s = .next { s with cle.state := 2, cle.period := s.cle.period + 1, cle.periodTime := s.tim.time }) ∧
  (∀ s : State, s.cle.state = 3 → exec .clePeriodStart s = .next s.cleHalt ∧ s.cleHalt.cle.state = 0) ∧
  (∀ (n : Fin 128) (s : State),
    let l := s.loopSt n.val
    s.loopDue l = true → srcKind (l.f 48 16) ≠ 6 → l.outKind = 0 → s.cle.caps.cells = [] → s.cle.gens.cells = [] → s.pln.plan = none → s.saf.raised = [] →
    l.f 800 16 = 0 →
    let q : EvalIn := { fb := s.source l l.first false (l.f 32 16), sp := s.source l l.first true (l.f 48 16), sched := s.source l l.first false (l.f 64 16),
                        ff := s.source l l.first false (l.f 80 16), gr := 0, ge := 0, gu := 0 }
    ∃ t, exec (.loopEvaluation n) s = .next t ∧ (t.loopSt n.val).out = (l.law l.first q).out ∧ (t.loopSt n.val).i = (l.law l.first q).i ∧
      (t.loopSt n.val).k = (l.law l.first q).k ∧ (t.loopSt n.val).live = true ∧ (t.loopSt n.val).first = false ∧ t.mem = s.mem) ∧
  (∀ (e : Fin 32) (a b z : Bool) (s : State),
    let q := s.cle.encs.get e.val
    q.configured = true → (a = q.a ∨ b = q.b) → s.saf.raised = [] →
    exec (.encoderUpdate e a b z) s = .next { s with cle.encs := s.cle.encs.set e.val (q.step a b z) }) ∧
  (∀ (c : Fin 32) (bits : List Bool) (s : State),
    let q := s.cle.sds.get c.val
    let sum := ((bits.take (3 * (q.osr - 1) + 1)).zipIdx).foldl (fun a x => if x.1 then a + sincWeight q.osr x.2 else a) (0 : Int)
    q.configured = true → q.lost = false →
    (q.osr % 2 = 0 → exec (.sdDecimation c bits) s =
      .next { s with cle.sds := s.cle.sds.set c.val { q with out := BitVec.ofInt 32 (sum - (q.osr * q.osr * q.osr / 2 : Nat)) } }) ∧
    (q.osr % 2 = 1 → ∃ x : Nat, x ≤ 1 ∧ exec (.sdDecimation c bits) s =
      .next { s with free := s.free + 1, cle.sds := s.cle.sds.set c.val { q with out := BitVec.ofInt 32 (sum - (q.osr * q.osr * q.osr / 2 + x : Nat)) } })) ∧
  (∀ (c : Fin 32) (s : State), (s.cle.sds.get c.val).configured = true → (s.cle.sds.get c.val).lost = false →
    exec (.cleSdClock c) s =
      .next ((({ s with cle.sds := s.cle.sds.set c.val { s.cle.sds.get c.val with lost := true } }).inputStop 1 c.val).raiseDev 0x0602).settle) ∧
  (∀ (c : Fin 32) (s : State), exec (.sdClockRestored c) s = .next { s with cle.sds := s.cle.sds.upd c.val fun q => { q with lost := false } }) ∧
  (∀ (p : Fin 8) (w : Word) (s : State), (s.cle.spis.get p.val).configured = true → s.cle.state ≠ 0 → 1 ≤ (s.cle.spis.get p.val).words →
    exec (.spiFrame p [w]) s = .next { s with cle.spis := s.cle.spis.set p.val { s.cle.spis.get p.val with vals := (s.cle.spis.get p.val).vals.set 0 (BitVec.ofInt 32 (sgn (s.cle.spis.get p.val).bits w.toNat)) } }) ∧
  (∀ (i : Fin 2) (q : Nat) (s : State),
    let p := s.cle.pwms.get q
    p.configured = true → p.group &&& 2 ^ i.val ≠ 0 →
    ∃ t, exec (.safeEnForce i true) s = .next t ∧ (t.cle.pwms.get q).latched = true ∧ (t.cle.pwms.get q).forced = true) ∧
  (∀ (i : Fin 2) (s : State), ∃ t, exec (.safeEnForce i false) s = .next t ∧ t.cle.pwms = s.cle.pwms ∧ t.cle.safeIn.getLsbD i.val = false) ∧
  (∀ (q : Fin 48) (c : Nat) (s : State),
    let p := s.cle.pwms.get q.val
    p.configured = true → p.centre = false → p.update ≤ 2 → p.shadow = some c → s.forceReason q.val = true →
    exec (.pwmLoadPoint q false) s = .next (s.updPair q.val fun _ => Pwm.follow { p with cmp := c, shadow := none, count := 0, down := false })) ∧
  (∀ (n : Fin 64) (lp : Fin 128) (data : List Byte) (j pt : Nat) (s : State), (s.rods.get n.val).job = some j → data.length = 64 → s.cleOwner lp.val = some pt →
    (s.jobRec j).map JobRec.part = some pt → leNat data < 2 ^ 96 → s.saf.raised = [] →
    exec (.cleMailboxPortWrite n lp data) s = .next (s.mailbox lp.val (BitVec.ofNat 32 (fld (leNat data) 0 32)) (BitVec.ofNat 32 (fld (leNat data) 32 32))
      (BitVec.ofNat 32 (fld (leNat data) 64 32))))

/-- Control arithmetic (R325): the shift rounds to the nearest integer, ties toward plus infinity, and saturation clamps to 32 bits. The weights of a
decimation window (R330) are those of a third-order sinc filter of ratio `n`: they sum to n^3. -/
def Obligations.ControlNumbers : Prop :=
  ((∀ (p : Int) (n : Nat), -(2 ^ n : Int) < 2 * (2 ^ n * sh p n - p) ∧ 2 * (2 ^ n * sh p n - p) ≤ 2 ^ n) ∧
    (∀ v : Int, -(2 ^ 31) ≤ sat32 v ∧ sat32 v ≤ 2 ^ 31 - 1 ∧ (-(2 ^ 31) ≤ v → v ≤ 2 ^ 31 - 1 → sat32 v = v))) ∧
  (∀ n : Nat, 1 ≤ n → ((List.range (3 * (n - 1) + 1)).map (sincWeight n)).sum = (n : Int) ^ 3)

/-! ### Ethernet -/

/-- Ethernet commands of PF0 whose checks pass (R356 to R361, R364): a MAC, a receive queue and a filter are configured, a gate list pends, a frame
is posted, a launch entry is loaded, and entries and MACs are answered. -/
def Obligations.EthernetCommandsComplete : Prop :=
  ∀ (h : Hdr) (mac : Byte) (s : State), pf0 s h → mac.toNat ≤ 7 →
    let m := mac.toNat
    (∀ (speed : Byte) (maxFrame : BitVec 16) (td rd_ late : Word), speed.toNat ≤ 2 → within 60 9216 maxFrame.toNat = true → late.toNat ≤ 1000000 →
      ((s.mac m).enabled = false → exec (.ethPortConfig h mac speed 1 maxFrame td rd_ late) s = .next ((s.updMac m fun q =>
        { q with enabled := true, speed := speed.setWidth 2, maxFrame := maxFrame.toNat, txDelay := td, rxDelay := rd_, lateNs := late.toNat }).reply h {})) ∧
      ((s.mac m).enabled = true → exec (.ethPortConfig h mac speed 1 maxFrame td rd_ late) s = .next (s.reply h { status := 0x7021 }))) ∧
    (∀ (queue log2 : Byte) (gap : Word) (base wb : BitVec 64), queue.toNat ≤ 3 → within 2 16 log2.toNat = true →
      lineAligned base.toNat = true → s.hostMem 0 base.toNat (2 ^ log2.toNat * (s.mac m).recBytes) = true → lineAligned wb.toNat = true →
      s.hostMem 0 wb.toNat 4 = true → s.binding (208 + 4 * m + queue.toNat) = none →
      exec (.ethRxqConfig h mac queue 1 log2 gap base wb) s = .next ((s.updMac m fun q => q.updQueue queue.toNat fun r =>
        { r with mode := 1, log2 := log2.toNat, minGap := gap.toNat, base := base.toNat, wb := wb.toNat, head := 0, tail := 0 }).reply h {})) ∧
    (∀ (index queue tests : Byte) (etype vid : BitVec 16) (da : BitVec 48), index.toNat ≤ 15 → queue.toNat ≤ 4 → tests.toNat ≤ 7 →
      exec (.ethFilterSet h mac index queue tests etype vid da) s = .next ((s.updMac m fun q => { q with filters := q.filters.set index.toNat { used := true, queue := queue.setWidth 3, tests := tests.setWidth 3, etype := etype, vid := vid.setWidth 12, da := da } }).reply h {})) ∧
    (∀ (len : BitVec 16) (cycle : Word) (bt : BitVec 64) (es : List (BitVec 64)), es.length = len.toNat → within 1 256 len.toNat = true →
      within 1000 1000000000 cycle.toNat = true → (∀ e ∈ es, 100 ≤ fld e.toNat 32 32) → (es.map fun e => fld e.toNat 32 32).sum = cycle.toNat →
      exec (.ethGclSet h mac len cycle bt es) s = .next ((s.updMac m fun q => { q with pendGcl := some { entries := es.map fun e => (fld e.toNat 0 8, fld e.toNat 32 32), cycle := cycle.toNat, start := gclStart s.now.toNat bt.toNat cycle.toNat } }).reply h {})) ∧
    (∀ (cls : Byte) (len : BitVec 16) (addr at_ : BitVec 64), cls.toNat ≤ 7 → within 1 (s.mac m).maxFrame len.toNat = true → lineAligned addr.toNat = true →
      s.hostMem 0 addr.toNat len.toNat = true → (s.mac m).enabled = true → ((s.mac m).classes.get cls.toNat).length < 32 →
      exec (.ethTxPost h mac cls 0 len addr at_) s = .next (s.updMac m fun q => { q with classes := q.classes.upd cls.toNat (· ++ [{ frame := s.rd addr.toNat len.toNat, at_ := none, due := false, h := some h }]) })) ∧
    (∀ (entry cls mode : Byte) (len : BitVec 16) (src at_ : BitVec 64), entry.toNat ≤ 63 → cls.toNat ≤ 7 → (mode = 0 ∨ mode = 2) → within 1 256 len.toNat = true →
      lineAligned src.toNat = true → s.hostMem 0 src.toNat len.toNat = true → s.loopNames 3 m entry.toNat true = false →
      exec (.ethLaunchSet h mac entry cls mode len src at_) s = .next ((s.updMac m fun q => q.updLaunch entry.toNat fun x =>
        { x with mode := mode.setWidth 2, cls := cls.toNat, frame := s.rd src.toNat len.toNat, at_ := none, due := false }).reply h {})) ∧
    (∀ entry : Byte, entry.toNat ≤ 63 → exec (.ethLaunchQuery h mac entry) s = .next (s.reply h
      { timeRep ((s.mac m).launches.get entry.toNat).stamp with detail := ((s.mac m).launches.get entry.toNat).sent.toNat })) ∧
    (s.hasResult h = true → exec (.ethQuery h mac) s = .next (s.reply h
      { ext := some ((List.range 16 ++ (List.range 16).map (64 + ·)).flatMap fun i => leBytes 4 ((s.mac m).word i).toNat) }))

/-- Ethernet events (R355 to R363, R366): HEAD moves; the link follows its MAC; the gate entry follows the time base and a pending list becomes
operational at its instant; a launch past LATE_NS is discarded, and a frame that can never fit a gate as it comes to the head of its class; an idle MAC starts a waiting frame of the highest class and the frame
goes out with its FCS; a good frame enters the ring of its queue, one with a bad FCS is counted. -/
def Obligations.EthernetEventsComplete : Prop :=
  ∀ (m : Fin 8) (s : State),
    let q := s.mac m.val
    (∀ (k : Fin 4) (v : Word), atOrLater 32 v.toNat (q.queues.get k.val).head.toNat = true → atOrLater 32 (q.queues.get k.val).tail.toNat v.toNat = true →
      exec (.ethRxqHeadWrite m k v) s = .next (s.updMac m.val fun x => x.updQueue k.val fun r => { r with head := v })) ∧
    (q.enabled = true → ∀ up, exec (.ethLinkChange m up) s = .next (s.updMac m.val fun q => { q with link := up })) ∧
    (∀ g, q.gcl = some g → exec (.ethGateChange m) s = .next (s.updMac m.val fun q => { q with entry := entryAt (g.pos s.now.toNat) g.entries 0 })) ∧
    (∀ g, q.pendGcl = some g → atOrLater 64 s.now.toNat g.start = true →
      exec (.ethGclSwitch m) s = .next (s.updMac m.val fun q => { q with gcl := some g, pendGcl := none, entry := 0 })) ∧
    (∀ (e : Fin 64) (t : BitVec 64), let u := s.gateDiscards m.val (q.launches.get e.val).cls 97
      ((u.mac m.val).launches.get e.val).at_ = some t → atOrLater 64 u.now.toNat (t + BitVec.ofNat 64 (u.mac m.val).lateNs).toNat = true →
      exec (.ethLaunchDiscard (.launch m e)) s = .next (u.updMac m.val fun q => (q.updLaunch e.val fun x => { x with at_ := none, due := false }).late)) ∧
    (∀ (c : Nat) (x : Cand), (s.heads m.val c).find? (fun x => !q.everFits c (q.duration x.1)) = some x → x.2 = .post none →
      s.gateDiscards m.val c 1 = (s.takeFrame m.val c x.2).updMac m.val fun q => { q with gateDiscard := satInc q.gateDiscard }) ∧
    (∀ (p : EthPost) (rest : List EthPost), q.enabled = true → q.tx = none → q.gcl = none → q.launches.cells = [] → s.tunnelPort m.val 7 = none →
      q.classes.get 7 = p :: rest → p.at_ = none →
      exec (.ethTxStart m) s = .next ((s.updMac m.val fun q => { q with classes := q.classes.upd 7 List.tail }).updMac m.val fun q =>
        { q with tx := some { frame := padFrame p.frame, from_ := .post p.h, stamp := s.txStamp m.val } })) ∧
    (∀ (f : List Byte) (h : Hdr) (st : BitVec 96), q.tx = some { frame := f, from_ := .post (some h), stamp := st } →
      exec (.ethTxDone m) s = .next ((s.updMac m.val fun q =>
        { q with tx := none, txFrames := satInc q.txFrames, wire := q.wire ++ [f ++ leBytes 4 (crc32 f)] }).reply h (timeRep st))) ∧
    (∀ frame : List Byte, q.enabled = true → crc32 (frame.take (frame.length - 4)) ≠ leNat (frame.drop (frame.length - 4)) →
      exec (.ethFrameReceive m frame) s = .next (s.updMac m.val fun q => { q with rxFcs := satInc q.rxFcs })) ∧
    (∀ f : List Byte, let frame := f ++ leBytes 4 (crc32 f)
      let r := q.queues.get 0
      let k := q.filters.cells
      q.enabled = true → 60 ≤ f.length → f.length ≤ q.maxFrame → etherType f ≠ 0x8808 → etherType f ≠ 0x88B5 → k = [] → r.mode = 1 →
      (r.tail - r.head).toNat < 2 ^ r.log2 →
      ∃ t, exec (.ethFrameReceive m frame) s = .next t ∧ ((t.mac m.val).queues.get 0).tail = r.tail + 1 ∧ ((t.mac m.val).queues.get 0).seq = r.seq + 1 ∧
        (t.mac m.val).rxFrames = satInc q.rxFrames ∧ (t.mac m.val).txFrames = q.txFrames)

/-! ### CAN FD -/

/-- CAN commands of PF0 whose checks pass (R369, R374 to R381, R383, R384). -/
def Obligations.CanCommandsComplete : Prop :=
  ∀ (h : Hdr) (ctrl : Byte) (s : State), pf0 s h → ctrl.toNat ≤ 15 →
    let c := ctrl.toNat
    let q := s.ctl c
    (∀ (mode : Byte) (late gap : Word), mode.toNat ≤ 3 → late.toNat ≤ 10000000 → q.bus = none →
      ∃ t : State, exec (.canConfig h ctrl mode late gap) s = .next (t.reply h {}) ∧ t.mem = s.mem ∧ (t.ctl c).mode = mode.setWidth 2 ∧
        (t.ctl c).lateNs = late.toNat ∧ (t.ctl c).minGap = gap.toNat ∧ (q.mode.toNat = mode.toNat → (t.ctl c).synced = q.synced) ∧
        (q.mode.toNat ≠ mode.toNat → (t.ctl c).synced = false)) ∧
    (∀ (nb n1 n2 nj : BitVec 16) (db d1 d2 dj tdco en : Byte),
      timingOk nb.toNat n1.toNat n2.toNat nj.toNat db.toNat d1.toNat d2.toNat dj.toNat = true → tdco.toNat ≤ 127 → en.toNat ≤ 1 → q.mode = 0 →
      exec (.canTiming h ctrl nb n1 n2 nj db d1 d2 dj tdco en) s = .next ((s.updCtl c fun q => { q with
        nbt := BitVec.ofNat 32 (pack [(0, 8, nb.toNat - 1), (8, 8, n1.toNat - 1), (16, 7, n2.toNat - 1), (24, 7, nj.toNat - 1)]),
        dbt := BitVec.ofNat 32 (pack [(0, 5, db.toNat - 1), (8, 5, d1.toNat - 1), (16, 4, d2.toNat - 1), (24, 4, dj.toNat - 1), (31, 1, en.toNat)]),
        tdco := tdco.setWidth 7, tdcFail := false }).reply h {})) ∧
    (∀ (index target buf ide : Byte) (value mask : Word), index.toNat ≤ 31 → target.toNat ≤ 4 → buf.toNat ≤ 63 → ide.toNat ≤ 1 →
      exec (.canFilterSet h ctrl index target buf ide value mask) s = .next ((s.updCtl c fun q => { q with
        filters := q.filters.set index.toNat { target := target.toNat, buf := buf.toNat, ide := ide = 1, value := value, mask := mask } }).reply h {})) ∧
    (∀ (buf oneShot : Byte) (at_ src : BitVec 64), buf.toNat ≤ 63 → oneShot.toNat ≤ 1 → lineAligned src.toNat = true → s.hostMem 0 src.toNat 96 = true →
      canImageOk (s.rdN src.toNat 96) = true → s.loopNames 2 c buf.toNat false = false → q.bus = none → q.lock = none → (q.mbs.get buf.toNat).h = none →
      exec (.canMbSet h ctrl buf 2 0 oneShot at_ src) s = .next ((s.updCtl c fun q => { q with
        mbs := q.mbs.set buf.toNat { kind := 2, mode := 0, oneShot := oneShot = 1, img := txImage (s.rdN src.toNat 96), at_ := none }, lock := none }).reply h {})) ∧
    (∀ buf : Byte, buf.toNat ≤ 63 → (q.mbs.get buf.toNat).kind = 2 → (q.mbs.get buf.toNat).mode = 0 → (q.mbs.get buf.toNat).pend = false →
      exec (.canMbSend h ctrl buf) s = .next (s.updCtl c fun q => q.updMb buf.toNat fun m => { m with pend := true, h := some h })) ∧
    (∀ buf : Byte, buf.toNat ≤ 63 → q.bus = none →
      ((q.mbs.get buf.toNat).pend = true → (q.mbs.get buf.toNat).h = none → exec (.canMbAbort h ctrl buf) s =
        .next ((s.updCtl c fun q => q.updMb buf.toNat fun m => { m with pend := false, at_ := none, h := none }).reply h { status := 0x7045 })) ∧
      ((q.mbs.get buf.toNat).pend = false → (q.mbs.get buf.toNat).at_ = none → exec (.canMbAbort h ctrl buf) s = .next (s.reply h {}))) ∧
    (∀ fifo depth : Byte, fifo.toNat ≤ 1 → within 1 32 depth.toNat = true → q.lock = none →
      exec (.canRxfConfig h ctrl fifo depth) s = .next ((s.updCtl c fun q => { q with
        fifos := q.fifos.set fifo.toNat [], depths := q.depths.set fifo.toNat (depth.toNat - 1), lock := none }).reply h {})) ∧
    (q.err = 2 → exec (.canRecover h ctrl) s = .next ((s.updCtl c fun q => { q with err := 3 }).reply h {})) ∧
    (s.hasResult h = true → exec (.canQuery h ctrl) s = .next (s.reply h { ext := some ((List.range 16).flatMap fun i => leBytes 4 (q.word i).toNat) }))

/-- CAN events (R373 to R376, R380 to R384): reads of a window's first and last word lock and release it; the offered frame wins the bus, and is sent
or fails, after which a launch handed over meanwhile takes its buffer; a launch past its limit is withdrawn, on the bus as it fails; an error counts;
recovery and bus integration end; a received frame goes where its filter says. A controller whose transmit error counter passes 255 goes bus-off
(R382, R383): its state is 2, it is counted, and it sends nothing more until CAN_RECOVER. -/
def Obligations.CanEventsComplete : Prop :=
  (∀ (c : Fin 16) (s : State),
      let q := s.ctl c.val
      (∀ i, i < 66 → q.lock = none → exec (.canMbWord0Read c i) s =
        .next { (s.updCtl c.val fun _ => { q with lock := some i }) with hif.cpl := { data := leBytes 4 (fld (q.window i).toNat 0 32) } }) ∧
      (∀ i, i < 64 → q.lock = none → exec (.canMbWord23Read c i) s =
        .next { (s.updCtl c.val fun _ => q.updMb i fun m => { m with full := false }) with hif.cpl := { data := leBytes 4 (fld (q.window i).toNat 736 32) } }) ∧
      (∀ i, 64 ≤ i → i < 66 → q.lock = none → exec (.canMbWord23Read c i) s =
        .next { (s.updCtl c.val fun _ => { q with fifos := q.fifos.upd (i - 64) List.tail }) with hif.cpl := { data := leBytes 4 (fld (q.window i).toNat 736 32) } }) ∧
      (∀ b, q.synced = true → (q.mode = 1 ∨ q.mode = 3) → q.err.toNat < 2 → q.bus = none → q.offer = some b →
        exec (.canArbitration c) s = .next (s.updCtl c.val fun q => { q with bus := some (b, time96 s.tim.time) })) ∧
      (∀ b st r, q.bus = some (b, st) → (q.mbs.get b).oneShot = false → (q.mbs.get b).stopping = false → r ≠ .sent →
        ((q.mbs.get b).next = none → s.launchOver c.val (q.mbs.get b) = false → exec (.canTxDone c r none) s = .next (s.updCtl c.val fun q => { q with bus := none })) ∧
        ((q.mbs.get b).next = none → s.launchOver c.val (q.mbs.get b) = true → exec (.canTxDone c r none) s =
          .next ((s.updCtl c.val fun q => { q with bus := none }).withdraw c.val b)) ∧
        (∀ x, (q.mbs.get b).next = some x → (q.mbs.get b).at_.isSome = true → exec (.canTxDone c r none) s =
          .next (((s.updCtl c.val fun q => { q with bus := none }).updCtl c.val fun q => { q with launchLate := satInc q.launchLate }).canNext c.val b))) ∧
      (∀ b st h, q.bus = some (b, st) → (q.mbs.get b).kind = 2 → (q.mbs.get b).h = some h → (q.mbs.get b).abort = [] → (q.mbs.get b).next = none → q.err = 0 →
          q.tec < 96 → q.rec_ < 96 →
        ∃ t : State, exec (.canTxDone c .sent none) s = .next (t.reply h (timeRep st)) ∧ (t.ctl c.val).bus = none ∧ (t.ctl c.val).txFrames = satInc q.txFrames ∧
          (t.ctl c.val).tec = q.tec - 1 ∧ ((t.ctl c.val).mbs.get b).pend = false ∧ ((t.ctl c.val).mbs.get b).h = none ∧ t.mem = s.mem) ∧
      (∀ b st x, q.bus = some (b, st) → (q.mbs.get b).next = some x → (q.mbs.get b).h = none → (q.mbs.get b).abort = [] → s.jrn.r.running = false →
        q.err = 0 → q.tec < 96 → q.rec_ < 96 →
        ∃ t : State, exec (.canTxDone c .sent none) s = .next t ∧ (t.ctl c.val).bus = none ∧ (t.ctl c.val).txFrames = satInc q.txFrames ∧
          (t.ctl c.val).tec = q.tec - 1 ∧ ((t.ctl c.val).mbs.get b).img = x.1 ∧ ((t.ctl c.val).mbs.get b).at_ = some x.2 ∧
          ((t.ctl c.val).mbs.get b).pend = atOrLater 64 s.now.toNat x.2.toNat ∧ ((t.ctl c.val).mbs.get b).next = none) ∧
      (∀ (b : Fin 64) (t : BitVec 64), (q.mbs.get b.val).at_ = some t → atOrLater 64 s.now.toNat (t + BitVec.ofNat 64 q.lateNs).toNat = true → q.bus = none →
        exec (.canLaunchWithdraw c b) s = .next (s.updCtl c.val fun q =>
          { (q.updMb b.val fun m => { m with at_ := none, pend := false }) with launchLate := satInc q.launchLate })) ∧
      (q.mode ≠ 0 → q.bus = none → q.err = 0 → q.tec < 80 → q.rec_ < 80 →
        ∃ t, exec (.canError c .transmit) s = .next t ∧ (t.ctl c.val).tec = q.tec + 8 ∧ (t.ctl c.val).rec_ = q.rec_ ∧ (t.ctl c.val).err = 0 ∧
          (t.ctl c.val).mode = q.mode) ∧
      (q.mode ≠ 0 → q.err = 0 → q.tec < 80 → q.rec_ < 80 →
        ∃ t, exec (.canError c .receive) s = .next t ∧ (t.ctl c.val).tec = q.tec ∧ (t.ctl c.val).rec_ = q.rec_ + 1 ∧ (t.ctl c.val).err = 0) ∧
      (q.err = 3 → exec (.canRecoveryDone c) s = .next (s.updCtl c.val fun q => { q with tec := 0, rec_ := 0, err := 0 })) ∧
      (q.mode ≠ 0 → exec (.canBusIntegrationDone c) s = .next (s.updCtl c.val fun q => { q with synced := true })) ∧
      (∀ (f : CanFrame) (age : Nat) (g : CanFilter), q.mode ≠ 0 → q.synced = true → q.err = 0 → q.bus = none → q.tec < 96 → q.rec_ < 96 → f.rtr = false →
        q.match_ f = some g → g.target = 2 → (q.fifos.get 0).length < q.depths.get 0 + 1 →
        ∃ t, exec (.canFrameReceive c f age) s = .next t ∧ (t.ctl c.val).rxSeq = q.rxSeq + 1 ∧ (t.ctl c.val).rxFrames = satInc q.rxFrames ∧
          (t.ctl c.val).rec_ = q.rec_ - 1 ∧ t.mem = s.mem ∧ (t.ctl c.val).fifos.get 0 = q.fifos.get 0 ++
            [canImage f false (q.rxSeq + 1).toNat (time96 ((((s.tim.time : Int) - age * 25 * 2 ^ 39) % (timeMod : Int)).toNat))])) ∧
  (∀ (c : Fin 16) (s : State), (s.ctl c.val).mode ≠ 0 → (s.ctl c.val).bus = none → (s.ctl c.val).err.toNat < 2 → 248 ≤ (s.ctl c.val).tec →
      ∃ t, exec (.canError c .transmit) s = .next t ∧ (t.ctl c.val).err = 2 ∧ (t.ctl c.val).busOffs = satInc (s.ctl c.val).busOffs ∧
        exec (.canArbitration c) t = .next t)

/-! ### Tyben links -/

/-- Each Tyben command of PF0 completes where its checks pass (R387, R394, R395, R397, R399, R400, R403, R405): TYB_NODE_SET names the node while both
ports are DISABLED; TYB_PORT_CONFIG configures a disabled port, over lanes or a tunnel whose MAC takes its frames, and disables one; TYB_ROUTE_SET and
TYB_SIG_CONFIG store their entries; TYB_PARTNER_CONFIG stores the partner in the LOADED plan; TYB_MSG_SEND delivers a message to this node at once, and
queues one for another on its route's ACTIVE port, its reply to follow; TYB_OFFSET_MEASURE sends its probe; TYB_QUERY answers. -/
def Obligations.TybenCommandsComplete : Prop :=
  ∀ (h : Hdr) (s : State), pf0 s h →
    (∀ node : BitVec 16, within 1 16383 node.toNat = true → (s.port 0).state = .disabled → (s.port 1).state = .disabled →
      exec (.tybNodeSet h node) s = .next ({ s with tyb.node := node.setWidth 14 }.reply h {})) ∧
    (∀ (port en medium rate mac cls flits : Byte) (pm : BitVec 48), port.toNat ≤ 1 → en.toNat ≤ 1 → medium.toNat ≤ 1 → rate.toNat ≤ 2 → mac.toNat ≤ 7 →
      cls.toNat ≤ 7 → (medium = 1 → within 1 8 flits.toNat = true ∧ (s.mac mac.toNat).enabled = true ∧ 18 + 256 * flits.toNat ≤ (s.mac mac.toNat).maxFrame) →
      ((s.port port.toNat).state = .disabled → exec (.tybPortConfig h port en medium rate mac cls flits pm) s = .next ((s.updPort port.toNat fun q =>
        { q with state := if en = 1 then .detect else .disabled, retry := false, tunnel := decide (medium = 1), maxRate := rate.setWidth 2, mac := mac.toNat,
                 cls := cls.toNat, flits := flits.toNat, peerMac := pm, error := 0, cfgSent := false, cfgGot := false }).reply h {})) ∧
      ((s.port port.toNat).state ≠ .disabled → en = 0 → exec (.tybPortConfig h port en medium rate mac cls flits pm) s =
        .next ((s.portDown port.toNat .disabled 0).reply h {}))) ∧
    (∀ (index pre : BitVec 16) (len port valid : Byte), index.toNat < 1024 → pre.toNat < 16384 → len.toNat ≤ 14 → port.toNat ≤ 1 → valid.toNat ≤ 1 →
      let r : Route := { prefix_ := pre.setWidth 14, len := len.setWidth 4, port := decide (port = 1), valid := decide (valid = 1) }
      exec (.tybRouteSet h index pre len port valid) s = .next ({ s with tyb.routes := s.tyb.routes.set index.toNat r }.reply h {})) ∧
    (∀ (node : BitVec 16) (data : BitVec 224), within 1 16383 node.toNat = true → s.tyb.node ≠ 0 →
      let m : Msg := { dst := node.toNat, src := s.tyb.node.toNat, type := 8, hops := 63, mseq := s.tyb.mseq,
                       payload := leBytes 28 data.toNat ++ List.replicate 4 0, stamp := s.now }
      let t : State := { s with tyb.mseq := (s.tyb.mseq + 1) % 2 ^ 32 }
      (node.toNat = s.tyb.node.toNat → exec (.tybMsgSend h node data) s = .next ((t.updPort 0 fun q => { q with inbox := q.inbox ++ [m] }).reply h {})) ∧
      (∀ r : Route, node.toNat ≠ s.tyb.node.toNat → s.route node.toNat = some r → (s.port r.portNo).state = .active →
        exec (.tybMsgSend h node data) s = .next (t.enqueue r.portNo (m.flits (some h))))) ∧
    (∀ port : Byte, port.toNat ≤ 1 → s.tyb.node ≠ 0 → s.tyb.offs = none → (s.port port.toNat).state = .active → (s.port port.toNat).neighbour ≠ 0 →
      let m : Msg := { dst := (s.port port.toNat).neighbour.toNat, src := s.tyb.node.toNat, type := 9, hops := 63, mseq := s.tyb.mseq,
                       payload := leBytes 8 s.now.toNat, stamp := s.now }
      let o : OffsetRun := { h := some h, port := port.toNat, repeated := false, t1 := s.now }
      exec (.tybOffsetMeasure h port) s = .next (({ s with tyb.offs := some o, tyb.mseq := (s.tyb.mseq + 1) % 2 ^ 32 } : State).enqueue port.toNat (m.flits none true))) ∧
    (∀ (port en miss : Byte) (us tol : Word) (peer : BitVec 16) (r : Route), port.toNat ≤ 1 → en.toNat ≤ 1 → within 2 255 miss.toNat = true →
      within 100 100000 us.toNat = true → within 1 16383 peer.toNat = true → s.route peer.toNat = some r → r.portNo = port.toNat → r.len = 14 →
      s.pln.state = .loaded →
      let p : Partner := { enable := en == 1, port := port.toNat, hbMiss := miss.toNat, hbUs := us.toNat, tol := tol.toNat, peer := peer.toNat }
      exec (.tybPartnerConfig h port en miss us tol peer) s = .next ({ s with tyb.partner := p }.reply h {})) ∧
    (∀ slot part en : Byte, slot.toNat ≤ 15 → part.toNat ≤ 15 → en.toNat ≤ 1 →
      exec (.tybSigConfig h slot part en) s = .next ({ s with tyb.sigs := s.tyb.sigs.set slot.toNat { part := part.toNat, enable := en == 1 } }.reply h {})) ∧
    (∀ port : Byte, port.toNat ≤ 1 → s.hasResult h = true →
      exec (.tybQuery h port) s = .next (s.reply h { ext := some ((List.range 13).flatMap fun i => leBytes 4 ((s.port port.toNat).word i).toNat) }))

/-- A port's way to ACTIVE and back (R386 to R391): it detects, trains, exchanges CONFIG flits, retrains and loses the link; a DATA flit in order is
accepted, one with a bad CRC is counted and asks for a resend once. A retransmission is neither lost nor doubled (R388, R389): the flit a port expects
is the only one accepted, so that a flit received again, one number behind, changes no message: the port's messages and its expected number stay. -/
def Obligations.TybenPortsComplete : Prop :=
  (∀ (p : Fin 2) (s : State),
      let q := s.port p.val
      (q.state = .detect → q.tunnel = false → q.retry = false → exec (.tybPeerDetect p) s = .next (s.updPort p.val fun q => { q with state := .train })) ∧
      (∀ r w : BitVec 2, q.state = .train → r ≤ q.maxRate → exec (.tybTrainDone p (some (r, w))) s =
        .next (s.updPort p.val fun q => { q with state := .config, rate := r, width := w, error := 0, cfgSent := false, cfgGot := false })) ∧
      (q.state = .train → exec (.tybTrainDone p none) s = .next (s.updPort p.val fun q => { q with state := .detect, error := 3, retry := true })) ∧
      exec (.tybDetectRetry p) s = .next (s.updPort p.val fun q => { q with retry := false }) ∧
      (q.state = .config → q.cfgGot = false → exec (.tybConfigFlitSend p) s =
        .next (s.updPort p.val fun q => { q.emit (q.flitBytes 2 0 false false 0 (s.configPayload p.val)) with cfgSent := true })) ∧
      (q.state = .config → q.cfgGot = true → ∃ t, exec (.tybConfigFlitSend p) s = .next t ∧ (t.port p.val).state = .active ∧ (t.port p.val).expect = 0) ∧
      (∀ f : List Byte, q.state = .config → q.cfgSent = false → flitOk f = true →
        let x := leNat (f.take 252)
        fld x 0 4 = 2 → fld x 48 16 = 0 → fld x 160 (8 * 232) = 0 → fld x 78 2 = 0 → fld x 80 8 = ifaceVersion → fld x 64 16 ≠ s.tyb.node.toNat →
        ∃ t, exec (.tybConfigFlitRx p f) s = .next t ∧ (t.port p.val).cfgGot = true ∧ (t.port p.val).neighbour = BitVec.ofNat 14 (fld x 64 16) ∧
          (t.port p.val).state = .config) ∧
      (∀ f : List Byte, q.state = .active → flitOk f = false → q.gap = false → exec (.tybFlitRx p f) s =
        .next (s.updPort p.val fun q => { q with crcErrors := satInc q.crcErrors, nak := true, gap := true })) ∧
      (∀ f : List Byte, q.state = .active → flitOk f = true → q.replay = [] → q.txq = [] →
        let x := leNat (f.take 252)
        fld x 0 4 = 1 → fld x 8 12 = q.expect → bit x 32 = false →
        ∃ t, exec (.tybFlitRx p f) s = .next t ∧ (t.port p.val).expect = (q.expect + 1) % 4096 ∧ (t.port p.val).gap = false ∧ t.mem = s.mem ∧ t.hif = s.hif) ∧
      (q.state = .active → exec (.tybRetrainEntry p .silence) s =
        .next (s.updPort p.val fun q => { q with state := .retrain, retrains := satInc q.retrains, naks := 0 })) ∧
      (∀ r w : BitVec 2, q.state = .retrain → q.tunnel = false → q.replay = [] → q.txq = [] → exec (.tybRetrainDone p r w) s =
        .next ((s.updPort p.val fun q => { q with rate := r, width := w }).updPort p.val fun q => { q with state := .active })) ∧
      (q.state = .retrain → exec (.tybRetrainTimeout p) s = .next ((s.updPort p.val fun q => { q with state := .detect, error := 4 }).linkLost p.val))) ∧
  (∀ (p : Fin 2) (f : List Byte) (s : State),
      let q := s.port p.val
      let x := leNat (f.take 252)
      q.state = .active → flitOk f = true → q.expect < 4096 → fld x 8 12 = (q.expect + 4095) % 4096 →
      ∃ t, exec (.tybFlitRx p f) s = .next t ∧ (t.port p.val).expect = q.expect ∧ (t.port p.val).arrived = q.arrived ∧ (t.port p.val).part = q.part)

/-- Messages (R281, R289, R392 to R399, R405): the message that arrived first is delivered here, or forwarded with one hop less, or dropped and
counted; a tally request within the open range is admitted, one that
changes a tally in a tick and port, or read; a response completes its remote command; a host message
becomes an event; an offset probe is answered, and a reply ends the measurement. -/
def Obligations.TybenMessagesComplete : Prop :=
  ∀ (p : Fin 2) (s : State),
    (∀ (bs : List Byte) (n : Nat) (rep : Bool) (st : BitVec 64) (rest : List (List Byte × Nat × Bool × BitVec 64)),
      (s.port p.val).arrived = (bs, n, rep, st) :: rest →
      let x := leNat (bs.take 16)
      let vc := vcOf (fld x 32 8)
      let t := s.updPort p.val fun q => { q with arrived := rest }
      let good := s.tyb.node ≠ 0 ∧ fld x 0 14 ≠ 0 ∧ fld x 16 14 ≠ 0 ∧ 1 ≤ fld x 32 8 ∧ fld x 32 8 ≤ 10 ∧ fld x 14 2 = 0 ∧ fld x 30 2 = 0 ∧ fld x 46 18 = 0 ∧
        fld x 64 32 ≤ 2 ^ 31
      let m : Msg := { dst := fld x 0 14, src := fld x 16 14, type := fld x 32 8, hops := fld x 40 6, mseq := fld x 96 32, payload := bs.drop 16, replayed := rep,
                       held := n, stamp := st }
      (¬ good → exec (.tybMsgRx p) s = .next ((t.rxDiscard p.val).freeFlits p.val vc n)) ∧
      (good → fld x 0 14 = s.tyb.node.toNat → exec (.tybMsgRx p) s = .next (t.updPort p.val fun q => { q with inbox := q.inbox ++ [m] })) ∧
      (good → fld x 0 14 ≠ s.tyb.node.toNat → fld x 40 6 ≤ 1 →
        exec (.tybMsgRx p) s = .next ({ t with tyb.hopsExpired := satInc s.tyb.hopsExpired }.freeFlits p.val vc n)) ∧
      (good → fld x 0 14 ≠ s.tyb.node.toNat → 2 ≤ fld x 40 6 → s.route (fld x 0 14) = none →
        exec (.tybMsgRx p) s = .next ({ t with tyb.noRoute := satInc s.tyb.noRoute }.freeFlits p.val vc n)) ∧
      (∀ r, good → fld x 0 14 ≠ s.tyb.node.toNat → 2 ≤ fld x 40 6 → s.route (fld x 0 14) = some r →
        exec (.tybMsgRx p) s = .next (t.enqueue r.portNo (({ m with hops := fld x 40 6 - 1 }.flits none).map fun (f : Flit) =>
          { f with from_ := if n = 0 then none else some p.val })))) ∧
    (∀ (m : Msg) (t : State), s.takeMsg p.val 1 = some (m, t) → m.payload.length = 16 →
      let x := leNat m.payload
      let g := fld x 16 16
      g < 16384 → t.remoteOpen g = true →
      ((fld x 0 8 = 0 ∨ fld x 0 8 = 1) → t.jrn.r.running = false → t.jrn.j.isOpen = false →
        let o : TallyOp := { tally := g, isSet := fld x 0 8 == 1, value := BitVec.ofNat 32 (fld x 32 32), due := t.tick + 1, src := 1 + p.val, resp := some (m.src, fld x 96 32) }
        ((t.port p.val).lastReq = some t.tick → exec (.tallyReqRx p) s = .next s) ∧
        ((t.port p.val).lastReq ≠ some t.tick →
          exec (.tallyReqRx p) s = .next ({ t with tly.ops := t.tly.ops ++ [o] }.updPort p.val fun q => { q with lastReq := some t.tick }))) ∧
      (fld x 0 8 = 2 → exec (.tallyReqRx p) s = .next (t.sendOr m.src 4 (tallyResp (fld x 96 32) 0 0 (t.tallyNext g).toNat)))) ∧
    (∀ (m : Msg) (t : State) (i : Nat) (c : RemoteCmd), s.takeMsg p.val 4 = some (m, t) →
      let x := leNat m.payload
      findIdx (fun c => c.reqId == fld x 0 32 && c.node == m.src) t.tly.remote 0 = some i → t.tly.remote[i]? = some c → fld x 48 8 = 0 → fld x 32 16 = 0 →
      exec (.tallyRespRx p) s = .next ({ t with tly.remote := dropAt i t.tly.remote }.reply c.h { r0 := if 2 ≤ c.op then fld x 64 32 else 0 })) ∧
    (∀ (m : Msg) (t : State), s.takeMsg p.val 8 = some (m, t) →
      exec (.hostMsgRx p) s = .next (t.blockEvent 0x8006 (some (m.src + leNat (m.payload.take 28) * 2 ^ 32)))) ∧
    (∀ (m : Msg) (t : State), s.takeMsg p.val 9 = some (m, t) → exec (.offsetProbeRx p) s = .next (t.sendVia p.val m.src 10
      (leBytes 8 (leNat (m.payload.take 8)) ++ leBytes 8 m.stamp.toNat ++ leBytes 8 t.now.toNat ++ leBytes 8 t.planStart.toNat))) ∧
    (∀ (m : Msg) (t : State) (o : OffsetRun), s.takeMsg p.val 10 = some (m, t) → t.tyb.offs = some o →
      let w := fun i => fld (leNat m.payload) (64 * i) 64
      o.port = p.val → w 0 = o.t1.toNat → m.replayed = false → o.spoiled = false →
      let off := (wdiff 64 (w 1) (w 0) + wdiff 64 (w 2) m.stamp.toNat) / 2
      let del := (wdiff 64 m.stamp.toNat (w 0) - wdiff 64 (w 2) (w 1)) / 2
      exec (.offsetReplyRx p) s = .next ({ t with tyb.offs := none }.replyOpt o.h { ext := some (([off, del, sgn 64 (w 3) - off - sgn 64 t.planStart.toNat].map (wrap 64) ++ [w 0, w 1, w 2, m.stamp.toNat]).flatMap (leBytes 8)) }))

/-- The partner protocol while it runs (R400 to R404): a heartbeat is sent and its number advances; one that comes brings the partner up; a
partner that is lost is noted and raises its fault; a line of a job signs its slot, and the partner's signature is compared; a newer
witness is stored. -/
def Obligations.PartnerProtocolCompletes : Prop :=
  ∀ s : State, s.partnerRuns = true → s.saf.raised = [] →
    (∃ t, exec .heartbeatSend s = .next t ∧ t.tyb.partner.seq = s.tyb.partner.seq + 1 ∧ t.saf.summary = 0 ∧ t.mem = s.mem) ∧
    (∀ (p : Fin 2) (m : Msg) (t : State), s.takeMsg p.val 5 = some (m, t) → s.tyb.partner.port = p.val → s.tyb.partner.peer = m.src → m.replayed = true →
      ∃ u, exec (.heartbeatRx p) s = .next u ∧ u.tyb.partner.up = true ∧ u.tyb.partner.lostSeen = false ∧
        u.tyb.hbRxSeq = BitVec.ofNat 32 (fld (leNat m.payload) 0 32) ∧ u.tyb.partner.lastRecv = m.stamp) ∧
    (s.tyb.partner.lostSeen = false → exec .partnerLost s =
      .next ({ s with tyb.lost := true, tyb.partner := { s.tyb.partner with up := false, lostSeen := true } }.raiseDev 0x0801).settle) ∧
    (∀ (n : Fin 64) (slot : BitVec 4) (data : List Byte) (j : Nat), (s.rod n.val).job = some j → data.length = 64 →
      (s.jobRec j).map JobRec.part = some (s.tyb.sigs.get slot.toNat).part → fld (leNat data) 32 32 = 0 → (s.tyb.sigs.get slot.toNat).enable = true →
      exec (.tybSigWrite n slot data) s = .next ((s.toPartner 6 (leBytes 4 slot.toNat ++ data)).signature slot.toNat true
        (BitVec.ofNat 32 (fld (leNat data) 0 32)) (BitVec.ofNat 448 (fld (leNat data) 64 448))).settle) ∧
    (∀ (p : Fin 2) (m : Msg) (t : State), s.takeMsg p.val 6 = some (m, t) → s.tyb.partner.port = p.val → s.tyb.partner.peer = m.src →
      fld (leNat m.payload) 0 32 < 16 → (s.tyb.sigs.get (fld (leNat m.payload) 0 32)).enable = true →
      exec (.signatureRx p) s = .next (t.signature (fld (leNat m.payload) 0 32) false (BitVec.ofNat 32 (fld (leNat m.payload) 32 32))
        (BitVec.ofNat 448 (fld (leNat m.payload) 96 448))).settle) ∧
    (∀ (p : Fin 2) (m : Msg) (t : State), s.takeMsg p.val 7 = some (m, t) → s.tyb.partner.port = p.val → s.tyb.partner.peer = m.src →
      let w := leNat (m.payload.take 60)
      fld s.tyb.witness.toNat 384 64 + fld s.tyb.witness.toNat 448 32 * 2 ^ 64 < fld w 384 64 + fld w 448 32 * 2 ^ 64 →
      exec (.witnessRx p) s = .next { t with tyb.witness := BitVec.ofNat 480 w })

/-! ### Memory controllers, safety -/

/-- The memory controllers at work (R413, R416, R419, R420, R424 to R427): a whole-line read at the head of its queue that has crossed is
served in a data slot at its position and goes back to the host; an access of several slots moves its data in its last; a refresh round keeps the hottest code and adds the write-link corrections; the scrubber steps its
bank; initialisation trains every channel, or fails and raises MEM_INIT_FAIL. -/
def Obligations.MemoryCompletes : Prop :=
  (∀ (island : Fin 4) (j : Nat) (q : MemReq) (s : State), s.memc.state = 2 → s.plannable j = true → s.pln.state = .loaded →
    s.memc.queues = ⟨[(queueKey island.val q.part q.port, [q])]⟩ → queueKey island.val q.part q.port / 512 = island.val → bankOf q.addr = j % 16 → q.wr = none → q.fn = some 0 →
    q.len = 64 → q.addr % 64 = 0 → q.left = 0 → s.protectedAt q.addr = false → s.errs.cells = [] → s.saf.raised = [] →
    (q.arrival + 8 ≤ s.tick → exec (.memDataSlot island j) s = .next { s with
      memc.queues := {}, hif.cpl.data := padTo q.at_ s.hif.cpl.data ++ s.rd q.addr 64 ++ s.hif.cpl.data.drop (q.at_ + 64) }) ∧
    (s.tick < q.arrival + 8 → exec (.memDataSlot island j) s = .next s)) ∧
  (∀ (q : MemReq) (rest : List MemReq) (s : State),
    (q.left = 1 → s.continueQueue (q :: rest) = (s.serve q).continueQueue rest) ∧
    (2 ≤ q.left → s.continueQueue (q :: rest) = ((s.continueQueue rest).1, { q with left := q.left - 1 } :: (s.continueQueue rest).2))) ∧
  (∀ (c : Fin 32) (temp : Byte) (high : Bool) (n : Word) (s : State), s.memc.state = 2 → (high = false ∨ (s.memc.train.get c.val).high = true) → s.saf.raised = [] →
    exec (.memRefresh c temp high n false) s = .next { s with
      memc.train := s.memc.train.upd c.val fun t => { t with hottest := if t.hottest.toNat < temp.toNat then temp else t.hottest, high := high },
      memc.wrCe := s.memc.wrCe.upd c.val fun x => BitVec.ofNat 32 (min 0xFFFFFFFF (x.toNat + n.toNat)) }) ∧
  (∀ (c : Fin 32) (b : Fin 16) (s : State), s.memc.state = 2 → s.scrubLines ≠ 0 → s.errs.cells = [] → s.saf.raised = [] →
    ∃ t, exec (.memScrub c b) s = .next t ∧ t.memc.scrub.get (16 * c.val + b.val) = s.memc.scrub.get (16 * c.val + b.val) + 1 ∧
      (∀ k, k ≠ 16 * c.val + b.val → t.memc.scrub.get k = s.memc.scrub.get k) ∧ t.mem = s.mem ∧ t.memc.rdCe = s.memc.rdCe ∧ t.memc.inlineCe = s.memc.inlineCe) ∧
  (∀ (dev : MemDev) (s : State), s.sec.boot = .memInit → s.memc.state ≠ 2 → s.memc.state ≠ 3 → s.pwr.warm = false → dev.lp5x = s.sec.settings.lp5x → dev.density = s.sec.settings.density →
    (s.sec.settings.memRate = true → dev.lp5x = true) →
    (∃ t, exec (.memInitSequence dev none) s = .next t ∧ t.memc.state = 2 ∧ t.memc.size = memSize s.sec.settings.density s.sec.settings.twoRanks ∧ t.pwr.memOnce = true ∧
      (∀ c < 32, (t.memc.train.get c).step = 6 ∧ (t.memc.train.get c).failed = false) ∧ t.memc.rate = s.sec.settings.memRate ∧ t.mem = s.mem) ∧
    (∀ (c : Fin 32) (st : Fin 7), ∃ u : State, exec (.memInitSequence dev (some (c, st))) s = .next u.settle ∧ u.memc.state = 3 ∧ u.memc.size = 0 ∧
      (u.memc.train.get c.val).failed = true ∧ u.saf.raised = s.saf.raised ++ [{ code := 0x1004 }]))

/-- Safety commands of PF0 (R431, R444, R447 to R449): a reaction at least as strong as the default is set for a fault and class that allow it and is
read back; a golden entry takes its expected signature; a fault is injected against the device or a running job; SAF_QUERY answers the registers and
the summary word. Safety mechanisms (R436, R437, R442, R449): the firmware releases the pins outside the safe state and no other writer does; a
difference halts the supervisor and raises its fault; comparators that disagree and late watchdogs raise theirs. -/
def Obligations.SafetyCompletes : Prop :=
  (∀ (h : Hdr) (s : State), pf0 s h →
      (∀ (code : BitVec 16) (cls r : Byte), classOk code.toNat cls.toNat = true → (if classDev code.toNat cls.toNat then r = 0 ∨ r = 3 else 1 ≤ r.toNat ∧ r.toNat ≤ 3) →
        classDefault code.toNat cls.toNat ≤ r.toNat → fixedFault code.toNat = false → (s.pln.state = .none ∨ s.pln.state = .loaded) →
        ∃ t : State, exec (.safReactSet h code cls r) s = .next (t.reply h {}) ∧ t.reactionOf code.toNat cls.toNat (classDev code.toNat cls.toNat) = r.toNat ∧
          t = { s with saf.reacts := t.saf.reacts } ∧ ∀ k, k ≠ 8 * code.toNat + cls.toNat → t.saf.reacts.get k = s.saf.reacts.get k) ∧
      (∀ (code : BitVec 16) (cls : Byte), classOk code.toNat cls.toNat = true → exec (.safReactQuery h code cls) s = .next (s.reply h
        { r0 := s.reactionOf code.toNat cls.toNat (classDev code.toNat cls.toNat), r1 := classDefault code.toNat cls.toNat, r2 := b2n (fixedFault code.toNat) })) ∧
      (∀ (i : Byte) (x : BitVec 64) (pl : Plan), s.pln.plan = some pl → (∃ g ∈ pl.goldens, g.index = i.toNat) → s.pln.state = .loaded →
        exec (.safGoldenSet h i x) s = .next ({ s with saf.goldens := s.saf.goldens.upd i.toNat fun g => { g with expect := some x } }.reply h {})) ∧
      (∀ (code job : BitVec 16), canDev code.toNat = true →
        exec (.safFaultInject h code 1 job) s = .next ((s.raise { code := code.toNat, injected := true }).settle.reply h {})) ∧
      (∀ (code job : BitVec 16), canJob code.toNat = true → (s.jobRec job.toNat).isSome = true → (s.jobRun job.toNat).state = .running →
        exec (.safFaultInject h code 0 job) s = .next ((s.raise { code := code.toNat, job := some job.toNat, injected := true }).settle.reply h {})) ∧
      (s.hasResult h = true → exec (.safQuery h) s =
        .next (s.reply h { ext := some ((List.range 15).flatMap (fun i => leBytes 4 (s.safReg (4 * i))) ++ leBytes 4 s.faultSummary) }))) ∧
  (∀ s : State,
      (∀ v : Word, s.saf.safe = false → v.getLsbD 0 = true → exec (.safCtlRelease .firmware v) s = .next { s with saf.pins := false }) ∧
      (∀ (w : Writer) (v : Word), w ≠ .firmware ∨ s.saf.safe = true → exec (.safCtlRelease w v) s = .next s) ∧
      (∀ d : Bool, s.saf.supHalted = false → exec (.supLockstep d) s =
        .next ({ s with saf.supMismatch := satInc s.saf.supMismatch, saf.supHalted := true }.raiseDev (if d then 0x1102 else 0x1101)).settle) ∧
      exec .safDisagree s = .next (s.raiseDev 0x1103).settle ∧
      (∀ (i : Byte) (n : Word) (pl : Plan) (e : WdgEnt), s.pln.plan = some pl → pl.watchdogs = [e] → e.index = i.toNat → e.late ≠ 0 → s.pln.state = .running →
        (e.kind = 2 ∨ e.kind = 3) → (s.saf.wdgs.get i.toNat).state = 2 → e.late ≤ s.tick - (s.saf.wdgs.get i.toNat).last → ∃ t : State, exec (.wdgLate i n none) s = .next t.settle ∧
          (t.saf.wdgs.get i.toNat).state = 1 ∧ (t.saf.wdgs.get i.toNat).lateSeen = true ∧
          t.saf.raised = s.saf.raised ++ [({ code := 0x0404, detail := BitVec.ofNat 32 e.index, detail2 := BitVec.ofNat 32 (s.tick - (s.saf.wdgs.get i.toNat).last) } : Raise)]) ∧
      (∀ (i : Byte) (n : Word) (j : Option (BitVec 10)) (pl : Plan) (e : WdgEnt), s.pln.plan = some pl → pl.watchdogs = [e] → e.index = i.toNat → e.late ≠ 0 →
        s.pln.state = .running → e.kind = 4 → e.late ≤ n.toNat → ∃ t : State, exec (.wdgLate i n j) s = .next t.settle ∧
          (t.saf.wdgs.get i.toNat).lateSeen = true ∧
          t.saf.raised = s.saf.raised ++ [{ code := 0x0404, job := j.map BitVec.toNat, detail := BitVec.ofNat 32 e.index, detail2 := BitVec.ofNat 32 n.toNat }]))

/-! ### Security and boot -/

/-- Commands of PF0 that program the OTP, when no supply hold and no other programming stands in the way (R452, R455, R456, R460 to R463, R469, R473):
each begins to program the rows its rule gives and is answered by OTP_PROGRAM_DONE; an advance to a value already reached answers at once, and
OTP_QUERY reads rows with the fleet key's shown as zero. Programming ends or stops (R462, R463, R484): the rows and the commit word take their bits
and the command succeeds; a row that fails its verify ends it with 0xA009; a suspended write that stays below the warning level too long ends it with
0xA007; the hold ends when every rail has been above its warning level for its time. -/
def Obligations.OtpCompletes : Prop :=
  (∀ (h : Hdr) (s : State), pf0 s h → s.pwr.hold = 0 → s.sec.job = none →
      (let prog := fun (s : State) (kind which value : Nat) (rows commit : List (Nat × Word)) => ({ s with sec.job := some { h := some h, kind := kind, which := which, value := value, rows := rows, commit := commit }, sec.suspended := false } : State);
      (∀ (x : BitVec 1024) (i : Nat), settingsBad x.toNat = false → s.sec.noSlots = false → s.sec.nextSlot = some i →
        exec (.otpCommit h x) s = .next (prog s 1 i 0 (slotRows (settingsSlot i) (leBytes 128 x.toNat)) (slotCommit (settingsSlot i) (leBytes 128 x.toNat)))) ∧
      (∀ k v : Byte, k.toNat ≤ 2 → v.toNat ≤ s.sec.counter k.toNat → exec (.svnAdvance h k v) s = .next (s.reply h {})) ∧
      (∀ (k v : Byte) (x : Nat), k.toNat ≤ 2 → s.sec.counter k.toNat < v.toNat → s.svnOf k.toNat = some x → v.toNat ≤ x →
        exec (.svnAdvance h k v) s = .next (prog s 2 k.toNat v.toNat (s.sec.pulses k.toNat v.toNat) [])) ∧
      (∀ (d : List Byte) (i : Nat), d.length = 148 → s.sec.lifecycle = .shipped → (i = 0 ∨ i = 1) → s.sec.consumed (provSlot i) = false →
        (i = 1 → s.sec.consumed (provSlot 0) = true) →
        exec (.ownerProvision h d) s = .next (prog s 3 i 0 (slotRows (provSlot i) d) (slotCommit (provSlot i) d))) ∧
      (∀ j : Byte, j.toNat ≤ 1 → s.sec.revoked (1 - j.toNat) = false →
        exec (.ownerKeyRevoke h j) s = .next (prog { s with sec.keys := s.sec.keys.set j.toNat none } 4 j.toNat 0 (s.sec.markPulses 104 j.toNat) [])) ∧
      ((s.sec.lifecycle = .owned ∨ s.sec.lifecycle = .shipped) → exec (.lcRetire h) s = .next (prog s 5 0 0 (s.sec.markPulses 77 1) [])) ∧
      (s.sec.ledgerOpen = false → s.sec.counter 3 < 64 → exec (.ledgerNew h) s = .next (prog s 6 3 (s.sec.counter 3 + 1) (s.sec.pulses 3 (s.sec.counter 3 + 1)) [])) ∧
      (∀ a n : BitVec 16, s.hasResult h = true → 1 ≤ n.toNat → n.toNat ≤ 60 → a.toNat + n.toNat ≤ 1024 → ∃ m : List Byte, m.length = 8 ∧
        exec (.otpQuery h a n) s = .next (s.reply h { ext := some (m ++ (List.range n.toNat).flatMap fun i =>
          leBytes 4 (if fleetRow (a.toNat + i) then 0 else (s.sec.otp.get (a.toNat + i)).toNat)) })))) ∧
  ((∀ (j : OtpJob) (s : State), s.sec.job = some j → s.sec.suspended = false → ∃ t : State, exec (.otpProgramDone none) s = .next (t.replyOpt j.h {}) ∧
      t.sec.job = none ∧ t.sec.otp = ((j.rows ++ j.commit).foldl (fun (o : Tab Word) p => o.upd p.1 (· ||| p.2)) s.sec.otp)) ∧
    (∀ (j : OtpJob) (r : BitVec 10) (lost x : Word) (s : State), s.sec.job = some j → s.sec.suspended = false → (r.toNat, x) ∈ j.rows →
      ∃ t : State, exec (.otpProgramDone (some (r, lost))) s = .next (t.replyOpt j.h { status := 0xA009 }) ∧ t.sec.job = none ∧
        (∀ c ∈ j.commit, (∀ p ∈ j.rows, p.1 ≠ c.1) → t.sec.otp.get c.1 = s.sec.otp.get c.1)) ∧
    (∀ (j : OtpJob) (s : State), s.sec.job = some j → s.sec.suspended = true → ∃ t : State, exec .otpSuspendTimeout s = .next (t.replyOpt j.h { status := 0xA007 }) ∧
      t.sec.job = none ∧ t.sec.suspended = false) ∧
    (∀ (r : Fin 4) (s : State), s.pwr.below &&& railBit r = 0 → ∃ t, exec (.otpHoldExpiry r) s = .next t ∧ t.pwr.hold = s.pwr.hold &&& ~~~railBit r ∧
      (t.pwr.hold = 0 → t.sec.suspended = false) ∧ t.sec.job = s.sec.job))

/-- OTP bits only ever go from 0 to 1 (R450): whatever step is taken, no bit of any row that read 1 reads 0 after it, resets among them. -/
def Obligations.OtpBitsStaySet : Prop :=
  ∀ s t : State, step s = .next t → ∀ r, s.sec.otp.get r &&& t.sec.otp.get r = s.sec.otp.get r

/-- Keys, override, attestation and debug (R456, R461, R464 to R466): a key with the right hash is loaded and one with another leaves a SECURITY
record and SEC_AUTH; an override of a SHIPPED part is applied and memory initialisation begins; a report and its signature go to host
memory; a valid token opens debug; JTAG selects its register. -/
def Obligations.SecurityCommandsComplete : Prop :=
  ∀ (h : Hdr) (s : State), pf0 s h →
    (∀ (j : Byte) (k : List Byte), j.toNat ≤ 1 → s.sec.revoked j.toNat = false → exec (.ownerKeyLoad h j k) s = .next
      (if s.sec.prov.isSome = true ∧ sha384 k = s.sec.keyHash j.toNat then
        { s with sec.keys := s.sec.keys.set j.toNat (some (BitVec.ofNat 768 (leNat k))) }.reply h {}
       else (s.securityRec 0xA004).reply h { status := 0xA004 })) ∧
    (∀ x : BitVec 2048, fld x.toNat 0 8 = 0x10 → fld x.toNat 14 2 = 0 → fld x.toNat 17 15 = 0 → x.toNat < 2 ^ 1856 → settingsBad (fld x.toNat 64 1024) = false →
      s.sec.boot = .awaitSettings → s.sec.settings.overrideAllow = true → s.sec.lifecycle = .shipped →
      ∃ t : State, exec (.settingsOverride h x) s = .next (t.reply h {}) ∧ t.sec.boot = .memInit ∧ t.sec.settings = settingsOf (fld x.toNat 64 1024) ∧
        t.sec.overrideOn = some (settingsOf (fld x.toNat 64 1024)) ∧ t.pwr.plan = (settingsOf (fld x.toNat 64 1024)).powerPlan ∧ t.sec.otp = s.sec.otp) ∧
    (∀ (x : BitVec 384) (a : BitVec 64), a.toNat % 64 = 0 → inAperture a.toNat 352 = true → s.sec.lifecycle = .owned →
      exec (.attest h x a) s = .next ((s.wr a.toNat (s.report x ++ ecdsaSign s.sec.fleetKey (sha384 (s.report x)))).reply h {})) ∧
    (∀ c : List Byte, s.hasResult h = true → s.sec.challenge = some c → exec (.debugChallenge h) s = .next (s.reply h { ext := some c })) ∧
    (∀ tok : List Byte, tok.length = 160 → leNat ((tok.drop 52).take 1) ≤ 1 → (∀ b ∈ (tok.drop 53).take 11, b = 0) → s.sec.lifecycle = .owned →
      s.sec.settings.debugPolicy = 1 → exec (.debugUnlock h tok) s = .next
        (if s.sec.challenge = some (tok.take 48) ∧ leNat ((tok.drop 48).take 4) = s.sec.fleetId ∧
            s.sec.ownerOk (leNat ((tok.drop 52).take 1)) (tok.take 64) ((tok.drop 64).take 96) = true then
          ({ s with sec.debugOpen := true }.securityRec 0).reply h {}
         else (s.securityRec 0xA004).reply h { status := 0xA004 })) ∧
    (exec (.jtagInstruction .idcode) s = .next { s with sec.jtag := 0x2064A0E9 } ∧ exec (.jtagInstruction .bypass) s = .next { s with sec.jtag := 0 } ∧
      (s.sec.debugIsOpen = false → exec (.jtagInstruction .other) s = .next { s with sec.jtag := 0 }) ∧
      exec .jtagTestReset s = .next { s with sec.jtag := 0x2064A0E9 })

/-- Ledger commands of PF0 (R468 to R470): a chain whose last record is authentic and of the epoch in force is opened and every waiting record
takes its number; LEDGER_FETCH answers the oldest numbered record, LEDGER_ACK drops what was fetched up to its number, LEDGER_NOTE adds a
record while there is room. -/
def Obligations.LedgerCommandsComplete : Prop :=
  ∀ (h : Hdr) (s : State), pf0 s h →
    (∀ r : List Byte, r.length = 256 → recordBad (leNat r) = false → s.sec.ledgerOpen = false → r.drop 208 = s.sec.seal (r.take 208) → fld (leNat r) 32 32 = s.sec.counter 3 →
      ∃ t : State, exec (.ledgerOpen h r) s = .next (t.reply h {}) ∧ t.sec.ledgerOpen = true ∧ t.sec.queue.length = s.sec.queue.length ∧
        (∀ q ∈ t.sec.queue, q.bytes.isSome = true) ∧ t.sec.epoch = BitVec.ofNat 32 (s.sec.counter 3)) ∧
    (∀ (r : LedgerRec) (rest : List LedgerRec) (b : List Byte), s.hasResult h = true → s.sec.queue = r :: rest → r.bytes = some b → s.sec.fetched = none →
      exec (.ledgerFetch h) s = .next ({ s with sec.fetched := some r.seq }.reply h { ext := some b })) ∧
    (s.sec.queue = [] → exec (.ledgerFetch h) s = .next (s.reply h { status := 0xA00E })) ∧
    (∀ (q : BitVec 64) (n : Nat), s.sec.fetched = some n → q.toNat ≤ n → s.sec.lostNow = 0 →
      exec (.ledgerAck h q) s = .next ({ s with sec.queue := s.sec.queue.filter fun r => r.bytes.isNone || decide (q.toNat < r.seq) }.reply h {})) ∧
    (∀ d : List Byte, d.length = 64 → s.sec.ledgerOpen = true → s.sec.queue.length < 64 →
      ∃ t : State, exec (.ledgerNote h d) s = .next (t.reply h {}) ∧ t.sec.headSeq = BitVec.ofNat 64 (s.sec.headSeq.toNat + 1) ∧
        ∃ r : LedgerRec, t.sec.queue = s.sec.queue ++ [r] ∧ r.type = 7 ∧ r.payload = BitVec.ofNat 1024 (leNat d) ∧ r.seq = s.sec.headSeq.toNat + 1)

/-- The boot flow (R426, R454, R457, R458, R472): the ROM reads the OTP and waits for an image once a link of R252's rates has come up; PF0 writes it and lets it be checked; one that
passes starts, one that fails is counted and leaves the ROM waiting; the wait ends in memory initialisation; READY follows it; a WEAR
record closes each hour. -/
def Obligations.BootCompletes : Prop :=
  ∀ s : State,
    (∀ (marks : List (BitVec 10 × Fin 4)) (l : UcieLink),
      let u : State := { s with
        sec.otpBad := marks.foldl (fun (t : Tab Nat) m => if m.2 = 1 ∨ m.2 = 2 then t.set m.1.toNat m.2.val else t) {},
        sec.weak := marks.foldl (fun (t : Tab Bool) m => if m.2 = 3 then t.set m.1.toNat true else t) {} }
      s.sec.boot = .rom → u.sec.lifeNow ≠ .test → s.pwr.warm = false →
      (5 < l.rate.toNat → exec (.bootRom marks l) s = .next s) ∧
      (l.rate.toNat ≤ 5 →
      ∃ t, exec (.bootRom marks l) s = .next t ∧ t.sec.boot = .bootWait ∧ t.sec.lifecycle = u.sec.lifeNow ∧ t.sec.settings = u.sec.active ∧
        t.pwr.plan = u.sec.active.powerPlan ∧ t.tim.jumpLimit = u.sec.active.jumpLimit ∧ t.hif.linkUp = true ∧ t.hif.rate = l.rate ∧ t.hif.width = l.narrow ∧
        t.sec.otp = s.sec.otp)) ∧
    (∀ (off : BitVec 19) (d : List Byte), s.sec.boot = .bootWait → d.length ≤ 0x80000 - off.toNat →
      exec (.secBootWindowWrite 0 off d) s = .next { s with sec.window := d.zipIdx.foldl (fun (t : Tab Byte) x => t.set (off.toNat + x.2) x.1) s.sec.window }) ∧
    (∀ w : Word, s.sec.boot = .bootWait → w.getLsbD 0 = true → ∃ t, exec (.secBootGo 0 w) s = .next t ∧ t.sec.result = BitVec.ofNat 4 s.sec.verify ∧
      (s.sec.verify = 1 → t.sec.boot = .awaitSettings ∧ t.pgk.ready = true ∧ t.sec.fwSvn = fld (leNat (s.sec.image 0 256)) 40 6 ∧
        t.sec.fwMeasure = BitVec.ofNat 384 (leNat (s.sec.measure (fld (leNat (s.sec.image 0 256)) 64 32)))) ∧
      (s.sec.verify ≠ 1 → t.sec.boot = .bootWait ∧ t.pgk.ready = s.pgk.ready ∧ (s.sec.failures ≠ 0xFF → t.sec.failures = s.sec.failures + 1))) ∧
    (s.sec.boot = .awaitSettings → ∃ t, exec .overrideWaitExpiry s = .next t ∧ t.sec.boot = .memInit ∧ t.memc.state = 1 ∧ t.sec.settings = s.sec.settings) ∧
    (s.sec.boot = .memInit → (s.memc.state = 2 ∨ s.memc.state = 3) →
      ∃ t, exec .bootReady s = .next t ∧ t.sec.boot = .ready ∧ t.saf.pins = s.saf.safe ∧ t.sns.ready = true ∧ t.sec.wear.hour = s.sec.wear.hour) ∧
    (∀ (age : BitVec 384) (temps : BitVec 128), s.sec.boot = .ready → s.sec.queue.length < 64 →
      ∃ t, exec (.wearRecord age temps) s = .next t ∧ t.sec.wear.hour = s.sec.wear.hour + 1 ∧ t.sec.queue.length = s.sec.queue.length + 1 ∧
        t.sec.wear.ces = s.wearSums.1 ∧ t.sec.wear.ues = s.wearSums.2.1)

/-! ### Power, clocks and resets; trace -/

/-- Resets (R463, R477, R486 to R490): one of power-on scope leaves reset values but for the OTP, the levels of the rails and of the SAFE_EN_N pins, the host's
memory and what waits, with its cause and rail; a warm one keeps time, memory outside the scratchpads, memory training and counters, the boot window and the
loaded keys, and drops plan, rings, sessions and the ledger; one that comes before memory was first ready is a power-on reset. -/
def Obligations.ResetsComplete : Prop :=
  ∀ s : State, s.sec.job = none →
    (let on := fun (cause : BitVec 3) (rail : BitVec 2) => ({ State.reset with pending := s.pending, free := s.free, tick := s.tick, mem := ⟨s.mem.cells.filter fun c => decide (apertureBase ≤ c.1)⟩, sec.otp := s.sec.otp, sec.otpBad := s.sec.otpBad, sec.weak := s.sec.weak, pwr.level := s.pwr.level, cle.safeIn := s.cle.safeIn, pwr.cause := cause, pwr.rail := rail } : State);
    exec .powerOnReset s = .next (on 0 0) ∧
    (∀ r : Fin 4, exec (.supplyReset r true) s = .next (on 1 (BitVec.ofNat 2 r.val)) ∧ exec (.supplyReset r false) s = .next (on 0 0)) ∧
    exec .clockLossReset s = .next (on 5 0) ∧
    (∀ c : PwrCause, s.pwr.memOnce = false → exec (.warmReset c) s = .next (on 0 0)) ∧
    (∀ c : PwrCause, s.pwr.memOnce = true → ∃ t, exec (.warmReset c) s = .next t ∧ t.pwr.cause = BitVec.ofNat 3 (PwrCause.code c) ∧
      (s.pwr.warmCount ≠ 0xFFFF → t.pwr.warmCount = s.pwr.warmCount + 1) ∧ t.tim.time = s.tim.time ∧ t.sec.otp = s.sec.otp ∧ t.sec.window = s.sec.window ∧
      t.sec.keys = s.sec.keys ∧ t.sec.boot = .rom ∧ t.sec.ledgerOpen = false ∧ t.sec.debugOpen = false ∧ t.pln = {} ∧ t.hif.rings = {} ∧ t.hif.sessions = {} ∧
      t.memc.rate = s.memc.rate ∧ t.memc.ueCount = s.memc.ueCount ∧ t.memc.state = 0 ∧ t.saf = {} ∧
      (∀ a, t.mem.get a = if inSpads a 1 then 0 else s.mem.get a)) ∧
    (∀ w : Word, w.toNat % 256 = 0x5A → exec (.pwrResetReq 0 w) s = exec (.warmReset .request) s) ∧
    (∀ (fn : Fin 16) (w : Word), fn ≠ 0 ∨ w.toNat % 256 ≠ 0x5A → exec (.pwrResetReq fn w) s = .next s))

/-- Power-plan, guard, temperature and supply events (R478 to R485, R492): a plan that the loaded plan fits is selected and another is refused;
a sample below every limit is recorded, one above the die's cap trips the guard and raises its fault; the hottest sensor is recorded and
130 °C raises THERM_CRIT; a rail that falls below its warning level is latched, holds the OTP and is counted. -/
def Obligations.PowerCompletes : Prop :=
  (∀ (w : Word) (pl : Plan) (s : State), s.pln.plan = some pl → (∀ e ∈ pl.wins, e.power ≤ powerCap (w.toNat % 4)) → pl.powerMin ≤ w.toNat % 4 →
    exec (.pwrPlanWrite 0 w) s = .next { s with pwr.plan := w.setWidth 2 }) ∧
  (∀ (w : Word) (pl : Plan) (e : WinEnt) (s : State), s.pln.plan = some pl → e ∈ pl.wins → powerCap (w.toNat % 4) < e.power →
    exec (.pwrPlanWrite 0 w) s = .next { s with pwr.planReject := true }) ∧
  (∀ (w : Word) (s : State), (85 ≤ w.toNat % 256 → w.toNat % 256 ≤ 125 → exec (.pwrThermWarnWrite 0 w) s = .next { s with pwr.warnAt := w.setWidth 8 }) ∧
    (w.toNat % 256 < 85 ∨ 125 < w.toNat % 256 → exec (.pwrThermWarnWrite 0 w) s = .next { s with pwr.cfgReject := true }) ∧
    (∀ fn : Fin 16, fn ≠ 0 → exec (.pwrPlanWrite fn w) s = .next s ∧ exec (.pwrThermWarnWrite fn w) s = .next s ∧ exec (.pwrSupClear fn w) s = .next s)) ∧
  (∀ (w : Word) (s : State), ∃ t, exec (.pwrSupClear 0 w) s = .next t ∧ t = { s with pwr.supMin := t.pwr.supMin } ∧
    ∀ r < 4, (w.getLsbD r = true → s.pwr.level.get r ≠ 0 → t.pwr.supMin.get r = s.pwr.level.get r) ∧ (w.getLsbD r = false → t.pwr.supMin.get r = s.pwr.supMin.get r)) ∧
  (∀ (avg : List Word) (top : Word) (s : State), avg.length = 16 → s.saf.raised = [] → (∀ i < 17, s.pwr.tripped.get i = false) →
    (∀ x ∈ avg, x.toNat ≤ 3600000) →
    (top.toNat ≤ powerCap s.pwr.plan.toNat * 105000 → exec (.guardSample (avg ++ [top])) s = .next { s with
      pwr.powerNow := BitVec.ofNat 32 (top.toNat / 10000), pwr.powerPeak := BitVec.ofNat 32 (max (top.toNat / 10000) s.pwr.powerPeak.toNat) }) ∧
    (powerCap s.pwr.plan.toNat * 105000 < top.toNat → ∃ t : State, exec (.guardSample (avg ++ [top])) s = .next t.settle ∧ t.pwr.tripped.get 16 = true ∧
      t.pwr.guardTrip = true ∧ t.saf.raised = [{ code := 0x1104 }])) ∧
  (∀ (temps : List (BitVec 16)) (hot : Int) (n : Nat) (s : State), temps ≠ [] → hottest temps = (hot, n) → s.saf.raised = [] →
    (hot < 4 * (s.pwr.warnAt.toNat : Int) → hot < 520 → ∃ t, exec (.thermSample temps) s = .next t ∧ t.pwr.thermNow = BitVec.ofNat 32 (wrap 16 hot + n * 2 ^ 16) ∧
      t.pwr.critArmed = true ∧ t.pwr.warnArmed = (s.pwr.warnArmed || decide (hot ≤ 4 * (s.pwr.warnAt.toNat : Int) - 20)) ∧ t.saf = s.saf) ∧
    (520 ≤ hot → s.pwr.critArmed = true → ∃ t : State, exec (.thermSample temps) s = .next t.settle ∧ t.pwr.thermCrit = true ∧ t.pwr.critArmed = false ∧
      ({ code := 0x1107 } : Raise) ∈ t.saf.raised)) ∧
  (∀ (r : Fin 4) (low : BitVec 16) (s : State), s.pwr.below &&& railBit r = 0 → ∃ t, exec (.supplyWarn r low) s = .next t ∧
    t.pwr.below = s.pwr.below ||| railBit r ∧ t.pwr.warn = s.pwr.warn ||| railBit r ∧ t.pwr.hold = s.pwr.hold ||| railBit r ∧ t.pwr.supplyWarn = true ∧
    t.pwr.warnCount = satInc s.pwr.warnCount ∧ t.sec.suspended = s.sec.job.isSome ∧ (s.pwr.supplyWarn = false → t.pwr.warnTime = s.now)) ∧
  (∀ (r : Fin 4) (low : BitVec 16) (s : State), s.pwr.underHeld &&& railBit r = 0 → ∃ t : State, exec (.supplyUnderSpec r low) s = .next t.settle ∧
    t.pwr.under = s.pwr.under ||| railBit r ∧ t.pwr.underSpec = true ∧ t.saf.raised = s.saf.raised ++ [{ code := 0x1105 }]) ∧
  (∀ (r : Fin 4) (low level : BitVec 16) (s : State), ∃ t, exec (.supplyWarnClear r low level) s = .next t ∧ t.pwr.below = s.pwr.below &&& ~~~railBit r ∧
    t.pwr.underHeld = s.pwr.underHeld &&& ~~~railBit r ∧ t.pwr.hold = s.pwr.hold ∧ t.pwr.warn = s.pwr.warn)

/-- Trace commands of PF0 with debug open (R494 to R505, R509): configuration, levels, start, stop, trigger, dump and counter read. -/
def Obligations.TraceCommandsComplete : Prop :=
  ∀ (h : Hdr) (s : State), pf0 s h → s.sec.debugIsOpen = true →
    (∀ x : BitVec 384, let p := fun b w => par x.toNat b w
      1 ≤ p 0 8 → p 0 8 ≤ 2 → p 1 8 < 64 → p 4 16 ≠ 0xFFFF → p 6 8 ≤ 66 → p 12 8 ≤ 3 → p 16 64 % 4096 = 0 → destBytesOk (p 24 32) = true → inAperture (p 16 64) (p 24 32) = true →
      s.trc.mode = 0 → exec (.traceConfig h x) s = .next ({ s with
        trc.cfgMode := BitVec.ofNat 2 (p 0 8), trc.trigMask := BitVec.ofNat 8 (p 1 8), trc.trigFault := BitVec.ofNat 16 (p 2 16), trc.postCount := p 4 16,
        trc.trigSrc := p 6 8, trc.trigWindow := p 7 8, trc.trigPc := BitVec.ofNat 32 (p 8 32), trc.trigPin := p 12 8, trc.dest := p 16 64,
        trc.destBytes := p 24 32 }.reply h {})) ∧
    (∀ x : BitVec 384, par x.toNat 0 8 ≤ 66 → 1 ≤ par x.toNat 1 8 → par x.toNat 1 8 ≤ 67 - par x.toNat 0 8 → exec (.traceSources h x) s =
      .next ({ s with trc.srcs := (List.range (par x.toNat 1 8)).foldl (fun (t : Tab TraceSrc) i =>
        t.upd (par x.toNat 0 8 + i) fun q => { q with level := BitVec.ofNat 2 (fld x.toNat (64 + 2 * i) 2) }) s.trc.srcs }.reply h {})) ∧
    (s.trc.mode = 0 → s.trc.cfgMode ≠ 0 → ∃ t : State, exec (.traceStart h) s = .next (t.reply h {}) ∧ t.trc.mode = s.trc.cfgMode ∧ t.trc.state = .armed ∧
      t.trc.hist = [] ∧ t.trc.trig = none ∧ t.trc.w = 0 ∧ t.trc.r = 0 ∧ t.mem = s.mem) ∧
    (s.trc.stopping = none → s.trc.mode ≠ 1 → exec (.traceStop h) s = .next ({ s with trc.mode := 0, trc.state := .off }.reply h {})) ∧
    (s.trc.stopping = none → s.trc.mode = 1 → s.trc.empty = true →
      exec (.traceStop h) s = .next ({ s with trc.mode := 0, trc.state := .off, trc.stopping := none }.reply h {})) ∧
    (s.trc.stopping = none → s.trc.mode = 1 → s.trc.empty = false →
      exec (.traceStop h) s = .next { s with trc.state := .off, trc.stopping := some (some h) }) ∧
    (s.trc.mode = 2 → s.trc.state = .armed → s.trc.trigMask.getLsbD 0 = true → s.trc.lastTrig ≠ some s.tick → ∃ t : State, exec (.traceTrigger h) s = .next (t.reply h {}) ∧
      t.trc.state = .post ∧ t.trc.postLeft = s.trc.postCount ∧ t.trc.trigCount = s.trc.trigCount + 1 ∧ t.trc.trig.isSome = true) ∧
    (s.trc.state = .frozen → s.trc.trig = none → s.trc.hist.length ≤ s.trc.destBytes / 16 →
      exec (.traceDump h) s = .next (((s.trc.hist.zipIdx).foldl (fun s x => s.wr (s.trc.dest + 16 * x.2) x.1.bytes) s).reply h { r0 := s.trc.hist.length })) ∧
    (∀ n b : Byte, n.toNat ≤ 63 → b.toNat ≤ 2 → s.hasResult h = true → ∃ d : List Byte, d.length = 32 ∧ d.take 8 = leBytes 8 s.trc.stamp.toNat ∧
      exec (.cntRead h n b) s = .next (s.reply h { ext := some (d ++ (List.range 20).flatMap fun k => leBytes 8 (((s.rod n.toNat).cnt.bank b.toNat).get k).toNat) }))

/-- Trace at work, and the reads that latch (R497 to R500, R504, R508 to R511): the oldest record moves from its source into the history; GAP
records follow a loss once there is room; SYNC records come from source 66; a read index within R to W moves R, another is refused; LO reads
latch their HI words; with debug closed or from a virtual function nothing is shown. -/
def Obligations.TraceEventsComplete : Prop :=
  ∀ s : State,
    (∀ (k : Nat) (q : TraceSrc) (r : TraceRec), s.trc.srcs = ⟨[(k, q)]⟩ → q.fifo = [r] → s.trc.mode = 2 → s.trc.state = .armed → s.trc.stopping = none →
      s.trc.hist.length < 65535 → ∃ t, exec .traceMerge s = .next t ∧ t.trc.hist = s.trc.hist ++ [r] ∧ (t.trc.srcs.get k).fifo = [] ∧ t.mem = s.mem) ∧
    (∃ t, exec .traceGapRecord s = .next t ∧ ∀ k, t.trc.srcs.get k = (s.trc.srcs.get k).flush k) ∧
    (exec .traceSync s = .next (s.trace 66 1 9 (s.now.toNat % 2 ^ 32) (s.now.toNat / 2 ^ 32))) ∧
    (∀ w : Word, s.sec.debugIsOpen = true → s.trc.mode = 2 → s.trc.stopping = none → 0 ≤ wdiff 32 w.toNat s.trc.r.toNat → 0 ≤ wdiff 32 s.trc.w.toNat w.toNat →
      exec (.dbgTraceRptrWrite 0 w) s = .next { s with trc.r := w }) ∧
    (∀ w : Word, s.sec.debugIsOpen = true → wdiff 32 w.toNat s.trc.r.toNat < 0 ∨ wdiff 32 s.trc.w.toNat w.toNat < 0 →
      exec (.dbgTraceRptrWrite 0 w) s = .next { s with trc.rptrBad := true }) ∧
    (∀ (n : Fin 64) (b : Fin 3) (k : Fin 32), s.sec.debugIsOpen = true → ∃ t,
      let v := (((s.rod n.val).cnt.bank b.val).get k.val).toNat
      exec (.cntLoRead 0 n b k) s = .next t ∧ t.hif.cpl = { data := leBytes 4 (v % 2 ^ 32) } ∧ (2 ^ 32 ≤ v → (t.rod n.val).cnt.hiLatch = BitVec.ofNat 32 (v / 2 ^ 32))) ∧
    (s.sec.debugIsOpen = true → exec (.dbgStampLoRead 0) s = .next { s with
      trc.stampHi := BitVec.ofNat 16 (s.trc.stamp.toNat / 2 ^ 32), hif.cpl := { data := leBytes 4 (s.trc.stamp.toNat % 2 ^ 32) } }) ∧
    (∀ fn : Fin 16, fn ≠ 0 ∨ s.sec.debugIsOpen = false →
      (∀ (n : Fin 64) (b : Fin 3) (k : Fin 32), exec (.cntLoRead fn n b k) s = .next { s with hif.cpl := { data := leBytes 4 0 } }) ∧
      exec (.dbgStampLoRead fn) s = .next { s with hif.cpl := { data := leBytes 4 0 } } ∧ ∀ w : Word, exec (.dbgTraceRptrWrite fn w) s = .next s)

/-! ### Two rules over the whole machine -/

/-- TIME_RATE (R344): PF0's value within 1,000 ppm of 2^41 becomes INCR, and from the next time-clock cycle on every cycle adds it (and the rate of a
slew that still runs); while a slew runs the sum of the two must satisfy the bound too (R345). Any other value is refused with TIME_RANGE and changes
nothing but the reply. -/
def Obligations.TimeRateRule : Prop :=
  ∀ (h : Hdr) (incr : BitVec 64) (s : State), pf0 s h →
    (|(incr.toNat : Int) - 2 ^ 41| ≤ 2199023255 → (s.tim.slewLeft = 0 ∨ |(incr.toNat : Int) + s.tim.slewRate.toInt - 2 ^ 41| ≤ 2199023255) →
      exec (.timeRate h incr) s = .next ({ s with tim.incr := incr.setWidth 48 }.reply h {}) ∧
      ∀ n : Nat, s.tim.time < timeMod →
        (({ s.tim with incr := incr.setWidth 48 }.cycles n).time : Int) =
          ((s.tim.time : Int) + n * incr.toNat + s.tim.slewRate.toInt * min n s.tim.slewLeft.toNat) % timeMod) ∧
    (2199023255 < |(incr.toNat : Int) - 2 ^ 41| ∨ (s.tim.slewLeft ≠ 0 ∧ 2199023255 < |(incr.toNat : Int) + s.tim.slewRate.toInt - 2 ^ 41|) →
      exec (.timeRate h incr) s = .next (s.reply h { status := 0x7003 }))

/-- The safe state (R435): whatever the command and the state, only a reset of warm or power-on scope ends it, PWR_RESET_REQ among
them by either of its commands; while it holds, START_PLAN,
CLE_START and CLE_PWM_RELEASE are refused with their state errors and change nothing but the reply. -/
def Obligations.SafeStateHolds : Prop :=
  ∀ s : State, s.saf.safe = true →
    (∀ (c : Instr) (t : State), exec c s = .next t → t.saf.safe = false →
      c = .powerOnReset ∨ (∃ r io, c = .supplyReset r io) ∨ c = .clockLossReset ∨ (∃ k, c = .warmReset k) ∨
        (∃ w : Word, w.toNat % 256 = 0x5A ∧ (c = .pwrResetReq 0 w ∨ c = .registerWrite (.host 0) 0x02000120000C w))) ∧
    (∀ (h : Hdr) (mode pin : Byte) (at_ : BitVec 64), pf0 s h →
      exec (.startPlan h mode pin at_) s = .next (s.reply h { status := 0x1001 }) ∧
      (mode.toNat ≤ 2 → pin.toNat ≤ 3 → exec (.cleStart h mode pin at_) s = .next (s.reply h { status := 0x6002 }))) ∧
    (∀ (h : Hdr) (pair : Byte), pf0 s h → pair.toNat ≤ 47 → exec (.clePwmRelease h pair) s = .next (s.reply h { status := 0x6002 }))
end

