-- ==== Sys2Proof/Laws/Tab.lean ====
section
/-! SUPPORT. What tables and memory read after a change, and that every change keeps their canonical form. -/

namespace Sys2Proof.Machine

variable {α : Type} [Inhabited α] [DecidableEq α]

/-! ### Reading after a write -/

theorem Tab.look_put (i k : Nat) (v : α) (l : List (Nat × α)) : Tab.look i (Tab.put k v l) = if i = k then v else Tab.look i l := by
  induction l with
  | nil =>
    by_cases hv : v = default
    · simp [Tab.put, Tab.look, hv]
    · by_cases hi : i = k
      · simp [Tab.put, Tab.look, hv, hi]
      · simp [Tab.put, Tab.look, hv, hi, Ne.symm hi]
  | cons c t ih =>
    obtain ⟨j, u⟩ := c
    by_cases hv : v = default
    · subst hv
      by_cases h2 : j = k
      · subst h2
        by_cases hi : i = j
        · subst hi; simp [Tab.put, ih]
        · simp [Tab.put, Tab.look, ih, hi, Ne.symm hi]
      · have e : Tab.put k default ((j, u) :: t) = (j, u) :: Tab.put k default t := by simp [Tab.put, h2]
        by_cases hj : j = i
        · subst hj; simp [e, Tab.look, h2]
        · simp [e, Tab.look, hj, ih]
    · by_cases h1 : j < k
      · by_cases hj : j = i
        · subst hj; simp [Tab.put, Tab.look, h1, Nat.ne_of_lt h1]
        · simp [Tab.put, Tab.look, h1, hj, ih]
      · by_cases h2 : j = k
        · subst h2
          by_cases hi : i = j
          · simp [Tab.put, Tab.look, hv, hi]
          · simp [Tab.put, Tab.look, hv, hi, Ne.symm hi]
        · by_cases hi : i = k
          · simp [Tab.put, Tab.look, h1, h2, hv, hi]
          · simp [Tab.put, Tab.look, h1, h2, hv, hi, Ne.symm hi]

theorem Tab.get_set (t : Tab α) (i k : Nat) (v : α) : (t.set k v).get i = if i = k then v else t.get i := Tab.look_put i k v t.cells

@[simp] theorem Tab.get_set_self (t : Tab α) (k : Nat) (v : α) : (t.set k v).get k = v := by simp [Tab.get_set]

@[simp] theorem Tab.get_set_ne (t : Tab α) {i k : Nat} (v : α) (h : i ≠ k) : (t.set k v).get i = t.get i := by simp [Tab.get_set, h]

@[simp] theorem Tab.get_upd_self (t : Tab α) (k : Nat) (f : α → α) : (t.upd k f).get k = f (t.get k) := Tab.get_set_self _ _ _

@[simp] theorem Tab.get_upd_ne (t : Tab α) {i k : Nat} (f : α → α) (h : i ≠ k) : (t.upd k f).get i = t.get i := Tab.get_set_ne _ _ h

omit [DecidableEq α] in
@[simp] theorem Tab.get_empty (i : Nat) : (Tab.mk ([] : List (Nat × α))).get i = default := rfl

omit [DecidableEq α] in
/-- Entries filtered by key: those kept read as before, the others as the default. -/
theorem Tab.get_filter (l : List (Nat × α)) (p : Nat → Bool) (i : Nat) :
    (Tab.mk (l.filter fun c => p c.1)).get i = if p i then (Tab.mk l).get i else default := by
  show Tab.look i _ = if p i then Tab.look i l else default
  induction l with
  | nil => simp [Tab.look]
  | cons c t ih =>
    obtain ⟨j, u⟩ := c
    by_cases hj : j = i
    · subst hj
      by_cases hp : p j <;> simp [hp, Tab.look] at ih ⊢
      exact ih
    · by_cases hp : p j
      · simp [hp, Tab.look, hj, ih]
      · simp [hp, Tab.look, hj, ih]

/-! ### The canonical form -/

theorem Tab.wfFrom_weaken (lo hi : Option Nat) (l : List (Nat × α)) (h : ∀ a, lo = some a → ∃ b, hi = some b ∧ a ≤ b) (w : Tab.wfFrom hi l = true) :
    Tab.wfFrom lo l = true := by
  cases l with
  | nil => rfl
  | cons c t =>
    obtain ⟨j, u⟩ := c
    simp only [Tab.wfFrom, Bool.and_eq_true] at w ⊢
    refine ⟨⟨?_, w.1.2⟩, w.2⟩
    cases lo with
    | none => rfl
    | some a =>
      obtain ⟨b, rfl, hab⟩ := h a rfl
      simp at w ⊢; omega

theorem Tab.put_wfFrom (k : Nat) (v : α) (l : List (Nat × α)) :
    ∀ lo : Option Nat, (∀ a, lo = some a → a < k) → Tab.wfFrom lo l = true → Tab.wfFrom lo (Tab.put k v l) = true := by
  induction l with
  | nil =>
    intro lo hl _
    by_cases hv : v = default
    · simp [Tab.put, hv, Tab.wfFrom]
    · cases lo with
      | none => simp [Tab.put, hv, Tab.wfFrom]
      | some a => simp [Tab.put, hv, Tab.wfFrom, hl a rfl]
  | cons c t ih =>
    obtain ⟨j, u⟩ := c
    intro lo hl w
    have w0 := w
    simp only [Tab.wfFrom, Bool.and_eq_true] at w
    have up : ∀ a, lo = some a → ∃ b, some j = some b ∧ a ≤ b := by
      intro a ha; subst ha; exact ⟨j, rfl, by simpa using Nat.le_of_lt (by simpa using w.1.1)⟩
    simp only [Tab.put]
    by_cases h1 : j < k
    · simp only [h1, if_true, Tab.wfFrom, Bool.and_eq_true]
      exact ⟨w.1, ih (some j) (by rintro a ⟨⟩; exact h1) w.2⟩
    · simp only [h1, if_false]
      by_cases h2 : j = k
      · subst h2
        by_cases hv : v = default
        · simp only [hv, if_true]
          subst hv
          refine ih lo (fun a ha => ?_) (Tab.wfFrom_weaken lo (some j) t up w.2)
          exact hl a ha
        · simp only [hv, if_true, if_false, Tab.wfFrom, Bool.and_eq_true]
          exact ⟨⟨w.1.1, by simp [hv]⟩, w.2⟩
      · by_cases hv : v = default
        · simp only [h2, hv, if_true, if_false, Tab.wfFrom, Bool.and_eq_true]
          refine ⟨w.1, ?_⟩
          have : ∀ (t : List (Nat × α)) (lo : Option Nat), (∀ a, lo = some a → k ≤ a) → Tab.wfFrom lo t = true → lo.isSome = true →
              Tab.wfFrom lo (Tab.put k default t) = true := by
            intro t
            induction t with
            | nil => intro lo _ _ _; simp [Tab.put, Tab.wfFrom]
            | cons d r ihr =>
              obtain ⟨i, x⟩ := d
              intro lo hk hw hs
              obtain ⟨a, rfl⟩ := Option.isSome_iff_exists.mp hs
              simp only [Tab.wfFrom, Bool.and_eq_true, decide_eq_true_eq] at hw
              have ha := hk a rfl
              have hi : k < i := by omega
              simp only [Tab.put, Nat.not_lt.mpr (Nat.le_of_lt hi), Nat.ne_of_gt hi, if_true, if_false, Tab.wfFrom, Bool.and_eq_true, decide_eq_true_eq]
              exact ⟨hw.1, ihr (some i) (by rintro b ⟨⟩; omega) hw.2 rfl⟩
          exact this t (some j) (by rintro b ⟨⟩; omega) w.2 rfl
        · simp only [h2, hv, if_false, Tab.wfFrom, Bool.and_eq_true, decide_eq_true_eq]
          have hk : k < j := by omega
          refine ⟨⟨?_, by simpa using hv⟩, ⟨hk, of_decide_eq_true w.1.2⟩, w.2⟩
          cases lo with
          | none => rfl
          | some a => simpa using hl a rfl

@[simp] theorem Tab.set_wf (t : Tab α) (k : Nat) (v : α) (h : t.wf = true) : (t.set k v).wf = true :=
  Tab.put_wfFrom k v t.cells none (by simp) h

@[simp] theorem Tab.upd_wf (t : Tab α) (k : Nat) (f : α → α) (h : t.wf = true) : (t.upd k f).wf = true := Tab.set_wf _ _ _ h

theorem Tab.filter_wfFrom (p : Nat × α → Bool) (l : List (Nat × α)) : ∀ lo, Tab.wfFrom lo l = true → Tab.wfFrom lo (l.filter p) = true := by
  induction l with
  | nil => simp
  | cons c t ih =>
    obtain ⟨j, u⟩ := c
    intro lo w
    simp only [Tab.wfFrom, Bool.and_eq_true] at w
    by_cases hp : p (j, u)
    · simp only [List.filter, hp, Tab.wfFrom, Bool.and_eq_true]; exact ⟨w.1, ih _ w.2⟩
    · simp only [List.filter, hp]
      refine ih lo (Tab.wfFrom_weaken lo (some j) t ?_ w.2)
      intro a ha; subst ha; exact ⟨j, rfl, Nat.le_of_lt (by simpa using w.1.1)⟩

theorem Tab.filter_wf (t : Tab α) (p : Nat × α → Bool) (h : t.wf = true) : (Tab.mk (t.cells.filter p)).wf = true := Tab.filter_wfFrom p _ _ h

/-! ### Memory -/

@[simp] theorem Memory.read_length (m : Memory) (a n : Nat) : (Memory.read m a n).length = n := by
  induction n generalizing a with
  | zero => rfl
  | succ n ih => simp [Memory.read, ih]

/-- A write leaves every byte outside it. -/
theorem Memory.get_write_out (m : Memory) (bs : List Byte) (a i : Nat) (h : i < a ∨ a + bs.length ≤ i) : (Memory.write m a bs).get i = m.get i := by
  induction bs generalizing m a with
  | nil => rfl
  | cons b bs ih =>
    simp only [List.length_cons] at h
    rw [Memory.write, ih _ _ (by omega), Tab.get_set_ne _ _ (by omega)]

theorem Memory.read_write (m : Memory) (bs : List Byte) (a : Nat) : Memory.read (Memory.write m a bs) a bs.length = bs := by
  induction bs generalizing m a with
  | nil => rfl
  | cons b bs ih =>
    simp only [List.length_cons, Memory.read, Memory.write, ih]
    rw [Memory.get_write_out _ _ _ _ (by omega), Tab.get_set_self]

@[simp] theorem Memory.write_wf (m : Memory) (bs : List Byte) (a : Nat) (h : Tab.wf m = true) : Tab.wf (Memory.write m a bs) = true := by
  induction bs generalizing m a with
  | nil => exact h
  | cons b bs ih => exact ih _ _ (Tab.set_wf _ _ _ h)

@[simp] theorem Memory.zero_wf (m : Memory) (lo hi : Nat) (h : Tab.wf m = true) : Tab.wf (Memory.zero m lo hi) = true := Tab.filter_wf m _ h

/-- Memory is in canonical form right after reset. -/
theorem State.reset_mem_wf : State.reset.mem.wf = true := rfl

end Sys2Proof.Machine
end

