-- ==== Sys2Proof/Laws/State.lean ====
section
/-! SUPPORT. What each named update of the state leaves in every field: the field of its own table, and every other field unchanged. -/

namespace Sys2Proof.Machine

/-! ### updRod -/

@[simp] theorem State.updRod_pending (s : State) (n : Nat) (f : Rod → Rod) : (s.updRod n f).pending = s.pending := rfl
@[simp] theorem State.updRod_free (s : State) (n : Nat) (f : Rod → Rod) : (s.updRod n f).free = s.free := rfl
@[simp] theorem State.updRod_tick (s : State) (n : Nat) (f : Rod → Rod) : (s.updRod n f).tick = s.tick := rfl
@[simp] theorem State.updRod_mem (s : State) (n : Nat) (f : Rod → Rod) : (s.updRod n f).mem = s.mem := rfl
@[simp] theorem State.updRod_errs (s : State) (n : Nat) (f : Rod → Rod) : (s.updRod n f).errs = s.errs := rfl
@[simp] theorem State.updRod_hif (s : State) (n : Nat) (f : Rod → Rod) : (s.updRod n f).hif = s.hif := rfl
@[simp] theorem State.updRod_tly (s : State) (n : Nat) (f : Rod → Rod) : (s.updRod n f).tly = s.tly := rfl
@[simp] theorem State.updRod_pln (s : State) (n : Nat) (f : Rod → Rod) : (s.updRod n f).pln = s.pln := rfl
@[simp] theorem State.updRod_jrn (s : State) (n : Nat) (f : Rod → Rod) : (s.updRod n f).jrn = s.jrn := rfl
@[simp] theorem State.updRod_saf (s : State) (n : Nat) (f : Rod → Rod) : (s.updRod n f).saf = s.saf := rfl
@[simp] theorem State.updRod_sec (s : State) (n : Nat) (f : Rod → Rod) : (s.updRod n f).sec = s.sec := rfl
@[simp] theorem State.updRod_pwr (s : State) (n : Nat) (f : Rod → Rod) : (s.updRod n f).pwr = s.pwr := rfl
@[simp] theorem State.updRod_trc (s : State) (n : Nat) (f : Rod → Rod) : (s.updRod n f).trc = s.trc := rfl
@[simp] theorem State.updRod_tim (s : State) (n : Nat) (f : Rod → Rod) : (s.updRod n f).tim = s.tim := rfl
@[simp] theorem State.updRod_memc (s : State) (n : Nat) (f : Rod → Rod) : (s.updRod n f).memc = s.memc := rfl
@[simp] theorem State.updRod_tyb (s : State) (n : Nat) (f : Rod → Rod) : (s.updRod n f).tyb = s.tyb := rfl
@[simp] theorem State.updRod_sns (s : State) (n : Nat) (f : Rod → Rod) : (s.updRod n f).sns = s.sns := rfl
@[simp] theorem State.updRod_eth (s : State) (n : Nat) (f : Rod → Rod) : (s.updRod n f).eth = s.eth := rfl
@[simp] theorem State.updRod_can (s : State) (n : Nat) (f : Rod → Rod) : (s.updRod n f).can = s.can := rfl
@[simp] theorem State.updRod_cle (s : State) (n : Nat) (f : Rod → Rod) : (s.updRod n f).cle = s.cle := rfl
@[simp] theorem State.updRod_pgk (s : State) (n : Nat) (f : Rod → Rod) : (s.updRod n f).pgk = s.pgk := rfl
@[simp] theorem State.updRod_cry (s : State) (n : Nat) (f : Rod → Rod) : (s.updRod n f).cry = s.cry := rfl
@[simp] theorem State.updRod_watch (s : State) (n : Nat) (f : Rod → Rod) : (s.updRod n f).watch = s.watch := rfl
@[simp] theorem State.updRod_rods (s : State) (n : Nat) (f : Rod → Rod) : (s.updRod n f).rods = s.rods.upd n f := rfl

/-! ### updJob -/

@[simp] theorem State.updJob_pending (s : State) (j : Nat) (f : JobRun → JobRun) : (s.updJob j f).pending = s.pending := rfl
@[simp] theorem State.updJob_free (s : State) (j : Nat) (f : JobRun → JobRun) : (s.updJob j f).free = s.free := rfl
@[simp] theorem State.updJob_tick (s : State) (j : Nat) (f : JobRun → JobRun) : (s.updJob j f).tick = s.tick := rfl
@[simp] theorem State.updJob_mem (s : State) (j : Nat) (f : JobRun → JobRun) : (s.updJob j f).mem = s.mem := rfl
@[simp] theorem State.updJob_errs (s : State) (j : Nat) (f : JobRun → JobRun) : (s.updJob j f).errs = s.errs := rfl
@[simp] theorem State.updJob_hif (s : State) (j : Nat) (f : JobRun → JobRun) : (s.updJob j f).hif = s.hif := rfl
@[simp] theorem State.updJob_tly (s : State) (j : Nat) (f : JobRun → JobRun) : (s.updJob j f).tly = s.tly := rfl
@[simp] theorem State.updJob_jrn (s : State) (j : Nat) (f : JobRun → JobRun) : (s.updJob j f).jrn = s.jrn := rfl
@[simp] theorem State.updJob_rods (s : State) (j : Nat) (f : JobRun → JobRun) : (s.updJob j f).rods = s.rods := rfl
@[simp] theorem State.updJob_saf (s : State) (j : Nat) (f : JobRun → JobRun) : (s.updJob j f).saf = s.saf := rfl
@[simp] theorem State.updJob_sec (s : State) (j : Nat) (f : JobRun → JobRun) : (s.updJob j f).sec = s.sec := rfl
@[simp] theorem State.updJob_pwr (s : State) (j : Nat) (f : JobRun → JobRun) : (s.updJob j f).pwr = s.pwr := rfl
@[simp] theorem State.updJob_trc (s : State) (j : Nat) (f : JobRun → JobRun) : (s.updJob j f).trc = s.trc := rfl
@[simp] theorem State.updJob_tim (s : State) (j : Nat) (f : JobRun → JobRun) : (s.updJob j f).tim = s.tim := rfl
@[simp] theorem State.updJob_memc (s : State) (j : Nat) (f : JobRun → JobRun) : (s.updJob j f).memc = s.memc := rfl
@[simp] theorem State.updJob_tyb (s : State) (j : Nat) (f : JobRun → JobRun) : (s.updJob j f).tyb = s.tyb := rfl
@[simp] theorem State.updJob_sns (s : State) (j : Nat) (f : JobRun → JobRun) : (s.updJob j f).sns = s.sns := rfl
@[simp] theorem State.updJob_eth (s : State) (j : Nat) (f : JobRun → JobRun) : (s.updJob j f).eth = s.eth := rfl
@[simp] theorem State.updJob_can (s : State) (j : Nat) (f : JobRun → JobRun) : (s.updJob j f).can = s.can := rfl
@[simp] theorem State.updJob_cle (s : State) (j : Nat) (f : JobRun → JobRun) : (s.updJob j f).cle = s.cle := rfl
@[simp] theorem State.updJob_pgk (s : State) (j : Nat) (f : JobRun → JobRun) : (s.updJob j f).pgk = s.pgk := rfl
@[simp] theorem State.updJob_cry (s : State) (j : Nat) (f : JobRun → JobRun) : (s.updJob j f).cry = s.cry := rfl
@[simp] theorem State.updJob_watch (s : State) (j : Nat) (f : JobRun → JobRun) : (s.updJob j f).watch = s.watch := rfl
@[simp] theorem State.updJob_pln_state (s : State) (j : Nat) (f : JobRun → JobRun) : (s.updJob j f).pln.state = s.pln.state := rfl
@[simp] theorem State.updJob_pln_plan (s : State) (j : Nat) (f : JobRun → JobRun) : (s.updJob j f).pln.plan = s.pln.plan := rfl
@[simp] theorem State.updJob_pln_window (s : State) (j : Nat) (f : JobRun → JobRun) : (s.updJob j f).pln.window = s.pln.window := rfl
@[simp] theorem State.updJob_pln_frameTick (s : State) (j : Nat) (f : JobRun → JobRun) : (s.updJob j f).pln.frameTick = s.pln.frameTick := rfl
@[simp] theorem State.updJob_pln_frameCount (s : State) (j : Nat) (f : JobRun → JobRun) : (s.updJob j f).pln.frameCount = s.pln.frameCount := rfl
@[simp] theorem State.updJob_pln_jobSel (s : State) (j : Nat) (f : JobRun → JobRun) : (s.updJob j f).pln.jobSel = s.pln.jobSel := rfl
@[simp] theorem State.updJob_pln_jobs (s : State) (j : Nat) (f : JobRun → JobRun) : (s.updJob j f).pln.jobs = s.pln.jobs.upd j f := rfl
@[simp] theorem State.updJob_pln_bounds (s : State) (j : Nat) (f : JobRun → JobRun) : (s.updJob j f).pln.bounds = s.pln.bounds := rfl
@[simp] theorem State.updJob_pln_halted (s : State) (j : Nat) (f : JobRun → JobRun) : (s.updJob j f).pln.halted = s.pln.halted := rfl
@[simp] theorem State.updJob_pln_resuming (s : State) (j : Nat) (f : JobRun → JobRun) : (s.updJob j f).pln.resuming = s.pln.resuming := rfl
@[simp] theorem State.updJob_pln_selftest (s : State) (j : Nat) (f : JobRun → JobRun) : (s.updJob j f).pln.selftest = s.pln.selftest := rfl
@[simp] theorem State.updJob_pln_start (s : State) (j : Nat) (f : JobRun → JobRun) : (s.updJob j f).pln.start = s.pln.start := rfl
@[simp] theorem State.updJob_pln_load (s : State) (j : Nat) (f : JobRun → JobRun) : (s.updJob j f).pln.load = s.pln.load := rfl
@[simp] theorem State.updJob_pln_stop (s : State) (j : Nat) (f : JobRun → JobRun) : (s.updJob j f).pln.stop = s.pln.stop := rfl
@[simp] theorem State.updJob_pln_preempts (s : State) (j : Nat) (f : JobRun → JobRun) : (s.updJob j f).pln.preempts = s.pln.preempts := rfl
@[simp] theorem State.updJob_pln_startTime (s : State) (j : Nat) (f : JobRun → JobRun) : (s.updJob j f).pln.startTime = s.pln.startTime := rfl
@[simp] theorem State.updJob_pln_goldenOn (s : State) (j : Nat) (f : JobRun → JobRun) : (s.updJob j f).pln.goldenOn = s.pln.goldenOn := rfl

/-! ### updPoint -/

@[simp] theorem State.updPoint_pending (s : State) (p : Nat) (f : Point → Point) : (s.updPoint p f).pending = s.pending := rfl
@[simp] theorem State.updPoint_free (s : State) (p : Nat) (f : Point → Point) : (s.updPoint p f).free = s.free := rfl
@[simp] theorem State.updPoint_tick (s : State) (p : Nat) (f : Point → Point) : (s.updPoint p f).tick = s.tick := rfl
@[simp] theorem State.updPoint_mem (s : State) (p : Nat) (f : Point → Point) : (s.updPoint p f).mem = s.mem := rfl
@[simp] theorem State.updPoint_errs (s : State) (p : Nat) (f : Point → Point) : (s.updPoint p f).errs = s.errs := rfl
@[simp] theorem State.updPoint_hif (s : State) (p : Nat) (f : Point → Point) : (s.updPoint p f).hif = s.hif := rfl
@[simp] theorem State.updPoint_tly (s : State) (p : Nat) (f : Point → Point) : (s.updPoint p f).tly = s.tly := rfl
@[simp] theorem State.updPoint_pln (s : State) (p : Nat) (f : Point → Point) : (s.updPoint p f).pln = s.pln := rfl
@[simp] theorem State.updPoint_jrn (s : State) (p : Nat) (f : Point → Point) : (s.updPoint p f).jrn = s.jrn := rfl
@[simp] theorem State.updPoint_rods (s : State) (p : Nat) (f : Point → Point) : (s.updPoint p f).rods = s.rods := rfl
@[simp] theorem State.updPoint_saf (s : State) (p : Nat) (f : Point → Point) : (s.updPoint p f).saf = s.saf := rfl
@[simp] theorem State.updPoint_sec (s : State) (p : Nat) (f : Point → Point) : (s.updPoint p f).sec = s.sec := rfl
@[simp] theorem State.updPoint_pwr (s : State) (p : Nat) (f : Point → Point) : (s.updPoint p f).pwr = s.pwr := rfl
@[simp] theorem State.updPoint_trc (s : State) (p : Nat) (f : Point → Point) : (s.updPoint p f).trc = s.trc := rfl
@[simp] theorem State.updPoint_tim (s : State) (p : Nat) (f : Point → Point) : (s.updPoint p f).tim = s.tim := rfl
@[simp] theorem State.updPoint_memc (s : State) (p : Nat) (f : Point → Point) : (s.updPoint p f).memc = s.memc := rfl
@[simp] theorem State.updPoint_tyb (s : State) (p : Nat) (f : Point → Point) : (s.updPoint p f).tyb = s.tyb := rfl
@[simp] theorem State.updPoint_eth (s : State) (p : Nat) (f : Point → Point) : (s.updPoint p f).eth = s.eth := rfl
@[simp] theorem State.updPoint_can (s : State) (p : Nat) (f : Point → Point) : (s.updPoint p f).can = s.can := rfl
@[simp] theorem State.updPoint_cle (s : State) (p : Nat) (f : Point → Point) : (s.updPoint p f).cle = s.cle := rfl
@[simp] theorem State.updPoint_pgk (s : State) (p : Nat) (f : Point → Point) : (s.updPoint p f).pgk = s.pgk := rfl
@[simp] theorem State.updPoint_cry (s : State) (p : Nat) (f : Point → Point) : (s.updPoint p f).cry = s.cry := rfl
@[simp] theorem State.updPoint_watch (s : State) (p : Nat) (f : Point → Point) : (s.updPoint p f).watch = s.watch := rfl
@[simp] theorem State.updPoint_sns_ready (s : State) (p : Nat) (f : Point → Point) : (s.updPoint p f).sns.ready = s.sns.ready := rfl
@[simp] theorem State.updPoint_sns_slotMiss (s : State) (p : Nat) (f : Point → Point) : (s.updPoint p f).sns.slotMiss = s.sns.slotMiss := rfl
@[simp] theorem State.updPoint_sns_sel (s : State) (p : Nat) (f : Point → Point) : (s.updPoint p f).sns.sel = s.sns.sel := rfl
@[simp] theorem State.updPoint_sns_ports (s : State) (p : Nat) (f : Point → Point) : (s.updPoint p f).sns.ports = s.sns.ports := rfl
@[simp] theorem State.updPoint_sns_points (s : State) (p : Nat) (f : Point → Point) : (s.updPoint p f).sns.points = s.sns.points.upd p f := rfl

/-! ### updMac -/

@[simp] theorem State.updMac_pending (s : State) (m : Nat) (f : Mac → Mac) : (s.updMac m f).pending = s.pending := rfl
@[simp] theorem State.updMac_free (s : State) (m : Nat) (f : Mac → Mac) : (s.updMac m f).free = s.free := rfl
@[simp] theorem State.updMac_tick (s : State) (m : Nat) (f : Mac → Mac) : (s.updMac m f).tick = s.tick := rfl
@[simp] theorem State.updMac_mem (s : State) (m : Nat) (f : Mac → Mac) : (s.updMac m f).mem = s.mem := rfl
@[simp] theorem State.updMac_errs (s : State) (m : Nat) (f : Mac → Mac) : (s.updMac m f).errs = s.errs := rfl
@[simp] theorem State.updMac_hif (s : State) (m : Nat) (f : Mac → Mac) : (s.updMac m f).hif = s.hif := rfl
@[simp] theorem State.updMac_tly (s : State) (m : Nat) (f : Mac → Mac) : (s.updMac m f).tly = s.tly := rfl
@[simp] theorem State.updMac_pln (s : State) (m : Nat) (f : Mac → Mac) : (s.updMac m f).pln = s.pln := rfl
@[simp] theorem State.updMac_jrn (s : State) (m : Nat) (f : Mac → Mac) : (s.updMac m f).jrn = s.jrn := rfl
@[simp] theorem State.updMac_rods (s : State) (m : Nat) (f : Mac → Mac) : (s.updMac m f).rods = s.rods := rfl
@[simp] theorem State.updMac_saf (s : State) (m : Nat) (f : Mac → Mac) : (s.updMac m f).saf = s.saf := rfl
@[simp] theorem State.updMac_sec (s : State) (m : Nat) (f : Mac → Mac) : (s.updMac m f).sec = s.sec := rfl
@[simp] theorem State.updMac_pwr (s : State) (m : Nat) (f : Mac → Mac) : (s.updMac m f).pwr = s.pwr := rfl
@[simp] theorem State.updMac_trc (s : State) (m : Nat) (f : Mac → Mac) : (s.updMac m f).trc = s.trc := rfl
@[simp] theorem State.updMac_tim (s : State) (m : Nat) (f : Mac → Mac) : (s.updMac m f).tim = s.tim := rfl
@[simp] theorem State.updMac_memc (s : State) (m : Nat) (f : Mac → Mac) : (s.updMac m f).memc = s.memc := rfl
@[simp] theorem State.updMac_tyb (s : State) (m : Nat) (f : Mac → Mac) : (s.updMac m f).tyb = s.tyb := rfl
@[simp] theorem State.updMac_sns (s : State) (m : Nat) (f : Mac → Mac) : (s.updMac m f).sns = s.sns := rfl
@[simp] theorem State.updMac_can (s : State) (m : Nat) (f : Mac → Mac) : (s.updMac m f).can = s.can := rfl
@[simp] theorem State.updMac_cle (s : State) (m : Nat) (f : Mac → Mac) : (s.updMac m f).cle = s.cle := rfl
@[simp] theorem State.updMac_pgk (s : State) (m : Nat) (f : Mac → Mac) : (s.updMac m f).pgk = s.pgk := rfl
@[simp] theorem State.updMac_cry (s : State) (m : Nat) (f : Mac → Mac) : (s.updMac m f).cry = s.cry := rfl
@[simp] theorem State.updMac_watch (s : State) (m : Nat) (f : Mac → Mac) : (s.updMac m f).watch = s.watch := rfl
@[simp] theorem State.updMac_eth_macs (s : State) (m : Nat) (f : Mac → Mac) : (s.updMac m f).eth.macs = s.eth.macs.upd m f := rfl

/-! ### updCtl -/

@[simp] theorem State.updCtl_pending (s : State) (c : Nat) (f : CanCtl → CanCtl) : (s.updCtl c f).pending = s.pending := rfl
@[simp] theorem State.updCtl_free (s : State) (c : Nat) (f : CanCtl → CanCtl) : (s.updCtl c f).free = s.free := rfl
@[simp] theorem State.updCtl_tick (s : State) (c : Nat) (f : CanCtl → CanCtl) : (s.updCtl c f).tick = s.tick := rfl
@[simp] theorem State.updCtl_mem (s : State) (c : Nat) (f : CanCtl → CanCtl) : (s.updCtl c f).mem = s.mem := rfl
@[simp] theorem State.updCtl_errs (s : State) (c : Nat) (f : CanCtl → CanCtl) : (s.updCtl c f).errs = s.errs := rfl
@[simp] theorem State.updCtl_hif (s : State) (c : Nat) (f : CanCtl → CanCtl) : (s.updCtl c f).hif = s.hif := rfl
@[simp] theorem State.updCtl_tly (s : State) (c : Nat) (f : CanCtl → CanCtl) : (s.updCtl c f).tly = s.tly := rfl
@[simp] theorem State.updCtl_pln (s : State) (c : Nat) (f : CanCtl → CanCtl) : (s.updCtl c f).pln = s.pln := rfl
@[simp] theorem State.updCtl_jrn (s : State) (c : Nat) (f : CanCtl → CanCtl) : (s.updCtl c f).jrn = s.jrn := rfl
@[simp] theorem State.updCtl_rods (s : State) (c : Nat) (f : CanCtl → CanCtl) : (s.updCtl c f).rods = s.rods := rfl
@[simp] theorem State.updCtl_saf (s : State) (c : Nat) (f : CanCtl → CanCtl) : (s.updCtl c f).saf = s.saf := rfl
@[simp] theorem State.updCtl_sec (s : State) (c : Nat) (f : CanCtl → CanCtl) : (s.updCtl c f).sec = s.sec := rfl
@[simp] theorem State.updCtl_pwr (s : State) (c : Nat) (f : CanCtl → CanCtl) : (s.updCtl c f).pwr = s.pwr := rfl
@[simp] theorem State.updCtl_trc (s : State) (c : Nat) (f : CanCtl → CanCtl) : (s.updCtl c f).trc = s.trc := rfl
@[simp] theorem State.updCtl_tim (s : State) (c : Nat) (f : CanCtl → CanCtl) : (s.updCtl c f).tim = s.tim := rfl
@[simp] theorem State.updCtl_memc (s : State) (c : Nat) (f : CanCtl → CanCtl) : (s.updCtl c f).memc = s.memc := rfl
@[simp] theorem State.updCtl_tyb (s : State) (c : Nat) (f : CanCtl → CanCtl) : (s.updCtl c f).tyb = s.tyb := rfl
@[simp] theorem State.updCtl_sns (s : State) (c : Nat) (f : CanCtl → CanCtl) : (s.updCtl c f).sns = s.sns := rfl
@[simp] theorem State.updCtl_eth (s : State) (c : Nat) (f : CanCtl → CanCtl) : (s.updCtl c f).eth = s.eth := rfl
@[simp] theorem State.updCtl_cle (s : State) (c : Nat) (f : CanCtl → CanCtl) : (s.updCtl c f).cle = s.cle := rfl
@[simp] theorem State.updCtl_pgk (s : State) (c : Nat) (f : CanCtl → CanCtl) : (s.updCtl c f).pgk = s.pgk := rfl
@[simp] theorem State.updCtl_cry (s : State) (c : Nat) (f : CanCtl → CanCtl) : (s.updCtl c f).cry = s.cry := rfl
@[simp] theorem State.updCtl_watch (s : State) (c : Nat) (f : CanCtl → CanCtl) : (s.updCtl c f).watch = s.watch := rfl
@[simp] theorem State.updCtl_can_ctls (s : State) (c : Nat) (f : CanCtl → CanCtl) : (s.updCtl c f).can.ctls = s.can.ctls.upd c f := rfl

/-! ### updLoop -/

@[simp] theorem State.updLoop_pending (s : State) (n : Nat) (f : CleLoop → CleLoop) : (s.updLoop n f).pending = s.pending := rfl
@[simp] theorem State.updLoop_free (s : State) (n : Nat) (f : CleLoop → CleLoop) : (s.updLoop n f).free = s.free := rfl
@[simp] theorem State.updLoop_tick (s : State) (n : Nat) (f : CleLoop → CleLoop) : (s.updLoop n f).tick = s.tick := rfl
@[simp] theorem State.updLoop_mem (s : State) (n : Nat) (f : CleLoop → CleLoop) : (s.updLoop n f).mem = s.mem := rfl
@[simp] theorem State.updLoop_errs (s : State) (n : Nat) (f : CleLoop → CleLoop) : (s.updLoop n f).errs = s.errs := rfl
@[simp] theorem State.updLoop_hif (s : State) (n : Nat) (f : CleLoop → CleLoop) : (s.updLoop n f).hif = s.hif := rfl
@[simp] theorem State.updLoop_tly (s : State) (n : Nat) (f : CleLoop → CleLoop) : (s.updLoop n f).tly = s.tly := rfl
@[simp] theorem State.updLoop_pln (s : State) (n : Nat) (f : CleLoop → CleLoop) : (s.updLoop n f).pln = s.pln := rfl
@[simp] theorem State.updLoop_jrn (s : State) (n : Nat) (f : CleLoop → CleLoop) : (s.updLoop n f).jrn = s.jrn := rfl
@[simp] theorem State.updLoop_rods (s : State) (n : Nat) (f : CleLoop → CleLoop) : (s.updLoop n f).rods = s.rods := rfl
@[simp] theorem State.updLoop_saf (s : State) (n : Nat) (f : CleLoop → CleLoop) : (s.updLoop n f).saf = s.saf := rfl
@[simp] theorem State.updLoop_sec (s : State) (n : Nat) (f : CleLoop → CleLoop) : (s.updLoop n f).sec = s.sec := rfl
@[simp] theorem State.updLoop_pwr (s : State) (n : Nat) (f : CleLoop → CleLoop) : (s.updLoop n f).pwr = s.pwr := rfl
@[simp] theorem State.updLoop_trc (s : State) (n : Nat) (f : CleLoop → CleLoop) : (s.updLoop n f).trc = s.trc := rfl
@[simp] theorem State.updLoop_tim (s : State) (n : Nat) (f : CleLoop → CleLoop) : (s.updLoop n f).tim = s.tim := rfl
@[simp] theorem State.updLoop_memc (s : State) (n : Nat) (f : CleLoop → CleLoop) : (s.updLoop n f).memc = s.memc := rfl
@[simp] theorem State.updLoop_tyb (s : State) (n : Nat) (f : CleLoop → CleLoop) : (s.updLoop n f).tyb = s.tyb := rfl
@[simp] theorem State.updLoop_sns (s : State) (n : Nat) (f : CleLoop → CleLoop) : (s.updLoop n f).sns = s.sns := rfl
@[simp] theorem State.updLoop_eth (s : State) (n : Nat) (f : CleLoop → CleLoop) : (s.updLoop n f).eth = s.eth := rfl
@[simp] theorem State.updLoop_can (s : State) (n : Nat) (f : CleLoop → CleLoop) : (s.updLoop n f).can = s.can := rfl
@[simp] theorem State.updLoop_pgk (s : State) (n : Nat) (f : CleLoop → CleLoop) : (s.updLoop n f).pgk = s.pgk := rfl
@[simp] theorem State.updLoop_cry (s : State) (n : Nat) (f : CleLoop → CleLoop) : (s.updLoop n f).cry = s.cry := rfl
@[simp] theorem State.updLoop_watch (s : State) (n : Nat) (f : CleLoop → CleLoop) : (s.updLoop n f).watch = s.watch := rfl
@[simp] theorem State.updLoop_cle_state (s : State) (n : Nat) (f : CleLoop → CleLoop) : (s.updLoop n f).cle.state = s.cle.state := rfl
@[simp] theorem State.updLoop_cle_safeIn (s : State) (n : Nat) (f : CleLoop → CleLoop) : (s.updLoop n f).cle.safeIn = s.cle.safeIn := rfl
@[simp] theorem State.updLoop_cle_period (s : State) (n : Nat) (f : CleLoop → CleLoop) : (s.updLoop n f).cle.period = s.cle.period := rfl
@[simp] theorem State.updLoop_cle_periodTime (s : State) (n : Nat) (f : CleLoop → CleLoop) : (s.updLoop n f).cle.periodTime = s.cle.periodTime := rfl
@[simp] theorem State.updLoop_cle_start (s : State) (n : Nat) (f : CleLoop → CleLoop) : (s.updLoop n f).cle.start = s.cle.start := rfl
@[simp] theorem State.updLoop_cle_stop (s : State) (n : Nat) (f : CleLoop → CleLoop) : (s.updLoop n f).cle.stop = s.cle.stop := rfl
@[simp] theorem State.updLoop_cle_loops (s : State) (n : Nat) (f : CleLoop → CleLoop) : (s.updLoop n f).cle.loops = s.cle.loops.upd n f := rfl
@[simp] theorem State.updLoop_cle_mails (s : State) (n : Nat) (f : CleLoop → CleLoop) : (s.updLoop n f).cle.mails = s.cle.mails := rfl
@[simp] theorem State.updLoop_cle_encs (s : State) (n : Nat) (f : CleLoop → CleLoop) : (s.updLoop n f).cle.encs = s.cle.encs := rfl
@[simp] theorem State.updLoop_cle_sds (s : State) (n : Nat) (f : CleLoop → CleLoop) : (s.updLoop n f).cle.sds = s.cle.sds := rfl
@[simp] theorem State.updLoop_cle_spis (s : State) (n : Nat) (f : CleLoop → CleLoop) : (s.updLoop n f).cle.spis = s.cle.spis := rfl
@[simp] theorem State.updLoop_cle_pwms (s : State) (n : Nat) (f : CleLoop → CleLoop) : (s.updLoop n f).cle.pwms = s.cle.pwms := rfl
@[simp] theorem State.updLoop_cle_gens (s : State) (n : Nat) (f : CleLoop → CleLoop) : (s.updLoop n f).cle.gens = s.cle.gens := rfl
@[simp] theorem State.updLoop_cle_caps (s : State) (n : Nat) (f : CleLoop → CleLoop) : (s.updLoop n f).cle.caps = s.cle.caps := rfl

/-! ### updPair -/

@[simp] theorem State.updPair_pending (s : State) (q : Nat) (f : Pwm → Pwm) : (s.updPair q f).pending = s.pending := rfl
@[simp] theorem State.updPair_free (s : State) (q : Nat) (f : Pwm → Pwm) : (s.updPair q f).free = s.free := rfl
@[simp] theorem State.updPair_tick (s : State) (q : Nat) (f : Pwm → Pwm) : (s.updPair q f).tick = s.tick := rfl
@[simp] theorem State.updPair_mem (s : State) (q : Nat) (f : Pwm → Pwm) : (s.updPair q f).mem = s.mem := rfl
@[simp] theorem State.updPair_errs (s : State) (q : Nat) (f : Pwm → Pwm) : (s.updPair q f).errs = s.errs := rfl
@[simp] theorem State.updPair_hif (s : State) (q : Nat) (f : Pwm → Pwm) : (s.updPair q f).hif = s.hif := rfl
@[simp] theorem State.updPair_tly (s : State) (q : Nat) (f : Pwm → Pwm) : (s.updPair q f).tly = s.tly := rfl
@[simp] theorem State.updPair_pln (s : State) (q : Nat) (f : Pwm → Pwm) : (s.updPair q f).pln = s.pln := rfl
@[simp] theorem State.updPair_jrn (s : State) (q : Nat) (f : Pwm → Pwm) : (s.updPair q f).jrn = s.jrn := rfl
@[simp] theorem State.updPair_rods (s : State) (q : Nat) (f : Pwm → Pwm) : (s.updPair q f).rods = s.rods := rfl
@[simp] theorem State.updPair_saf (s : State) (q : Nat) (f : Pwm → Pwm) : (s.updPair q f).saf = s.saf := rfl
@[simp] theorem State.updPair_sec (s : State) (q : Nat) (f : Pwm → Pwm) : (s.updPair q f).sec = s.sec := rfl
@[simp] theorem State.updPair_pwr (s : State) (q : Nat) (f : Pwm → Pwm) : (s.updPair q f).pwr = s.pwr := rfl
@[simp] theorem State.updPair_trc (s : State) (q : Nat) (f : Pwm → Pwm) : (s.updPair q f).trc = s.trc := rfl
@[simp] theorem State.updPair_tim (s : State) (q : Nat) (f : Pwm → Pwm) : (s.updPair q f).tim = s.tim := rfl
@[simp] theorem State.updPair_memc (s : State) (q : Nat) (f : Pwm → Pwm) : (s.updPair q f).memc = s.memc := rfl
@[simp] theorem State.updPair_tyb (s : State) (q : Nat) (f : Pwm → Pwm) : (s.updPair q f).tyb = s.tyb := rfl
@[simp] theorem State.updPair_sns (s : State) (q : Nat) (f : Pwm → Pwm) : (s.updPair q f).sns = s.sns := rfl
@[simp] theorem State.updPair_eth (s : State) (q : Nat) (f : Pwm → Pwm) : (s.updPair q f).eth = s.eth := rfl
@[simp] theorem State.updPair_can (s : State) (q : Nat) (f : Pwm → Pwm) : (s.updPair q f).can = s.can := rfl
@[simp] theorem State.updPair_pgk (s : State) (q : Nat) (f : Pwm → Pwm) : (s.updPair q f).pgk = s.pgk := rfl
@[simp] theorem State.updPair_cry (s : State) (q : Nat) (f : Pwm → Pwm) : (s.updPair q f).cry = s.cry := rfl
@[simp] theorem State.updPair_watch (s : State) (q : Nat) (f : Pwm → Pwm) : (s.updPair q f).watch = s.watch := rfl
@[simp] theorem State.updPair_cle_state (s : State) (q : Nat) (f : Pwm → Pwm) : (s.updPair q f).cle.state = s.cle.state := rfl
@[simp] theorem State.updPair_cle_safeIn (s : State) (q : Nat) (f : Pwm → Pwm) : (s.updPair q f).cle.safeIn = s.cle.safeIn := rfl
@[simp] theorem State.updPair_cle_period (s : State) (q : Nat) (f : Pwm → Pwm) : (s.updPair q f).cle.period = s.cle.period := rfl
@[simp] theorem State.updPair_cle_periodTime (s : State) (q : Nat) (f : Pwm → Pwm) : (s.updPair q f).cle.periodTime = s.cle.periodTime := rfl
@[simp] theorem State.updPair_cle_start (s : State) (q : Nat) (f : Pwm → Pwm) : (s.updPair q f).cle.start = s.cle.start := rfl
@[simp] theorem State.updPair_cle_stop (s : State) (q : Nat) (f : Pwm → Pwm) : (s.updPair q f).cle.stop = s.cle.stop := rfl
@[simp] theorem State.updPair_cle_loops (s : State) (q : Nat) (f : Pwm → Pwm) : (s.updPair q f).cle.loops = s.cle.loops := rfl
@[simp] theorem State.updPair_cle_mails (s : State) (q : Nat) (f : Pwm → Pwm) : (s.updPair q f).cle.mails = s.cle.mails := rfl
@[simp] theorem State.updPair_cle_encs (s : State) (q : Nat) (f : Pwm → Pwm) : (s.updPair q f).cle.encs = s.cle.encs := rfl
@[simp] theorem State.updPair_cle_sds (s : State) (q : Nat) (f : Pwm → Pwm) : (s.updPair q f).cle.sds = s.cle.sds := rfl
@[simp] theorem State.updPair_cle_spis (s : State) (q : Nat) (f : Pwm → Pwm) : (s.updPair q f).cle.spis = s.cle.spis := rfl
@[simp] theorem State.updPair_cle_pwms (s : State) (q : Nat) (f : Pwm → Pwm) : (s.updPair q f).cle.pwms = s.cle.pwms.upd q f := rfl
@[simp] theorem State.updPair_cle_gens (s : State) (q : Nat) (f : Pwm → Pwm) : (s.updPair q f).cle.gens = s.cle.gens := rfl
@[simp] theorem State.updPair_cle_caps (s : State) (q : Nat) (f : Pwm → Pwm) : (s.updPair q f).cle.caps = s.cle.caps := rfl

/-! ### updPort -/

@[simp] theorem State.updPort_pending (s : State) (p : Nat) (f : TybPort → TybPort) : (s.updPort p f).pending = s.pending := rfl
@[simp] theorem State.updPort_free (s : State) (p : Nat) (f : TybPort → TybPort) : (s.updPort p f).free = s.free := rfl
@[simp] theorem State.updPort_tick (s : State) (p : Nat) (f : TybPort → TybPort) : (s.updPort p f).tick = s.tick := rfl
@[simp] theorem State.updPort_mem (s : State) (p : Nat) (f : TybPort → TybPort) : (s.updPort p f).mem = s.mem := rfl
@[simp] theorem State.updPort_errs (s : State) (p : Nat) (f : TybPort → TybPort) : (s.updPort p f).errs = s.errs := rfl
@[simp] theorem State.updPort_hif (s : State) (p : Nat) (f : TybPort → TybPort) : (s.updPort p f).hif = s.hif := rfl
@[simp] theorem State.updPort_tly (s : State) (p : Nat) (f : TybPort → TybPort) : (s.updPort p f).tly = s.tly := rfl
@[simp] theorem State.updPort_pln (s : State) (p : Nat) (f : TybPort → TybPort) : (s.updPort p f).pln = s.pln := rfl
@[simp] theorem State.updPort_jrn (s : State) (p : Nat) (f : TybPort → TybPort) : (s.updPort p f).jrn = s.jrn := rfl
@[simp] theorem State.updPort_rods (s : State) (p : Nat) (f : TybPort → TybPort) : (s.updPort p f).rods = s.rods := rfl
@[simp] theorem State.updPort_saf (s : State) (p : Nat) (f : TybPort → TybPort) : (s.updPort p f).saf = s.saf := rfl
@[simp] theorem State.updPort_sec (s : State) (p : Nat) (f : TybPort → TybPort) : (s.updPort p f).sec = s.sec := rfl
@[simp] theorem State.updPort_pwr (s : State) (p : Nat) (f : TybPort → TybPort) : (s.updPort p f).pwr = s.pwr := rfl
@[simp] theorem State.updPort_trc (s : State) (p : Nat) (f : TybPort → TybPort) : (s.updPort p f).trc = s.trc := rfl
@[simp] theorem State.updPort_tim (s : State) (p : Nat) (f : TybPort → TybPort) : (s.updPort p f).tim = s.tim := rfl
@[simp] theorem State.updPort_memc (s : State) (p : Nat) (f : TybPort → TybPort) : (s.updPort p f).memc = s.memc := rfl
@[simp] theorem State.updPort_sns (s : State) (p : Nat) (f : TybPort → TybPort) : (s.updPort p f).sns = s.sns := rfl
@[simp] theorem State.updPort_eth (s : State) (p : Nat) (f : TybPort → TybPort) : (s.updPort p f).eth = s.eth := rfl
@[simp] theorem State.updPort_can (s : State) (p : Nat) (f : TybPort → TybPort) : (s.updPort p f).can = s.can := rfl
@[simp] theorem State.updPort_cle (s : State) (p : Nat) (f : TybPort → TybPort) : (s.updPort p f).cle = s.cle := rfl
@[simp] theorem State.updPort_pgk (s : State) (p : Nat) (f : TybPort → TybPort) : (s.updPort p f).pgk = s.pgk := rfl
@[simp] theorem State.updPort_cry (s : State) (p : Nat) (f : TybPort → TybPort) : (s.updPort p f).cry = s.cry := rfl
@[simp] theorem State.updPort_watch (s : State) (p : Nat) (f : TybPort → TybPort) : (s.updPort p f).watch = s.watch := rfl
@[simp] theorem State.updPort_tyb_node (s : State) (p : Nat) (f : TybPort → TybPort) : (s.updPort p f).tyb.node = s.tyb.node := rfl
@[simp] theorem State.updPort_tyb_lost (s : State) (p : Nat) (f : TybPort → TybPort) : (s.updPort p f).tyb.lost = s.tyb.lost := rfl
@[simp] theorem State.updPort_tyb_mismatch (s : State) (p : Nat) (f : TybPort → TybPort) : (s.updPort p f).tyb.mismatch = s.tyb.mismatch := rfl
@[simp] theorem State.updPort_tyb_timeBad (s : State) (p : Nat) (f : TybPort → TybPort) : (s.updPort p f).tyb.timeBad = s.tyb.timeBad := rfl
@[simp] theorem State.updPort_tyb_conflict (s : State) (p : Nat) (f : TybPort → TybPort) : (s.updPort p f).tyb.conflict = s.tyb.conflict := rfl
@[simp] theorem State.updPort_tyb_noRoute (s : State) (p : Nat) (f : TybPort → TybPort) : (s.updPort p f).tyb.noRoute = s.tyb.noRoute := rfl
@[simp] theorem State.updPort_tyb_hopsExpired (s : State) (p : Nat) (f : TybPort → TybPort) : (s.updPort p f).tyb.hopsExpired = s.tyb.hopsExpired := rfl
@[simp] theorem State.updPort_tyb_routeSel (s : State) (p : Nat) (f : TybPort → TybPort) : (s.updPort p f).tyb.routeSel = s.tyb.routeSel := rfl
@[simp] theorem State.updPort_tyb_routes (s : State) (p : Nat) (f : TybPort → TybPort) : (s.updPort p f).tyb.routes = s.tyb.routes := rfl
@[simp] theorem State.updPort_tyb_partnerOffset (s : State) (p : Nat) (f : TybPort → TybPort) : (s.updPort p f).tyb.partnerOffset = s.tyb.partnerOffset := rfl
@[simp] theorem State.updPort_tyb_partnerDelay (s : State) (p : Nat) (f : TybPort → TybPort) : (s.updPort p f).tyb.partnerDelay = s.tyb.partnerDelay := rfl
@[simp] theorem State.updPort_tyb_hbRxSeq (s : State) (p : Nat) (f : TybPort → TybPort) : (s.updPort p f).tyb.hbRxSeq = s.tyb.hbRxSeq := rfl
@[simp] theorem State.updPort_tyb_unmatched (s : State) (p : Nat) (f : TybPort → TybPort) : (s.updPort p f).tyb.unmatched = s.tyb.unmatched := rfl
@[simp] theorem State.updPort_tyb_witness (s : State) (p : Nat) (f : TybPort → TybPort) : (s.updPort p f).tyb.witness = s.tyb.witness := rfl
@[simp] theorem State.updPort_tyb_ports (s : State) (p : Nat) (f : TybPort → TybPort) : (s.updPort p f).tyb.ports = s.tyb.ports.upd p f := rfl
@[simp] theorem State.updPort_tyb_mseq (s : State) (p : Nat) (f : TybPort → TybPort) : (s.updPort p f).tyb.mseq = s.tyb.mseq := rfl
@[simp] theorem State.updPort_tyb_offs (s : State) (p : Nat) (f : TybPort → TybPort) : (s.updPort p f).tyb.offs = s.tyb.offs := rfl
@[simp] theorem State.updPort_tyb_partner (s : State) (p : Nat) (f : TybPort → TybPort) : (s.updPort p f).tyb.partner = s.tyb.partner := rfl
@[simp] theorem State.updPort_tyb_sigs (s : State) (p : Nat) (f : TybPort → TybPort) : (s.updPort p f).tyb.sigs = s.tyb.sigs := rfl

/-! ### updSeq -/

@[simp] theorem State.updSeq_pending (s : State) (q : Nat) (f : KvSeq → KvSeq) : (s.updSeq q f).pending = s.pending := rfl
@[simp] theorem State.updSeq_free (s : State) (q : Nat) (f : KvSeq → KvSeq) : (s.updSeq q f).free = s.free := rfl
@[simp] theorem State.updSeq_tick (s : State) (q : Nat) (f : KvSeq → KvSeq) : (s.updSeq q f).tick = s.tick := rfl
@[simp] theorem State.updSeq_mem (s : State) (q : Nat) (f : KvSeq → KvSeq) : (s.updSeq q f).mem = s.mem := rfl
@[simp] theorem State.updSeq_errs (s : State) (q : Nat) (f : KvSeq → KvSeq) : (s.updSeq q f).errs = s.errs := rfl
@[simp] theorem State.updSeq_hif (s : State) (q : Nat) (f : KvSeq → KvSeq) : (s.updSeq q f).hif = s.hif := rfl
@[simp] theorem State.updSeq_tly (s : State) (q : Nat) (f : KvSeq → KvSeq) : (s.updSeq q f).tly = s.tly := rfl
@[simp] theorem State.updSeq_pln (s : State) (q : Nat) (f : KvSeq → KvSeq) : (s.updSeq q f).pln = s.pln := rfl
@[simp] theorem State.updSeq_jrn (s : State) (q : Nat) (f : KvSeq → KvSeq) : (s.updSeq q f).jrn = s.jrn := rfl
@[simp] theorem State.updSeq_rods (s : State) (q : Nat) (f : KvSeq → KvSeq) : (s.updSeq q f).rods = s.rods := rfl
@[simp] theorem State.updSeq_saf (s : State) (q : Nat) (f : KvSeq → KvSeq) : (s.updSeq q f).saf = s.saf := rfl
@[simp] theorem State.updSeq_sec (s : State) (q : Nat) (f : KvSeq → KvSeq) : (s.updSeq q f).sec = s.sec := rfl
@[simp] theorem State.updSeq_pwr (s : State) (q : Nat) (f : KvSeq → KvSeq) : (s.updSeq q f).pwr = s.pwr := rfl
@[simp] theorem State.updSeq_trc (s : State) (q : Nat) (f : KvSeq → KvSeq) : (s.updSeq q f).trc = s.trc := rfl
@[simp] theorem State.updSeq_tim (s : State) (q : Nat) (f : KvSeq → KvSeq) : (s.updSeq q f).tim = s.tim := rfl
@[simp] theorem State.updSeq_memc (s : State) (q : Nat) (f : KvSeq → KvSeq) : (s.updSeq q f).memc = s.memc := rfl
@[simp] theorem State.updSeq_tyb (s : State) (q : Nat) (f : KvSeq → KvSeq) : (s.updSeq q f).tyb = s.tyb := rfl
@[simp] theorem State.updSeq_sns (s : State) (q : Nat) (f : KvSeq → KvSeq) : (s.updSeq q f).sns = s.sns := rfl
@[simp] theorem State.updSeq_eth (s : State) (q : Nat) (f : KvSeq → KvSeq) : (s.updSeq q f).eth = s.eth := rfl
@[simp] theorem State.updSeq_can (s : State) (q : Nat) (f : KvSeq → KvSeq) : (s.updSeq q f).can = s.can := rfl
@[simp] theorem State.updSeq_cle (s : State) (q : Nat) (f : KvSeq → KvSeq) : (s.updSeq q f).cle = s.cle := rfl
@[simp] theorem State.updSeq_cry (s : State) (q : Nat) (f : KvSeq → KvSeq) : (s.updSeq q f).cry = s.cry := rfl
@[simp] theorem State.updSeq_watch (s : State) (q : Nat) (f : KvSeq → KvSeq) : (s.updSeq q f).watch = s.watch := rfl
@[simp] theorem State.updSeq_pgk_ready (s : State) (q : Nat) (f : KvSeq → KvSeq) : (s.updSeq q f).pgk.ready = s.pgk.ready := rfl
@[simp] theorem State.updSeq_pgk_landing (s : State) (q : Nat) (f : KvSeq → KvSeq) : (s.updSeq q f).pgk.landing = s.pgk.landing := rfl
@[simp] theorem State.updSeq_pgk_tableUe (s : State) (q : Nat) (f : KvSeq → KvSeq) : (s.updSeq q f).pgk.tableUe = s.pgk.tableUe := rfl
@[simp] theorem State.updSeq_pgk_seqSel (s : State) (q : Nat) (f : KvSeq → KvSeq) : (s.updSeq q f).pgk.seqSel = s.pgk.seqSel := rfl
@[simp] theorem State.updSeq_pgk_pageSel (s : State) (q : Nat) (f : KvSeq → KvSeq) : (s.updSeq q f).pgk.pageSel = s.pgk.pageSel := rfl
@[simp] theorem State.updSeq_pgk_seqs (s : State) (q : Nat) (f : KvSeq → KvSeq) : (s.updSeq q f).pgk.seqs = s.pgk.seqs.upd q f := rfl
@[simp] theorem State.updSeq_pgk_table (s : State) (q : Nat) (f : KvSeq → KvSeq) : (s.updSeq q f).pgk.table = s.pgk.table := rfl
@[simp] theorem State.updSeq_pgk_pages (s : State) (q : Nat) (f : KvSeq → KvSeq) : (s.updSeq q f).pgk.pages = s.pgk.pages := rfl
@[simp] theorem State.updSeq_pgk_pools (s : State) (q : Nat) (f : KvSeq → KvSeq) : (s.updSeq q f).pgk.pools = s.pgk.pools := rfl
@[simp] theorem State.updSeq_pgk_queues (s : State) (q : Nat) (f : KvSeq → KvSeq) : (s.updSeq q f).pgk.queues = s.pgk.queues := rfl
@[simp] theorem State.updSeq_pgk_runs (s : State) (q : Nat) (f : KvSeq → KvSeq) : (s.updSeq q f).pgk.runs = s.pgk.runs := rfl
@[simp] theorem State.updSeq_pgk_rings (s : State) (q : Nat) (f : KvSeq → KvSeq) : (s.updSeq q f).pgk.rings = s.pgk.rings := rfl

/-! ### updRing -/

@[simp] theorem State.updRing_pending (s : State) (g : Nat) (f : RingCtx → RingCtx) : (s.updRing g f).pending = s.pending := rfl
@[simp] theorem State.updRing_free (s : State) (g : Nat) (f : RingCtx → RingCtx) : (s.updRing g f).free = s.free := rfl
@[simp] theorem State.updRing_tick (s : State) (g : Nat) (f : RingCtx → RingCtx) : (s.updRing g f).tick = s.tick := rfl
@[simp] theorem State.updRing_mem (s : State) (g : Nat) (f : RingCtx → RingCtx) : (s.updRing g f).mem = s.mem := rfl
@[simp] theorem State.updRing_errs (s : State) (g : Nat) (f : RingCtx → RingCtx) : (s.updRing g f).errs = s.errs := rfl
@[simp] theorem State.updRing_hif (s : State) (g : Nat) (f : RingCtx → RingCtx) : (s.updRing g f).hif = s.hif := rfl
@[simp] theorem State.updRing_tly (s : State) (g : Nat) (f : RingCtx → RingCtx) : (s.updRing g f).tly = s.tly := rfl
@[simp] theorem State.updRing_pln (s : State) (g : Nat) (f : RingCtx → RingCtx) : (s.updRing g f).pln = s.pln := rfl
@[simp] theorem State.updRing_jrn (s : State) (g : Nat) (f : RingCtx → RingCtx) : (s.updRing g f).jrn = s.jrn := rfl
@[simp] theorem State.updRing_rods (s : State) (g : Nat) (f : RingCtx → RingCtx) : (s.updRing g f).rods = s.rods := rfl
@[simp] theorem State.updRing_saf (s : State) (g : Nat) (f : RingCtx → RingCtx) : (s.updRing g f).saf = s.saf := rfl
@[simp] theorem State.updRing_sec (s : State) (g : Nat) (f : RingCtx → RingCtx) : (s.updRing g f).sec = s.sec := rfl
@[simp] theorem State.updRing_pwr (s : State) (g : Nat) (f : RingCtx → RingCtx) : (s.updRing g f).pwr = s.pwr := rfl
@[simp] theorem State.updRing_trc (s : State) (g : Nat) (f : RingCtx → RingCtx) : (s.updRing g f).trc = s.trc := rfl
@[simp] theorem State.updRing_tim (s : State) (g : Nat) (f : RingCtx → RingCtx) : (s.updRing g f).tim = s.tim := rfl
@[simp] theorem State.updRing_memc (s : State) (g : Nat) (f : RingCtx → RingCtx) : (s.updRing g f).memc = s.memc := rfl
@[simp] theorem State.updRing_tyb (s : State) (g : Nat) (f : RingCtx → RingCtx) : (s.updRing g f).tyb = s.tyb := rfl
@[simp] theorem State.updRing_sns (s : State) (g : Nat) (f : RingCtx → RingCtx) : (s.updRing g f).sns = s.sns := rfl
@[simp] theorem State.updRing_eth (s : State) (g : Nat) (f : RingCtx → RingCtx) : (s.updRing g f).eth = s.eth := rfl
@[simp] theorem State.updRing_can (s : State) (g : Nat) (f : RingCtx → RingCtx) : (s.updRing g f).can = s.can := rfl
@[simp] theorem State.updRing_cle (s : State) (g : Nat) (f : RingCtx → RingCtx) : (s.updRing g f).cle = s.cle := rfl
@[simp] theorem State.updRing_cry (s : State) (g : Nat) (f : RingCtx → RingCtx) : (s.updRing g f).cry = s.cry := rfl
@[simp] theorem State.updRing_watch (s : State) (g : Nat) (f : RingCtx → RingCtx) : (s.updRing g f).watch = s.watch := rfl
@[simp] theorem State.updRing_pgk_ready (s : State) (g : Nat) (f : RingCtx → RingCtx) : (s.updRing g f).pgk.ready = s.pgk.ready := rfl
@[simp] theorem State.updRing_pgk_landing (s : State) (g : Nat) (f : RingCtx → RingCtx) : (s.updRing g f).pgk.landing = s.pgk.landing := rfl
@[simp] theorem State.updRing_pgk_tableUe (s : State) (g : Nat) (f : RingCtx → RingCtx) : (s.updRing g f).pgk.tableUe = s.pgk.tableUe := rfl
@[simp] theorem State.updRing_pgk_seqSel (s : State) (g : Nat) (f : RingCtx → RingCtx) : (s.updRing g f).pgk.seqSel = s.pgk.seqSel := rfl
@[simp] theorem State.updRing_pgk_pageSel (s : State) (g : Nat) (f : RingCtx → RingCtx) : (s.updRing g f).pgk.pageSel = s.pgk.pageSel := rfl
@[simp] theorem State.updRing_pgk_seqs (s : State) (g : Nat) (f : RingCtx → RingCtx) : (s.updRing g f).pgk.seqs = s.pgk.seqs := rfl
@[simp] theorem State.updRing_pgk_table (s : State) (g : Nat) (f : RingCtx → RingCtx) : (s.updRing g f).pgk.table = s.pgk.table := rfl
@[simp] theorem State.updRing_pgk_pages (s : State) (g : Nat) (f : RingCtx → RingCtx) : (s.updRing g f).pgk.pages = s.pgk.pages := rfl
@[simp] theorem State.updRing_pgk_pools (s : State) (g : Nat) (f : RingCtx → RingCtx) : (s.updRing g f).pgk.pools = s.pgk.pools := rfl
@[simp] theorem State.updRing_pgk_queues (s : State) (g : Nat) (f : RingCtx → RingCtx) : (s.updRing g f).pgk.queues = s.pgk.queues := rfl
@[simp] theorem State.updRing_pgk_runs (s : State) (g : Nat) (f : RingCtx → RingCtx) : (s.updRing g f).pgk.runs = s.pgk.runs := rfl
@[simp] theorem State.updRing_pgk_rings (s : State) (g : Nat) (f : RingCtx → RingCtx) : (s.updRing g f).pgk.rings = s.pgk.rings.upd g f := rfl

/-! ### updStream -/

@[simp] theorem State.updStream_pending (s : State) (n : Nat) (f : Stream → Stream) : (s.updStream n f).pending = s.pending := rfl
@[simp] theorem State.updStream_free (s : State) (n : Nat) (f : Stream → Stream) : (s.updStream n f).free = s.free := rfl
@[simp] theorem State.updStream_tick (s : State) (n : Nat) (f : Stream → Stream) : (s.updStream n f).tick = s.tick := rfl
@[simp] theorem State.updStream_mem (s : State) (n : Nat) (f : Stream → Stream) : (s.updStream n f).mem = s.mem := rfl
@[simp] theorem State.updStream_errs (s : State) (n : Nat) (f : Stream → Stream) : (s.updStream n f).errs = s.errs := rfl
@[simp] theorem State.updStream_hif (s : State) (n : Nat) (f : Stream → Stream) : (s.updStream n f).hif = s.hif := rfl
@[simp] theorem State.updStream_tly (s : State) (n : Nat) (f : Stream → Stream) : (s.updStream n f).tly = s.tly := rfl
@[simp] theorem State.updStream_pln (s : State) (n : Nat) (f : Stream → Stream) : (s.updStream n f).pln = s.pln := rfl
@[simp] theorem State.updStream_jrn (s : State) (n : Nat) (f : Stream → Stream) : (s.updStream n f).jrn = s.jrn := rfl
@[simp] theorem State.updStream_rods (s : State) (n : Nat) (f : Stream → Stream) : (s.updStream n f).rods = s.rods := rfl
@[simp] theorem State.updStream_saf (s : State) (n : Nat) (f : Stream → Stream) : (s.updStream n f).saf = s.saf := rfl
@[simp] theorem State.updStream_sec (s : State) (n : Nat) (f : Stream → Stream) : (s.updStream n f).sec = s.sec := rfl
@[simp] theorem State.updStream_pwr (s : State) (n : Nat) (f : Stream → Stream) : (s.updStream n f).pwr = s.pwr := rfl
@[simp] theorem State.updStream_trc (s : State) (n : Nat) (f : Stream → Stream) : (s.updStream n f).trc = s.trc := rfl
@[simp] theorem State.updStream_tim (s : State) (n : Nat) (f : Stream → Stream) : (s.updStream n f).tim = s.tim := rfl
@[simp] theorem State.updStream_memc (s : State) (n : Nat) (f : Stream → Stream) : (s.updStream n f).memc = s.memc := rfl
@[simp] theorem State.updStream_tyb (s : State) (n : Nat) (f : Stream → Stream) : (s.updStream n f).tyb = s.tyb := rfl
@[simp] theorem State.updStream_sns (s : State) (n : Nat) (f : Stream → Stream) : (s.updStream n f).sns = s.sns := rfl
@[simp] theorem State.updStream_eth (s : State) (n : Nat) (f : Stream → Stream) : (s.updStream n f).eth = s.eth := rfl
@[simp] theorem State.updStream_can (s : State) (n : Nat) (f : Stream → Stream) : (s.updStream n f).can = s.can := rfl
@[simp] theorem State.updStream_cle (s : State) (n : Nat) (f : Stream → Stream) : (s.updStream n f).cle = s.cle := rfl
@[simp] theorem State.updStream_pgk (s : State) (n : Nat) (f : Stream → Stream) : (s.updStream n f).pgk = s.pgk := rfl
@[simp] theorem State.updStream_watch (s : State) (n : Nat) (f : Stream → Stream) : (s.updStream n f).watch = s.watch := rfl
@[simp] theorem State.updStream_cry_sel (s : State) (n : Nat) (f : Stream → Stream) : (s.updStream n f).cry.sel = s.cry.sel := rfl
@[simp] theorem State.updStream_cry_streams (s : State) (n : Nat) (f : Stream → Stream) : (s.updStream n f).cry.streams = s.cry.streams.upd n f := rfl

/-! ### An updated entry reads back; the others read as before -/

@[simp] theorem State.updRod_rod_self (s : State) (n : Nat) (f : Rod → Rod) : (s.updRod n f).rod n = f (s.rod n) := Tab.get_upd_self _ _ _
@[simp] theorem State.updRod_rod_ne (s : State) {i n : Nat} (f : Rod → Rod) (h : i ≠ n) : (s.updRod n f).rod i = s.rod i := Tab.get_upd_ne _ _ h
@[simp] theorem State.updJob_jobRun_self (s : State) (j : Nat) (f : JobRun → JobRun) : (s.updJob j f).jobRun j = f (s.jobRun j) := Tab.get_upd_self _ _ _
@[simp] theorem State.updJob_jobRun_ne (s : State) {i j : Nat} (f : JobRun → JobRun) (h : i ≠ j) : (s.updJob j f).jobRun i = s.jobRun i := Tab.get_upd_ne _ _ h
@[simp] theorem State.updPoint_point_self (s : State) (p : Nat) (f : Point → Point) : (s.updPoint p f).point p = f (s.point p) := Tab.get_upd_self _ _ _
@[simp] theorem State.updPoint_point_ne (s : State) {i p : Nat} (f : Point → Point) (h : i ≠ p) : (s.updPoint p f).point i = s.point i := Tab.get_upd_ne _ _ h
@[simp] theorem State.updMac_mac_self (s : State) (m : Nat) (f : Mac → Mac) : (s.updMac m f).mac m = f (s.mac m) := Tab.get_upd_self _ _ _
@[simp] theorem State.updMac_mac_ne (s : State) {i m : Nat} (f : Mac → Mac) (h : i ≠ m) : (s.updMac m f).mac i = s.mac i := Tab.get_upd_ne _ _ h
@[simp] theorem State.updCtl_ctl_self (s : State) (c : Nat) (f : CanCtl → CanCtl) : (s.updCtl c f).ctl c = f (s.ctl c) := Tab.get_upd_self _ _ _
@[simp] theorem State.updCtl_ctl_ne (s : State) {i c : Nat} (f : CanCtl → CanCtl) (h : i ≠ c) : (s.updCtl c f).ctl i = s.ctl i := Tab.get_upd_ne _ _ h
@[simp] theorem State.updPort_port_self (s : State) (p : Nat) (f : TybPort → TybPort) : (s.updPort p f).port p = f (s.port p) := Tab.get_upd_self _ _ _
@[simp] theorem State.updPort_port_ne (s : State) {i p : Nat} (f : TybPort → TybPort) (h : i ≠ p) : (s.updPort p f).port i = s.port i := Tab.get_upd_ne _ _ h
@[simp] theorem State.updStream_stream_self (s : State) (n : Nat) (f : Stream → Stream) : (s.updStream n f).stream n = f (s.stream n) := Tab.get_upd_self _ _ _
@[simp] theorem State.updStream_stream_ne (s : State) {i n : Nat} (f : Stream → Stream) (h : i ≠ n) : (s.updStream n f).stream i = s.stream i := Tab.get_upd_ne _ _ h
@[simp] theorem State.updRod_jobRun (s : State) (n : Nat) (f : Rod → Rod) (i : Nat) : (s.updRod n f).jobRun i = s.jobRun i := rfl
@[simp] theorem State.updRod_point (s : State) (n : Nat) (f : Rod → Rod) (i : Nat) : (s.updRod n f).point i = s.point i := rfl
@[simp] theorem State.updRod_mac (s : State) (n : Nat) (f : Rod → Rod) (i : Nat) : (s.updRod n f).mac i = s.mac i := rfl
@[simp] theorem State.updRod_ctl (s : State) (n : Nat) (f : Rod → Rod) (i : Nat) : (s.updRod n f).ctl i = s.ctl i := rfl
@[simp] theorem State.updRod_port (s : State) (n : Nat) (f : Rod → Rod) (i : Nat) : (s.updRod n f).port i = s.port i := rfl
@[simp] theorem State.updRod_stream (s : State) (n : Nat) (f : Rod → Rod) (i : Nat) : (s.updRod n f).stream i = s.stream i := rfl
@[simp] theorem State.updJob_rod (s : State) (j : Nat) (f : JobRun → JobRun) (i : Nat) : (s.updJob j f).rod i = s.rod i := rfl
@[simp] theorem State.updJob_point (s : State) (j : Nat) (f : JobRun → JobRun) (i : Nat) : (s.updJob j f).point i = s.point i := rfl
@[simp] theorem State.updJob_mac (s : State) (j : Nat) (f : JobRun → JobRun) (i : Nat) : (s.updJob j f).mac i = s.mac i := rfl
@[simp] theorem State.updJob_ctl (s : State) (j : Nat) (f : JobRun → JobRun) (i : Nat) : (s.updJob j f).ctl i = s.ctl i := rfl
@[simp] theorem State.updJob_port (s : State) (j : Nat) (f : JobRun → JobRun) (i : Nat) : (s.updJob j f).port i = s.port i := rfl
@[simp] theorem State.updJob_stream (s : State) (j : Nat) (f : JobRun → JobRun) (i : Nat) : (s.updJob j f).stream i = s.stream i := rfl
@[simp] theorem State.updPoint_rod (s : State) (p : Nat) (f : Point → Point) (i : Nat) : (s.updPoint p f).rod i = s.rod i := rfl
@[simp] theorem State.updPoint_jobRun (s : State) (p : Nat) (f : Point → Point) (i : Nat) : (s.updPoint p f).jobRun i = s.jobRun i := rfl
@[simp] theorem State.updPoint_mac (s : State) (p : Nat) (f : Point → Point) (i : Nat) : (s.updPoint p f).mac i = s.mac i := rfl
@[simp] theorem State.updPoint_ctl (s : State) (p : Nat) (f : Point → Point) (i : Nat) : (s.updPoint p f).ctl i = s.ctl i := rfl
@[simp] theorem State.updPoint_port (s : State) (p : Nat) (f : Point → Point) (i : Nat) : (s.updPoint p f).port i = s.port i := rfl
@[simp] theorem State.updPoint_stream (s : State) (p : Nat) (f : Point → Point) (i : Nat) : (s.updPoint p f).stream i = s.stream i := rfl
@[simp] theorem State.updMac_rod (s : State) (m : Nat) (f : Mac → Mac) (i : Nat) : (s.updMac m f).rod i = s.rod i := rfl
@[simp] theorem State.updMac_jobRun (s : State) (m : Nat) (f : Mac → Mac) (i : Nat) : (s.updMac m f).jobRun i = s.jobRun i := rfl
@[simp] theorem State.updMac_point (s : State) (m : Nat) (f : Mac → Mac) (i : Nat) : (s.updMac m f).point i = s.point i := rfl
@[simp] theorem State.updMac_ctl (s : State) (m : Nat) (f : Mac → Mac) (i : Nat) : (s.updMac m f).ctl i = s.ctl i := rfl
@[simp] theorem State.updMac_port (s : State) (m : Nat) (f : Mac → Mac) (i : Nat) : (s.updMac m f).port i = s.port i := rfl
@[simp] theorem State.updMac_stream (s : State) (m : Nat) (f : Mac → Mac) (i : Nat) : (s.updMac m f).stream i = s.stream i := rfl
@[simp] theorem State.updCtl_rod (s : State) (c : Nat) (f : CanCtl → CanCtl) (i : Nat) : (s.updCtl c f).rod i = s.rod i := rfl
@[simp] theorem State.updCtl_jobRun (s : State) (c : Nat) (f : CanCtl → CanCtl) (i : Nat) : (s.updCtl c f).jobRun i = s.jobRun i := rfl
@[simp] theorem State.updCtl_point (s : State) (c : Nat) (f : CanCtl → CanCtl) (i : Nat) : (s.updCtl c f).point i = s.point i := rfl
@[simp] theorem State.updCtl_mac (s : State) (c : Nat) (f : CanCtl → CanCtl) (i : Nat) : (s.updCtl c f).mac i = s.mac i := rfl
@[simp] theorem State.updCtl_port (s : State) (c : Nat) (f : CanCtl → CanCtl) (i : Nat) : (s.updCtl c f).port i = s.port i := rfl
@[simp] theorem State.updCtl_stream (s : State) (c : Nat) (f : CanCtl → CanCtl) (i : Nat) : (s.updCtl c f).stream i = s.stream i := rfl
@[simp] theorem State.updPort_rod (s : State) (p : Nat) (f : TybPort → TybPort) (i : Nat) : (s.updPort p f).rod i = s.rod i := rfl
@[simp] theorem State.updPort_jobRun (s : State) (p : Nat) (f : TybPort → TybPort) (i : Nat) : (s.updPort p f).jobRun i = s.jobRun i := rfl
@[simp] theorem State.updPort_point (s : State) (p : Nat) (f : TybPort → TybPort) (i : Nat) : (s.updPort p f).point i = s.point i := rfl
@[simp] theorem State.updPort_mac (s : State) (p : Nat) (f : TybPort → TybPort) (i : Nat) : (s.updPort p f).mac i = s.mac i := rfl
@[simp] theorem State.updPort_ctl (s : State) (p : Nat) (f : TybPort → TybPort) (i : Nat) : (s.updPort p f).ctl i = s.ctl i := rfl
@[simp] theorem State.updPort_stream (s : State) (p : Nat) (f : TybPort → TybPort) (i : Nat) : (s.updPort p f).stream i = s.stream i := rfl
@[simp] theorem State.updStream_rod (s : State) (n : Nat) (f : Stream → Stream) (i : Nat) : (s.updStream n f).rod i = s.rod i := rfl
@[simp] theorem State.updStream_jobRun (s : State) (n : Nat) (f : Stream → Stream) (i : Nat) : (s.updStream n f).jobRun i = s.jobRun i := rfl
@[simp] theorem State.updStream_point (s : State) (n : Nat) (f : Stream → Stream) (i : Nat) : (s.updStream n f).point i = s.point i := rfl
@[simp] theorem State.updStream_mac (s : State) (n : Nat) (f : Stream → Stream) (i : Nat) : (s.updStream n f).mac i = s.mac i := rfl
@[simp] theorem State.updStream_ctl (s : State) (n : Nat) (f : Stream → Stream) (i : Nat) : (s.updStream n f).ctl i = s.ctl i := rfl
@[simp] theorem State.updStream_port (s : State) (n : Nat) (f : Stream → Stream) (i : Nat) : (s.updStream n f).port i = s.port i := rfl
@[simp] theorem State.raise_rod (s : State) (r : Raise) (i : Nat) : (s.raise r).rod i = s.rod i := rfl
@[simp] theorem State.wr_rod (s : State) (a : Nat) (bs : List Byte) (i : Nat) : (s.wr a bs).rod i = s.rod i := rfl
@[simp] theorem State.raise_jobRun (s : State) (r : Raise) (i : Nat) : (s.raise r).jobRun i = s.jobRun i := rfl
@[simp] theorem State.wr_jobRun (s : State) (a : Nat) (bs : List Byte) (i : Nat) : (s.wr a bs).jobRun i = s.jobRun i := rfl
@[simp] theorem State.raise_point (s : State) (r : Raise) (i : Nat) : (s.raise r).point i = s.point i := rfl
@[simp] theorem State.wr_point (s : State) (a : Nat) (bs : List Byte) (i : Nat) : (s.wr a bs).point i = s.point i := rfl
@[simp] theorem State.raise_mac (s : State) (r : Raise) (i : Nat) : (s.raise r).mac i = s.mac i := rfl
@[simp] theorem State.wr_mac (s : State) (a : Nat) (bs : List Byte) (i : Nat) : (s.wr a bs).mac i = s.mac i := rfl
@[simp] theorem State.raise_ctl (s : State) (r : Raise) (i : Nat) : (s.raise r).ctl i = s.ctl i := rfl
@[simp] theorem State.wr_ctl (s : State) (a : Nat) (bs : List Byte) (i : Nat) : (s.wr a bs).ctl i = s.ctl i := rfl
@[simp] theorem State.raise_port (s : State) (r : Raise) (i : Nat) : (s.raise r).port i = s.port i := rfl
@[simp] theorem State.wr_port (s : State) (a : Nat) (bs : List Byte) (i : Nat) : (s.wr a bs).port i = s.port i := rfl
@[simp] theorem State.raise_stream (s : State) (r : Raise) (i : Nat) : (s.raise r).stream i = s.stream i := rfl
@[simp] theorem State.wr_stream (s : State) (a : Nat) (bs : List Byte) (i : Nat) : (s.wr a bs).stream i = s.stream i := rfl

/-! ### raise, wr, draw -/

@[simp] theorem State.raise_pending (s : State) (r : Raise) : (s.raise r).pending = s.pending := rfl
@[simp] theorem State.raise_free (s : State) (r : Raise) : (s.raise r).free = s.free := rfl
@[simp] theorem State.raise_tick (s : State) (r : Raise) : (s.raise r).tick = s.tick := rfl
@[simp] theorem State.raise_mem (s : State) (r : Raise) : (s.raise r).mem = s.mem := rfl
@[simp] theorem State.raise_errs (s : State) (r : Raise) : (s.raise r).errs = s.errs := rfl
@[simp] theorem State.raise_hif (s : State) (r : Raise) : (s.raise r).hif = s.hif := rfl
@[simp] theorem State.raise_tly (s : State) (r : Raise) : (s.raise r).tly = s.tly := rfl
@[simp] theorem State.raise_pln (s : State) (r : Raise) : (s.raise r).pln = s.pln := rfl
@[simp] theorem State.raise_jrn (s : State) (r : Raise) : (s.raise r).jrn = s.jrn := rfl
@[simp] theorem State.raise_rods (s : State) (r : Raise) : (s.raise r).rods = s.rods := rfl
@[simp] theorem State.raise_sec (s : State) (r : Raise) : (s.raise r).sec = s.sec := rfl
@[simp] theorem State.raise_pwr (s : State) (r : Raise) : (s.raise r).pwr = s.pwr := rfl
@[simp] theorem State.raise_trc (s : State) (r : Raise) : (s.raise r).trc = s.trc := rfl
@[simp] theorem State.raise_tim (s : State) (r : Raise) : (s.raise r).tim = s.tim := rfl
@[simp] theorem State.raise_memc (s : State) (r : Raise) : (s.raise r).memc = s.memc := rfl
@[simp] theorem State.raise_tyb (s : State) (r : Raise) : (s.raise r).tyb = s.tyb := rfl
@[simp] theorem State.raise_sns (s : State) (r : Raise) : (s.raise r).sns = s.sns := rfl
@[simp] theorem State.raise_eth (s : State) (r : Raise) : (s.raise r).eth = s.eth := rfl
@[simp] theorem State.raise_can (s : State) (r : Raise) : (s.raise r).can = s.can := rfl
@[simp] theorem State.raise_cle (s : State) (r : Raise) : (s.raise r).cle = s.cle := rfl
@[simp] theorem State.raise_pgk (s : State) (r : Raise) : (s.raise r).pgk = s.pgk := rfl
@[simp] theorem State.raise_cry (s : State) (r : Raise) : (s.raise r).cry = s.cry := rfl
@[simp] theorem State.raise_watch (s : State) (r : Raise) : (s.raise r).watch = s.watch := rfl
@[simp] theorem State.raise_saf_safe (s : State) (r : Raise) : (s.raise r).saf.safe = s.saf.safe := rfl
@[simp] theorem State.raise_saf_pins (s : State) (r : Raise) : (s.raise r).saf.pins = s.saf.pins := rfl
@[simp] theorem State.raise_saf_supHalted (s : State) (r : Raise) : (s.raise r).saf.supHalted = s.saf.supHalted := rfl
@[simp] theorem State.raise_saf_deviceFault (s : State) (r : Raise) : (s.raise r).saf.deviceFault = s.saf.deviceFault := rfl
@[simp] theorem State.raise_saf_jobFault (s : State) (r : Raise) : (s.raise r).saf.jobFault = s.saf.jobFault := rfl
@[simp] theorem State.raise_saf_injected (s : State) (r : Raise) : (s.raise r).saf.injected = s.saf.injected := rfl
@[simp] theorem State.raise_saf_lastFault (s : State) (r : Raise) : (s.raise r).saf.lastFault = s.saf.lastFault := rfl
@[simp] theorem State.raise_saf_firstDevice (s : State) (r : Raise) : (s.raise r).saf.firstDevice = s.saf.firstDevice := rfl
@[simp] theorem State.raise_saf_reactCount (s : State) (r : Raise) : (s.raise r).saf.reactCount = s.saf.reactCount := rfl
@[simp] theorem State.raise_saf_supMismatch (s : State) (r : Raise) : (s.raise r).saf.supMismatch = s.saf.supMismatch := rfl
@[simp] theorem State.raise_saf_wdgSel (s : State) (r : Raise) : (s.raise r).saf.wdgSel = s.saf.wdgSel := rfl
@[simp] theorem State.raise_saf_goldenSel (s : State) (r : Raise) : (s.raise r).saf.goldenSel = s.saf.goldenSel := rfl
@[simp] theorem State.raise_saf_reacts (s : State) (r : Raise) : (s.raise r).saf.reacts = s.saf.reacts := rfl
@[simp] theorem State.raise_saf_occur (s : State) (r : Raise) : (s.raise r).saf.occur = s.saf.occur := rfl
@[simp] theorem State.raise_saf_summary (s : State) (r : Raise) : (s.raise r).saf.summary = s.saf.summary := rfl
@[simp] theorem State.raise_saf_wdgs (s : State) (r : Raise) : (s.raise r).saf.wdgs = s.saf.wdgs := rfl
@[simp] theorem State.raise_saf_goldens (s : State) (r : Raise) : (s.raise r).saf.goldens = s.saf.goldens := rfl
@[simp] theorem State.raise_saf_raised (s : State) (r : Raise) : (s.raise r).saf.raised = s.saf.raised ++ [r] := rfl
@[simp] theorem State.raise_saf_signalAt (s : State) (r : Raise) : (s.raise r).saf.signalAt = s.saf.signalAt := rfl
@[simp] theorem State.wr_pending (s : State) (a : Nat) (bs : List Byte) : (s.wr a bs).pending = s.pending := rfl
@[simp] theorem State.wr_free (s : State) (a : Nat) (bs : List Byte) : (s.wr a bs).free = s.free := rfl
@[simp] theorem State.wr_tick (s : State) (a : Nat) (bs : List Byte) : (s.wr a bs).tick = s.tick := rfl
@[simp] theorem State.wr_hif (s : State) (a : Nat) (bs : List Byte) : (s.wr a bs).hif = s.hif := rfl
@[simp] theorem State.wr_tly (s : State) (a : Nat) (bs : List Byte) : (s.wr a bs).tly = s.tly := rfl
@[simp] theorem State.wr_pln (s : State) (a : Nat) (bs : List Byte) : (s.wr a bs).pln = s.pln := rfl
@[simp] theorem State.wr_jrn (s : State) (a : Nat) (bs : List Byte) : (s.wr a bs).jrn = s.jrn := rfl
@[simp] theorem State.wr_rods (s : State) (a : Nat) (bs : List Byte) : (s.wr a bs).rods = s.rods := rfl
@[simp] theorem State.wr_saf (s : State) (a : Nat) (bs : List Byte) : (s.wr a bs).saf = s.saf := rfl
@[simp] theorem State.wr_sec (s : State) (a : Nat) (bs : List Byte) : (s.wr a bs).sec = s.sec := rfl
@[simp] theorem State.wr_pwr (s : State) (a : Nat) (bs : List Byte) : (s.wr a bs).pwr = s.pwr := rfl
@[simp] theorem State.wr_trc (s : State) (a : Nat) (bs : List Byte) : (s.wr a bs).trc = s.trc := rfl
@[simp] theorem State.wr_tim (s : State) (a : Nat) (bs : List Byte) : (s.wr a bs).tim = s.tim := rfl
@[simp] theorem State.wr_memc (s : State) (a : Nat) (bs : List Byte) : (s.wr a bs).memc = s.memc := rfl
@[simp] theorem State.wr_tyb (s : State) (a : Nat) (bs : List Byte) : (s.wr a bs).tyb = s.tyb := rfl
@[simp] theorem State.wr_sns (s : State) (a : Nat) (bs : List Byte) : (s.wr a bs).sns = s.sns := rfl
@[simp] theorem State.wr_eth (s : State) (a : Nat) (bs : List Byte) : (s.wr a bs).eth = s.eth := rfl
@[simp] theorem State.wr_can (s : State) (a : Nat) (bs : List Byte) : (s.wr a bs).can = s.can := rfl
@[simp] theorem State.wr_cle (s : State) (a : Nat) (bs : List Byte) : (s.wr a bs).cle = s.cle := rfl
@[simp] theorem State.wr_pgk (s : State) (a : Nat) (bs : List Byte) : (s.wr a bs).pgk = s.pgk := rfl
@[simp] theorem State.wr_cry (s : State) (a : Nat) (bs : List Byte) : (s.wr a bs).cry = s.cry := rfl
@[simp] theorem State.wr_watch (s : State) (a : Nat) (bs : List Byte) : (s.wr a bs).watch = s.watch := rfl
@[simp] theorem State.wr_mem (s : State) (a : Nat) (bs : List Byte) : (s.wr a bs).mem = s.mem.write a bs := rfl
@[simp] theorem State.draw_pending (s : State) (w : Nat) : (s.draw w).2.pending = s.pending := rfl
@[simp] theorem State.draw_free (s : State) (w : Nat) : (s.draw w).2.free = s.free + 1 := rfl
@[simp] theorem State.draw_tick (s : State) (w : Nat) : (s.draw w).2.tick = s.tick := rfl
@[simp] theorem State.draw_mem (s : State) (w : Nat) : (s.draw w).2.mem = s.mem := rfl
@[simp] theorem State.draw_errs (s : State) (w : Nat) : (s.draw w).2.errs = s.errs := rfl
@[simp] theorem State.draw_hif (s : State) (w : Nat) : (s.draw w).2.hif = s.hif := rfl
@[simp] theorem State.draw_tly (s : State) (w : Nat) : (s.draw w).2.tly = s.tly := rfl
@[simp] theorem State.draw_pln (s : State) (w : Nat) : (s.draw w).2.pln = s.pln := rfl
@[simp] theorem State.draw_jrn (s : State) (w : Nat) : (s.draw w).2.jrn = s.jrn := rfl
@[simp] theorem State.draw_rods (s : State) (w : Nat) : (s.draw w).2.rods = s.rods := rfl
@[simp] theorem State.draw_saf (s : State) (w : Nat) : (s.draw w).2.saf = s.saf := rfl
@[simp] theorem State.draw_sec (s : State) (w : Nat) : (s.draw w).2.sec = s.sec := rfl
@[simp] theorem State.draw_pwr (s : State) (w : Nat) : (s.draw w).2.pwr = s.pwr := rfl
@[simp] theorem State.draw_trc (s : State) (w : Nat) : (s.draw w).2.trc = s.trc := rfl
@[simp] theorem State.draw_tim (s : State) (w : Nat) : (s.draw w).2.tim = s.tim := rfl
@[simp] theorem State.draw_memc (s : State) (w : Nat) : (s.draw w).2.memc = s.memc := rfl
@[simp] theorem State.draw_tyb (s : State) (w : Nat) : (s.draw w).2.tyb = s.tyb := rfl
@[simp] theorem State.draw_sns (s : State) (w : Nat) : (s.draw w).2.sns = s.sns := rfl
@[simp] theorem State.draw_eth (s : State) (w : Nat) : (s.draw w).2.eth = s.eth := rfl
@[simp] theorem State.draw_can (s : State) (w : Nat) : (s.draw w).2.can = s.can := rfl
@[simp] theorem State.draw_cle (s : State) (w : Nat) : (s.draw w).2.cle = s.cle := rfl
@[simp] theorem State.draw_pgk (s : State) (w : Nat) : (s.draw w).2.pgk = s.pgk := rfl
@[simp] theorem State.draw_cry (s : State) (w : Nat) : (s.draw w).2.cry = s.cry := rfl
@[simp] theorem State.draw_watch (s : State) (w : Nat) : (s.draw w).2.watch = s.watch := rfl

end Sys2Proof.Machine
end

