-- ==== Sys2Proof/Laws/Ops.lean ====
section
/-! SUPPORT. What the shared operations can do: which parts of the state a write, an event, a status reply, a journal record and a trace record
change, and when settling and the reading of memory change nothing. -/

namespace Sys2Proof.Machine

/-! ### Memory in its canonical form through a write -/

/-- The memory of `t` keeps its canonical form if that of `s` has it. -/
def KeepsForm (s t : State) : Prop := s.mem.wf = true → t.mem.wf = true

@[simp] theorem State.wr_keepsForm (s : State) (a : Nat) (bs : List Byte) : KeepsForm s (s.wr a bs) := fun h => Memory.write_wf _ _ _ h

/-! ### Posting: memory, its error marks, the host link and the free values drawn are all that changes -/

/-- From `s` to `t` only the memory, its error marks, the host link and the count of free values change, and the memory keeps its form. -/
def Posts (s t : State) : Prop := t = { s with mem := t.mem, errs := t.errs, hif := t.hif, free := t.free } ∧ KeepsForm s t

theorem Posts.rfl' (s : State) : Posts s s := ⟨rfl, id⟩

theorem Posts.trans {s t u : State} (h : Posts s t) (k : Posts t u) : Posts s u := by
  obtain ⟨h1, h2⟩ := h
  obtain ⟨k1, k2⟩ := k
  refine ⟨?_, fun w => k2 (h2 w)⟩
  conv_lhs => rw [k1, h1]

theorem State.wr_posts (s : State) (a : Nat) (bs : List Byte) : Posts s (s.wr a bs) := ⟨rfl, State.wr_keepsForm s a bs⟩

theorem State.draw_posts (s : State) (w : Nat) : Posts s (s.draw w).2 := ⟨rfl, id⟩

theorem Posts.hif {s : State} (h : Hif) : Posts s { s with hif := h } := ⟨rfl, id⟩

theorem State.writeBack_posts (s : State) (r : Ring) (i : Word) : Posts s (s.writeBack r i) := by
  unfold State.writeBack
  split
  · exact Posts.rfl' s
  · exact State.wr_posts _ _ _

theorem State.sendVector_posts (s : State) (v : Nat) : Posts s (s.sendVector v) := by
  unfold State.sendVector
  dsimp only
  split <;> exact Posts.hif _

theorem State.ringIrq_posts (s : State) (k : Nat) : Posts s (s.ringIrq k) := by
  unfold State.ringIrq
  dsimp only
  split
  · split
    · exact (Posts.hif _).trans (State.sendVector_posts _ _)
    · exact Posts.hif _
  · exact Posts.rfl' s

theorem State.postEntry_posts (s : State) (k : Nat) (bs : List Byte) : Posts s (s.postEntry k bs) := by
  unfold State.postEntry
  dsimp only
  exact (State.wr_posts s _ bs).trans ((Posts.hif _).trans ((State.writeBack_posts _ _ _).trans (State.ringIrq_posts _ _)))

theorem State.postEvent_posts (s : State) (k kind part code payload : Nat) : Posts s (s.postEvent k kind part code payload) := by
  unfold State.postEvent
  dsimp only
  exact (State.postEntry_posts s _ _).trans (Posts.hif _)

theorem State.flushLost_posts (s : State) (f : Fin 16) : Posts s (s.flushLost f) := by
  unfold State.flushLost
  dsimp only
  split
  · split
    · exact Posts.rfl' s
    · exact (State.postEvent_posts s _ _ _ _ _).trans (Posts.hif _)
  · exact Posts.rfl' s

theorem State.event_posts (s : State) (f : Fin 16) (kind part code payload : Nat) : Posts s (s.event f kind part code payload) := by
  unfold State.event
  dsimp only
  refine (State.flushLost_posts s f).trans ?_
  split
  · exact State.postEvent_posts _ _ _ _ _ _
  · exact Posts.hif _

theorem State.blockEvent_posts (s : State) (code : Nat) (payload : Option Nat) : Posts s (s.blockEvent code payload) := by
  cases payload with
  | some x => exact State.event_posts s 0 7 0 code x
  | none => exact (State.draw_posts s 256).trans (State.event_posts _ _ _ _ _ _)

theorem State.postReply_posts (s : State) (h : Hdr) (r : Rep) : Posts s (s.postReply h r) := by
  unfold State.postReply
  dsimp only
  split
  · exact State.postEntry_posts s _ _
  · exact Posts.rfl' s

theorem State.closeDrained_posts (s : State) (h : Hdr) : Posts s (s.closeDrained h) := by
  unfold State.closeDrained
  dsimp only
  split
  · split
    · exact (Posts.hif _).trans (State.postReply_posts _ _ _)
    · exact Posts.rfl' s
  · split
    · exact Posts.hif _
    · exact Posts.rfl' s

/-- A status reply changes memory (the reply and an extended result), its error marks and the host link, and nothing else (R268, R269, R274). -/
theorem State.reply_posts (s : State) (h : Hdr) (r : Rep) : Posts s (s.reply h r) := by
  unfold State.reply
  dsimp only
  refine Posts.trans (t := match r.ext with
    | some bs => s.wr ((s.hif.sessions.get (s.devRing h.fn h.ring.toNat)).resultBase.toNat + 256 * h.tag.toNat) (padTo 256 bs)
    | none => s) ?_ ((State.postReply_posts _ h r).trans ((Posts.hif _).trans (State.closeDrained_posts _ h)))
  cases r.ext with
  | some bs => exact State.wr_posts _ _ _
  | none => exact Posts.rfl' s

theorem State.replyOpt_posts (s : State) (h : Option Hdr) (r : Rep) : Posts s (s.replyOpt h r) := by
  cases h with
  | some h => exact State.reply_posts s h r
  | none => exact Posts.rfl' s

/-! ### What a command's answer comes to -/

/-- A command answers a next state, whatever its answer. -/
theorem finish_next (h : Hdr) (fast : Bool) (s : State) (a : Ans) : ∃ t, finish h fast s a = .next t := by
  unfold finish
  split
  · exact ⟨_, rfl⟩
  · cases a with
    | ok s' r => dsimp only; split <;> exact ⟨_, rfl⟩
    | no st d => exact ⟨_, rfl⟩
    | later s' => exact ⟨_, rfl⟩

/-- A command's answer, all cases: nothing at all (the supervisor is halted), a refusal's reply alone, the effect with its reply, or the effect alone. -/
theorem finish_cases {h : Hdr} {fast : Bool} {s t : State} {a : Ans} (e : finish h fast s a = .next t) :
    t = s ∨ (∃ r, t = s.reply h r) ∨ (∃ s' r, a = .ok s' r ∧ t = s'.reply h r) ∨ a = .later t := by
  unfold finish at e
  split at e
  · injection e with e; exact .inl e.symm
  · cases a with
    | ok s' r =>
      dsimp only at e
      split at e
      · injection e with e; exact .inr (.inl ⟨_, e.symm⟩)
      · injection e with e; exact .inr (.inr (.inl ⟨s', r, rfl, e.symm⟩))
    | no st d => injection e with e; exact .inr (.inl ⟨_, e.symm⟩)
    | later s' => injection e with e; exact .inr (.inr (.inr (by rw [e])))

/-- Where every check passes, the effect; where a first one fails, its status. -/
theorem checks_pass {cs : List (Bool × Nat)} (h : cs.all (fun c => !c.1) = true) (k : Ans) : checks cs k = k := by
  unfold checks
  have : cs.find? (·.1) = none := by
    rw [List.find?_eq_none]
    intro c hc
    have := List.all_eq_true.mp h c hc
    simpa using this
  rw [this]

@[simp] theorem checks_nil (k : Ans) : checks [] k = k := rfl

@[simp] theorem checks_cons_false (st : Nat) (cs : List (Bool × Nat)) (k : Ans) : checks ((false, st) :: cs) k = checks cs k := by
  simp [checks]

@[simp] theorem checks_cons_true (st : Nat) (cs : List (Bool × Nat)) (k : Ans) : checks ((true, st) :: cs) k = .no st 0 := by
  simp [checks]

/-! ### Records: the journal and the trace -/

/-- From `s` to `t` only what `Posts` allows, the journal and the trace unit change, and the memory keeps its form. -/
def Records (s t : State) : Prop :=
  t = { s with mem := t.mem, errs := t.errs, hif := t.hif, free := t.free, jrn := t.jrn, trc := t.trc } ∧ KeepsForm s t

theorem Records.rfl' (s : State) : Records s s := ⟨rfl, id⟩

theorem Records.trans {s t u : State} (h : Records s t) (k : Records t u) : Records s u := by
  obtain ⟨h1, h2⟩ := h
  obtain ⟨k1, k2⟩ := k
  refine ⟨?_, fun w => k2 (h2 w)⟩
  conv_lhs => rw [k1, h1]

theorem Posts.records {s t : State} (h : Posts s t) : Records s t := by
  obtain ⟨h1, h2⟩ := h
  refine ⟨?_, h2⟩
  conv_lhs => rw [h1]
  conv_rhs => rw [h1]

theorem Records.jrn {s : State} (j : Jrn) : Records s { s with jrn := j } := ⟨rfl, id⟩

theorem Records.trc {s : State} (x : Trc) : Records s { s with trc := x } := ⟨rfl, id⟩

theorem State.journalData_records (s : State) (bs : List Byte) : Records s (s.journalData bs) := by
  unfold State.journalData
  dsimp only
  exact (State.wr_posts s _ _).records.trans ((State.wr_posts _ _ _).records.trans (Records.jrn _))

theorem State.journalPost_records (s : State) (kind point srcSeq fields : Nat) (data : List Byte) (b : Bool) :
    Records s (s.journalPost kind point srcSeq fields data b) := by
  unfold State.journalPost
  dsimp only
  refine Records.trans (t := if b = true then s.journalData data else s) ?_ ((State.postEntry_posts _ _ _).records.trans (Records.jrn _))
  split
  · exact State.journalData_records s data
  · exact Records.rfl' s

theorem State.journalGap_records (s : State) : Records s s.journalGap := by
  unfold State.journalGap
  dsimp only
  split
  · exact (State.journalPost_records s _ _ _ _ _ _).trans ((Records.jrn _).trans (State.event_posts _ _ _ _ _ _).records)
  · exact Records.rfl' s

/-- A journal record that is written, or lost, changes the journal, memory and the host link, and nothing else (R242, R245). -/
theorem State.journalOut_records (s : State) (r : JRec) : Records s (s.journalOut r) := by
  unfold State.journalOut
  dsimp only
  refine (State.journalGap_records s).trans ?_
  split
  · exact State.journalPost_records _ _ _ _ _ _ _
  · exact Records.jrn _

/-- An influence joins the records of its tick, and nothing else changes (R244). -/
theorem State.journalAt_eq (s : State) (at_ kind sub srcSeq fields : Nat) (data : Option (List Byte)) :
    ∃ j, s.journalAt at_ kind sub srcSeq fields data = { s with jrn := j } := by
  unfold State.journalAt
  split <;> exact ⟨_, rfl⟩

/-- With no journal open nothing is recorded. -/
theorem State.journalAt_closed (s : State) (h : s.jrn.j.isOpen = false) (at_ kind sub srcSeq fields : Nat) (data : Option (List Byte)) :
    s.journalAt at_ kind sub srcSeq fields data = s := by
  simp [State.journalAt, h]

/-- The end of a tick writes the records of its influences: the journal, memory and the host link change, and nothing else (R244). -/
theorem State.journalFlush_records (s : State) : Records s s.journalFlush := by
  have all : ∀ (l : List JRec) (u : State), Records s u → Records s (l.foldl State.journalOut u) := by
    intro l
    induction l with
    | nil => exact fun u h => h
    | cons r l ih => exact fun u h => ih _ (h.trans (State.journalOut_records u r))
  exact all _ _ (Records.jrn _)

theorem State.trace_records (s : State) (src level type a b : Nat) : Records s (s.trace src level type a b) := by
  unfold State.trace
  dsimp only
  split
  · exact Records.trc _
  · exact Records.rfl' s

/-- With the trace unit off, nothing is captured and nothing triggers (R493). -/
theorem State.trace_off (s : State) (h : s.trc.state = .off) (src level type a b : Nat) : s.trace src level type a b = s := by
  simp [State.trace, Trc.capturing, h]

theorem State.trigger_off (s : State) (h : s.trc.state = .off) (c code : Nat) : s.trigger c code = s := by
  simp [State.trigger, h]

theorem State.traceInstr_off (s : State) (h : s.trc.state = .off) (n : Nat) : s.traceInstr n = s := by
  unfold State.traceInstr
  dsimp only
  rw [State.trace_off s h, State.trigger_off s h]
  simp

/-! ### Settling and reading where nothing happens -/

/-- With no fault raised in the step, settling changes nothing. -/
theorem State.settle_quiet (s : State) (h : s.saf.raised = []) : s.settle = s := by
  unfold State.settle State.settleN
  simp [h]

/-- Memory with no error mark reads without a correction counted. -/
theorem State.noteRead_clean (s : State) (h : s.errs.cells = []) (a n : Nat) : s.noteRead a n = s := by
  simp [State.noteRead, h]

theorem State.errIn_clean (s : State) (h : s.errs.cells = []) (a n : Nat) : s.errIn a n = 0 := by
  simp [State.errIn, h]

/-- With no error mark in memory and no scratchpad of the range in hand-over, a block reads what is there. -/
theorem State.blockRead_clean (s : State) (h : s.errs.cells = []) (a n : Nat) (k : s.heldRod a n = none) (job : Option Nat) :
    s.blockRead a n job = (s.rd a n, s) := by
  simp [State.blockRead, State.errIn_clean s h, State.noteRead_clean s h, k]

theorem State.errBoth_clean (s : State) (h : s.errs.cells = []) (a n : Nat) : s.errBoth a n = 0 := by
  unfold State.errBoth
  split <;> simp [State.errIn_clean s h]

theorem State.noteBoth_clean (s : State) (h : s.errs.cells = []) (a n : Nat) : s.noteBoth a n = s := by
  unfold State.noteBoth
  split <;> simp [State.noteRead_clean s h]

/-- With no error mark in memory and no bank jammed, a rod reads what its scratchpad holds. -/
theorem State.spadRead_clean (s : State) (h : s.errs.cells = []) (n off len : Nat) (k : s.jammed (spadAddr n off) len = false) :
    s.spadRead n off len = (some (s.rd (spadAddr n off) len), s) := by
  simp [State.spadRead, State.errBoth_clean s h, State.noteBoth_clean s h, k]

/-- With no pair in hand-over, no address is in the scratchpad of a rod in hand-over. -/
theorem State.heldRod_none (s : State) (h : ∀ k < 64, (s.rods.get (k / 2 * 2)).pairState ≠ 1 ∧ (s.rods.get (k / 2 * 2)).pairState ≠ 3) (a n : Nat) :
    s.heldRod a n = none := by
  unfold State.heldRod
  rw [List.find?_eq_none]
  intro k hk
  obtain ⟨h1, h3⟩ := h k (List.mem_range.mp hk)
  simp only [Bool.and_eq_true, Bool.or_eq_true, beq_iff_eq]
  rintro ⟨⟨e | e, -⟩, -⟩
  · exact h1 e
  · exact h3 e.1

/-- A rod with no hardware fault jams no access. -/
theorem State.jammed_clean (s : State) (h : ∀ n, (s.rods.get n).upset.banks = []) (a n : Nat) : s.jammed a n = false := by
  simp [State.jammed, h]

end Sys2Proof.Machine
end

