-- ==== Sys2Proof/Tests/Slice0.lean ====
section
/-! SUPPORT. Tests of single steps on small states, witnesses of the statements' hypotheses, and the WellFormed smoke tests. -/

open Sys2Proof Sys2Proof.Machine Sys2Proof.Claims

namespace Sys2Proof.Tests

set_option Elab.async false

/-- A command of PF0 on ring 0. -/
def h0 : Hdr := { fn := 0, ring := 0, tag := 0, seq := 0 }

/-! ### Ill-formed commands are refused -/

theorem test_wf_bar4_read_past_4096 : (Instr.bar4Access 0 60 (.read 4097)).wf = false := by decide
theorem test_wf_bar4_empty_write : (Instr.bar4Access 0 0 (.write [])).wf = false := by decide
theorem test_wf_ownerProvision_short : (Instr.ownerProvision h0 (List.replicate 147 0)).wf = false := by decide +kernel
theorem test_wf_ownerKeyLoad_long : (Instr.ownerKeyLoad h0 0 (List.replicate 97 0)).wf = false := by decide +kernel
theorem test_wf_debugUnlock_short : (Instr.debugUnlock h0 (List.replicate 159 0)).wf = false := by decide +kernel
theorem test_wf_ledgerOpen_empty : (Instr.ledgerOpen h0 []).wf = false := by decide
theorem test_wf_ledgerNote_long : (Instr.ledgerNote h0 (List.replicate 65 0)).wf = false := by decide
theorem test_wf_ethGclSet_count : (Instr.ethGclSet h0 0 2 1000 0 [0]).wf = false := by decide
theorem test_wf_jobPort_long : (Instr.kvJobPortRequest 0 0 (List.replicate 65 0)).wf = false := by decide
theorem test_wf_roi_long : (Instr.snsRoiWrite 0 0 (List.replicate 65 0)).wf = false := by decide
theorem test_wf_mailbox_long : (Instr.cleMailboxPortWrite 0 0 (List.replicate 65 0)).wf = false := by decide
theorem test_wf_signature_long : (Instr.tybSigWrite 0 0 (List.replicate 65 0)).wf = false := by decide
theorem test_wf_configFlit_short : (Instr.tybConfigFlitRx 0 [0]).wf = false := by decide
theorem test_wf_flit_short : (Instr.tybFlitRx 0 (List.replicate 255 0)).wf = false := by decide +kernel
theorem test_wf_canFrame_long :
    (Instr.canFrameReceive 0 { ide := false, rtr := false, fdf := true, brs := false, esi := false, id := 0, dlc := 15, data := List.replicate 65 0 } 0).wf = false := by
  decide
theorem test_wf_guard_sixteen : (Instr.guardSample (List.replicate 16 0)).wf = false := by decide
theorem test_wf_therm_none : (Instr.thermSample []).wf = false := by decide
theorem test_wf_bootWindow_past_end : (Instr.secBootWindowWrite 0 0x7FFFF [0, 0]).wf = false := by decide

/-! ### States and headers that the tests use -/

/-- A command of virtual function 1. -/
def h1 : Hdr := { fn := 1, ring := 0, tag := 0, seq := 0 }
/-- The machine right after reset. -/
def s0 : State := State.reset
/-- With a session of PF0's ring 0 that has a result area in the aperture. -/
def sR : State := { s0 with hif.sessions := s0.hif.sessions.set 0 { isOpen := true, version := 0x10, resultBase := 0x800000000000 } }
/-- A plan of one partition, one window that its rod 0 owns, and two jobs of rod 0, the second on demand. -/
def pl0 : Plan :=
  { frameTicks := 6000, parts := [{}], wins := [{ owners := List.replicate 64 { part := 0, owned := true } }],
    jobs := [{ job := 0, rodMask := 1, rodFirst := 0 }, { job := 1, rodMask := 1, onDemand := true, rodFirst := 1 }],
    jobRods := [{ rod := 0, pc := 1, codeLen := 8 }, { rod := 0, codeLen := 8 }],
    goldens := [{ index := 3 }], watchdogs := [{ index := 2, kind := 2, late := 5 }], tallies := [{ tally := 7, part := 1 }] }
/-- With that plan loaded, and running. -/
def sL : State := { s0 with pln.plan := some pl0, pln.state := .loaded }
def sP : State := { s0 with pln.plan := some pl0, pln.state := .running }
/-- With ready memory. -/
def sM : State := { s0 with memc.state := 2, memc.size := 0x800000000 }
/-- The plan with rod 0's whole scratchpad in partition 0, tally 7 used by job 0, and no watchdog. -/
def plS : Plan :=
  { pl0 with
    spads := [{ rod := 0, part := 0, off := 0, lines := 65536 }], jobs := [{ job := 0, rodMask := 1, rodFirst := 0, tallyCount := 1 }],
    tallyUses := [{ tally := 7, wait := true, signal := true }], watchdogs := [] }
/-- Job 0 of that plan runs on rod 0, alone, with the words `ws` as its code and the rod's fields changed by `f`. -/
def sQ0 (ws : List Nat) (f : Rod → Rod := id) : State :=
  { s0 with pln.plan := some plS, pln.state := .running, pln.jobs := s0.pln.jobs.set 0 { state := .running },
            rods := s0.rods.set 0 (f { job := some 0, seq := .ready, codeLen := ws.length }) }.wr (spadAddr 0 0) (ws.flatMap (leBytes 4))
/-- Rod 0 holds the code lines it wants. -/
def sHeld (s : State) : State := (s.holdCode 0).2
def sQ (ws : List Nat) (f : Rod → Rod := id) : State := sHeld (sQ0 ws f)
/-- An instruction word: OP in bits [31:26] (R99), and its operand fields. -/
def word (op : Nat) (fs : List (Nat × Nat × Nat) := []) : Nat := pack ((26, 6, op) :: fs)
/-- Node 1 with a route to every node through the active port 0. -/
def sT : State := { s0 with tyb.node := 1, tyb.routes := s0.tyb.routes.set 0 { valid := true },
                            tyb.ports := s0.tyb.ports.set 0 { state := .active, neighbour := 2, credit := ⟨[(0, 100), (1, 100)]⟩ } }
/-- Parameters of a command. -/
def prm (fs : List (Nat × Nat × Nat)) : BitVec 384 := BitVec.ofNat 384 (pack fs)
/-! ### Witnesses: step, memory, host link -/

theorem wit_stepIdle : s0.pending = [] ∧ s0.saf.raised = [] ∧ s0.jrn.j.batch = [] ∧ s0.jrn.j.closing = false ∧ s0.pgk.landing = [] ∧ s0.cle.caps.cells = [] ∧
    s0.trc.state = .off := by decide
theorem wit_everyStep : memoryKept s0 ∧ (match step { s0 with pending := [.hostUnmappedAccess 0 0x7FFFFFFFFFFF] } with | .next t => t.hif.cpl.unsupported | _ => false) = true := by
  decide +kernel
theorem wit_memoryBytes : memoryKept { s0 with mem := s0.mem.set 5 1 } ∧ (4 < 5 ∨ 5 + 1 ≤ 4) := by decide
theorem wit_wrapAround : (1 : Nat) ≤ 32 ∧ (3 + 2 ^ (32 - 1)) % 2 ^ 32 = 2147483651 % 2 ^ 32 := by decide
/-- The wait of tally 4 for the value 2, of 9 us, admitted in tick 0 at time 0. -/
def wait0 : WaitEnt := { who := .host h0, tally := 4, target := 2, timeoutUs := 9 }
/-- Tick 1 with that wait, with one that is satisfied, and one whose time-out has come; tally 4 is 2. -/
def sW : State := { s0 with tick := 1, tly.waits := [wait0, { wait0 with hit := some 2 }, { wait0 with from_ := BitVec.ofNat 64 (2 ^ 64 - 9000) }],
                            tly.values := s0.tly.values.set 4 2 }
theorem wit_wait : sW.tly.waits[0]? = some wait0 ∧ wait0.hit = none ∧ wait0.since < sW.tick ∧ 0 ≤ wdiff 32 (sW.tly.values.get 4).toNat wait0.target.toNat ∧
    wdiff 32 (s0.tly.values.get 4).toNat wait0.target.toNat < 0 ∧ sW.tly.waits[1]? = some { wait0 with hit := some 2 } := by decide
theorem wit_waitTimeout : sW.tly.waits[2]? = some { wait0 with from_ := BitVec.ofNat 64 (2 ^ 64 - 9000) } ∧ wait0.timeoutUs ≠ 0 ∧
    0 ≤ wdiff 64 sW.now.toNat (BitVec.ofNat 64 (2 ^ 64 - 9000) + BitVec.ofNat 64 (1000 * wait0.timeoutUs.toNat)).toNat := by decide
theorem wit_startPending : { sL with pln.start := some { h := none, mode := 1, pin := 0, at_ := 5 } }.pln.start = some { h := none, mode := 1, pin := 0, at_ := 5 } ∧
    sL.pln.plan = some pl0 := by decide
theorem wit_registerReads : (0x18 : Nat) ≤ 0x18 ∧ 0x18 < 0x100000 ∧ (63 : Nat) % 2 = 1 ∧ 0x20 ≤ 0xFFFF := by decide
theorem wit_unmapped : mapped s0.memc.size (0x7FFFFFFFFFFF : BitVec 48).toNat = false := by decide
/-- Ring 0 of PF0 as an enabled command ring. -/
def sG : State := { s0 with hif.rings := s0.hif.rings.set 0 { enable := true, state := 1, type := 1, log2 := 4, base := 0x800000000000, pair := 1 } }
theorem wit_bar4 : sM.inDram ((sM.hif.fns.get 0).window.toNat + (64 : BitVec 36).toNat) (accBytes (.read 64)) = true ∧
    (sM.protectedAt 64 && checkLine 64 64) = false ∧ 64 % 64 + accBytes (.read 64) ≤ 64 := by decide
theorem wit_bar4Two : sM.inDram ((sM.hif.fns.get 0).window.toNat + (60 : BitVec 36).toNat) (accBytes (.write (List.replicate 68 1))) = true ∧
    (sM.protectedAt 60 && checkLine 60 68) = false ∧ 64 < 60 % 64 + accBytes (.read 5) ∧ 60 % 64 + accBytes (.write (List.replicate 68 1)) ≤ 128 ∧
    s0.bar4Ok 0 60 5 = false := by decide
theorem wit_fnWrite : s0.rangesOk 1 ((s0.hif.fns.get 1).withReg .ring 0x00010100) = true ∧ s0.fnEnabled 1 = false := by decide
theorem wit_ringDesc : s0.ringOwner 255 = some 0 ∧ (s0.hif.rings.get 255).enable = false ∧ (7 : Fin 8) ≠ 4 := by decide
/-- Ring 1 of PF0 as it stands before its enabling: a status ring in the aperture. -/
def sE : State := { s0 with hif.rings := s0.hif.rings.set 1 { base := 0x800000000000, log2 := 4, type := 2 } }
theorem wit_ringEnable : sE.ringOwner 1 = some 0 ∧ (sE.hif.rings.get 1).enable = false ∧ (0x00000442 : Word).getLsbD 8 = false ∧ (0x142 : Word).getLsbD 8 = true ∧
    sE.ringOk 0 ((sE.hif.rings.get 1).withWord 4 0x142) = true := by decide
theorem wit_doorbell : (0 : Nat) < 8192 ∧ 0 < (sG.hif.fns.get 0).ringCount.toNat ∧ (sG.hif.rings.get (sG.devRing 0 0)).enable = true ∧
    (sG.hif.rings.get (sG.devRing 0 0)).state = 1 ∧ sG.indexOk 0 1 = true ∧ (1 : BitVec 64).getLsbD 32 = false ∧ sG.indexOk 0 0x80000000 = false ∧
    (sG.hif.fns.get 0).bound = false := by decide
theorem wit_badDoorbell : (4 : Nat) ≠ 8 ∧ (7 : BitVec 16).toNat % 8 ≠ 0 ∧ (s0.hif.fns.get 1).ringCount.toNat ≤ (0 : BitVec 16).toNat / 8 ∧
    (255 : Nat) < (s0.hif.fns.get 0).ringCount.toNat ∧ (s0.hif.rings.get (s0.devRing 0 255)).enable = false := by decide
/-- PF0's event ring is ring 2, which has room, and a loss is noted. -/
def sV : State := { s0 with hif.rings := s0.hif.rings.set 2 { enable := true, state := 1, type := 3, log2 := 4, base := 0x800000000000 },
                            hif.fns := s0.hif.fns.upd 0 fun f => { f with eventRing := 2, bound := true, lost := 1 } }
theorem wit_eventsLost : sV.eventRing 0 = some 2 ∧ (sV.hif.fns.get 0).lost ≠ 0 := by decide
theorem wit_pf0 : pf0 s0 h0 ∧ area sR h0 ∧ pf0 sR h0 := by decide
theorem wit_openSession : s0.saf.supHalted = false ∧ (0x10 : Byte).toNat ≤ 0x10 ∧ 0x10 ≤ (0xFF : Byte).toNat ∧
    ((0x800000000000 : BitVec 64).toNat % 64 = 0 ∧ s0.hostMem 0 (0x800000000000 : BitVec 64).toNat (256 * (s0.hif.fns.get 0).tagCount.toNat) = true) ∧
    (s0.hif.sessions.get (s0.devRing 0 0)).isOpen = false := by decide
theorem wit_closeSession : { s0 with hif.held := [{ h := h0 }] }.hif.held = [{ h := h0 }] ∧ s0.tly.waits = [] ∧ s0.pln.start = none := by decide
theorem wit_eventBind : (2 : BitVec 16).toNat < (sV.hif.fns.get 0).ringCount.toNat ∧ (sV.hif.rings.get (sV.devRing 0 2)).enable = true ∧
    (sV.hif.rings.get (sV.devRing 0 2)).type = 3 := by decide
theorem wit_bar4Set : (0x003FFFF00000 : BitVec 64).toNat % 0x100000 = 0 ∧ (0x003FFFF00000 : BitVec 64).toNat < 0x004000000000 := by decide
theorem wit_dma : overlap 0 64 64 = false ∧ sM.dmaAddrOk 0 0 64 = true ∧ sM.dmaAddrOk 0 64 64 = true ∧ sM.dmaEngineOk 0 0 = true ∧
    (64 : Nat) % 4 = 0 ∧ (4 : Nat) ≤ 64 := by decide
theorem wit_dmaDone : { sM with hif.dma := [{ h := h0, fill := some 7, src := 0, dst := 64, bytes := 64 }] }.hif.dma =
    [{ h := h0, fill := some 7, src := 0, dst := 64, bytes := 64 }] ∧ sM.inHandover 64 64 = false ∧ sM.engineServes 0 h0.fn.val none = true := by decide
theorem wit_dmaBehind : let d : HostDma := { h := h0, fill := some 7, src := 0, dst := 64, bytes := 64 }
    let s := { sM with hif.dma := [d, d] }
    s.hif.dma[1]? = some d ∧ ((s.hif.dma.take 1).any fun e => e.h.fn == d.h.fn && e.h.ring == d.h.ring) = true := by decide
/-- A NOP with the echo word 9 stands at the head of PF0's command ring 0, whose session expects sequence number 1. -/
def sC : State :=
  { s0 with
    sec.boot := .ready
    hif.rings := (s0.hif.rings.set 0 { enable := true, state := 1, type := 1, log2 := 4, base := 0x800000000000, pair := 1, tail := 1 }).set 1
      { enable := true, state := 1, type := 2, log2 := 4, base := 0x800000001000 },
    hif.sessions := s0.hif.sessions.set 0 { isOpen := true, version := 0x10 },
    mem := ⟨[(0x800000000000, 4), (0x800000000002, 0x10), (0x800000000006, 4), (0x800000000008, 1), (0x800000000010, 9)]⟩ }
theorem wit_commandTake : sC.canTake 0 0 = true ∧ (sC.hif.sessions.get 0).isOpen = true ∧ (sC.hif.sessions.get 0).version = 0x10 ∧ sC.hif.held = [] ∧
    (0 : BitVec 12).toNat < (sC.hif.fns.get 0).tagCount.toNat ∧ sC.errs.cells = [] ∧ sC.heldRod ((sC.hif.rings.get 0).entry (sC.hif.rings.get 0).head) 64 = none ∧ (sC.hif.rings.get 0).wb = 0 ∧ (sC.hif.rings.get 0).irqEn = false ∧
    sC.saf.raised = [] ∧ sC.tly.ops = [] ∧
    sC.rdN ((sC.hif.rings.get 0).entry (sC.hif.rings.get 0).head) 64 = 0x0004 + 0x10 * 2 ^ 16 + 0 * 2 ^ 32 + 4 * 2 ^ 48 + 1 * 2 ^ 64 + 9 * 2 ^ 128 := by decide +kernel
theorem wit_statusReply : memoryKept sC ∧ (sC.hif.rings.get (sC.statusRing h0)).type = 2 ∧ (sC.hif.rings.get (sC.statusRing h0)).canPost = true ∧
    (sC.hif.rings.get (sC.statusRing h0)).wb = 0 ∧ (sC.hif.rings.get (sC.statusRing h0)).irqEn = false ∧ (sC.hif.sessions.get (sC.devRing 0 0)).closing = none := by decide
theorem wit_ringOwner : s0.ringOwner 0 = some 0 ∧ s0.ringOwner 256 ≠ some 0 := by decide
theorem wit_retrain : s0.hif.retrains ≠ 0xFFFF ∧ { s0 with hif.retrains := 0xFFFF }.hif.retrains = 0xFFFF := by decide

/-! ### Witnesses: tallies, time -/

def op0 : TallyOp := { tally := 4, isSet := false, value := 3, due := 1 }
def op1 : TallyOp := { tally := 4, isSet := true, value := 5, due := 1 }
theorem wit_applyOps : [op0, op1].Perm [op1, op0] ∧ [op0, op1].filter TallyOp.isSet = [op1, op0].filter TallyOp.isSet := by decide
theorem wit_tallyApply : let s := { sW with tly.ops := [op0, op1] }
    s.tly.ops.filter (fun o => o.tally == (4 : BitVec 14).toNat) = [op0, op1] ∧ 1 ≤ s.tick ∧ s0.tick < 1 ∧
    ∀ x ∈ [op0, op1], x.due = 1 ∧ x.h = none ∧ x.resp = none := by decide
theorem wit_tallyCommands : (16383 : BitVec 16).toNat < 16384 ∧ h0.fn = 0 ∧ sP.tallyOwner 7 = some h1.fn.val ∧ s0.jrn.j.isOpen = false ∧ s0.tly.waits.length < 4096 := by decide
theorem wit_remoteResponse : { s0 with tly.remote := [{ h := h0, node := 2, reqId := 0, op := 0 }] }.tly.remote[0]? = some { h := h0, node := 2, reqId := 0, op := 0 } := by
  decide
theorem wit_remoteTally : (sT.sendMsg 2 1 (tallyReq 0 9 1 0 sT.tly.nextReq)).isSome = true ∧ (sT.sendMsg 2 1 (tallyReq 1 9 1 0 sT.tly.nextReq)).isSome = true ∧
    (sT.sendMsg 2 1 (tallyReq 2 9 0 0 sT.tly.nextReq)).isSome = true ∧ (sT.sendMsg 2 1 (tallyReq 3 9 1 5 sT.tly.nextReq)).isSome = true := by decide +kernel
theorem wit_timeSet : (999999999 : Word).toNat < 1000000000 ∧ s0.tim.stepped = false ∧ -(2 ^ 47) ≤ (0 : BitVec 64).toInt ∧ (0 : BitVec 64).toInt < 2 ^ 47 := by decide
theorem wit_timeSlew : (1 : Word) ≠ 0 ∧ s0.tim.slewLeft = 0 ∧ |(s0.tim.incr.toNat : Int) + (1 : Word).toInt - 2 ^ 41| ≤ 2199023255 := by decide
theorem wit_jumpLimit : (0 : Word).toNat ≤ s0.tim.jumpLimit.toNat := by decide
theorem wit_timeRate : |((2201222278807 : BitVec 64).toNat : Int) - 2 ^ 41| ≤ 2199023255 ∧ s0.tim.slewLeft = 0 ∧ s0.tim.time < timeMod ∧
    2199023255 < |((2201222278808 : BitVec 64).toNat : Int) - 2 ^ 41| := by decide
theorem wit_timeRateSlew : let s := { s0 with tim.slewLeft := 5, tim.slewRate := 1 }
    s.tim.slewLeft ≠ 0 ∧ |((2201222278806 : BitVec 64).toNat : Int) + s.tim.slewRate.toInt - 2 ^ 41| ≤ 2199023255 ∧
    2199023255 < |((2201222278807 : BitVec 64).toNat : Int) + s.tim.slewRate.toInt - 2 ^ 41| := by decide
theorem wit_largeStep : { s0 with tim.stepped := true }.tim.stepped = true ∧ ((s0.tim.jumpLimit.toNat : Int) * 2 ^ 40 < |timeUnits (1 : BitVec 64).toInt 0 0|) := by decide
theorem wit_pinConfig : (3 : Byte).toNat ≤ 3 ∧ 10 ≤ (10 : Word).toNat ∧ (999999990 : Word).toNat ≤ 999999990 ∧ atOrLater 64 s0.now.toNat (100 : BitVec 64).toNat = false := by decide
/-- Pin 0 captures rising edges and holds one capture; pin 1 is armed for a time that has come; PPS_OUT is on. -/
def sN : State := { s0 with tim.pins := ⟨[(0, { mode := 1, edge := false, fifo := [7] }), (1, { mode := 2, armed := true }), (5, { mode := 1 })]⟩ }
theorem wit_capture : (sN.tim.pins.get (0 : Byte).toNat).fifo = 7 :: [] := by decide
theorem wit_edge : (0 : Fin 6).val ≤ 4 ∧ (sN.tim.pins.get 0).mode = 1 ∧ (sN.tim.pins.get 0).edge ≠ true ∧ (sN.tim.pins.get 0).fifo.length < 4 ∧ sN.trc.state = .off := by decide
/-- A start of the plan that waits for pin 0. -/
def edge0 : PendStart := { h := none, mode := 2, pin := 0, at_ := 0 }
theorem wit_edgeSeen : { sN with pln.start := some edge0 }.pln.start = some edge0 ∧ edge0.mode = 2 ∧ edge0.pin = (0 : Fin 6).val ∧ sN.trc.state = .off := by decide
theorem wit_startFire : ({ edge0 with seen := true }.mode = 2 ∧ { edge0 with seen := true }.seen = true) ∧
    ({ edge0 with mode := 1 }.mode ≠ 2 ∧ atOrLater 64 s0.now.toNat { edge0 with mode := 1 }.at_.toNat = true) := by decide
theorem wit_comparator : (sN.tim.pins.get 1).armed = true ∧ (sN.tim.pins.get 1).level = false ∧ atOrLater 64 sN.now.toNat (sN.tim.pins.get 1).target.toNat = true ∧
    (sN.tim.pins.get 5).mode = 1 := by decide

/-! ### Witnesses: plans and jobs -/

theorem wit_loadPlan : s0.pln.state = .none ∧ sL.pln.state = .loaded := by decide
theorem wit_planLoadDone : { s0 with pgk.ready := true, pln.load := some { h := none, addr := 0, bytes := 64, from_ := .none, power := 0 } }.pln.load =
    some { h := none, addr := 0, bytes := 64, from_ := .none, power := 0 } ∧ { s0 with pgk.ready := true }.pgk.ready = true := by decide
theorem wit_startPlan : sL.pln.plan = some pl0 ∧ sL.saf.safe = false ∧ sL.jrn.r.armed = false ∧ atOrLater 64 sL.now.toNat (9 : BitVec 64).toNat = false ∧ (3 : Byte).toNat ≤ 3 := by
  decide
theorem wit_stopPlan : sP.pln.state = .running ∧ { sP with pln.state := .starting }.pln.state = .starting ∧ { sP with pln.state := .stopping }.pln.state = .stopping := by decide
theorem wit_vf : h1.fn ≠ 0 ∧ s0.saf.supHalted = false := by decide
theorem wit_jobRefused : sP.jobReach h1 0 = false ∧ sP.jobRec 0 = some (pl0.jobs.headD {}) ∧ (pl0.jobs.headD {}).onDemand = false := by decide
theorem wit_jobStart : sP.jobRec (1 : BitVec 16).toNat = some { job := 1, rodMask := 1, onDemand := true, rodFirst := 1 } ∧ (sP.jobRun 1).state = .idle ∧ sP.jrn.j.isOpen = false := by
  decide
theorem wit_jobQuery : area { sR with pln.plan := some pl0, pln.state := .running } h0 ∧ pl0.hasPart 0 = true ∧ (63 : Byte).toNat ≤ 63 ∧
    { sP with pln.halted := sP.pln.halted.set 0 true }.pln.halted.get 0 = true := by decide
theorem wit_beam : (0 : Byte).toNat = pl0.nextWin sP.pln.window ∧ s0.pln.plan = none ∧ (1 : Byte).toNat ≠ pl0.nextWin 0 := by decide
/-- Job 0 released, then running on rod 0, saving, restoring, torn down. -/
def sJ (q : JobRun) (r : Rod) : State := { sP with pln.jobs := sP.pln.jobs.set 0 q, rods := sP.rods.set 0 r }
theorem wit_jobRunStart : (sJ { state := .released } {}).canStart pl0 { job := 0, rodMask := 1, rodFirst := 0 } = true ∧
    (sJ { state := .released } {}).outranked pl0 { job := 0, rodMask := 1, rodFirst := 0 } = false ∧
    ((pl0.rodsOf { job := 0, rodMask := 1, rodFirst := 0 }).map JobRod.rod).Nodup ∧ s0.errs.cells = [] ∧
    ∀ c ∈ (sJ { state := .released } {}).rods.cells, c.2.upset.banks = [] := by decide
theorem wit_holdCode : ((sQ0 [word 0x0C]).holdCode 0).1 = true := by decide +kernel
theorem wit_contextSave :
    let s := sJ { state := .running } { job := some 0, seq := .saving }
    (s.jobRun 0).state = .running ∧ ((({ job := 0, rodMask := 1, rodFirst := 0 } : JobRec).rods.filter fun k => ((s.jobRun 0).exits.get k).isNone) ≠ []) ∧
      (s.rod 0).seq = .saving := by decide
theorem wit_contextRestore :
    let s := sJ { state := .running } { job := some 0, seq := .restoring }
    ((List.range 64).filter fun n => (s.rod n).job == some (0 : BitVec 10).toNat && (s.rod n).seq == .restoring) = [0] ∧ s.errs.cells = [] ∧ s.saf.raised = [] ∧
      (s.rod 0).follower 0 = false ∧ (∀ c ∈ s.rods.cells, c.2.upset.banks = []) ∧ fld (s.rdN (spadAddr 0 (s.rod 0).ctxSaveBase.toNat + 64 * 4160) 1024) 1152 16 = (s.jobRun 0).gen.toNat ∧
      fld (s.rdN (spadAddr 0 (s.rod 0).ctxSaveBase.toNat + 64 * 4160) 1024) 1168 4 = s.jobPart 0 := by decide +kernel
theorem wit_reload : (sJ { state := .teardown } {}).jobRun 0 = { state := .teardown } ∧
    ∀ e ∈ [({ rod := 0, lines := 1 } : LoadSet)], (sJ { state := .teardown } {}).heldRod (spadAddr e.rod e.off) (64 * e.lines) = none := by decide
theorem wit_selftest : ({ sP with pln.selftest := sP.pln.selftest.set 63 { running := true } }.pln.selftest.get (63 : Fin 64).val).running = true := by decide

/-! ### Witnesses: sequencer -/

theorem wit_fetches : fetches (sQ [word 0x04]) 0 (word 0x04) ∧ fetches (sQ [word 0x05]) 0 (word 0x05) ∧ fetches (sQ [word 0x06]) 0 (word 0x06) ∧
    fetches (sQ [word 0x0E [(0, 4, 8)]]) 0 (word 0x0E [(0, 4, 8)]) ∧ (fetches (sQ [word 0x0E [(0, 4, 6)]]) 0 (word 0x0E [(0, 4, 6)])) := by decide +kernel
theorem wit_ldw :
    let s := sQ [word 0x07 [(0, 18, 4)]]
    fetches s 0 (word 0x07 [(0, 18, 4)]) ∧ (((s.rod 0).l_ 0 + sfld (word 0x07 [(0, 18, 4)]) 0 18).toNat % 4 = 0) ∧ s.inJobRange 0 4 4 = true ∧
      s.jrn.r.running = false ∧ s.jrn.j.isOpen = false := by decide +kernel
theorem wit_setb :
    let s := sQ [word 0x0F]
    fetches s 0 (word 0x0F) ∧ lineAligned ((s.rod 0).l_ 0).toNat = true ∧ s.inJobRange 0 0 1 = true := by decide +kernel
theorem wit_registers : ({} : Rod).l.wf = true ∧ (15 : Nat) ≠ 0 := by decide
def lvl0 : LoopLvl := { first := 1, last := 3, count := 2, next := 1, li := 5 }
theorem wit_advance : ({ pc := 2, stack := [lvl0] } : Rod).stack = [lvl0] ∧ lvl0.last ≠ 2 ∧ lvl0.last = ({ pc := 3 } : Rod).pc ∧ lvl0.next < lvl0.count ∧
    ¬ ({ lvl0 with next := 2 } : LoopLvl).next < lvl0.count := by decide
theorem wit_loop :
    let s := sQ [word 0x02 [(0, 12, 1), (18, 4, 1)], 0] (fun r => r.setL 1 3)
    fetches s 0 (word 0x02 [(0, 12, 1), (18, 4, 1)]) ∧ (s.rod 0).stack.length < 4 ∧ (s.rod 0).l_ 1 ≠ 0 := by decide +kernel
theorem wit_loop_skip :
    let s := sQ [word 0x02 [(0, 12, 1)], 0]
    fetches s 0 (word 0x02 [(0, 12, 1)]) ∧ (s.rod 0).l_ 0 = 0 := by decide +kernel
theorem wit_loopi : fetches (sQ [word 0x03 [(0, 12, 1), (12, 10, 1)], 0]) 0 (word 0x03 [(0, 12, 1), (12, 10, 1)]) ∧
    fetches (sQ [word 0x03 [(0, 12, 1)], 0]) 0 (word 0x03 [(0, 12, 1)]) ∧ fld (word 0x03 [(0, 12, 1), (12, 10, 1)]) 12 10 ≠ 0 := by decide +kernel
theorem wit_br :
    let s := sQ [word 0x08 [(0, 15, 1), (15, 3, 0)], 0]
    fetches s 0 (word 0x08 [(0, 15, 1), (15, 3, 0)]) ∧ brCond 0 ((s.rod 0).l_ 0) ((s.rod 0).l_ 0) = true ∧ (s.rod 0).stack = [] ∧
      fetches (sQ [word 0x08 [(0, 15, 1), (15, 3, 1)], 0]) 0 (word 0x08 [(0, 15, 1), (15, 3, 1)]) ∧ brCond 1 ((s.rod 0).l_ 0) ((s.rod 0).l_ 0) = false := by
  decide +kernel
theorem wit_halt_last :
    let s := sQ [word 0x10 [(0, 16, 9)]]
    fetches s 0 (word 0x10 [(0, 16, 9)]) ∧ (s.rod 0).job = some 0 ∧ s.jobRec 0 = some { job := 0, rodMask := 1, rodFirst := 0, tallyCount := 1 } ∧
      (s.rod 0).unitsIdle 15 = true ∧ s.pln.jobs.wf = true ∧ s.pln.plan = some plS ∧ plS.watchdogs = [] ∧
      ∀ k ∈ ({ job := 0, rodMask := 1 } : JobRec).rods, k ≠ 0 → (s.jobRun 0).exits.get k ≠ none := by decide +kernel
theorem wit_halt_first :
    let s : State := { sQ [word 0x10] with pln.plan := some { plS with jobs := [{ job := 0, rodMask := 3 }] } }
    fetches s 0 (word 0x10) ∧ s.jobRec 0 = some { job := 0, rodMask := 3 } ∧ (s.rod 0).unitsIdle 15 = true ∧
      ∃ k ∈ ({ job := 0, rodMask := 3 } : JobRec).rods, k ≠ 0 ∧ (s.jobRun 0).exits.get k = none := by decide +kernel
theorem wit_wait_ends :
    let s := sQ [word 0x09 [(0, 14, 7)]] (fun r => { r with seq := .waiting })
    fetches s 0 (word 0x09 [(0, 14, 7)]) ∧ s.jobTally 0 (word 0x09 [(0, 14, 7)]) false = some 7 ∧ (s.rod 0).seq = .waiting ∧
      atOrLater 32 (s.tly.values.get 7).toNat ((s.rod 0).l_ 0).toNat = true := by decide +kernel
theorem wit_wait_holds :
    let s := sQ [word 0x09 [(0, 14, 7), (22, 4, 1)]] (fun r => r.setL 1 1)
    fetches s 0 (word 0x09 [(0, 14, 7), (22, 4, 1)]) ∧ s.jobTally 0 (word 0x09 [(0, 14, 7), (22, 4, 1)]) false = some 7 ∧
      atOrLater 32 (s.tly.values.get 7).toNat ((s.rod 0).l_ 1).toNat = false := by decide +kernel
theorem wit_signal :
    let s := sQ [word 0x0A [(0, 14, 7)]]
    fetches s 0 (word 0x0A [(0, 14, 7)]) ∧ s.jobTally 0 (word 0x0A [(0, 14, 7)]) true = some 7 ∧ (s.rod 0).job = some 0 ∧ (s.rod 0).unitsIdle 0 = true := by decide +kernel
/-- A descriptor of one tick that a unit runs. -/
def run0 : Issued := { op := 10, ticks := 1, off := 0, la := 0, lc := 0 }
theorem wit_fence : fetches (sQ [word 0x0B [(0, 4, 15)]]) 0 (word 0x0B [(0, 4, 15)]) ∧ ((sQ [word 0x0B]).rod 0).unitsIdle 15 = true ∧
    let s := sQ [word 0x0B [(0, 4, 15)]] (fun r => { r with units := r.units.set 1 { run := some run0 } })
    fetches s 0 (word 0x0B [(0, 4, 15)]) ∧ (s.rod 0).unitsIdle 15 = false := by decide +kernel
theorem wit_align : fetches (sQ [word 0x0D]) 0 (word 0x0D) ∧ (sQ [word 0x0D]).pln.frameTick = 0 ∧ 0 < plS.frameTicks ∧
    fetches (sQ [word 0x0D [(0, 22, 5999)]]) 0 (word 0x0D [(0, 22, 5999)]) ∧ 5999 < plS.frameTicks := by decide +kernel
theorem wit_align_late : let s := { sQ [word 0x0D] with pln.frameTick := 1 }
    fetches s 0 (word 0x0D) ∧ (s.rod 0).alignAt = none ∧ 0 < s.pln.frameTick := by decide +kernel
theorem wit_flow : let s := sQ0 [word 0x04]
    (s.rod 0).job.isSome = true ∧ (s.rod 0).follower 0 = false ∧ (s.rod 0).seq = .ready ∧ (s.rod 0).pc.toNat < (s.rod 0).codeLen ∧ (s.holdCode 0).1 = true ∧
      (s.rod 0).code = [] ∧ ((s.holdCode 0).2.rod 0).codeWord = word 0x04 ∧ instrOk (word 0x04) = true := by decide +kernel
theorem wit_tileEnd : fetches (sQ [word 0x0C]) 0 (word 0x0C) ∧ fetches (sQ [word 0x11]) 0 (word 0x11) := by decide +kernel
/-- A CONVERT descriptor of one tick at 0 of the scratchpad, ISSUE after it, and as a SCAN of stream 0 that is resident. -/
def sI (op : Nat) (seq : SeqState) : State :=
  let s := (sQ0 [word 0x01] fun r => { r with codeBase := 256, seq := seq }).wr (spadAddr 0 0) (leBytes 128 (pack [(0, 8, op), (32, 32, 1)]))
  sHeld { s.wr (spadAddr 0 256) (leBytes 4 (word 0x01)) with cry.streams := ⟨[(0, { isOpen := true, resident := true })]⟩ }
theorem wit_issue :
    let s := sI 10 .ready
    fetches s 0 (word 0x01) ∧ s.inJobRange 0 0 128 = true ∧ fld (s.rdN (spadAddr 0 0) 128) 0 8 = 10 ∧ fld (s.rdN (spadAddr 0 0) 128) 32 32 = 1 ∧
      ((s.rod 0).units.get (unitOf 10)).queue.length < 4 := by decide +kernel
theorem wit_issue_scan :
    let s := sI 9 .waiting
    fetches s 0 (word 0x01) ∧ fld (s.rdN (spadAddr 0 0) 128) 0 8 = 9 ∧ (s.stream 0).isOpen = true ∧ (s.stream 0).part = s.jobPart 0 ∧ (s.stream 0).resident = true ∧
      (s.stream 0).motion ≠ 1 ∧ (s.stream 0).motion ≠ 2 ∧ (s.stream 0).rod = 0 ∧ (s.rod 0).seq = .waiting := by decide +kernel
theorem wit_overruns : ((sQ []).rod 0).seq = .ready ∧ (({ units := ({} : Rod).units.set 3 { run := some run0 } } : Rod).units.get 3).run.isSome = true ∧
    instrOk 0xFFFFFFFF = false ∧
    let r := (sQ [0xFFFFFFFF]).rod 0
    r.job.isSome = true ∧ r.follower 0 = false ∧ r.seq = .ready ∧ r.pc.toNat < r.codeLen ∧ r.holds r.codeWant = true ∧ r.codeWord = 0xFFFFFFFF := by decide +kernel

/-! ### Witnesses: units -/

/-- Access-pattern records: a walk of one element in one, two and three dimensions, and one of sixteen elements. -/
def patRec (nd : Nat) (e0 : Nat) : Nat :=
  pack ([(0, 16, e0), (96, 16, 1), (216, 3, nd), (1016, 8, 1), (256, 16, e0), (352, 32, 1)] ++
    (if 2 ≤ nd then [(16, 16, 1), (112, 16, 1), (196, 4, 1)] else []) ++ (if 3 ≤ nd then [(32, 16, 1), (128, 16, 1), (200, 4, 2)] else []) ++
    (List.range 5).map fun i => (272 + 16 * i, 16, 1))
/-- A descriptor at 0 of rod 0's scratchpad and the records `rs` from 4,096, at the front of the queue of its unit; job 0 owns the scratchpad. -/
def sU (d : Nat) (rs : List Nat) : State :=
  let op := fld d 0 8
  let s : State := sQ [] fun r => { r with
    recBase := 4096, recCount := rs.length, units := r.units.set (unitOf op) { queue := [{ op := op, ticks := 1, off := 0, la := 0, lc := 0 }] } }
  let pl : Plan := { plS with engSlots := [{ which := 0, slots := [0x30] }], pools := [{ part := 0, planes := 1, planeRow := 64, seqCount := 4 }] }
  let pl : Plan := { pl with carries := [{ part := 0, streamCount := 4, maxWidth := 16 }] }
  let s : State := { s with pln.plan := some pl }
  (s.wr (spadAddr 0 0) (leBytes 128 d)).wr (spadAddr 0 4096) (rs.flatMap (leBytes 128))
/-- The setup of that descriptor passes. -/
def passes (d : Nat) (rs : List Nat) : Bool :=
  let s := sU d rs
  let op := fld d 0 8
  let i : Issued := { op := op, ticks := 1, off := 0, la := 0, lc := 0 }
  match ({ Desc.ofNat (s.rdN (spadAddr 0 i.off) 128) with op := i.op, ticks := i.ticks } : Desc).shifted i with
  | some x => decide (setUp s 0 op i [] x)
  | none => false
/-- A slot's BASE, 8,192 bytes into the scratchpad, and its REC. -/
def slot (lo rec_ : Nat) : List (Nat × Nat × Nat) := [(lo, 48, spadAddr 0 8192), (lo + 48, 12, rec_)]
def desc (op : Nat) (fs : List (Nat × Nat × Nat)) : Nat := pack ([(0, 8, op), (32, 32, 1)] ++ fs)

theorem wit_matmul : passes (desc 1 (slot 384 0 ++ slot 512 0 ++ slot 640 1 ++ [(800, 3, 1), (816, 16, 1)])) [patRec 2 1, patRec 1 1] = true := by decide +kernel
theorem wit_conv : passes (desc 2 (slot 384 0 ++ slot 512 0 ++ slot 640 1 ++ [(800, 3, 1), (816, 16, 1)])) [patRec 2 1, patRec 1 1] = true := by decide +kernel
theorem wit_elemwise : passes (desc 3 (slot 384 0 ++ slot 640 0 ++ [(768, 12, 1)])) [patRec 1 1, pack [(1016, 8, 2)]] = true := by decide +kernel
theorem wit_pool : passes (desc 4 (slot 384 0 ++ slot 640 0 ++ [(776, 6, 1)])) [patRec 1 1] = true := by decide +kernel
theorem wit_cropResize : passes (desc 5 (slot 384 0 ++ slot 640 1 ++ [(512, 48, spadAddr 0 4096), (768, 13, 1), (784, 16, 1), (800, 16, 1)])) [patRec 3 1, patRec 1 1] = true := by
  decide +kernel
theorem wit_chArgmax : passes (desc 6 (slot 384 0 ++ slot 640 0 ++ [(26, 5, 3)])) [patRec 1 1] = true := by decide +kernel
theorem wit_attnScore : passes (desc 7 (slot 384 0 ++ [(16, 5, 5), (21, 5, 5), (26, 5, 5), (142, 2, 1), (160, 32, 0x3F800000), (512 + 48, 12, 1), (640, 48, spadAddr 0 8192),
      (780, 1, 1), (832, 32, 64)])) [patRec 2 16, pack [(0, 22, 16384), (32, 8, 1), (1016, 8, 3)]] = true := by decide +kernel
theorem wit_attnMerge : passes (desc 8 (slot 384 1 ++ slot 640 0 ++ [(768, 5, 1)])) [patRec 1 16, pack [(0, 16, 16), (16, 16, 1), (216, 3, 2), (1016, 8, 1)]] = true := by
  decide +kernel
theorem wit_scan : passes (desc 9 (slot 384 0 ++ slot 512 0 ++ slot 640 1 ++ [(16, 5, 7), (21, 5, 7), (768, 11, 1)])) [patRec 2 1, patRec 1 1] = true := by decide +kernel
theorem wit_convert : passes (desc 10 (slot 384 0 ++ slot 640 0)) [patRec 1 1] = true := by decide +kernel
theorem wit_dmaMove : passes (desc 11 (slot 384 0 ++ slot 640 0)) [patRec 1 1] = true := by decide +kernel
theorem wit_descEnd :
    let r : Rod := { units := ({} : Rod).units.set 3 { run := some run0 } }
    (r.units.get 3).run = some run0 ∧ (r.units.get 3).pins = [] ∧ (r.units.get 3).atEnd = [] := by decide

/-! ### Witnesses: pairs, keeper, carry -/

/-- R77: the line from rod 5 to rod 22 goes to x = 6 and then two hops toward y + 1. -/
theorem test_mesh_route : meshRoute 5 22 = [20, 26, 58] := by decide

theorem wit_pairCtl : (0 : Fin 64).val % 2 = 0 ∧ (1 : Word).toNat % 4 = 1 ∧ (s0.rod 0).pairState = 0 ∧ s0.pairFree 0 = true ∧ (sQ []).pairFree 0 = false := by decide +kernel
theorem wit_pairSplit :
    let s : State := { s0 with rods := s0.rods.set 0 { pairState := 2 } }
    let t : State := { sQ [] with rods := s0.rods.set 0 { pairState := 2, job := some 0 } }
    (2 : Word).toNat % 4 = 2 ∧ (s.rod 0).pairState = 2 ∧ (s.rod 0).again = false ∧ s.pairFree 0 = true ∧ (t.rod 0).pairState = 2 ∧ t.pairFree 0 = false := by decide +kernel
theorem wit_handovers :
    let s : State := { s0 with rods := s0.rods.set 62 { pairState := 1 } }
    let t : State := { s0 with rods := s0.rods.set 62 { pairState := 3 } }
    (s.rod (2 * (31 : Fin 32).val)).pairState = 1 ∧ s.errs.cells = [] ∧ memoryKept s ∧ (t.rod (2 * (31 : Fin 32).val)).pairState = 3 ∧ (t.rod (2 * (31 : Fin 32).val)).again = false ∧
      (Writer.host 0) ≠ .firmware := by decide
theorem wit_lockFails :
    let s : State := { s0 with rods := s0.rods.set 62 { pairState := 1 }, errs := s0.errs.set (spadAddr 62 0 / 4) 2 }
    (s.rod (2 * (31 : Fin 32).val)).pairState = 1 ∧ s.errIn (spadAddr (2 * (31 : Fin 32).val) 0) spadSize = 2 := by decide
theorem wit_moveWaits :
    let s : State := { sQ [] fun r => { r with units := r.units.set 3 { queue := [{ op := 11, ticks := 1, off := 0, la := 0, lc := 0 }] } } with pln.plan := some plS }
    s.moveWaits 0 = true := by decide +kernel

/-- Partition 0's memory, its pool of eight pages with one plane of 64 bytes a row, its carry declaration and tally 7. -/
def plK : Plan :=
  { pl0 with
    spads := [{ rod := 0, part := 0, off := 0, lines := 65536 }], regions := [{ part := 0, base := 0, len := 0x100000 }], tallies := [{ tally := 7, part := 0 }], engSlots := [{ which := 23, slots := [0x10] }],
    pools := [{ part := 0, base := 0, pageCount := 8, planes := 1, planeRow := 64, seqCount := 4, ptStride := 4 }],
    carries := [{ part := 0, streamCount := 4, maxWidth := 64, swapBase := 0x80000, areas := [{ rod := 0, off := 0, lines := 64 }] }] }
def poolK : KvPool := { part := 0, base := 0, pageCount := 8, planes := 1, planeRow := 64, seqCount := 4, ptStride := 4 }
def carryK : CarryDecl := { part := 0, streamCount := 4, maxWidth := 64, swapBase := 0x80000, areas := [{ rod := 0, off := 0, lines := 64 }] }
/-- The keeper with the sequences `qs` and streams `ts`. -/
def sK (qs : List (Nat × KvSeq)) (ts : List (Nat × Stream)) : State :=
  { s0 with pln.plan := some plK, pln.state := .running, memc.size := 0x100000, memc.state := 2, pgk.ready := true, pgk.seqs := ⟨qs⟩, cry.streams := ⟨ts⟩ }

theorem wit_keeperFree : keeperFree (sK [] []) 0 ∧ (sK [] []).pool 0 = some poolK ∧ poolK.hasSeq 3 = true ∧ (sK [] []).carryDecl 0 = some carryK := by decide
theorem wit_seqOpen : lenOk poolK 1 192 0 = true ∧ ((sK [] []).seq 3).isOpen = false ∧ (sK [] []).poolResv 0 + resvOf true 192 ≤ poolK.pageCount ∧
    par (prm [(0, 12, 3), (16, 8, 1), (32, 32, 192)]).toNat 4 32 = 192 := by decide
def q1 : KvSeq := { isOpen := true, gen := 1, len := 1, maxLen := 64, resv := 1 }
theorem wit_seqFork :
    let x := prm [(0, 12, 2), (32, 32, 64), (64, 12, 1), (80, 16, 1), (96, 32, 1)]
    let s := sK [(1, q1)] []
    poolK.hasSeq (par x.toNat 8 12) = true ∧ par x.toNat 8 12 = 1 ∧ lenOk poolK (par x.toNat 2 8) (par x.toNat 4 32) (s.seq 1).tokBase = true ∧ par x.toNat 12 32 ≤ par x.toNat 4 32 ∧
      (s.seq 2).isOpen = false ∧ (s.seq 1).isOpen = true ∧ (s.seq 1).gen.toNat = par x.toNat 10 16 ∧ par x.toNat 12 32 ≤ (s.seq 1).len ∧ (s.seq 1).first = 0 ∧
      s.poolResv 0 + resvOf (par x.toNat 2 8 == 1) (par x.toNat 4 32) ≤ poolK.pageCount := by decide +kernel
theorem wit_seqClose : ((sK [(1, q1)] []).seq 1).isOpen = true ∧ ((sK [(1, q1)] []).seq 1).gen.toNat = par (prm [(0, 12, 1), (16, 16, 1)]).toNat 2 16 ∧
    par (prm [(0, 8, 0)]).toNat 0 8 ≤ 15 := by decide
theorem wit_append :
    let x := prm [(0, 12, 1), (16, 16, 1), (32, 32, 1), (64, 16, 1), (128, 64, 0x1000), (192, 32, 64)]
    let s := sK [(1, q1)] []
    within 1 64 (par x.toNat 8 16) = true ∧ s.partAll 0 (par x.toNat 16 64 + 0 * par x.toNat 24 32) (poolK.planes * poolK.planeRow) = true ∧
      poolK.planes * poolK.planeRow ≤ par x.toNat 24 32 ∧ par x.toNat 24 32 % 64 = 0 ∧ (s.seq 1).gen.toNat = par x.toNat 2 16 ∧ (s.seq 1).guest = false ∧
      par x.toNat 4 32 ≤ (s.seq 1).len ∧ (s.seq 1).exhausted = false ∧ par x.toNat 4 32 + par x.toNat 8 16 ≤ (s.seq 1).maxLen := by decide +kernel
/-- A sliding sequence at its MAX_LEN in a page it holds: an append passes MAX_LEN and drops no block. -/
theorem wit_append_limit :
    let k := poolK
    let s := { sK [(1, { q1 with sliding := true, maxLen := 1 })] [] with pgk.table := ⟨[(4, 1)]⟩, pgk.pages := ⟨[(0, { refs := 1, taken := true })]⟩ }
    let r := s.appendRun k 1 1 0x1000 64 none 1 { cmd := { from_ := .host (some h0), op := 0x4003, params := 0 }, started := true, limit := true }
    (s.seq 1).maxLen < 1 + 1 ∧ (s.seq 1).len < 1 + 1 ∧ r.1.waiting = false ∧ r.1.dropped = none := by decide +kernel
/-- A ring of two devices over sequences 0, 1 and 2, and its context as it runs. -/
def rX : BitVec 384 := prm [(0, 8, 15), (8, 8, 2), (16, 8, 0), (32, 16, 2), (48, 16, 2), (64, 12, 0), (80, 12, 1), (96, 12, 2), (112, 16, 7), (128, 16, 7)]
def sX : State := sK [(0, { isOpen := true, maxLen := 64 }), (1, { isOpen := true, maxLen := 64 }), (2, { isOpen := true, maxLen := 64 })] []
theorem wit_ringOpen :
    let c := ringOf 0 rX.toNat
    within 2 64 c.n = true ∧ c.pos < c.n ∧ within 1 16383 c.eastNode = true ∧ within 1 16383 c.westNode = true ∧ poolK.hasSeq c.home = true ∧ poolK.hasSeq c.guest0 = true ∧
      poolK.hasSeq c.guest1 = true ∧ sX.tallyOwner c.arrive = some 0 ∧ sX.tallyOwner c.sent = some 0 ∧ c.recvBase % 64 = 0 ∧ c.recvStride % 64 = 0 ∧
      sX.partAll 0 c.recvBase (max 64 (64 * c.recvStride)) = true ∧ (sX.ring 15).state = 0 ∧ (sX.seq c.home).isOpen = true ∧ c.guest0 ≠ c.guest1 ∧
      sX.guestOk c c.guest0 = true ∧ sX.guestOk c c.guest1 = true := by decide +kernel
def sY (c : RingCtx) : State := { sX with pgk.rings := sX.pgk.rings.set 15 c, tyb.ports := sX.tyb.ports.set 0 { state := .active, neighbour := 2 } }
def c15 : RingCtx := { ringOf 0 rX.toNat with recvStride := 64 }
theorem wit_ringStep :
    let s := sY c15
    (s.ring 15).state = 1 ∧ (s.ring 15).part = 0 ∧ (s.ring 15).sending = none ∧ 1 = nextStep (s.ring 15).n (s.ring 15).lastSent ∧
      (s.seq ((s.ring 15).shardSeq 1)).isOpen = true ∧ s.portUp (s.ring 15).east = true ∧ s.errs.cells = [] := by decide +kernel
theorem wit_partialSend :
    let x := prm [(0, 8, 15), (64, 64, 0x1000), (128, 32, 1)]
    par x.toNat 1 8 ≤ 63 ∧ par x.toNat 2 8 ≤ 1 ∧ (sY c15).partAll 0 (par x.toNat 8 64) (64 * par x.toNat 16 32) = true ∧ par x.toNat 16 32 ≠ 0 ∧
      (sY c15).portUp ((sY c15).ring 15).east = true := by decide +kernel
theorem wit_ringSent : ((sY { c15 with sending := some (1, 0, []) }).ring 15).sending = some (1, 0, []) ∧
    ((sY c15).port ((sY { c15 with sending := some (1, 0, []) }).ring 15).east).txq.all (fun f => f.vc != 1) = true := by decide +kernel
/-- A message of a type that carries one ring header. -/
def ringMsgOf (type kind : Nat) : Msg := { dst := 1, src := 2, type := type, hops := 1, mseq := 0, payload := ringHeader kind 15 1 0 2 0 0 4096 }
def sZ (type kind : Nat) : State := (sY c15).updPort 0 fun q => { q with inbox := [ringMsgOf type kind] }
theorem wit_ringArrival :
    let s := sZ 2 1
    s.ringMsg 2 15 0 = some (0, ringMsgOf 2 1) ∧ s.jrn.r.running = false ∧ s.jrn.j.isOpen = false ∧ (s.ring 15).west = 0 ∧
      (match (s.dropMsg 0 0 (ringMsgOf 2 1)).shardIn 15 (ringMsgOf 2 1).payload with | some u => (u.ring 15).state == 1 | none => false) = true := by decide +kernel
theorem wit_partialArrival :
    let s := sZ 3 2
    s.ringMsg 3 15 0 = some (0, ringMsgOf 3 2) ∧ (s.ring 15).state = 1 ∧ (((s.dropMsg 0 0 (ringMsgOf 3 2)).partialIn 15 (ringMsgOf 3 2).payload).ring 15).state = 1 := by
  decide +kernel
theorem wit_jobPort : ((sQ []).rods.get 0).job = some 0 ∧ (sQ []).jobRec 0 = some { job := 0, rodMask := 1, rodFirst := 0, tallyCount := 1 } ∧
    (List.replicate 64 (0 : Byte)).length = 64 := by decide +kernel
/-- A keeper command that has run, and one that waits for a page. -/
def run1 (res : Option (Nat × Nat × Nat × Nat)) (w : Bool) : KvRun := { cmd := { from_ := .host (some h0), op := 0x4001, params := 0 }, started := true, res := res, waiting := w }
theorem wit_commandDone :
    let s : State := { s0 with pgk.runs := s0.pgk.runs.set 0 (some (run1 (some (0, 0, 1, 0)) false)) }
    let t : State := { s0 with pgk.runs := s0.pgk.runs.set 15 (some (run1 none true)) }
    s.pgk.runs.get 0 = some (run1 (some (0, 0, 1, 0)) false) ∧ (0x4001 : Nat) < 0x4020 ∧ s.pgk.queues.get 0 = [] ∧ s.saf.raised = [] ∧
      t.pgk.runs.get 15 = some (run1 none true) := by decide
theorem wit_landing : let x : Landing := { ring := 15, kind := 2, payload := (ringMsgOf 2 1).payload, at_ := 0 }
    let s := { sY c15 with tick := 1, pgk.landing := [x] }
    (s.ring x.ring).state = 1 ∧ (s.shardIn x.ring x.payload).isSome = true ∧ s.pgk.landing = [x] ∧ x.at_ < s.tick ∧ ¬ x.at_ < s0.tick ∧
      (sZ 2 1).landingAt 15 = false := by decide +kernel
theorem wit_token :
    let s := { sK [(1, q1)] [] with pgk.table := ⟨[(4, 1)]⟩, pgk.pages := ⟨[(0, { refs := 1, taken := true })]⟩ }
    (s.seq 1).len % 64 ≠ 0 ∧ (s.seq 1).first ≤ (s.seq 1).len / 64 ∧ s.pageOf poolK 1 ((s.seq 1).len / 64) = some 0 ∧ (s.pgk.pages.get 0).refs ≤ 1 := by decide +kernel
theorem wit_token_waits :
    let s := { sK [(1, { q1 with len := 0 })] [] with pgk.pools := ⟨[(0, { next := 8 })]⟩ }
    (s.seq 1).sliding = false ∧ (s.seq 1).len % 64 = 0 ∧ (s.pgk.pools.get poolK.part).next = poolK.pageCount ∧ (s.pgk.pools.get poolK.part).back = [] := by decide +kernel

def t1 : Stream := { isOpen := true, gen := 1, width := 64, resTally := 7 }
theorem wit_carryOpen : carryK.has 3 = true ∧ widthOk carryK.maxWidth 64 = true ∧ (sK [] []).partTally 0 7 = true ∧ ((sK [] []).stream 3).isOpen = false ∧ (sK [] []).errs.cells = [] := by
  decide
/-- No rod is in hand-over there. -/
theorem wit_noHandover (a m : Nat) : (sK [] [(1, t1)]).heldRod a m = none := State.heldRod_none _ (by decide) a m
theorem wit_carryNamed : ((sK [] [(1, t1)]).stream 1).isOpen = true ∧ ((sK [] [(1, t1)]).stream 1).gen.toNat = par (prm [(0, 16, 1), (16, 16, 1)]).toNat 2 16 ∧
    ((sK [] [(1, t1)]).stream 1).executing = false ∧ ((sK [] [(1, { t1 with resident := true })]).stream 1).resident = true ∧ (64 : Nat) ≤ 5440 := by decide
theorem wit_swapIn : ((sK [] [(1, t1)]).stream 1).resident = false ∧ (sK [] [(1, t1)]).slotOk carryK 0 0 (recordBytes 64) = true ∧
    (sK [] [(1, t1)]).slotTaken 0 0 (recordBytes 64) = false := by decide
theorem wit_carryExport : lineAligned 0x1000 = true ∧ (sK [] [(1, t1)]).partAll 0 0x1000 (recordBytes 64) = true := by decide
theorem wit_carryImport :
    let s := (sK [] [(1, t1)]).wr 0x1000 (leBytes 64 (pack [(0, 12, 1), (32, 16, 64), (48, 1, 1)]))
    fld (s.rdN 0x1000 64) 0 12 = 1 ∧ fld (s.rdN 0x1000 64) 32 16 = (s.stream 1).width ∧ fld (s.rdN 0x1000 64) 12 4 = 0 ∧ fld (s.rdN 0x1000 64) 49 15 = 0 ∧
      fld (s.rdN 0x1000 64) 192 320 = 0 := by decide +kernel
theorem wit_swapDone :
    let r := fun op => ({ cmd := { from_ := .host none, op := op, params := prm [(0, 16, 1)] }, started := true } : KvRun)
    let s := fun op m => ({ sK [] [(1, { t1 with motion := m })] with pgk.runs := ⟨[(0, some (r op))]⟩ } : State)
    (s 0x4023 1).pgk.runs.get ((s 0x4023 1).stream 1).part = some (r 0x4023) ∧ (r 0x4023).res = none ∧ par (r 0x4023).cmd.params.toNat 0 16 = (1 : BitVec 12).toNat ∧
      (s 0x4023 1).carryDecl 0 = some carryK ∧ ((s 0x4023 1).stream 1).motion = 1 ∧ ((s 0x4022 2).stream 1).motion = 2 ∧ (r 0x4022).cmd.op = 0x4022 := by decide +kernel


/-! ### Witnesses: journal, intake, cameras -/

/-- Ring 3 of PF0 as a journal ring with room, one entry of which stands filled. -/
def ringJ : Ring := { enable := true, state := 1, type := 4, log2 := 4, base := 0x800000000000 }
def sRJ (cells : List (Nat × Nat)) : State :=
  { sP with hif.rings := s0.hif.rings.set 3 { ringJ with tail := 1 }, jrn.r := { armed := true, running := true, ring := 3 }, mem := ⟨cells.map fun c => (c.1, BitVec.ofNat 8 c.2)⟩ }
theorem wit_journalOpen :
    let s := { sL with hif.rings := s0.hif.rings.set 3 ringJ }
    pf0 s h0 ∧ s.isJournalRing 3 = true ∧ areaOk 0x800000000000 0x100000 = true ∧ s.pln.state = .loaded ∧ s.jrn.r.armed = false ∧ s.jrn.j.isOpen = false ∧ s.jrn.j.closing = false := by decide
theorem wit_journalClose : { s0 with jrn.j.isOpen := true }.jrn.j.isOpen = true ∧ { s0 with jrn.j.isOpen := true }.jrn.j.closing = false ∧
    { s0 with jrn.r.armed := true }.jrn.r.armed = true ∧ s0.pln.state ≠ .running ∧ { s0 with jrn.j.closing := true }.jrn.j.closing = true := by decide
theorem wit_crossing : (15 : Byte).toNat < crossInstances 1 ∧ crossInstances 1 ≤ (16 : Byte).toNat ∧ crossInstances 11 ≤ (0 : Byte).toNat ∧
    (s0.jrn.cross.get 256).seen = false ∧ { s0 with jrn.cross := s0.jrn.cross.set 256 { seen := true, margin := 3 } }.jrn.cross.get 256 = { seen := true, margin := 3 } := by
  decide
theorem wit_journalGap :
    let s := { s0 with hif.rings := s0.hif.rings.set 3 ringJ, jrn.j := { isOpen := true, ring := 3, bytes := 256, lost := 2, lostBytes := 128 } }
    s.jrn.j.isOpen = true ∧ s.jrn.j.lost ≠ 0 ∧ s.journalRoom (min s.jrn.j.lostBytes s.jrn.j.bytes) = true := by decide
/-- A record with no payload, read ahead, and the replay at frame 0 and tick `k` with it. -/
def ahead0 (x : Nat) : Ahead := { rec_ := x, data := [], slot := none }
def sAh (x k : Nat) : State := { sP with pln.frameTick := k, jrn.r := { armed := true, running := true, ring := 3, ahead := [ahead0 x] } }
theorem wit_replay_times : (sAh 5 0).jrn.r.running = true ∧ (sAh 5 0).readAhead = (false, sAh 5 0) ∧ (sAh 5 0).jrn.r.ahead = [ahead0 5] ∧ fld (ahead0 5).rec_ 0 8 = 5 ∧
    (sAh 5 0).tickOf 5 = 0 ∧ 0 < (sAh 5 7).tickOf 5 ∧ (sAh (5 + 7 * 2 ^ 96) 0).tickOf (5 + 7 * 2 ^ 96) < 0 ∧ 0 ≤ (sAh 9 0).tickOf 9 ∧ 0 ≤ (sAh 8 7).tickOf 8 ∧
    fld (ahead0 8).rec_ 0 8 = 8 ∧ fld (ahead0 9).rec_ 0 8 = 9 := by decide +kernel
theorem wit_replay_read :
    let s := sRJ [(0x800000000000, 5)]
    s.jrn.r.running = true ∧ s.jrn.r.ahead.length < 64 ∧ s.replayHead = some 5 ∧ recordReserved 5 = false ∧ within 2 9 (fld 5 0 8) = true ∧
      fld 5 32 32 = s.jrn.r.jseq.toNat ∧ fld 5 160 32 = 0 := by decide +kernel
theorem wit_replay_bad : (sRJ [(0x800000000000, 5), (0x800000000004, 1)]).readAhead.1 = true := by decide +kernel

/-- A descriptor of a 16 by 4 RAW10 camera stream of port 0, and one of a CBOR record stream. -/
def camD : BitVec 2048 := BitVec.ofNat 2048 (pack [(6, 6, 0x2B), (18, 5, 1), (32, 16, 16), (48, 16, 4), (64, 32, 1000), (784, 8, 1)])
def recD : BitVec 2048 := BitVec.ofNat 2048 (pack [(0, 1, 1), (8, 5, 4), (16, 16, 1), (32, 16, 4), (96, 32, 64), (128, 32, 1), (160, 32, 100)])
/-- Camera point 0 and record point 32 configured, port 0 with one lane. -/
def sCam (q r : Point) : State :=
  { sM with sns.ports := s0.sns.ports.set 0 { lanes := 1, rate := 80 }, sns.points := (s0.sns.points.set 0 q).set 32 r }
def camQ1 : Point := { configured := true, enabled := true, desc := camD }
def recQ1 : Point := { configured := true, enabled := true, desc := recD }
theorem wit_portConfig : (15 : Byte).toNat ≤ 15 ∧ within 80 4500 (80 : BitVec 16).toNat = true ∧ within 1 3 (3 : Byte).toNat = true ∧ within 80 6000 (6000 : BitVec 16).toNat = true ∧
    (s0.streamsOn fun q => camPort q.desc.toNat == 15) = [] := by decide
theorem wit_streamConfig : (sM.point 31).enabled = false ∧ sM.binding 31 = none ∧ (∀ c ∈ sM.cameraChecks camD.toNat, c.1 = false) := by decide +kernel
theorem wit_recordConfig : (sM.point 63).enabled = false ∧ sM.binding 63 = none ∧ within 32 63 63 = true ∧ (∀ c ∈ sM.recordChecks recD.toNat, c.1 = false) := by decide +kernel
theorem wit_streamEnable :
    let s := sCam { camQ1 with enabled := false } { recQ1 with enabled := false }
    let t := sCam camQ1 recQ1
    (t.point 0).configured = true ∧ (t.point 0).enabled = true ∧ (t.sns.ports.get (camPort (t.point 0).desc.toNat)).lanes ≠ 0 ∧
      (s.point 32).configured = true ∧ (s.point 32).enabled = false ∧ (s.point 0).enabled = false ∧ (s.sns.ports.get (camPort camD.toNat)).lanes ≠ 0 ∧
      s.rateOver (0 :: s.streamsOn fun o => camPort o.desc.toNat == camPort camD.toNat) 18000 = false ∧ s.rateOver (0 :: s.streamsOn fun _ => true) 288000 = false := by
  decide +kernel
theorem wit_recordSubmit :
    let s := sCam camQ1 { recQ1 with queue := List.replicate 15 { addr := 0, bytes := 1, seq := 0 } }
    s.saf.supHalted = false ∧ h0.fn = 0 ∧ s.snsAddr (s.pointPart 32) 0x1000 1 = true ∧ (s.point 32).enabled = true ∧ (s.point 32).lastSubmit = none ∧
      (s.point 32).queue.length < 16 := by decide +kernel
theorem wit_recordRate : fld recD.toNat 160 32 * 1000 ≤ ((100000 : BitVec 64) - 0).toNat := by decide +kernel
theorem wit_streamQuery : area sR h0 ∧ (63 : Byte).toNat ≤ 63 ∧ (1 : Byte).toNat ≤ 1 := by decide

theorem wit_csiFrame :
    let s := sCam camQ1 recQ1
    (s.sns.ports.get 0).lanes ≠ 0 ∧ ((s.noteEcc 0 0).abandonInjection 0).streamsAt 0 0 = [0] ∧ ((s.noteEcc 0 0).abandonInjection 0).streamsAt 0 3 = [] ∧
      (s.noteEcc 0 0).streamsAt 0 0 = [0] := by decide +kernel
theorem wit_csiLine :
    let s := (sCam camQ1 recQ1).noteEcc 0 0
    dtBits 0x2B ≠ 0 ∧ ((s.streamsAt 0 0).filter fun p => camDt (s.point p).desc.toNat == 0x2B) = [0] := by decide +kernel
theorem wit_injection :
    let s := sCam { camQ1 with injDue := true } recQ1
    (s.streamsOn fun q => camPort q.desc.toNat == 0) = [0] ∧ (s.point 0).frame = none ∧ (s.point 0).injDue = true := by decide +kernel
theorem wit_roiWrite : ((sQ []).rods.get 0).job = some 0 ∧ (List.replicate 64 (0 : Byte)).length = 64 ∧
    ((sQ []).jobRec 0).map JobRec.part = some ((sQ []).pointPart 31) ∧ (sQ []).saf.raised = [] := by decide +kernel
/-- A running plan that binds points 0 and 32. -/
def sBnd (q r : Point) : State :=
  { sCam q r with pln.plan := some { pl0 with bindings := [{ point := 0, job := 0, depth := 2 }, { point := 32, job := 0, depth := 2 }] }, pln.state := .running, mem := ⟨[(0x1000, 0x80)]⟩ }
def recJ : RecordJob := { addr := 0x1000, bytes := 1, seq := 1 }
theorem wit_inputAdmit : ((sBnd { camQ1 with waiting := [{ slot := some 0, seq := 1 }] } recQ1).point 0).waiting = [{ slot := some 0, seq := 1 }] ∧
    (sBnd camQ1 recQ1).pointLive 0 = true ∧ (camQ1.lastAdm ≠ some 0) ∧ { camQ1 with lastAdm := some 0 }.lastAdm = some s0.tick := by decide
/-- No rod is in hand-over there. -/
theorem wit_recordFree (q r : Point) (a m : Nat) : (sBnd q r).heldRod a m = none := State.heldRod_none (sBnd q r)
    (show ∀ k < 64, (s0.rods.get (k / 2 * 2)).pairState ≠ 1 ∧ (s0.rods.get (k / 2 * 2)).pairState ≠ 3 from by decide) a m
theorem wit_decodeStart :
    let s := sBnd camQ1 { recQ1 with queue := [recJ] }
    let d := (s.point 32).desc.toNat
    (s.point 32).queue = [recJ] ∧ (s.point 32).decode = none ∧ (s.binding 32).isSome = true ∧ s.jrn.r.running = false ∧ s.pln.state = .running ∧ s.errs.cells = [] ∧
      s.saf.raised = [] ∧ recJ.bytes ≤ fld d 96 32 ∧ recordRefuse d recJ.bytes (s.rd recJ.addr recJ.bytes) = none ∧
      (s.updPoint 32 fun q => { q with queue := [] }).freeSlot 32 = some 0 := by decide +kernel
theorem wit_decodeEnd :
    let s := sBnd camQ1 { recQ1 with decode := some { job := recJ, slot := 1, dec := 2 } }
    (s.point 32).decode = some { job := recJ, slot := 1, dec := 2 } ∧ s.errs.cells = [] ∧ s.saf.raised = [] := by decide

/-! ### Witnesses: control loop engine -/

/-- A loop record of one period in every one, and one of slot 5; loop 127 as `l`, mailboxes and pairs at reset. -/
def loopD : BitVec 2048 := BitVec.ofNat 2048 (pack [(8, 7, 1)])
def loopQ : CleLoop := { configured := true, desc := loopD }
def sLoop (l : CleLoop) : State := { s0 with cle.loops := s0.cle.loops.set 127 l }
theorem wit_cleMay : (127 : Byte).toNat ≤ 127 ∧ s0.cleMay 0 127 = true := by decide +kernel
theorem wit_loopConfig : { loopQ with evaled := false }.recordOk 127 = true ∧ (s0.loopSt 127).enabled = false ∧ s0.binding 191 = none := by decide +kernel
theorem wit_coefSet : (7 : Byte).toNat ≤ 7 ∧ coefOk (0 : BitVec 512).toNat = true := by decide +kernel
theorem wit_loopEnable :
    let s := { sLoop loopQ with cle.loops := (sLoop loopQ).cle.loops.set 0 { loopQ with enabled := true, desc := BitVec.ofNat 2048 (pack [(0, 7, 5), (8, 7, 2)]) } }
    let l := s.loopSt 127
    l.configured = true ∧ l.enabled = false ∧ s.inputsReady l = true ∧ (∀ c ∈ s.cle.loops.cells, c.2.enabled = true → loopsConflict l c.2 = false) ∧ s.latencyOk l = true := by
  decide +kernel
theorem wit_loopResume : (sLoop { loopQ with enabled := true, stopped := true }).loopSt 127 = { loopQ with enabled := true, stopped := true } := by decide +kernel
theorem wit_inject : (3 : Byte).toNat ≤ 3 ∧ within 1 4 (2 : Byte).toNat = true ∧ (2 : Byte).toNat ≤ 2 ∧ (1 : BitVec 16) ≠ 0 ∧ (1 : Word) ≠ 0 ∧ (1 : Word).getLsbD 31 = false ∧
    (s0.cle.gens.get 3).running = false ∧ ((sLoop { loopQ with enabled := true }).loopSt 127).enabled = true := by decide +kernel
theorem wit_cleCapture : within 1 65536 (65536 : Word).toNat = true ∧ lineAligned (0x800000000000 : BitVec 64).toNat = true ∧ inAperture 0x800000000000 (32 * 65536) = true ∧
    (s0.cle.caps.get 3).running = false := by decide +kernel
theorem wit_inputConfig :
    let x : BitVec 112 := BitVec.ofNat 112 (pack [(0, 16, 255), (16, 16, 2), (32, 16, 1)])
    (31 : Byte).toNat < 32 ∧ fld x.toNat 0 16 ≤ 255 ∧ fld x.toNat 16 16 ≤ 2 ∧ fld x.toNat 32 16 ≤ 1 ∧
      (∀ c ∈ (sLoop { loopQ with enabled := true }).cle.loops.cells, c.2.enabled = true → c.2.reads 0 31 = false) := by decide +kernel
theorem wit_pwmConfig : within 2 16777215 (16777215 : Word).toNat = true ∧ (4095 : BitVec 16).toNat ≤ 4095 ∧
    (∀ c ∈ (sLoop { loopQ with enabled := true }).cle.loops.cells, c.2.enabled = true → ¬ (c.2.outKind = 1 ∧ c.2.outIndex = 47)) := by decide +kernel
/-- Pair 47, configured, of both groups. -/
def sPair (p : Pwm) : State := { s0 with cle.pwms := s0.cle.pwms.set 47 p }
def pwm1 : Pwm := { configured := true, period := 100, group := 3 }
theorem wit_pwmRelease : ((sPair pwm1).cle.pwms.get 47).configured = true ∧ (sPair pwm1).saf.safe = false ∧ (sPair pwm1).safeLow pwm1.group = false := by decide +kernel
theorem wit_cleStart : s0.saf.safe = false ∧ s0.cle.state = 0 ∧ s0.cle.start = none ∧ (3 : Byte).toNat ≤ 3 ∧ atOrLater 64 s0.now.toNat (5 : BitVec 64).toNat = false := by decide +kernel
theorem wit_cleStop : { s0 with cle.state := 2 }.cle.start = none ∧ ({ s0 with cle.state := 2 }.cle.state = 1 ∨ { s0 with cle.state := 2 }.cle.state = 2) := by decide +kernel
theorem wit_cleStartFire :
    { s0 with cle.start := some { h := none, mode := 1, pin := 0, at_ := 0 } }.cle.start = some { h := none, mode := 1, pin := 0, at_ := 0 } ∧
      atOrLater 64 s0.now.toNat (0 : BitVec 64).toNat = true := by decide +kernel
theorem wit_cleStartEdge : { s0 with cle.start := some { h := none, mode := 2, pin := 0, at_ := 0, seen := true } }.cle.start =
    some { h := none, mode := 2, pin := 0, at_ := 0, seen := true } := by decide
theorem wit_loopEvaluation :
    let s := { sLoop { loopQ with enabled := true } with cle.state := 2, cle.period := 1 }
    let l := s.loopSt 127
    s.loopDue l = true ∧ srcKind (l.f 48 16) ≠ 6 ∧ l.outKind = 0 ∧ s.cle.caps.cells = [] ∧ s.cle.gens.cells = [] ∧ s.pln.plan = none ∧ s.saf.raised = [] ∧ l.f 800 16 = 0 := by
  decide +kernel
theorem wit_encoder : ({ s0 with cle.encs := s0.cle.encs.set 31 { configured := true } }.cle.encs.get 31) = { configured := true } ∧ (true = (false : Bool) ∨ false = (false : Bool)) := by
  decide +kernel
theorem wit_sdDecimation : ({ s0 with cle.sds := s0.cle.sds.set 31 { configured := true, osr := 2 } }.cle.sds.get 31) = { configured := true, osr := 2 } ∧ 2 % 2 = 0 ∧ 33 % 2 = 1 ∧ ({ configured := true, osr := 33 } : CleSd).lost = false := by decide +kernel
theorem wit_spiFrame :
    let s := { s0 with cle.state := 1, cle.spis := s0.cle.spis.set 7 { configured := true, bits := 16, words := 1 } }
    (s.cle.spis.get 7).configured = true ∧ s.cle.state ≠ 0 ∧ 1 ≤ (s.cle.spis.get 7).words := by decide +kernel
theorem wit_safeEn : ((sPair pwm1).cle.pwms.get 47).group &&& 2 ^ (1 : Fin 2).val ≠ 0 ∧ (sPair pwm1).cle.pwms.wf = true := by decide +kernel
theorem wit_loadPoint :
    let s := sPair { pwm1 with shadow := some 40 }
    (s.cle.pwms.get 47).shadow = some 40 ∧ (s.cle.pwms.get 47).update ≤ 2 ∧ s.forceReason 47 = true := by decide +kernel
theorem wit_mailboxPort :
    let s := { sQ [] with pln.plan := some { plS with cleOwners := List.replicate 128 { owned := true } } }
    (s.rods.get 0).job = some 0 ∧ (List.replicate 64 (0 : Byte)).length = 64 ∧ s.cleOwner 127 = some 0 ∧ (s.jobRec 0).map JobRec.part = some 0 ∧
      leNat (List.replicate 64 (0 : Byte)) < 2 ^ 96 ∧ s.saf.raised = [] := by decide +kernel
theorem wit_mailbox : h0.fn = 0 ∧ s0.saf.supHalted = false := by decide +kernel

/-! ### Witnesses: Ethernet -/

/-- MAC 7 in the state `q`. -/
def sMac (q : Mac) : State := { s0 with eth.macs := s0.eth.macs.set 7 q }
def macOn : Mac := { enabled := true, maxFrame := 1518 }
theorem wit_ethPort : (7 : Byte).toNat ≤ 7 ∧ (2 : Byte).toNat ≤ 2 ∧ within 60 9216 (9216 : BitVec 16).toNat = true ∧ (1000000 : Word).toNat ≤ 1000000 ∧
    (s0.mac 7).enabled = false ∧ ((sMac macOn).mac 7).enabled = true := by decide +kernel
theorem wit_ethRxq :
    let s := sMac macOn
    within 2 16 (16 : Byte).toNat = true ∧ lineAligned (0x800000000000 : BitVec 64).toNat = true ∧ s.hostMem 0 0x800000000000 (2 ^ 16 * (s.mac 7).recBytes) = true ∧
      s.hostMem 0 0x900000000000 4 = true ∧ lineAligned (0x900000000000 : BitVec 64).toNat = true ∧ s.binding (208 + 4 * 7 + 3) = none := by decide +kernel
theorem wit_ethFilter : (15 : Byte).toNat ≤ 15 ∧ (4 : Byte).toNat ≤ 4 ∧ (7 : Byte).toNat ≤ 7 := by decide +kernel
theorem wit_ethGcl :
    let es : List (BitVec 64) := [0x25800000001, 0x19000000002]
    es.length = (2 : BitVec 16).toNat ∧ within 1 256 (2 : BitVec 16).toNat = true ∧ within 1000 1000000000 (1000 : Word).toNat = true ∧ (es.all fun e => decide (100 ≤ fld e.toNat 32 32)) = true ∧
      (es.map fun e => fld e.toNat 32 32).sum = (1000 : Word).toNat := by decide +kernel
theorem wit_ethPost : within 1 ((sMac macOn).mac 7).maxFrame (1518 : BitVec 16).toNat = true ∧ (sMac macOn).hostMem 0 0x800000000000 1518 = true ∧
    (((sMac macOn).mac 7).classes.get 7).length < 32 := by decide +kernel
theorem wit_ethLaunch : (63 : Byte).toNat ≤ 63 ∧ ((2 : Byte) = 0 ∨ (2 : Byte) = 2) ∧ within 1 256 (256 : BitVec 16).toNat = true ∧ s0.hostMem 0 0x800000000000 256 = true ∧
    s0.loopNames 3 7 63 true = false := by decide +kernel
theorem wit_ethQuery : sR.hasResult h0 = true := by decide +kernel
theorem wit_rxqHead :
    let q := ((sMac { macOn with queues := ({} : Tab EthQueue).set 3 { mode := 1, tail := 2 } }).mac 7)
    atOrLater 32 (2 : Word).toNat (q.queues.get 3).head.toNat = true ∧ atOrLater 32 (q.queues.get 3).tail.toNat (2 : Word).toNat = true := by decide +kernel
def gcl1 : Gcl := { entries := [(1, 600), (2, 400)], cycle := 1000, start := 0 }
theorem wit_gate : ((sMac { macOn with gcl := some gcl1 }).mac 7).gcl = some gcl1 ∧ ((sMac { macOn with pendGcl := some gcl1 }).mac 7).pendGcl = some gcl1 ∧
    atOrLater 64 s0.now.toNat gcl1.start = true := by decide +kernel
theorem wit_launchDiscard :
    let s := sMac { macOn with launches := ({} : Tab EthLaunch).set 63 { at_ := some 0 }, lateNs := 0 }
    let u := s.gateDiscards 7 ((s.mac 7).launches.get 63).cls 97
    ((u.mac 7).launches.get 63).at_ = some 0 ∧ atOrLater 64 u.now.toNat ((0 : BitVec 64) + BitVec.ofNat 64 (u.mac 7).lateNs).toNat = true := by decide +kernel
/-- A frame of class 7 behind a gate that never opens for it. -/
theorem wit_gateDiscard :
    let p : EthPost := { frame := List.replicate 60 0, at_ := none, due := false, h := none }
    let s := sMac { macOn with gcl := some { entries := [(1, 1000)], cycle := 1000, start := 0 }, classes := ({} : Tab (List EthPost)).set 7 [p] }
    (s.heads 7 7).find? (fun x => !(s.mac 7).everFits 7 ((s.mac 7).duration x.1)) = some (p.frame, .post none) := by decide +kernel
def post1 : EthPost := { frame := [1, 2], at_ := none, due := false, h := some h0 }
theorem wit_txStart :
    let s := sMac { macOn with classes := ({} : Tab (List EthPost)).set 7 [post1] }
    let q := s.mac 7
    q.enabled = true ∧ q.tx = none ∧ q.gcl = none ∧ q.launches.cells = [] ∧ s.tunnelPort 7 7 = none ∧ q.classes.get 7 = [post1] ∧ post1.at_ = none := by decide +kernel
theorem wit_txDone : ((sMac { macOn with tx := some { frame := [1], from_ := .post (some h0), stamp := 5 } }).mac 7).tx = some { frame := [1], from_ := .post (some h0), stamp := 5 } := by
  decide +kernel
theorem wit_badFcs :
    let f : List Byte := List.replicate 64 0
    crc32 (f.take (f.length - 4)) ≠ leNat (f.drop (f.length - 4)) := by decide +kernel
theorem wit_goodFrame :
    let f : List Byte := List.replicate 60 0
    let q := (sMac { macOn with queues := ({} : Tab EthQueue).set 0 { mode := 1, log2 := 2, base := 0x800000000000 } }).mac 7
    let r := q.queues.get 0
    q.enabled = true ∧ 60 ≤ f.length ∧ f.length ≤ q.maxFrame ∧ etherType f ≠ 0x8808 ∧ etherType f ≠ 0x88B5 ∧ q.filters.cells = [] ∧ r.mode = 1 ∧
      (r.tail - r.head).toNat < 2 ^ r.log2 := by decide +kernel

/-! ### Witnesses: CAN FD -/

/-- Controller 15 in the state `q`. -/
def sCtl (q : CanCtl) : State := { s0 with can.ctls := s0.can.ctls.set 15 q }
def canOn : CanCtl := { mode := 1, synced := true }
def mbTx : CanMb := { kind := 2 }
theorem wit_canConfig : (15 : Byte).toNat ≤ 15 ∧ (3 : Byte).toNat ≤ 3 ∧ (10000000 : Word).toNat ≤ 10000000 ∧ ((sCtl canOn).ctl 15).bus = none ∧ (sCtl canOn).can.ctls.wf = true ∧
    ((sCtl canOn).ctl 15).mode.toNat = (1 : Byte).toNat ∧ ((sCtl canOn).ctl 15).mode.toNat ≠ (2 : Byte).toNat := by decide +kernel
theorem wit_canTiming : timingOk 1 63 16 16 1 14 5 5 = true ∧ (127 : Byte).toNat ≤ 127 ∧ (1 : Byte).toNat ≤ 1 ∧ (s0.ctl 15).mode = 0 := by decide +kernel
theorem wit_canFilter : (31 : Byte).toNat ≤ 31 ∧ (4 : Byte).toNat ≤ 4 ∧ (63 : Byte).toNat ≤ 63 := by decide +kernel
theorem wit_canMbSet : lineAligned (0x800000000000 : BitVec 64).toNat = true ∧ s0.hostMem 0 0x800000000000 96 = true ∧ canImageOk (s0.rdN 0x800000000000 96) = true ∧
    s0.loopNames 2 15 63 false = false ∧ (s0.ctl 15).bus = none ∧ (s0.ctl 15).lock = none ∧ ((s0.ctl 15).mbs.get 63).h = none := by decide +kernel
theorem wit_canMbSend : (((sCtl { canOn with mbs := canOn.mbs.set 63 mbTx }).ctl 15).mbs.get 63) = mbTx := by decide +kernel
theorem wit_canMbAbort : (((sCtl { canOn with mbs := canOn.mbs.set 63 { mbTx with pend := true } }).ctl 15).mbs.get 63) = { mbTx with pend := true } ∧
    ((sCtl canOn).ctl 15).bus = none ∧ (((sCtl canOn).ctl 15).mbs.get 63).pend = false ∧ (((sCtl canOn).ctl 15).mbs.get 63).at_ = none := by decide +kernel
theorem wit_canRxf : (1 : Byte).toNat ≤ 1 ∧ within 1 32 (32 : Byte).toNat = true ∧ ((sCtl canOn).ctl 15).lock = none := by decide +kernel
theorem wit_canRecover : ((sCtl { canOn with err := 2 }).ctl 15).err = 2 ∧ ((sCtl { canOn with err := 3 }).ctl 15).err = 3 := by decide +kernel
theorem wit_canWord0 : (65 : Nat) < 66 ∧ (63 : Nat) < 64 ∧ (64 : Nat) ≤ 65 ∧ ((sCtl canOn).ctl 15).lock = none := by decide +kernel
def canPend : CanCtl := { canOn with mbs := canOn.mbs.set 63 { mbTx with pend := true } }
theorem wit_arbitration : ((sCtl canPend).ctl 15).offer = some 63 ∧ ((sCtl canPend).ctl 15).synced = true ∧ ((sCtl canPend).ctl 15).err.toNat < 2 ∧
    ((sCtl canPend).ctl 15).bus = none ∧ ((sCtl canPend).ctl 15).mode = 1 := by decide +kernel
theorem wit_canTxDone :
    let q := (sCtl { canPend with bus := some (63, 7), mbs := canOn.mbs.set 63 { mbTx with pend := true, h := some h0 } }).ctl 15
    q.bus = some (63, 7) ∧ (q.mbs.get 63).kind = 2 ∧ (q.mbs.get 63).h = some h0 ∧ (q.mbs.get 63).abort = [] ∧ q.err = 0 ∧ q.tec < 96 ∧ q.rec_ < 96 ∧
      (q.mbs.get 63).oneShot = false ∧ (q.mbs.get 63).stopping = false ∧ (q.mbs.get 63).next = none ∧ (CanTx.lost : CanTx) ≠ .sent ∧
      (sCtl canOn).launchOver 15 (q.mbs.get 63) = false ∧ (sCtl { canOn with lateNs := 0 }).launchOver 15 { mbTx with at_ := some 0 } = true := by decide +kernel
theorem wit_canNextLaunch :
    let s := sCtl { canPend with bus := some (63, 7), mbs := canOn.mbs.set 63 { mbTx with mode := 2, pend := true, at_ := some 1, next := some (5, 9) } }
    let q := s.ctl 15
    q.bus = some (63, 7) ∧ (q.mbs.get 63).next = some (5, 9) ∧ (q.mbs.get 63).at_.isSome = true ∧ (q.mbs.get 63).h = none ∧
      (q.mbs.get 63).abort = [] ∧ s.jrn.r.running = false ∧ q.err = 0 ∧ q.tec < 96 ∧ q.rec_ < 96 := by decide +kernel
theorem test_canNextLaunch :
    let s := sCtl { canPend with bus := some (63, 7), mbs := canOn.mbs.set 63 { mbTx with mode := 2, pend := true, at_ := some 1, next := some (5, 9) } }
    (match exec (.canTxDone 15 .sent none) s with
      | .next t => ((t.ctl 15).mbs.get 63).at_ == some 9 && ((t.ctl 15).mbs.get 63).img == 5 && (t.ctl 15).bus.isNone
      | _ => false) = true := by decide +kernel
theorem wit_launchWithdraw :
    let q := (sCtl { canOn with lateNs := 0, mbs := canOn.mbs.set 63 { mbTx with at_ := some 0 } }).ctl 15
    (q.mbs.get 63).at_ = some 0 ∧ atOrLater 64 s0.now.toNat ((0 : BitVec 64) + BitVec.ofNat 64 q.lateNs).toNat = true ∧ q.bus = none := by decide +kernel
theorem wit_canError : ((sCtl canOn).ctl 15).mode ≠ 0 ∧ ((sCtl canOn).ctl 15).err = 0 ∧ ((sCtl canOn).ctl 15).tec < 80 ∧ ((sCtl canOn).ctl 15).rec_ < 80 ∧
    248 ≤ ((sCtl { canOn with err := 1, tec := 248 }).ctl 15).tec ∧ ((sCtl { canOn with err := 1, tec := 248 }).ctl 15).err.toNat < 2 := by decide +kernel
def frame1 : CanFrame := { ide := false, rtr := false, fdf := true, brs := false, esi := false, id := 0x48C0000, dlc := 15, data := List.replicate 64 1 }
def filt1 : CanFilter := { target := 2, value := 0x48C0000, mask := 0x1FFC0000 }
theorem wit_frameFiltered :
    let q := (sCtl { canOn with filters := (List.range 31).foldl (fun t i => t.set i { mask := 0x1FFC0000 }) (canOn.filters.set 31 filt1), depths := canOn.depths.set 0 3 }).ctl 15
    q.match_ frame1 = some filt1 ∧ filt1.target = 2 ∧ (q.fifos.get 0).length < q.depths.get 0 + 1 ∧ frame1.rtr = false ∧ q.rec_ < 96 := by decide +kernel

/-! ### Witnesses: Tyben -/

theorem wit_nodeSet : 1 ≤ (16383 : BitVec 16).toNat ∧ (16383 : BitVec 16).toNat ≤ 16383 ∧ (s0.port 0).state = .disabled ∧ (s0.port 1).state = .disabled := by decide +kernel
theorem wit_tybPort : (1 : Byte).toNat ≤ 1 ∧ (2 : Byte).toNat ≤ 2 ∧ (7 : Byte).toNat ≤ 7 ∧ (s0.port 1).state = .disabled ∧ (sT.port 0).state ≠ .disabled ∧
    within 1 8 (8 : Byte).toNat = true ∧ ((sMac { macOn with maxFrame := 2066 }).mac 7).enabled = true ∧ 18 + 256 * 8 ≤ ((sMac { macOn with maxFrame := 2066 }).mac 7).maxFrame := by decide +kernel
theorem wit_routeSet : (1023 : BitVec 16).toNat < 1024 ∧ (16383 : BitVec 16).toNat < 16384 ∧ (14 : Byte).toNat ≤ 14 := by decide +kernel
theorem wit_msgSend : sT.tyb.node ≠ 0 ∧ (2 : BitVec 16).toNat ≠ sT.tyb.node.toNat ∧ (sT.route 2).map Route.portNo = some 0 ∧ (sT.port 0).state = .active ∧ within 1 16383 (2 : BitVec 16).toNat = true ∧ (1 : BitVec 16).toNat = sT.tyb.node.toNat ∧
    (sT.sendMsg 2 8 (leBytes 28 5 ++ List.replicate 4 0) (some h0)).isSome = true := by decide +kernel
theorem wit_offset : sT.tyb.offs = none ∧ sT.tyb.node ≠ 0 ∧ (sT.port 0).state = .active ∧ (sT.port 0).neighbour ≠ 0 := by decide +kernel
theorem wit_partnerConfig : within 2 255 (255 : Byte).toNat = true ∧ within 100 100000 (100000 : Word).toNat = true ∧ within 1 16383 (2 : BitVec 16).toNat = true ∧
    (let r : Route := { prefix_ := 2, len := 14, valid := true }
     let s := { sT with tyb.routes := sT.tyb.routes.set 1 r, pln.state := .loaded }
     s.pln.state = .loaded ∧ s.route 2 = some r ∧ r.portNo = 0 ∧ r.len = 14) := by decide +kernel
theorem wit_sigConfig : (15 : Byte).toNat ≤ 15 ∧ (1 : Byte).toNat ≤ 1 ∧ sR.hasResult h0 = true := by decide +kernel

/-- Port 1 in the state `q`. -/
def sPo (q : TybPort) : State := { s0 with tyb.node := 1, tyb.ports := s0.tyb.ports.set 1 q }
theorem wit_portStates : ((sPo { state := .detect }).port 1).state = .detect ∧ ((sPo { state := .detect }).port 1).retry = false ∧ ((sPo { state := .detect }).port 1).tunnel = false ∧ ((sPo { state := .train, maxRate := 2 }).port 1).state = .train ∧
    (2 : BitVec 2) ≤ ((sPo { state := .train, maxRate := 2 }).port 1).maxRate ∧ ((sPo { state := .config }).port 1).cfgGot = false ∧
    ((sPo { state := .config, cfgGot := true }).port 1).cfgGot = true ∧ ((sPo { state := .retrain }).port 1).state = .retrain := by decide +kernel
/-- A flit as its sender makes it: type, VC, sequence number and payload. -/
def flit1 (type fseq : Nat) (payload : List Byte) : List Byte := ({} : TybPort).flitBytes type 0 true false fseq payload
theorem wit_configFlit :
    let f := flit1 2 0 [2, 0, 0x10]
    let x := leNat (f.take 252)
    flitOk f = true ∧ fld x 0 4 = 2 ∧ fld x 48 16 = 0 ∧ fld x 160 (8 * 232) = 0 ∧ fld x 78 2 = 0 ∧ fld x 80 8 = ifaceVersion ∧ fld x 64 16 ≠ (sPo {}).tyb.node.toNat := by decide +kernel
theorem wit_badFlit : flitOk (List.replicate 256 0) = false ∧ ((sPo { state := .active }).port 1).gap = false := by decide +kernel
theorem wit_dataFlit :
    let x := leNat ((flit1 1 5 []).take 252)
    let q := (sPo { state := .active, expect := 5 }).port 1
    flitOk (flit1 1 5 []) = true ∧ q.replay = [] ∧ q.txq = [] ∧ fld x 0 4 = 1 ∧ fld x 8 12 = q.expect ∧ bit x 32 = false := by decide +kernel
theorem wit_repeatedFlit :
    let x := leNat ((flit1 1 4095 []).take 252)
    flitOk (flit1 1 4095 []) = true ∧ ((sPo { state := .active }).port 1).expect < 4096 ∧ fld x 8 12 = (0 + 4095) % 4096 := by decide +kernel

/-- A message of node 2 to `dst`. -/
def msg1 (dst type hops : Nat) (payload : List Byte) : Msg := { dst := dst, src := 2, type := type, hops := hops, mseq := 0, payload := payload }
/-- Node 1 with a message of its own in port 0's inbox, and once it is taken from there; tallies 0 to 3 are open to remote commands. -/
def sMsg (type : Nat) (payload : List Byte) : State :=
  { sT.updPort 0 fun q => { q with inbox := [msg1 1 type 5 payload] } with tly.remoteCount := 4, tly.remote := [{ h := h0, node := 2, reqId := 9, op := 2 }] }
def tMsg (type : Nat) (payload : List Byte) : State := (sMsg type payload).updPort 0 fun q => { q with inbox := [] }
def reqP (op g id : Nat) : List Byte := leBytes 16 (pack [(0, 8, op), (16, 16, g), (32, 32, 5), (96, 32, id)])
theorem wit_tallyReq : (sMsg 1 (reqP 0 3 9)).takeMsg 0 1 = some (msg1 1 1 5 (reqP 0 3 9), tMsg 1 (reqP 0 3 9)) ∧ (reqP 0 3 9).length = 16 ∧ (tMsg 1 (reqP 0 3 9)).remoteOpen 3 = true ∧
    fld (leNat (reqP 0 3 9)) 16 16 = 3 ∧ fld (leNat (reqP 1 3 9)) 0 8 = 1 ∧ fld (leNat (reqP 2 3 9)) 0 8 = 2 ∧ (tMsg 1 (reqP 0 3 9)).jrn.r.running = false ∧ (tMsg 1 (reqP 0 3 9)).jrn.j.isOpen = false ∧
    ((tMsg 1 (reqP 0 3 9)).port 0).lastReq ≠ some s0.tick ∧ { sT.port 0 with lastReq := some 0 }.lastReq = some s0.tick ∧
    (sMsg 1 (reqP 2 3 9)).takeMsg 0 1 = some (msg1 1 1 5 (reqP 2 3 9), tMsg 1 (reqP 2 3 9)) := by decide +kernel
def respP : List Byte := tallyResp 9 0 0 7
theorem wit_tallyResp :
    let x := leNat respP
    (sMsg 4 respP).takeMsg 0 4 = some (msg1 1 4 5 respP, tMsg 4 respP) ∧ findIdx (fun c => c.reqId == fld x 0 32 && c.node == 2) (tMsg 4 respP).tly.remote 0 = some 0 ∧
      (tMsg 4 respP).tly.remote[0]? = some { h := h0, node := 2, reqId := 9, op := 2 } ∧ fld x 48 8 = 0 ∧ fld x 32 16 = 0 := by decide +kernel
theorem wit_hostMsg : (sMsg 8 (List.replicate 32 3)).takeMsg 0 8 = some (msg1 1 8 5 (List.replicate 32 3), tMsg 8 (List.replicate 32 3)) ∧
    (sMsg 9 (List.replicate 32 3)).takeMsg 0 9 = some (msg1 1 9 5 (List.replicate 32 3), tMsg 9 (List.replicate 32 3)) := by decide +kernel
theorem wit_offsetReply :
    let o : OffsetRun := { h := none, port := 0, repeated := false, t1 := 3 }
    let s := { sMsg 10 (leBytes 32 3) with tyb.offs := some o }
    let t := { tMsg 10 (leBytes 32 3) with tyb.offs := some o }
    s.takeMsg 0 10 = some (msg1 1 10 5 (leBytes 32 3), t) ∧ t.tyb.offs = some o ∧ o.port = 0 ∧ fld (leNat (leBytes 32 3)) (64 * 0) 64 = o.t1.toNat ∧
      (msg1 1 10 5 (leBytes 32 3)).replayed = false ∧ o.spoiled = false := by decide +kernel
/-- Node 1 with the message whose bytes are `bs` received whole. -/
def sA (bs : List Byte) : State := sT.updPort 0 fun q => { q with arrived := [(bs, 0, false, 3)] }
theorem wit_msgRx :
    let good := fun (m : Msg) => fld (leNat (m.bytes.take 16)) 0 14 ≠ 0 ∧ fld (leNat (m.bytes.take 16)) 16 14 ≠ 0 ∧ 1 ≤ fld (leNat (m.bytes.take 16)) 32 8 ∧
      fld (leNat (m.bytes.take 16)) 32 8 ≤ 10 ∧ fld (leNat (m.bytes.take 16)) 14 2 = 0 ∧ fld (leNat (m.bytes.take 16)) 30 2 = 0 ∧
      fld (leNat (m.bytes.take 16)) 46 18 = 0 ∧ fld (leNat (m.bytes.take 16)) 64 32 ≤ 2 ^ 31
    ((sA (msg1 1 1 5 []).bytes).port 0).arrived = [((msg1 1 1 5 []).bytes, 0, false, 3)] ∧ sT.tyb.node ≠ 0 ∧ good (msg1 1 10 5 []) ∧ good (msg1 3 1 1 []) ∧ good (msg1 3 1 2 []) ∧
      ¬ good (msg1 0 1 5 []) ∧ ((sA []).route 3).map Route.portNo = some 0 ∧ fld (leNat ((msg1 1 1 5 []).bytes.take 16)) 0 14 = sT.tyb.node.toNat ∧
      fld (leNat ((msg1 3 1 1 []).bytes.take 16)) 40 6 ≤ 1 ∧ 2 ≤ fld (leNat ((msg1 3 1 2 []).bytes.take 16)) 40 6 := by decide +kernel
/-- The partner, node 2 behind port 0, configured; the plan runs; signature slot 15 of partition 0 compares. -/
def sPt (s : State) : State :=
  { s with tyb.partner := { enable := true, port := 0, hbMiss := 2, hbUs := 100, tol := 100, peer := 2 }, tyb.sigs := s0.tyb.sigs.set 15 { enable := true },
           pln.plan := some plS, pln.state := .running, pln.jobs := s0.pln.jobs.set 0 { state := .running }, rods := s0.rods.set 0 { job := some 0 } }
theorem wit_partner : (sPt sT).partnerRuns = true ∧ (sPt sT).saf.raised = [] ∧ (sPt sT).tyb.partner.lostSeen = false := by decide +kernel
theorem wit_partnerMsgs (type : Nat) (h : type ∈ [5, 6, 7]) :
    (sPt (sMsg type (leBytes 92 (15 + 2 ^ 384)))).takeMsg 0 type = some (msg1 1 type 5 (leBytes 92 (15 + 2 ^ 384)), sPt (tMsg type (leBytes 92 (15 + 2 ^ 384)))) ∧
      (sPt sT).tyb.partner.port = 0 ∧ (sPt sT).tyb.partner.peer = 2 ∧ fld (leNat (leBytes 92 (15 + 2 ^ 384))) 0 32 < 16 ∧
      ((sPt sT).tyb.sigs.get 15).enable = true := by
  simp only [List.mem_cons, List.not_mem_nil, or_false] at h
  rcases h with rfl | rfl | rfl <;> decide +kernel
theorem wit_witness :
    let w := leNat ((leBytes 92 (15 + 2 ^ 384)).take 60)
    fld sT.tyb.witness.toNat 384 64 + fld sT.tyb.witness.toNat 448 32 * 2 ^ 64 < fld w 384 64 + fld w 448 32 * 2 ^ 64 := by decide +kernel
theorem wit_heartbeatReplayed : { msg1 1 5 5 [] with replayed := true }.replayed = true := by decide
theorem wit_signature : ((sPt sT).rod 0).job = some 0 ∧ ((sPt sT).jobRec 0).map JobRec.part = some ((sPt sT).tyb.sigs.get 15).part ∧
    fld (leNat (List.replicate 64 (0 : Byte))) 32 32 = 0 ∧ (List.replicate 64 (0 : Byte)).length = 64 := by decide +kernel

/-! ### Witnesses: memory controllers, safety -/

theorem wit_memDataSlot :
    let q : MemReq := { part := 0, port := 31, addr := 0x1800, len := 64, wr := none, arrival := 0, fn := some 0 }
    let s := { sM with pln.state := .loaded, memc.queues := ⟨[(queueKey 3 0 31, [q])]⟩ }
    s.memc.state = 2 ∧ s.plannable 51 = true ∧ s.pln.state = .loaded ∧ s.memc.queues = ⟨[(queueKey 3 q.part q.port, [q])]⟩ ∧ queueKey 3 q.part q.port / 512 = 3 ∧
      bankOf q.addr = 51 % 16 ∧ q.left = 0 ∧ s.tick < q.arrival + 8 ∧ q.arrival + 8 ≤ { s with tick := 8 }.tick ∧ q.addr % 64 = 0 ∧ s.protectedAt q.addr = false ∧ s.errs.cells = [] ∧ s.saf.raised = [] := by decide +kernel
theorem wit_memRefresh :
    let s := { sM with memc.train := sM.memc.train.set 31 { high := true } }
    (s.memc.train.get 31).high = true ∧ s.memc.state = 2 ∧ s.saf.raised = [] := by decide +kernel
theorem wit_memScrub : { sM with memc.prot := [{ prot := true, base := 0, len := 0x100000 }] }.scrubLines ≠ 0 := by decide +kernel
theorem wit_memInit :
    let s := { s0 with sec.boot := .memInit, memc.state := 1 }
    let dev : MemDev := { lp5x := false, density := 0 }
    s.sec.boot = .memInit ∧ s.memc.state ≠ 2 ∧ s.memc.state ≠ 3 ∧ s.pwr.warm = false ∧ dev.lp5x = s.sec.settings.lp5x ∧ dev.density = s.sec.settings.density ∧
      s.sec.settings.memRate = false := by decide +kernel
theorem wit_safReact : classOk 0x0404 0 = true ∧ classDev 0x0404 0 = false ∧ classDefault 0x0404 0 ≤ 3 ∧ fixedFault 0x0404 = false ∧ classOk 0x1104 4 = true ∧
    classDev 0x1104 4 = true ∧ classDefault 0x1104 4 ≤ 3 ∧ fixedFault 0x1104 = false ∧ s0.pln.state = .none ∧ fixedFault 0x1107 = true := by decide +kernel
theorem wit_safGolden : sL.pln.plan = some pl0 ∧ (∃ g ∈ pl0.goldens, g.index = (3 : Byte).toNat) ∧ sL.pln.state = .loaded := by decide +kernel
theorem wit_safInject : canDev 0x1104 = true ∧ canJob 0x0402 = true ∧ ((sQ []).jobRec 0).isSome = true ∧ ((sQ []).jobRun 0).state = .running := by decide +kernel
theorem wit_safCtl : (1 : Word).getLsbD 0 = true ∧ s0.saf.safe = false ∧ (Writer.host 0) ≠ .firmware ∧ { s0 with saf.safe := true }.saf.safe = true ∧ s0.saf.supHalted = false := by decide +kernel
theorem wit_wdgLate :
    let s := { sP with saf.wdgs := s0.saf.wdgs.set 2 { state := 2 } }
    s.pln.plan = some pl0 ∧ pl0.watchdogs = [{ index := 2, kind := 2, late := 5 }] ∧ s.pln.state = .running ∧ (s.saf.wdgs.get (2 : Byte).toNat).state = 2 ∧
      5 ≤ { s with tick := 5 }.tick - (s.saf.wdgs.get (2 : Byte).toNat).last ∧ ({ pl0 with watchdogs := [{ index := 2, kind := 4, late := 5 }] } : Plan).watchdogs = [{ index := 2, kind := 4, late := 5 }] := by decide +kernel

/-! ### Witnesses: OTP, security, ledger, boot -/

theorem wit_otpFree : s0.pwr.hold = 0 ∧ s0.sec.job = none := by decide +kernel
theorem wit_otpCommit : settingsBad 0x10 = false ∧ s0.sec.noSlots = false ∧ s0.sec.nextSlot = some 0 := by decide +kernel
theorem wit_svnAdvance : (2 : Byte).toNat ≤ 2 ∧ (0 : Byte).toNat ≤ s0.sec.counter 2 ∧ s0.sec.counter 0 < (3 : Byte).toNat ∧ { s0 with sec.fwSvn := 3 }.svnOf 0 = some 3 := by
  decide +kernel
theorem wit_ownerProvision : { s0 with sec.lifecycle := .shipped }.sec.lifecycle = .shipped ∧ s0.sec.consumed (provSlot 0) = false ∧
    { s0 with sec.otp := s0.sec.otp.set 128 1 }.sec.consumed (provSlot 0) = true ∧ { s0 with sec.otp := s0.sec.otp.set 128 1 }.sec.consumed (provSlot 1) = false := by decide +kernel
theorem wit_keyRevoke : (1 : Byte).toNat ≤ 1 ∧ s0.sec.revoked 0 = false ∧ s0.sec.revoked 1 = false := by decide +kernel
theorem wit_ledgerNew : s0.sec.ledgerOpen = false ∧ s0.sec.counter 3 < 64 := by decide +kernel
theorem wit_otpQuery : sR.hasResult h0 = true ∧ 1 ≤ (60 : BitVec 16).toNat ∧ (60 : BitVec 16).toNat ≤ 60 ∧ (964 : BitVec 16).toNat + 60 ≤ 1024 := by decide +kernel
def otpJ : OtpJob := { h := some h0, kind := 1, which := 0, value := 0, rows := [(204, 0x10)], commit := [(236, 0xA5)] }
theorem wit_otpProgram : { s0 with sec.job := some otpJ }.sec.job = some otpJ ∧ { s0 with sec.job := some otpJ }.sec.suspended = false ∧ ((204 : BitVec 10).toNat, 0x10) ∈ otpJ.rows ∧
    (∀ c ∈ otpJ.commit, ∀ p ∈ otpJ.rows, p.1 ≠ c.1) ∧ { s0 with sec.job := some otpJ, sec.suspended := true }.sec.suspended = true ∧ s0.pwr.below &&& railBit 3 = 0 := by decide +kernel
theorem wit_otpBits : step { s0 with pending := [.jtagTestReset] } = .next s0 := by rfl
theorem wit_override :
    let x := 0x10 + 0x10 * 2 ^ 64 + 2 ^ 130
    let s := { s0 with sec.boot := .awaitSettings, sec.lifecycle := .shipped }
    fld x 0 8 = 0x10 ∧ fld x 14 2 = 0 ∧ fld x 17 15 = 0 ∧ x < 2 ^ 1856 ∧ settingsBad (fld x 64 1024) = false ∧ s.sec.settings.overrideAllow = true := by decide +kernel
theorem wit_attest : (0x800000000000 : BitVec 64).toNat % 64 = 0 ∧ inAperture 0x800000000000 352 = true ∧ { s0 with sec.lifecycle := .owned }.sec.lifecycle = .owned := by decide +kernel
theorem wit_debug :
    let tok : List Byte := List.replicate 160 0
    let s := { s0 with sec.lifecycle := .owned, sec.settings.debugPolicy := 1 }
    tok.length = 160 ∧ leNat ((tok.drop 52).take 1) ≤ 1 ∧ ((tok.drop 53).take 11).all (· == 0) = true ∧ s.sec.settings.debugPolicy = 1 ∧ s.sec.debugIsOpen = false := by decide +kernel
def ledR : List Byte := [7, 0x10] ++ List.replicate 254 0
theorem wit_ledgerOpen : ledR.length = 256 ∧ recordBad (leNat ledR) = false ∧ s0.sec.ledgerOpen = false ∧ ledR.drop 208 = s0.sec.seal (ledR.take 208) ∧
    fld (leNat ledR) 32 32 = s0.sec.counter 3 := by decide +kernel
def ledQ : LedgerRec := { type := 7, time := 0, payload := 0, bytes := some ledR, seq := 1 }
theorem wit_ledger : { s0 with sec.queue := [ledQ] }.sec.queue = [ledQ] ∧ ledQ.bytes = some ledR ∧ s0.sec.fetched = none ∧ s0.sec.queue = [] ∧ s0.sec.lostNow = 0 ∧
    { s0 with sec.fetched := some 1 }.sec.fetched = some 1 ∧ (1 : BitVec 64).toNat ≤ 1 ∧ (List.replicate 64 (0 : Byte)).length = 64 ∧ s0.sec.queue.length < 64 := by decide +kernel
theorem wit_bootRom : s0.sec.boot = .rom ∧ (5 : BitVec 3).toNat ≤ 5 ∧ 5 < (6 : BitVec 3).toNat ∧ s0.pwr.warm = false ∧
    ({ s0 with sec.otpBad := ({} : Tab Nat).set 80 1, sec.weak := ({} : Tab Bool).set 81 true }.sec.lifeNow) ≠ .test := by decide +kernel
theorem wit_bootWindow : { s0 with sec.boot := .bootWait }.sec.boot = .bootWait ∧ [(1 : Byte)].length ≤ 0x80000 - (0x7FFFF : BitVec 19).toNat ∧ (1 : Word).getLsbD 0 = true := by decide +kernel
theorem wit_boot : { s0 with sec.boot := .awaitSettings }.sec.boot = .awaitSettings ∧ { sM with sec.boot := .memInit }.memc.state = 2 ∧
    { sM with sec.boot := .ready }.sec.queue.length < 64 := by decide +kernel

/-! ### Witnesses: resets, power -/

theorem wit_resets : s0.sec.job = none ∧ s0.pwr.memOnce = false ∧ { s0 with pwr.memOnce := true }.pwr.memOnce = true ∧ s0.pwr.warmCount ≠ 0xFFFF ∧
    (0x5A : Word).toNat % 256 = 0x5A ∧ ((1 : Fin 16) ≠ 0) := by decide +kernel
theorem wit_powerPlan : sL.pln.plan = some pl0 ∧ (∀ e ∈ pl0.wins, e.power ≤ powerCap ((3 : Word).toNat % 4)) ∧ pl0.powerMin ≤ (3 : Word).toNat % 4 := by decide +kernel
theorem wit_powerReject :
    let pl : Plan := { pl0 with wins := [{ power := 251 }] }
    { sL with pln.plan := some pl }.pln.plan = some pl ∧ { power := 251 } ∈ pl.wins ∧ powerCap ((0 : Word).toNat % 4) < ({ power := 251 } : WinEnt).power := by decide +kernel
theorem wit_thermWarn : 85 ≤ (125 : Word).toNat % 256 ∧ (125 : Word).toNat % 256 ≤ 125 ∧ 125 < (126 : Word).toNat % 256 := by decide +kernel
theorem wit_supClear : (8 : Word).getLsbD 3 = true ∧ s0.pwr.level.get 3 ≠ 0 ∧ (8 : Word).getLsbD 0 = false := by decide +kernel
theorem wit_guard : (List.replicate 16 (0 : Word)).length = 16 ∧ s0.saf.raised = [] ∧ (∀ i < 17, s0.pwr.tripped.get i = false) ∧
    (List.replicate 16 (3600000 : Word)).all (fun x => x.toNat ≤ 3600000) = true ∧ (26250000 : Word).toNat ≤ powerCap s0.pwr.plan.toNat * 105000 ∧
    powerCap s0.pwr.plan.toNat * 105000 < (26250001 : Word).toNat := by decide +kernel
theorem wit_therm : hottest [0, 519] = (519, 1) ∧ hottest [0, 459] = (459, 1) ∧ (459 : Int) < 4 * (s0.pwr.warnAt.toNat : Int) ∧ hottest [0, 520] = (520, 1) ∧ s0.pwr.critArmed = true := by
  decide +kernel
theorem wit_supply : s0.pwr.below &&& railBit 3 = 0 ∧ s0.pwr.underHeld &&& railBit 3 = 0 ∧ s0.pwr.supplyWarn = false := by decide +kernel

/-! ### Witnesses: trace, the safe state -/

/-- Debug open, as in a part that is SHIPPED. -/
def sD (c : Trc) : State := { sR with sec.lifecycle := .shipped, trc := c }
theorem wit_debugOpen : pf0 (sD {}) h0 ∧ (sD {}).sec.debugIsOpen = true ∧ s0.sec.debugIsOpen = false := by decide +kernel
theorem wit_traceConfig :
    let x := prm [(0, 8, 2), (8, 8, 63), (32, 16, 0xFFFE), (48, 8, 66), (96, 8, 3), (128, 64, 0x800000000000), (192, 32, 0x40000000)]
    let p := fun b w => par x.toNat b w
    1 ≤ p 0 8 ∧ p 0 8 ≤ 2 ∧ p 1 8 < 64 ∧ p 4 16 ≠ 0xFFFF ∧ p 6 8 ≤ 66 ∧ p 12 8 ≤ 3 ∧ p 16 64 % 4096 = 0 ∧ destBytesOk (p 24 32) = true ∧ inAperture (p 16 64) (p 24 32) = true := by decide +kernel
theorem wit_traceSources :
    let x := prm [(0, 8, 66), (8, 8, 1), (64, 2, 3)]
    par x.toNat 0 8 ≤ 66 ∧ 1 ≤ par x.toNat 1 8 ∧ par x.toNat 1 8 ≤ 67 - par x.toNat 0 8 := by decide +kernel
theorem wit_traceStart : (sD { cfgMode := 2 }).trc.mode = 0 ∧ (sD { cfgMode := 2 }).trc.cfgMode ≠ 0 := by decide +kernel
def tr1 : TraceRec := { type := 9, source := 66, stamp := 0, a := 1, b := 2 }
theorem wit_traceStop : (sD { mode := 2 }).trc.stopping = none ∧ (sD { mode := 2 }).trc.mode ≠ 1 ∧ (sD { mode := 1 }).trc.empty = true ∧
    (sD { mode := 1, hist := [tr1] }).trc.empty = false := by decide +kernel
theorem wit_traceTrigger :
    let c : Trc := { mode := 2, state := .armed, trigMask := 1, postCount := 4 }
    (sD c).trc.mode = 2 ∧ (sD c).trc.state = .armed ∧ (sD c).trc.trigMask.getLsbD 0 = true ∧ (sD c).trc.lastTrig ≠ some (sD c).tick := by decide +kernel
theorem wit_traceDump :
    let c : Trc := { mode := 2, state := .frozen, hist := [tr1], destBytes := 0x10000 }
    (sD c).trc.state = .frozen ∧ (sD c).trc.trig = none ∧ (sD c).trc.hist.length ≤ (sD c).trc.destBytes / 16 := by decide +kernel
theorem wit_cntRead : (63 : Byte).toNat ≤ 63 ∧ (2 : Byte).toNat ≤ 2 ∧ (sD {}).hasResult h0 = true := by decide +kernel
theorem wit_traceMerge :
    let c : Trc := { mode := 2, state := .armed, srcs := ⟨[(66, { fifo := [tr1] })]⟩ }
    c.srcs = ⟨[(66, { fifo := [tr1] })]⟩ ∧ c.stopping = none ∧ c.hist.length < 65535 := by decide +kernel
theorem wit_traceRptr : 0 ≤ wdiff 32 (3 : Word).toNat (2 : Word).toNat ∧ 0 ≤ wdiff 32 (3 : Word).toNat (3 : Word).toNat ∧ wdiff 32 (1 : Word).toNat (2 : Word).toNat < 0 ∧
    wdiff 32 (3 : Word).toNat (4 : Word).toNat < 0 := by decide +kernel
theorem wit_safeState : { s0 with saf.safe := true }.saf.safe = true ∧ (match exec .clockLossReset { s0 with saf.safe := true } with | .next t => t.saf.safe | _ => true) = false ∧
    (2 : Byte).toNat ≤ 2 ∧ (3 : Byte).toNat ≤ 3 ∧ (47 : Byte).toNat ≤ 47 := by decide +kernel

/-! ### Single steps, with results from the manual and from the standards it names -/

/-- What a check reads in the next state. -/
def seen {α : Type} (o : Out) (f : State → α) : Option α := match o with | .next t => some (f t) | _ => none
/-- STATUS and RESULT0 of the reply that a command of PF0's ring 0 gets on its status ring, ring 1 (Table 7 of chapter 10). -/
def status (o : Out) : Option (Nat × Nat) := seen o fun t => (t.rdN 0x800000001002 2, t.rdN 0x800000001014 4)

-- The check values of CRC-32 and CRC-32C over the digits 1 to 9, and SHA-384 of "abc" (FIPS 180-4).
theorem test_crc32 : crc32 [0x31, 0x32, 0x33, 0x34, 0x35, 0x36, 0x37, 0x38, 0x39] = 0xCBF43926 := by decide +kernel
theorem test_crc32c : crc32c [0x31, 0x32, 0x33, 0x34, 0x35, 0x36, 0x37, 0x38, 0x39] = 0xE3069283 := by decide +kernel
theorem test_sha384_abc : beNat ((sha384 [0x61, 0x62, 0x63]).take 16) = 0xcb00753f45a35e8bb5a03d699ac65007 := by decide +kernel
-- R15: at or later in modulo-2^32 order.
theorem test_wrap_order : atOrLater 32 3 0xFFFFFFFE = true ∧ atOrLater 32 0x80000004 4 = false := by decide
-- R279: the last SET first, then the sum of the ADDs, modulo 2^32.
theorem test_tally_apply : applyOps 9 [{ tally := 1, isSet := false, value := 0xFFFFFFFF, due := 0 }, { tally := 1, isSet := true, value := 3, due := 0 }] = 2 := by decide
theorem test_tally_none : status (exec (.tallyRead h0 16384) sC) = some (0x3001, 0) := by decide +kernel
theorem test_step_front : seen (step { s0 with pending := [.cleSdClock 1, .jtagTestReset] }) State.pending = some [.jtagTestReset] := by decide +kernel
-- R21: an access to no register is Unsupported Request.
theorem test_unmapped : seen (exec (.hostUnmappedAccess 0 0x7FFFFFFFFFFF) s0) (fun t => t.hif.cpl.unsupported) = some true := by decide +kernel
-- R270, R286: a NOP with the expected sequence number is answered with its word.
theorem test_nop_echo : seen (exec (.commandTake 0 0) sC) (fun t => (t.rdN 0x800000001002 2, t.rdN 0x800000001014 4, t.hif.held.length)) = some (0, 9, 0) := by decide +kernel
-- R99: ADDI adds its signed immediate modulo 2^32.
theorem test_addi_wraps : seen (exec (.addi 0) (sQ [word 0x04 [(0, 18, 0x3FFFF), (22, 4, 3)]])) (fun t => ((t.rod 0).pc, (t.rod 0).l_ 3)) = some (1, 0xFFFFFFFF) := by
  decide +kernel
theorem test_l0_stays_zero : (({} : Rod).setL 0 7).l_ 0 = 0 := by decide
-- R330: the weights of the shortest window; R325: rounding of a tie upward.
theorem test_sinc : (List.range 4).map (sincWeight 2) = [1, 3, 3, 1] := by decide
theorem test_shift_tie : sh (-3) 1 = -1 ∧ sh 3 1 = 2 := by decide
-- R382: an error counter that passes 255 is bus-off.
theorem test_bus_off : seen (exec (.canError 15 .transmit) (sCtl { canOn with err := 1, tec := 248 })) (fun t => (t.ctl 15).err) = some 2 := by decide +kernel
-- R362: a frame shorter than 60 bytes is padded with zeros, and its FCS follows.
theorem test_eth_pads : (padFrame [1, 2]).length = 60 ∧ (padFrame [1, 2]).getD 59 7 = 0 := by decide +kernel
-- R395: the longest prefix wins.
theorem test_route : ({ sT with tyb.routes := ((({} : Tab Route).set 0 { valid := true }).set 1 { prefix_ := 0x2000, len := 1, port := true, valid := true }) }.route 0x2001).map Route.portNo = some 1 := by
  decide +kernel
-- R457: an image without its magic fails with RESULT 6.
theorem test_boot_format : seen (exec (.secBootGo 0 1) { s0 with sec.boot := .bootWait }) (fun t => (t.sec.result, t.sec.failures, t.sec.boot == .bootWait)) = some (6, 1, true) := by
  decide +kernel
-- R450, R452: a marker needs two of its three copies.
theorem test_marker : { s0.sec with otp := s0.sec.otp.set 79 0 }.lifeNow = .shipped ∧ { s0.sec with otp := (s0.sec.otp.set 79 0).set 78 0 }.lifeNow = .test := by decide +kernel
-- R486: PWR_RESET_REQ takes 0x5A only; a warm reset before memory was ever ready is a power-on reset.
theorem test_reset_req : seen (exec (.pwrResetReq 0 0x5A) { s0 with pwr.memOnce := true }) (fun t => (t.pwr.cause, t.pwr.warmCount)) = some (BitVec.ofNat 3 (PwrCause.code .request), 1) ∧
    seen (exec (.pwrResetReq 0 0x5B) { s0 with pwr.memOnce := true }) (fun t => t.pwr.warmCount) = some 0 := by decide +kernel
-- R466: IDCODE.
theorem test_idcode : seen (exec (.jtagInstruction .idcode) s0) (fun t => t.sec.jtag) = some 0x2064A0E9 := by decide +kernel
-- R478: the caps of the power plans; R481: a warning level below 85 is refused.
theorem test_power_caps : [0, 1, 2, 3].map powerCap = [250, 400, 550, 750] := by decide
theorem test_warn_range : seen (exec (.pwrThermWarnWrite 0 84) s0) (fun t => (t.pwr.warnAt, t.pwr.cfgReject)) = some (0x73, true) := by decide +kernel
-- R341: a command on loop 128.
theorem test_loop_range : status (exec (.cleLoopDisable h0 128) sC) = some (0x6003, 0) := by decide +kernel
-- R292: STREAM_CONFIG of a point that is no camera stream.
theorem test_stream_range : status (exec (.streamConfig h0 32 camD) sC) = some (0x5003, 0) := by decide +kernel
-- R344, R509, R469: a rate out of range, trace with debug closed, an empty ledger queue.
theorem test_time_range : status (exec (.timeRate h0 0) sC) = some (0x7003, 0) := by decide +kernel
theorem test_trace_closed : status (exec (.traceStop h0) sC) = some (0xB002, 0) := by decide +kernel
theorem test_ledger_empty : status (exec (.ledgerFetch h0) { sC with hif.sessions := s0.hif.sessions.set 0 { isOpen := true, version := 0x10, resultBase := 0x800000010000 } }) = some (0xA00E, 0) := by
  decide +kernel

end Sys2Proof.Tests
end

section
/-! The wrap-around comparison (R15) and its use by waits (R280) and by a start at a time (R229). -/

namespace Sys2Proof.Machine

/-! ### The signed difference is the balanced remainder of the integer difference -/

theorem sgn_eq_bmod {n : Nat} (x : Nat) (hn : 1 ≤ n) : sgn n x = (x : Int).bmod (2 ^ n) := by
  have heven : 2 ^ n = 2 * 2 ^ (n - 1) := (mul_pow_sub_one (Nat.one_le_iff_ne_zero.1 hn) 2).symm
  simp only [sgn, Int.bmod_def, ← Int.natCast_mod]
  split <;> split <;> omega

theorem natCast_wrap (n : Nat) (i : Int) : (wrap n i : Int) = i % (2 ^ n : Nat) :=
  Int.toNat_of_nonneg (Int.emod_nonneg i (by positivity))

/-- The rule's two steps, the difference modulo 2^n and its reading as a two's-complement number, are the library's balanced remainder. -/
theorem wdiff_eq_bmod {n : Nat} (a b : Nat) (hn : 1 ≤ n) : wdiff n a b = ((a : Int) - b).bmod (2 ^ n) := by
  rw [wdiff, sgn_eq_bmod _ hn, natCast_wrap, Int.emod_bmod]

/-- The signed difference is the one number an n-bit two's-complement number can hold that is congruent to a - b modulo 2^n. -/
theorem wdiff_eq_iff {n : Nat} (a b : Nat) (d : Int) (hn : 1 ≤ n) :
    wdiff n a b = d ↔ -(2 ^ (n - 1) : Int) ≤ d ∧ d < 2 ^ (n - 1) ∧ (2 ^ n : Int) ∣ d - ((a : Int) - b) := by
  obtain ⟨k, rfl⟩ := Nat.exists_eq_add_of_le' hn
  have hlow : ((2 ^ (k + 1) : Nat) : Int) / 2 = 2 ^ k := by push_cast; omega
  have hhigh : (((2 ^ (k + 1) : Nat) : Int) + 1) / 2 = 2 ^ k := by push_cast; omega
  rw [wdiff_eq_bmod a b hn, Int.bmod_eq_iff (by positivity), hlow, hhigh]
  simp

theorem wdiff_spec {n : Nat} (a b : Nat) (hn : 1 ≤ n) :
    -(2 ^ (n - 1) : Int) ≤ wdiff n a b ∧ wdiff n a b < 2 ^ (n - 1) ∧ (2 ^ n : Int) ∣ wdiff n a b - ((a : Int) - b) :=
  (wdiff_eq_iff a b _ hn).1 rfl

theorem wdiff_eq_zero_iff {n : Nat} (a b : Nat) (hn : 1 ≤ n) : wdiff n a b = 0 ↔ a % 2 ^ n = b % 2 ^ n := by
  have hmod : a % 2 ^ n = b % 2 ^ n ↔ ((2 ^ n : Nat) : Int) ∣ b - a := Nat.modEq_iff_dvd
  rw [hmod, wdiff_eq_bmod a b hn, ← Int.dvd_iff_bmod_eq_zero, dvd_sub_comm]

/-- A value half the circle away is earlier, not later (R15). -/
theorem wdiff_of_half_turn {n : Nat} (a b : Nat) (hn : 1 ≤ n) (h : (b + 2 ^ (n - 1)) % 2 ^ n = a % 2 ^ n) :
    wdiff n a b = -(2 ^ (n - 1) : Int) := by
  obtain ⟨k, rfl⟩ := Nat.exists_eq_add_of_le' hn
  have hpos : (0 : Int) < 2 ^ k := by positivity
  obtain ⟨c, hc⟩ : ((2 ^ (k + 1) : Nat) : Int) ∣ a - (b + 2 ^ k : Nat) := Nat.modEq_iff_dvd.1 h
  push_cast [pow_succ] at hc
  refine (wdiff_eq_iff a b _ hn).2 ⟨le_rfl, ?_, -c - 1, ?_⟩
  · rw [Nat.add_sub_cancel]; omega
  · rw [Nat.add_sub_cancel, pow_succ]; linarith

theorem atOrLater_iff (n a b : Nat) : atOrLater n a b = true ↔ 0 ≤ wdiff n a b := decide_eq_true_iff

/-! ### Waits on a tally (R280) -/

/-- What the start of a tick after its admission decides for a wait that no tick has satisfied yet. -/
theorem WaitEnt.judge_unsatisfied {values : Tab Word} {now : Nat} {w : WaitEnt} (hhit : w.hit = none) (hsince : w.since < now) :
    w.judge values now =
      if 0 ≤ wdiff 32 (values.get w.tally).toNat w.target.toNat then { w with hit := some (values.get w.tally) } else w := by
  simp [WaitEnt.judge, hhit, hsince, atOrLater_iff]

theorem State.judgeWaits_getElem? (s : State) (i : Nat) :
    s.judgeWaits.tly.waits[i]? = (s.tly.waits[i]?).map (WaitEnt.judge s.tly.values s.tick) := List.getElem?_map ..

/-- A host's wait that ends with success leaves the table, and its reply carries the value. -/
theorem State.endWait_host_success {s : State} {i : Nat} {w : WaitEnt} {h : Hdr} (hwho : w.who = .host h) (v : Word) :
    s.endWait i w 0 v = { s with tly.waits := dropAt i s.tly.waits }.reply h { r0 := v.toNat } := by
  simp [State.endWait, hwho]

theorem exec_tallyWaitSatisfied {s : State} {i : Nat} {w : WaitEnt} {v : Word} (hw : s.tly.waits[i]? = some w) (hhit : w.hit = some v) :
    exec (.tallyWaitSatisfied i) s = .next (s.endWait i w 0 v) := by
  change execTallyWaitSatisfied i s = _
  simp [execTallyWaitSatisfied, hw, hhit]

/-! ### A start at a time (R229) -/

theorem exec_planStartFire_atTime {s : State} {p : PendStart} {pl : Plan} (hstart : s.pln.start = some p) (hplan : s.pln.plan = some pl)
    (hmode : p.mode = 1) :
    exec .planStartFire s = .next (if 0 ≤ wdiff 64 s.now.toNat p.at_.toNat then (s.beginPlan pl p.h).settle else s) := by
  change execPlanStartFire s = _
  simp [execPlanStartFire, hstart, hplan, hmode, atOrLater_iff]

/-- Settles O7: the comparison is read off the balanced remainder, and waits and a start at a time use it with N = 32 and N = 64. -/
theorem wrapAroundOrder : Obligations.WrapAroundOrder := by
  unfold Obligations.WrapAroundOrder
  refine ⟨fun n a b hn => ?_, fun i w s hw hhit hsince => ?_, fun i h w v s hw hwho hhit => ?_, fun p pl s hstart hplan hmode => ?_⟩
  · obtain ⟨hlow, hhigh, hdvd⟩ := wdiff_spec a b hn
    exact ⟨hdvd, hlow, hhigh, atOrLater_iff n a b, wdiff_eq_zero_iff a b hn, wdiff_of_half_turn a b hn⟩
  · rw [State.judgeWaits_getElem?, hw, Option.map_some, WaitEnt.judge_unsatisfied hhit hsince]
  · rw [exec_tallyWaitSatisfied hw hhit, State.endWait_host_success hwho]
  · exact exec_planStartFire_atTime hstart hplan hmode

end Sys2Proof.Machine
end

section
/-! The rate of the time base (R343 to R345): what a run of time-clock cycles adds to the time, and what TIME_RATE accepts. -/

namespace Sys2Proof.Machine

/-! ### One time-clock cycle -/

theorem timeMod_pos : (0 : Int) < timeMod := by decide

@[simp] theorem Tim.cycle_incr (t : Tim) : t.cycle.incr = t.incr := rfl

@[simp] theorem Tim.cycle_slewRate (t : Tim) : t.cycle.slewRate = t.slewRate := rfl

theorem Tim.cycle_slewLeft_toNat (t : Tim) : t.cycle.slewLeft.toNat = t.slewLeft.toNat - 1 := by
  unfold Tim.cycle
  split
  next h => simp [h]
  next h => bv_omega

theorem natCast_toNat_emod_timeMod (i : Int) : ((i % timeMod).toNat : Int) = i % timeMod :=
  Int.toNat_of_nonneg (Int.emod_nonneg i timeMod_pos.ne')

/-- A cycle adds INCR, and SLEW_RATE while the slew has cycles left (R343, R345). -/
theorem Tim.cycle_time (t : Tim) :
    (t.cycle.time : Int) = (t.time + t.incr.toNat + t.slewRate.toInt * (min 1 t.slewLeft.toNat : Nat)) % timeMod := by
  unfold Tim.cycle
  rw [natCast_toNat_emod_timeMod, ← add_assoc]
  split
  next h => simp [h]
  next h =>
    have hone : min 1 t.slewLeft.toNat = 1 := by bv_omega
    rw [hone, Nat.cast_one, mul_one]

theorem Tim.cycle_time_lt (t : Tim) : t.cycle.time < timeMod := by
  have h := Int.emod_lt_of_pos (t.time + t.incr.toNat + t.slewRate.toInt * (min 1 t.slewLeft.toNat : Nat)) timeMod_pos
  rw [← Tim.cycle_time] at h
  exact_mod_cast h

/-! ### A run of cycles -/

/-- The first of n + 1 cycles takes one cycle of the slew, and the other n take theirs from what it leaves. -/
theorem min_succ_eq_first_add_rest (n k : Nat) : min (n + 1) k = min 1 k + min n (k - 1) := by omega

/-- Cycles add INCR each, and SLEW_RATE for as many of them as the slew has left; seconds wrap (R343 to R345). -/
theorem Tim.cycles_time {t : Tim} (h : t.time < timeMod) (n : Nat) :
    ((t.cycles n).time : Int) = (t.time + n * t.incr.toNat + t.slewRate.toInt * (min n t.slewLeft.toNat : Nat)) % timeMod := by
  induction n generalizing t with
  | zero =>
    have hlt : (t.time : Int) < timeMod := by exact_mod_cast h
    simp [Tim.cycles, Int.emod_eq_of_lt (Int.natCast_nonneg _) hlt]
  | succ n ih =>
    rw [Tim.cycles, ih t.cycle_time_lt, Tim.cycle_incr, Tim.cycle_slewRate, Tim.cycle_slewLeft_toNat, Tim.cycle_time,
      min_succ_eq_first_add_rest n t.slewLeft.toNat, add_assoc, Int.emod_add_emod]
    congr 1
    push_cast
    ring

/-! ### What the firmware answers while the supervisor runs (R272) -/

/-- An effect with its reply, where no extended result needs a result area. -/
theorem firmware_ok {s : State} (hsup : s.saf.supHalted = false) (h : Hdr) (s' : State) {r : Rep} (hext : r.ext = none) :
    firmware h s (.ok s' r) = .next (s'.reply h r) := by
  simp [firmware, finish, hsup, hext]

theorem firmware_no {s : State} (hsup : s.saf.supHalted = false) (h : Hdr) (st d : Nat) :
    firmware h s (.no st d) = .next (s.reply h { status := st, detail := d }) := by
  simp [firmware, finish, hsup]

/-! ### TIME_RATE -/

/-- TIME_RATE refuses a value outside INCR's own bound (R344) or, while a slew runs, one whose sum with SLEW_RATE is outside it (R345). -/
def Tim.refusesRate (t : Tim) (incr : BitVec 64) : Bool :=
  !rateOk incr.toNat || (t.slewLeft != 0 && !rateOk (incr.toNat + t.slewRate.toInt))

theorem Tim.refusesRate_iff (t : Tim) (incr : BitVec 64) :
    t.refusesRate incr = true ↔ 2199023255 < |(incr.toNat : Int) - 2 ^ 41| ∨
      (t.slewLeft ≠ 0 ∧ 2199023255 < |(incr.toNat : Int) + t.slewRate.toInt - 2 ^ 41|) := by
  simp [Tim.refusesRate, rateOk]

theorem exec_timeRate {s : State} {h : Hdr} (hsup : s.saf.supHalted = false) (hfn : h.fn = 0) (incr : BitVec 64) :
    exec (.timeRate h incr) s = .next (if s.tim.refusesRate incr then s.reply h { status := 0x7003 }
      else { s with tim.incr := incr.setWidth 48 }.reply h {}) := by
  change firmware h s (checks [(h.fn != 0, 0x7001), (s.tim.refusesRate incr, 0x7003)] (.ok { s with tim.incr := incr.setWidth 48 } {})) = _
  rw [hfn, bne_self_eq_false, checks_cons_false]
  cases s.tim.refusesRate incr with
  | true => rw [checks_cons_true, firmware_no hsup, if_pos rfl]
  | false => rw [checks_cons_false, checks_nil, firmware_ok hsup h _ rfl, if_neg Bool.false_ne_true]

/-- INCR's 48 bits hold every value within the bound. -/
theorem toNat_setWidth_of_rate_bound {incr : BitVec 64} (h : |(incr.toNat : Int) - 2 ^ 41| ≤ 2199023255) :
    (incr.setWidth 48).toNat = incr.toNat := by
  have hbound := abs_le.1 h
  rw [BitVec.toNat_setWidth]
  omega

/-- The cycles after an accepted TIME_RATE add the value it was sent, with none of its bits lost. -/
theorem Tim.cycles_time_of_rate_bound {t : Tim} {incr : BitVec 64} (h : |(incr.toNat : Int) - 2 ^ 41| ≤ 2199023255)
    (hlt : t.time < timeMod) (n : Nat) :
    (({ t with incr := incr.setWidth 48 }.cycles n).time : Int) =
      (t.time + n * incr.toNat + t.slewRate.toInt * (min n t.slewLeft.toNat : Nat)) % timeMod := by
  rw [Tim.cycles_time (t := { t with incr := incr.setWidth 48 }) hlt, toNat_setWidth_of_rate_bound h]

/-- Settles O59: a value within the bounds becomes INCR whole, which every later cycle adds; outside them only the reply is written. -/
theorem timeRateRule : Obligations.TimeRateRule := by
  unfold Obligations.TimeRateRule
  rintro h incr s ⟨hsup, hfn⟩
  rw [exec_timeRate hsup hfn]
  refine ⟨fun hown hsum => ⟨?_, fun n hlt => Tim.cycles_time_of_rate_bound hown hlt n⟩, fun hout => ?_⟩
  · have htakes : ¬ s.tim.refusesRate incr = true := by
      rw [Tim.refusesRate_iff]
      rintro (hbad | ⟨hruns, hbad⟩)
      · exact hbad.not_ge hown
      · exact hsum.elim hruns hbad.not_ge
    rw [if_neg htakes]
  · rw [if_pos ((Tim.refusesRate_iff _ _).2 hout)]

end Sys2Proof.Machine
end

section
/-! What leaves the safe state (R435) alone: every operation of the state but the settling of faults. -/

namespace Sys2Proof.Machine

/-! ### Choices and folds -/

@[simp] theorem ite_saf_safe (c : Prop) [Decidable c] (a b : State) :
    (if c then a else b).saf.safe = if c then a.saf.safe else b.saf.safe := by
  split <;> rfl

@[simp] theorem ite_snd_saf_safe {α : Type} (c : Prop) [Decidable c] (a b : α × State) :
    (if c then a else b).2.saf.safe = if c then a.2.saf.safe else b.2.saf.safe := by
  split <;> rfl

theorem snd_saf_safe_of_eq {α : Type} {p : α × State} {a : α} {t : State} (h : p = (a, t)) : t.saf.safe = p.2.saf.safe := by rw [h]

/-- `f` leaves what `g` reads as it is. -/
def Keeps {β γ : Type} (g : β → γ) (f : β → β) : Prop := ∀ b, g (f b) = g b

@[simp] theorem keeps_iff {β γ : Type} (g : β → γ) (f : β → β) : Keeps g f ↔ ∀ b, g (f b) = g b := Iff.rfl

theorem foldl_keeps {α β γ : Type} (g : β → γ) {f : β → α → β} (hf : ∀ x, Keeps g (f · x)) (l : List α) (b : β) :
    g (l.foldl f b) = g b := by
  induction l generalizing b with
  | nil => rfl
  | cons x l ih => exact (ih _).trans (hf x b)

@[simp] theorem foldl_saf_safe {α : Type} {f : State → α → State} (hf : ∀ x, Keeps (fun s => s.saf.safe) (f · x)) (l : List α) (s : State) :
    (l.foldl f s).saf.safe = s.saf.safe :=
  foldl_keeps (fun s : State => s.saf.safe) hf l s

@[simp] theorem foldl_snd_saf_safe {α β : Type} {f : β × State → α → β × State} (hf : ∀ x, Keeps (fun b => b.2.saf.safe) (f · x))
    (l : List α) (b : β × State) : (l.foldl f b).2.saf.safe = b.2.saf.safe :=
  foldl_keeps (fun b : β × State => b.2.saf.safe) hf l b

@[simp] theorem foldl_snd_snd_saf_safe {α β γ : Type} {f : β × γ × State → α → β × γ × State}
    (hf : ∀ x, Keeps (fun b => b.2.2.saf.safe) (f · x)) (l : List α) (b : β × γ × State) :
    (l.foldl f b).2.2.saf.safe = b.2.2.saf.safe :=
  foldl_keeps (fun b : β × γ × State => b.2.2.saf.safe) hf l b

@[simp] theorem foldl_snd_fst_saf_safe {α β γ : Type} {f : β × State × γ → α → β × State × γ}
    (hf : ∀ x, Keeps (fun b => b.2.1.saf.safe) (f · x)) (l : List α) (b : β × State × γ) :
    (l.foldl f b).2.1.saf.safe = b.2.1.saf.safe :=
  foldl_keeps (fun b : β × State × γ => b.2.1.saf.safe) hf l b

variable (s : State)

/-! ### Shared operations: memory, faults, rings, events, replies -/

@[simp] theorem State.wrN_saf_safe (a n x : Nat) : (s.wrN a n x).saf.safe = s.saf.safe := rfl
@[simp] theorem State.noteUe_saf_safe (a : Nat) : (s.noteUe a).saf.safe = s.saf.safe := rfl

@[simp] theorem State.noteRead_saf_safe (a n : Nat) : (s.noteRead a n).saf.safe = s.saf.safe := by
  simp [State.noteRead]

@[simp] theorem State.noteBoth_saf_safe (a n : Nat) : (s.noteBoth a n).saf.safe = s.saf.safe := by
  unfold State.noteBoth
  split <;> simp

@[simp] theorem State.raiseJob_saf_safe (code job : Nat) (rod : Option Nat) (detail : Word) :
    (s.raiseJob code job rod detail).saf.safe = s.saf.safe :=
  rfl

@[simp] theorem State.raiseDev_saf_safe (code : Nat) (detail detail2 : Word) : (s.raiseDev code detail detail2).saf.safe = s.saf.safe := rfl
@[simp] theorem State.latched_saf_safe (n k code j : Nat) : (s.latched n k code j).saf.safe = s.saf.safe := rfl

@[simp] theorem State.handoverAccess_saf_safe (n : Nat) (job : Option Nat) : (s.handoverAccess n job).saf.safe = s.saf.safe := by
  unfold State.handoverAccess
  split <;> simp

@[simp] theorem State.blockRead_saf_safe (a n : Nat) (job : Option Nat) : (s.blockRead a n job).2.saf.safe = s.saf.safe := by
  unfold State.blockRead
  dsimp only
  repeat' split
  all_goals simp

@[simp] theorem State.wrBoth_saf_safe (a : Nat) (bs : List Byte) : (s.wrBoth a bs).saf.safe = s.saf.safe := by
  unfold State.wrBoth
  split <;> simp

@[simp] theorem State.putFor_saf_safe (job : Option Nat) (a : Nat) (bs : List Byte) : (s.putFor job a bs).saf.safe = s.saf.safe := by
  unfold State.putFor
  split <;> simp

@[simp] theorem State.sendVector_saf_safe (v : Nat) : (s.sendVector v).saf.safe = s.saf.safe := by
  simp [State.sendVector]

@[simp] theorem State.writeBack_saf_safe (r : Ring) (idx : Word) : (s.writeBack r idx).saf.safe = s.saf.safe := by
  simp [State.writeBack]

@[simp] theorem State.ringIrq_saf_safe (k : Nat) : (s.ringIrq k).saf.safe = s.saf.safe := by
  unfold State.ringIrq
  dsimp only
  repeat' split
  all_goals simp

@[simp] theorem State.postEntry_saf_safe (k : Nat) (bs : List Byte) : (s.postEntry k bs).saf.safe = s.saf.safe := by
  simp [State.postEntry]

@[simp] theorem State.postEvent_saf_safe (k kind part code payload : Nat) :
    (s.postEvent k kind part code payload).saf.safe = s.saf.safe := by
  simp [State.postEvent]

@[simp] theorem State.flushLost_saf_safe (f : Fin 16) : (s.flushLost f).saf.safe = s.saf.safe := by
  unfold State.flushLost
  split <;> simp

@[simp] theorem State.event_saf_safe (f : Fin 16) (kind part code payload : Nat) :
    (s.event f kind part code payload).saf.safe = s.saf.safe := by
  unfold State.event
  dsimp only
  split <;> simp

@[simp] theorem State.blockEvent_saf_safe (code : Nat) (payload : Option Nat) : (s.blockEvent code payload).saf.safe = s.saf.safe := by
  unfold State.blockEvent
  split <;> simp

@[simp] theorem State.postReply_saf_safe (h : Hdr) (r : Rep) : (s.postReply h r).saf.safe = s.saf.safe := by
  simp [State.postReply]

@[simp] theorem State.closeDrained_saf_safe (h : Hdr) : (s.closeDrained h).saf.safe = s.saf.safe := by
  unfold State.closeDrained
  dsimp only
  split <;> simp

@[simp] theorem State.reply_saf_safe (h : Hdr) (r : Rep) : (s.reply h r).saf.safe = s.saf.safe := by
  unfold State.reply
  split <;> simp

@[simp] theorem State.replyOpt_saf_safe (h : Option Hdr) (r : Rep) : (s.replyOpt h r).saf.safe = s.saf.safe := by
  unfold State.replyOpt
  split <;> simp

/-! ### Journal and trace records -/

@[simp] theorem State.journalData_saf_safe (bs : List Byte) : (s.journalData bs).saf.safe = s.saf.safe := rfl

@[simp] theorem State.journalPost_saf_safe (kind point srcSeq fields : Nat) (data : List Byte) (hasData : Bool) :
    (s.journalPost kind point srcSeq fields data hasData).saf.safe = s.saf.safe := by
  refine (State.postEntry_saf_safe ..).trans ?_
  rw [ite_saf_safe, State.journalData_saf_safe, ite_self]

@[simp] theorem State.journalGap_saf_safe : s.journalGap.saf.safe = s.saf.safe := by
  simp [State.journalGap]

@[simp] theorem State.journalOut_saf_safe (r : JRec) : (s.journalOut r).saf.safe = s.saf.safe := by
  simp [State.journalOut]

@[simp] theorem State.journalAt_saf_safe (at_ kind sub srcSeq fields : Nat) (data : Option (List Byte)) :
    (s.journalAt at_ kind sub srcSeq fields data).saf.safe = s.saf.safe := by
  simp [State.journalAt]

@[simp] theorem State.journal_saf_safe (kind sub srcSeq fields : Nat) (data : Option (List Byte)) :
    (s.journal kind sub srcSeq fields data).saf.safe = s.saf.safe := by
  simp [State.journal]

@[simp] theorem State.journalFlush_saf_safe : s.journalFlush.saf.safe = s.saf.safe := by
  simp [State.journalFlush]

@[simp] theorem State.journalMark_saf_safe (kind fields : Nat) : (s.journalMark kind fields).saf.safe = s.saf.safe := by
  simp [State.journalMark]

@[simp] theorem State.journalStop_saf_safe : s.journalStop.saf.safe = s.saf.safe := by
  simp [State.journalStop]

@[simp] theorem State.journalEnd_saf_safe : s.journalEnd.saf.safe = s.saf.safe := by
  simp [State.journalEnd]

@[simp] theorem State.trace_saf_safe (src level type a b : Nat) : (s.trace src level type a b).saf.safe = s.saf.safe := by
  simp [State.trace]

@[simp] theorem State.traceFreeze_saf_safe : s.traceFreeze.saf.safe = s.saf.safe := by
  simp [State.traceFreeze]

@[simp] theorem State.trigger_saf_safe (c code : Nat) : (s.trigger c code).saf.safe = s.saf.safe := by
  simp [State.trigger]

/-! ### Intake points and watchdogs -/

@[simp] theorem State.wdgTrip_saf_safe (e : WdgEnt) (late : Bool) (ticks : Nat) (job : Option Nat) :
    (s.wdgTrip e late ticks job).saf.safe = s.saf.safe :=
  rfl

@[simp] theorem State.watchEvent_saf_safe (kind target : Nat) : (s.watchEvent kind target).saf.safe = s.saf.safe := by
  simp [State.watchEvent]

@[simp] theorem State.freeNext_saf_safe (p : Nat) (ks : List Nat) : (s.freeNext p ks).saf.safe = s.saf.safe := by
  simp [State.freeNext]

@[simp] theorem State.dropSnap_saf_safe (p : Nat) : (s.dropSnap p).saf.safe = s.saf.safe := rfl

@[simp] theorem State.dropOther_saf_safe (p : Nat) : (s.dropOther p).saf.safe = s.saf.safe := by
  simp [State.dropOther]

@[simp] theorem State.dropFull_saf_safe (p : Nat) : (s.dropFull p).saf.safe = s.saf.safe := by
  simp [State.dropFull]

@[simp] theorem State.dropRate_saf_safe (p : Nat) : (s.dropRate p).saf.safe = s.saf.safe := rfl
@[simp] theorem State.release_saf_safe (p k seq : Nat) : (s.release p k seq).saf.safe = s.saf.safe := rfl

@[simp] theorem State.offer_saf_safe (p seq w : Nat) (body : List Byte) : (s.offer p seq w body).2.saf.safe = s.saf.safe := by
  unfold State.offer
  dsimp only
  repeat' split
  all_goals simp

@[simp] theorem State.absent_saf_safe (p seq reason : Nat) : (s.absent p seq reason).saf.safe = s.saf.safe := by
  simp [State.absent]

@[simp] theorem State.admitAt_saf_safe (p : Nat) (a : Arrival) : (s.admitAt p a).saf.safe = s.saf.safe := by
  unfold State.admitAt
  split <;> simp

@[simp] theorem State.admitInput_saf_safe (p : Nat) : (s.admitInput p).saf.safe = s.saf.safe := by
  unfold State.admitInput
  dsimp only
  split <;> simp

@[simp] theorem State.holdInput_saf_safe (p : Nat) (b : Bound) : (s.holdInput p b).saf.safe = s.saf.safe := by
  simp [State.holdInput]

@[simp] theorem State.fillSlot_saf_safe (p : Nat) : (s.fillSlot p).saf.safe = s.saf.safe := by
  unfold State.fillSlot
  split <;> simp

@[simp] theorem State.supersede_saf_safe (p : Nat) (keep : Option Nat) : (s.supersede p keep).saf.safe = s.saf.safe := by
  simp [State.supersede]

@[simp] theorem State.skipInput_saf_safe (b : Binding) : (s.skipInput b).saf.safe = s.saf.safe := by
  simp [State.skipInput]

@[simp] theorem State.resolve_saf_safe (b : Binding) (hadRun : Bool) : (s.resolve b hadRun).saf.safe = s.saf.safe := by
  unfold State.resolve
  dsimp only
  split <;> simp

/-! ### The time base -/

@[simp] theorem State.armLate_saf_safe (t : BitVec 64) : (s.armLate t).saf.safe = s.saf.safe := by
  simp [State.armLate]

@[simp] theorem State.stepTime_saf_safe (off : ℤ) : (s.stepTime off).2.saf.safe = s.saf.safe := by
  unfold State.stepTime
  split <;> simp

@[simp] theorem State.pinFire_saf_safe (p : Nat) : (s.pinFire p).saf.safe = s.saf.safe := by
  simp [State.pinFire]

@[simp] theorem State.seeEdge_saf_safe (p : Nat) : (s.seeEdge p).saf.safe = s.saf.safe := rfl

/-! ### CAN FD controllers -/

@[simp] theorem State.canNext_saf_safe (c b : Nat) : (s.canNext c b).saf.safe = s.saf.safe := by
  unfold State.canNext
  split <;> simp

@[simp] theorem State.withdraw_saf_safe (c b : Nat) : (s.withdraw c b).saf.safe = s.saf.safe := rfl

@[simp] theorem State.canFail_saf_safe (c : Nat) : (s.canFail c).saf.safe = s.saf.safe := by
  unfold State.canFail
  dsimp only
  repeat' split
  all_goals simp

@[simp] theorem State.canCount_saf_safe (c tec rc : Nat) : (s.canCount c tec rc).saf.safe = s.saf.safe := by
  simp [State.canCount]

@[simp] theorem State.canSent_saf_safe (c b : Nat) (stamp : BitVec 96) : (s.canSent c b stamp).saf.safe = s.saf.safe := by
  unfold State.canSent
  dsimp only
  split <;> simp

@[simp] theorem State.canFire_saf_safe (c b : Nat) : (s.canFire c b).saf.safe = s.saf.safe := by
  unfold State.canFire
  dsimp only
  split <;> simp

@[simp] theorem State.canHandover_saf_safe (c b : Nat) (img : BitVec 768) (t : BitVec 64) :
    (s.canHandover c b img t).saf.safe = s.saf.safe := by
  simp [State.canHandover]

@[simp] theorem State.canIntake_saf_safe (c seq n : Nat) (img : BitVec 768) : (s.canIntake c seq n img).saf.safe = s.saf.safe := by
  simp [State.canIntake]

/-! ### Tyben flits -/

@[simp] theorem State.flitGone_saf_safe (f : Flit) : (s.flitGone f).saf.safe = s.saf.safe := by
  unfold State.flitGone
  split <;> simp

@[simp] theorem State.pump_saf_safe (p n : Nat) : (s.pump p n).saf.safe = s.saf.safe := by
  induction n generalizing s with
  | zero => rfl
  | succ n ih =>
    unfold State.pump
    split <;> simp [ih]

@[simp] theorem State.sendAll_saf_safe (p : Nat) : (s.sendAll p).saf.safe = s.saf.safe := by
  simp [State.sendAll]

@[simp] theorem State.enqueue_saf_safe (p : Nat) (fs : List Flit) : (s.enqueue p fs).saf.safe = s.saf.safe := by
  simp [State.enqueue]

theorem State.sendMsg_saf_safe {s t : State} {dst type : Nat} {payload : List Byte} {reply : Option Hdr}
    (ht : s.sendMsg dst type payload reply = some t) : t.saf.safe = s.saf.safe := by
  unfold State.sendMsg at ht
  dsimp only at ht
  split at ht
  · cases ht
  · split at ht
    · cases ht; rfl
    · split at ht
      · cases ht
      · cases ht; simp

@[simp] theorem State.sendVia_saf_safe (p dst type : Nat) (payload : List Byte) (probe : Bool) :
    (s.sendVia p dst type payload probe).saf.safe = s.saf.safe := by
  simp [State.sendVia]

@[simp] theorem State.sendOr_saf_safe (dst type : Nat) (payload : List Byte) : (s.sendOr dst type payload).saf.safe = s.saf.safe := by
  unfold State.sendOr
  split
  · exact State.sendMsg_saf_safe ‹_›
  · simp

/-! ### Tallies -/

@[simp] theorem State.signalTally_saf_safe (t : Nat) (v : Word) : (s.signalTally t v).saf.safe = s.saf.safe := rfl

@[simp] theorem State.admitTally_saf_safe (h : Hdr) (t : Nat) (isSet : Bool) (v : Word) :
    (s.admitTally h t isSet v).saf.safe = s.saf.safe := by
  simp [State.admitTally]

@[simp] theorem State.tallyAnswers_saf_safe (ops : List TallyOp) : (s.tallyAnswers ops).saf.safe = s.saf.safe := by
  refine foldl_saf_safe (fun o s => ?_) ops s
  dsimp only
  split <;> split <;> simp

@[simp] theorem State.takeWait_saf_safe (w : WaitEnt) : (s.takeWait w).2.saf.safe = s.saf.safe := by
  unfold State.takeWait
  split <;> simp

theorem State.takeWait_fst_saf_safe {s t : State} {w : WaitEnt} (h : (s.takeWait w).1 = some t) : t.saf.safe = s.saf.safe := by
  unfold State.takeWait at h
  split at h <;> cases h
  rfl

@[simp] theorem State.endWait_saf_safe (i : Nat) (w : WaitEnt) (status : Nat) (v : Word) :
    (s.endWait i w status v).saf.safe = s.saf.safe := by
  unfold State.endWait
  split <;> simp

theorem State.takeMsg_saf_safe {s t : State} {p type : Nat} {m : Msg} (h : s.takeMsg p type = some (m, t)) : t.saf.safe = s.saf.safe := by
  unfold State.takeMsg at h
  split at h
  · cases h
  · obtain ⟨m', -, hm⟩ := Option.map_eq_some_iff.1 h
    cases hm
    rfl

@[simp] theorem State.rxDiscard_saf_safe (p : Nat) : (s.rxDiscard p).saf.safe = s.saf.safe := rfl

/-! ### Tyben ports -/

@[simp] theorem State.pageBack_saf_safe (part g : Nat) : (s.pageBack part g).saf.safe = s.saf.safe := rfl

@[simp] theorem State.unpin_saf_safe (part g : Nat) : (s.unpin part g).saf.safe = s.saf.safe := by
  simp [State.unpin]

@[simp] theorem State.ringFailed_saf_safe (g error : Nat) : (s.ringFailed g error).saf.safe = s.saf.safe := by
  simp [State.ringFailed]

@[simp] theorem State.ringsLost_saf_safe (p : Nat) : (s.ringsLost p).saf.safe = s.saf.safe := by
  simp [State.ringsLost]

@[simp] theorem unpass_saf_safe (p : Nat) (s : State) : (unpass p s).saf.safe = s.saf.safe := rfl

@[simp] theorem State.dropFlits_saf_safe (fs : List Flit) : (s.dropFlits fs).saf.safe = s.saf.safe := by
  refine foldl_saf_safe (fun f s => ?_) fs s
  dsimp only
  split <;> simp

@[simp] theorem State.linkLost_saf_safe (p : Nat) : (s.linkLost p).saf.safe = s.saf.safe := by
  have hreplies (l : List Flit) (s : State) :
      (l.foldl (fun s f => match f.reply with | some h => s.reply h { status := 0x8004 } | none => s) s).saf.safe = s.saf.safe := by
    refine foldl_saf_safe (fun f s => ?_) l s
    dsimp only
    split <;> simp
  unfold State.linkLost
  refine (State.blockEvent_saf_safe _ _ _).trans ((foldl_saf_safe (fun c s => by simp) _ _).trans ((State.ringsLost_saf_safe _ _).trans ?_))
  split
  · split
    · exact (State.replyOpt_saf_safe _ _ _).trans ((hreplies _ _).trans (State.dropFlits_saf_safe _ _))
    · exact (hreplies _ _).trans (State.dropFlits_saf_safe _ _)
  · exact (hreplies _ _).trans (State.dropFlits_saf_safe _ _)

@[simp] theorem State.portDown_saf_safe (p : Nat) (dst : TybState) (error : BitVec 3) : (s.portDown p dst error).saf.safe = s.saf.safe := by
  simp [State.portDown]

@[simp] theorem State.sendProbe_saf_safe (h : Option Hdr) (p : Nat) (repeated : Bool) :
    (s.sendProbe h p repeated).saf.safe = s.saf.safe := by
  simp [State.sendProbe]

@[simp] theorem State.configDone_saf_safe (p : Nat) : (s.configDone p).saf.safe = s.saf.safe := by
  simp [State.configDone]

@[simp] theorem State.configRx_saf_safe (p : Nat) (f : List Byte) : (s.configRx p f).saf.safe = s.saf.safe := by
  simp [State.configRx]

@[simp] theorem State.spoil_saf_safe (fs : List Flit) : (s.spoil fs).saf.safe = s.saf.safe := by
  simp [State.spoil]

@[simp] theorem State.retrained_saf_safe (p : Nat) : (s.retrained p).saf.safe = s.saf.safe := by
  simp [State.retrained]

@[simp] theorem State.flitBack_saf_safe (p x : Nat) : (s.flitBack p x).saf.safe = s.saf.safe := by
  unfold State.flitBack
  refine (State.sendAll_saf_safe _ _).trans ?_
  rw [ite_saf_safe, State.spoil_saf_safe, State.updPort_saf, ite_self]
  refine foldl_saf_safe (fun f s => ?_) _ _
  dsimp only
  split <;> simp

@[simp] theorem State.flitRx_saf_safe (p : Nat) (f : List Byte) (at_ : Nat) : (s.flitRx p f at_).saf.safe = s.saf.safe := by
  simp [State.flitRx]

@[simp] theorem State.freeFlits_saf_safe (p vc n : Nat) : (s.freeFlits p vc n).saf.safe = s.saf.safe := by
  simp [State.freeFlits]

@[simp] theorem State.msgRx_saf_safe (p : Nat) : (s.msgRx p).saf.safe = s.saf.safe := by
  unfold State.msgRx
  dsimp only
  repeat' split
  all_goals simp

/-! ### Ethernet MACs -/

@[simp] theorem State.dropQueued_saf_safe (m : Nat) : (s.dropQueued m).saf.safe = s.saf.safe := by
  simp [State.dropQueued]

@[simp] theorem State.launchLate_saf_safe (m e : Nat) : (s.launchLate m e).saf.safe = s.saf.safe := rfl

@[simp] theorem State.postLate_saf_safe (m c i : Nat) : (s.postLate m c i).saf.safe = s.saf.safe := by
  unfold State.postLate
  split <;> simp

@[simp] theorem State.launchFire_saf_safe (m e : Nat) : (s.launchFire m e).saf.safe = s.saf.safe := by
  unfold State.launchFire
  split <;> simp

@[simp] theorem State.postFire_saf_safe (m c i : Nat) : (s.postFire m c i).saf.safe = s.saf.safe := by
  unfold State.postFire
  split <;> simp

@[simp] theorem State.ethHandover_saf_safe (m e : Nat) (frame : List Byte) (t : BitVec 64) :
    (s.ethHandover m e frame t).saf.safe = s.saf.safe := by
  simp [State.ethHandover]

@[simp] theorem State.takeFrame_saf_safe (m c : Nat) (f : TxFrom) : (s.takeFrame m c f).saf.safe = s.saf.safe := by
  unfold State.takeFrame
  split <;> simp

@[simp] theorem State.gateDiscards_saf_safe (m c n : Nat) : (s.gateDiscards m c n).saf.safe = s.saf.safe := by
  induction n generalizing s with
  | zero => rfl
  | succ n ih =>
    unfold State.gateDiscards
    dsimp only
    split
    · rfl
    · rw [ih]
      split <;> simp

@[simp] theorem State.tunnelRx_saf_safe (p : Nat) (f : List Byte) (at_ : Nat) : (s.tunnelRx p f at_).saf.safe = s.saf.safe := by
  unfold State.tunnelRx
  dsimp only
  split
  · rfl
  · refine (foldl_saf_safe (fun i s => ?_) _ _).trans ?_
    · dsimp only
      split <;> simp
    · split <;> simp

@[simp] theorem State.rxRing_saf_safe (m k : Nat) (f : List Byte) (stamp : BitVec 96) : (s.rxRing m k f stamp).saf.safe = s.saf.safe := by
  simp [State.rxRing]

@[simp] theorem State.rxIntake_saf_safe (m k : Nat) (f : List Byte) (stamp : BitVec 96) :
    (s.rxIntake m k f stamp).saf.safe = s.saf.safe := by
  simp [State.rxIntake]

/-! ### The control loop engine -/

@[simp] theorem State.forcePairs_saf_safe : s.forcePairs.saf.safe = s.saf.safe := by
  simp [State.forcePairs]

@[simp] theorem State.stopLoop_saf_safe (n : Nat) : (s.stopLoop n).saf.safe = s.saf.safe := by
  simp [State.stopLoop]

@[simp] theorem State.inputStop_saf_safe (kind index : Nat) : (s.inputStop kind index).saf.safe = s.saf.safe := by
  simp [State.inputStop]

@[simp] theorem State.stopIfLost_saf_safe (n : Nat) : (s.stopIfLost n).saf.safe = s.saf.safe := by
  simp [State.stopIfLost]

@[simp] theorem State.captureDrain_saf_safe (c : Nat) : (s.captureDrain c).saf.safe = s.saf.safe := by
  simp [State.captureDrain]

@[simp] theorem State.captureDone_saf_safe (c : Nat) : (s.captureDone c).saf.safe = s.saf.safe := by
  simp [State.captureDone]

@[simp] theorem State.captureEnd_saf_safe (c : Nat) : (s.captureEnd c).saf.safe = s.saf.safe := by
  simp [State.captureEnd]

@[simp] theorem State.endTests_saf_safe (n : Nat) : (s.endTests n).saf.safe = s.saf.safe := by
  simp [State.endTests]

@[simp] theorem State.mailbox_saf_safe (n : Nat) (sp accel sched : Word) : (s.mailbox n sp accel sched).saf.safe = s.saf.safe := rfl

@[simp] theorem State.mailboxPort_saf_safe (rod n : Nat) (data : List Byte) : (s.mailboxPort rod n data).saf.safe = s.saf.safe := by
  unfold State.mailboxPort
  split <;> simp

@[simp] theorem State.encoderUpdate_saf_safe (i : Nat) (a b z : Bool) : (s.encoderUpdate i a b z).saf.safe = s.saf.safe := by
  simp [State.encoderUpdate]

@[simp] theorem State.sdClock_saf_safe (c : Nat) : (s.sdClock c).saf.safe = s.saf.safe := by
  simp [State.sdClock]

@[simp] theorem State.cleBegin_saf_safe (h : Option Hdr) : (s.cleBegin h).saf.safe = s.saf.safe := by
  simp [State.cleBegin]

@[simp] theorem State.cleHalt_saf_safe : s.cleHalt.saf.safe = s.saf.safe := by
  simp [State.cleHalt]

@[simp] theorem State.stepGens_saf_safe (n : Nat) : (s.stepGens n).2.2.saf.safe = s.saf.safe := by
  simp [State.stepGens]

@[simp] theorem State.captureStep_saf_safe (c : Nat) (started : List Nat) (rec_ : List Byte) :
    (s.captureStep c started rec_).saf.safe = s.saf.safe := by
  simp [State.captureStep]

@[simp] theorem State.loopOutput_saf_safe (l : CleLoop) (out : ℤ) (slotTime : Nat) :
    (s.loopOutput l out slotTime).1.saf.safe = s.saf.safe := by
  unfold State.loopOutput
  dsimp only
  split <;> simp

@[simp] theorem State.evaluate_saf_safe (n : Nat) : (s.evaluate n).saf.safe = s.saf.safe := by
  simp [State.evaluate]

/-! ### The host link -/

@[simp] theorem State.abortWaits_saf_safe (f : Fin 16) (ring : Nat) : (s.abortWaits f ring).saf.safe = s.saf.safe := by
  refine foldl_saf_safe (fun w s => ?_) _ _
  dsimp only
  split <;> simp

@[simp] theorem State.cancelStart_saf_safe : s.cancelStart.saf.safe = s.saf.safe := by
  unfold State.cancelStart
  split <;> simp

@[simp] theorem State.stopTaking_saf_safe (f : Fin 16) (ring : Nat) : (s.stopTaking f ring).saf.safe = s.saf.safe := by
  unfold State.stopTaking
  dsimp only
  split <;> simp

@[simp] theorem State.moveIndex_saf_safe (k : Nat) (x : Word) : (s.moveIndex k x).saf.safe = s.saf.safe := rfl

@[simp] theorem State.arm_saf_safe (k : Nat) : (s.arm k).saf.safe = s.saf.safe := by
  simp [State.arm]

@[simp] theorem State.ringFail_saf_safe (f : Fin 16) (k : Nat) (x : Word) : (s.ringFail f k x).saf.safe = s.saf.safe := by
  simp [State.ringFail]

@[simp] theorem State.openSession_saf_safe (h : Hdr) (rb : BitVec 64) : (s.openSession h rb).saf.safe = s.saf.safe := rfl

theorem dmaRun_saf_safe (d : HostDma) (l : List (Nat × Nat)) (s : State) : (dmaRun d l s).1.saf.safe = s.saf.safe := by
  induction l generalizing s with
  | nil => rfl
  | cons x l ih =>
    unfold dmaRun
    split <;> repeat' split
    all_goals simp [ih]

theorem State.trained_saf_safe {s t : State} {l : UcieLink} (h : s.trained l = some t) : t.saf.safe = s.saf.safe := by
  unfold State.trained at h
  split at h <;> cases h
  rfl

/-! ### Carry records -/

@[simp] theorem State.carryExec_saf_safe (p op x : Nat) : (s.carryExec p op x).2.saf.safe = s.saf.safe := by
  unfold State.carryExec
  dsimp only
  repeat' split
  all_goals simp

@[simp] theorem State.swapDone_saf_safe (n : Nat) : (s.swapDone n).saf.safe = s.saf.safe := by
  unfold State.swapDone
  dsimp only
  split <;> simp

@[simp] theorem State.commitCarries_saf_safe (j : Nat) : (s.commitCarries j).saf.safe = s.saf.safe := rfl
@[simp] theorem State.dropCarries_saf_safe (j : Nat) : (s.dropCarries j).saf.safe = s.saf.safe := rfl

/-! ### The page keeper -/

@[simp] theorem State.setEntry_saf_safe (k : KvPool) (n b : Nat) (g : Option Nat) : (s.setEntry k n b g).saf.safe = s.saf.safe := rfl

theorem State.takePage_saf_safe {s t : State} {k : KvPool} {g : Nat} (ht : s.takePage k = some (g, t)) : t.saf.safe = s.saf.safe := by
  unfold State.takePage at ht
  dsimp only at ht
  split at ht
  · cases ht; rfl
  · split at ht <;> cases ht
    rfl

@[simp] theorem State.decRef_saf_safe (part g : Nat) : (s.decRef part g).saf.safe = s.saf.safe := by
  simp [State.decRef]

@[simp] theorem State.nextSlot_saf_safe (part : Nat) : (s.nextSlot part).saf.safe = s.saf.safe := rfl
@[simp] theorem State.pin_saf_safe (g : Nat) : (s.pin g).saf.safe = s.saf.safe := rfl

@[simp] theorem State.openSeq_saf_safe (part n policy maxLen tokBase len : Nat) :
    (s.openSeq part n policy maxLen tokBase len).saf.safe = s.saf.safe :=
  rfl

@[simp] theorem State.kvOpen_saf_safe (p x : Nat) : (s.kvOpen p x).2.saf.safe = s.saf.safe := by
  unfold State.kvOpen
  dsimp only
  repeat' split
  all_goals simp

@[simp] theorem State.kvFork_saf_safe (p x : Nat) : (s.kvFork p x).2.saf.safe = s.saf.safe := by
  unfold State.kvFork
  dsimp only
  split
  · rfl
  · split
    · rfl
    · refine (foldl_saf_safe (fun e s => ?_) _ _).trans (by simp)
      dsimp only
      split <;> simp

@[simp] theorem State.kvClose_saf_safe (p x : Nat) : (s.kvClose p x).2.saf.safe = s.saf.safe := by
  unfold State.kvClose
  dsimp only
  split
  · rfl
  · split
    · rfl
    · refine (foldl_snd_saf_safe (fun i a => ?_) _ (0, s))
      dsimp only
      split <;> simp

@[simp] theorem State.writeToken_saf_safe (k : KvPool) (g row src : Nat) (job : Option Nat) :
    (s.writeToken k g row src job).saf.safe = s.saf.safe := by
  simp [State.writeToken]

@[simp] theorem State.copyRows_saf_safe (k : KvPool) (src dst rows : Nat) (job : Option Nat) :
    (s.copyRows k src dst rows job).saf.safe = s.saf.safe := by
  simp [State.copyRows]

@[simp] theorem State.pageFor_saf_safe (k : KvPool) (n b : Nat) (job : Option Nat) : (s.pageFor k n b job).2.2.2.saf.safe = s.saf.safe := by
  unfold State.pageFor
  dsimp only
  repeat' split
  all_goals simp

theorem State.pageFor_got_saf_safe {s t : State} {k : KvPool} {n b g : Nat} {job : Option Nat}
    (h : (s.pageFor k n b job).2.2.1 = some (g, t)) : t.saf.safe = s.saf.safe := by
  unfold State.pageFor at h
  dsimp only at h
  split at h
  · split at h
    · cases h
    · split at h
      · cases h; rfl
      · split at h
        · cases h
        next ht => cases h; simp [State.takePage_saf_safe ht]
  · split at h
    · cases h
    next ht =>
      cases h
      rw [State.setEntry_saf_safe, State.takePage_saf_safe ht]
      split <;> simp

@[simp] theorem State.appendRun_saf_safe (k : KvPool) (n at_ src stride : Nat) (job : Option Nat) (todo : Nat) (r : KvRun) :
    (s.appendRun k n at_ src stride job todo r).2.saf.safe = s.saf.safe := by
  induction todo generalizing s r with
  | zero => rfl
  | succ todo ih =>
    unfold State.appendRun
    dsimp only
    split
    · exact ih ..
    · split
      next hgot => simp
      next hgot => simp [ih, State.pageFor_got_saf_safe hgot]

@[simp] theorem State.kvAppend_saf_safe (p : Nat) (r : KvRun) : (s.kvAppend p r).2.saf.safe = s.saf.safe := by
  unfold State.kvAppend
  dsimp only
  split
  · rfl
  · split
    · rfl
    · split
      · simp
      · split
        · simp
        · generalize hrun : State.appendRun _ _ _ _ _ _ _ _ _ = run
          have hsafe : run.2.saf.safe = s.saf.safe := by rw [← hrun, State.appendRun_saf_safe]
          cases run.1.dropped <;> simp [hsafe]

@[simp] theorem State.kvRingOpen_saf_safe (p x : Nat) : (s.kvRingOpen p x).2.saf.safe = s.saf.safe := by
  unfold State.kvRingOpen
  dsimp only
  repeat' split
  all_goals simp

@[simp] theorem State.kvRingStep_saf_safe (p x : Nat) (job : Option Nat) : (s.kvRingStep p x job).2.saf.safe = s.saf.safe := by
  unfold State.kvRingStep
  dsimp only
  repeat' split
  all_goals simp

@[simp] theorem State.kvPartialSend_saf_safe (p x : Nat) (job : Option Nat) : (s.kvPartialSend p x job).2.saf.safe = s.saf.safe := by
  unfold State.kvPartialSend
  dsimp only
  repeat' split
  all_goals simp

@[simp] theorem State.kvRingClose_saf_safe (p x : Nat) : (s.kvRingClose p x).2.saf.safe = s.saf.safe := by
  unfold State.kvRingClose
  dsimp only
  split <;> simp

@[simp] theorem State.kvExec_saf_safe (p : Nat) (r : KvRun) : (s.kvExec p r).2.saf.safe = s.saf.safe := by
  unfold State.kvExec
  dsimp only
  split
  · rfl
  · split
    case h_11 =>
      split
      all_goals next h => simp [snd_saf_safe_of_eq h]
    all_goals simp

@[simp] theorem State.kvStart_saf_safe (p fuel : Nat) : (s.kvStart p fuel).saf.safe = s.saf.safe := by
  induction fuel generalizing s with
  | zero => rfl
  | succ fuel ih =>
    unfold State.kvStart
    split
    · rfl
    · split
      next c _ _ _ =>
        cases c.from_ with
        | host => simp
        | job => simp [ih]
      · rfl

@[simp] theorem State.kvPost_saf_safe (p : Nat) (c : KvCmd) : (s.kvPost p c).saf.safe = s.saf.safe := by
  simp [State.kvPost]

@[simp] theorem State.jobPort_saf_safe (rod port : Nat) (data : List Byte) : (s.jobPort rod port data).saf.safe = s.saf.safe := by
  unfold State.jobPort
  split <;> simp

@[simp] theorem State.kvReply_saf_safe (c : KvCmd) (r : Rep) : (s.kvReply c r).saf.safe = s.saf.safe := by
  unfold State.kvReply
  split <;> simp

@[simp] theorem State.kvDone_saf_safe (p : Nat) : (s.kvDone p).saf.safe = s.saf.safe := by
  unfold State.kvDone
  split <;> simp

theorem State.guestPages_saf_safe {s t : State} {k : KvPool} {n blocks b : Nat} (h : s.guestPages k n blocks b = some t) :
    t.saf.safe = s.saf.safe := by
  induction b generalizing t with
  | zero => cases h; rfl
  | succ b ih =>
    unfold State.guestPages at h
    split at h
    · cases h
    next hu =>
      rw [← ih hu]
      split at h
      · split at h <;> cases h <;> simp
      · split at h
        · split at h
          next hp => cases h; simp [State.takePage_saf_safe hp]
          · cases h
        · cases h; rfl

theorem State.shardIn_saf_safe {s t : State} {g : Nat} {payload : List Byte} (h : s.shardIn g payload = some t) :
    t.saf.safe = s.saf.safe := by
  unfold State.shardIn at h
  dsimp only at h
  split at h
  · cases h; simp
  · split at h
    · cases h; simp
    · split at h
      · cases h; simp
      · obtain ⟨-, hpages⟩ := Option.ite_none_left_eq_some.1 h
        obtain ⟨u, hu, rfl⟩ := Option.map_eq_some_iff.1 hpages
        rw [← State.guestPages_saf_safe hu, State.signalTally_saf_safe, State.updRing_saf, State.updSeq_saf]
        refine foldl_saf_safe (fun i s => ?_) _ u
        dsimp only
        split <;> simp

@[simp] theorem State.partialIn_saf_safe (g : Nat) (payload : List Byte) : (s.partialIn g payload).saf.safe = s.saf.safe := by
  simp [State.partialIn]

@[simp] theorem State.dropMsg_saf_safe (p i : Nat) (m : Msg) : (s.dropMsg p i m).saf.safe = s.saf.safe := rfl

@[simp] theorem State.journalRing_saf_safe (p kind : Nat) (m : Msg) : (s.journalRing p kind m).saf.safe = s.saf.safe := by
  simp [State.journalRing]

@[simp] theorem State.arrivalWaits_saf_safe (g : Nat) (payload : List Byte) : (s.arrivalWaits g payload).saf.safe = s.saf.safe := by
  simp [State.arrivalWaits]

@[simp] theorem State.admitRing_saf_safe (g kind : Nat) (payload : List Byte) : (s.admitRing g kind payload).saf.safe = s.saf.safe := rfl

/-! ### Runs of jobs -/

@[simp] theorem State.count_saf_safe (n k v : Nat) : (s.count n k v).saf.safe = s.saf.safe := by
  simp [State.count]

@[simp] theorem State.traceJob_saf_safe (n j kind : Nat) : (s.traceJob n j kind).saf.safe = s.saf.safe := by
  simp [State.traceJob]

@[simp] theorem State.endSegment_saf_safe (n j kind : Nat) : (s.endSegment n j kind).saf.safe = s.saf.safe := by
  simp [State.endSegment]

@[simp] theorem State.complete_saf_safe (j status : Nat) : (s.complete j status).saf.safe = s.saf.safe := by
  simp [State.complete]

@[simp] theorem State.stopRod_saf_safe (n : Nat) : (s.stopRod n).saf.safe = s.saf.safe := by
  simp [State.stopRod]

@[simp] theorem State.freeRods_saf_safe (j : Nat) : (s.freeRods j).saf.safe = s.saf.safe := rfl

@[simp] theorem State.dropKeeper_saf_safe (j : Nat) : (s.dropKeeper j).saf.safe = s.saf.safe := by
  simp [State.dropKeeper]

@[simp] theorem State.tearEffects_saf_safe (j : Nat) : (s.tearEffects j).saf.safe = s.saf.safe := by
  unfold State.tearEffects
  split <;> simp

@[simp] theorem State.abandonJob_saf_safe (j status : Nat) (last : JobState) : (s.abandonJob j status last).saf.safe = s.saf.safe := by
  simp [State.abandonJob]

@[simp] theorem State.haltPartition_saf_safe (p : Nat) : (s.haltPartition p).saf.safe = s.saf.safe := by
  simp [State.haltPartition]

@[simp] theorem State.stopNow_saf_safe : s.stopNow.saf.safe = s.saf.safe := by
  simp [State.stopNow]

@[simp] theorem State.stopPlanNow_saf_safe : s.stopPlanNow.saf.safe = s.saf.safe := by
  unfold State.stopPlanNow
  split <;> simp

/-! ### Faults and their reactions -/

@[simp] theorem State.recordFault_saf_safe (r : Raise) : (s.recordFault r).saf.safe = s.saf.safe := by
  unfold State.recordFault
  repeat' split
  all_goals simp

@[simp] theorem State.faultTrigger_saf_safe (rs : List Raise) : (s.faultTrigger rs).saf.safe = s.saf.safe := by
  unfold State.faultTrigger
  split
  · split
    · simp
    · split <;> simp
  · rfl

@[simp] theorem State.reacted_saf_safe (r : Nat) : (s.reacted r).saf.safe = s.saf.safe := rfl

/-- In the safe state no reaction runs any more (R435), and reactions are what could write the safe state. -/
@[simp] theorem State.reactAll_of_safe {s : State} (hs : s.saf.safe = true) (rs : List (Raise × Nat)) : s.reactAll rs = s := if_pos hs

theorem State.settleN_saf_safe {s : State} (hs : s.saf.safe = true) (n : Nat) : (s.settleN n).saf.safe = true := by
  induction n generalizing s with
  | zero => exact hs
  | succ n ih =>
    unfold State.settleN
    split
    · exact hs
    · dsimp only
      refine ih ?_
      rw [State.reactAll_of_safe]
      all_goals simpa using hs

/-! ### Journal and replay -/

@[simp] theorem State.lateInput_saf_safe (p : Nat) : (s.lateInput p).saf.safe = s.saf.safe := by
  unfold State.lateInput
  split <;> simp

@[simp] theorem State.journalStart_saf_safe (pl : Plan) : (s.journalStart pl).saf.safe = s.saf.safe := by
  simp [State.journalStart]

@[simp] theorem State.replayTake_saf_safe : s.replayTake.saf.safe = s.saf.safe := by
  simp [State.replayTake]

@[simp] theorem State.replayStop_saf_safe (status : Nat) : (s.replayStop status).saf.safe = s.saf.safe := by
  simp [State.replayStop]

@[simp] theorem State.discardDue_saf_safe : s.discardDue.saf.safe = s.saf.safe := by
  unfold State.discardDue
  refine (foldl_saf_safe (fun c s => by simp) _ _).trans (foldl_saf_safe (fun m s => ?_) _ _)
  refine (foldl_saf_safe (fun c s => ?_) _ _).trans ?_
  · exact foldl_saf_safe (by simp) _ s
  · simp

@[simp] theorem State.replayOutputs_saf_safe : s.replayOutputs.saf.safe = s.saf.safe := by
  simp [State.replayOutputs]

@[simp] theorem State.placeAhead_saf_safe (p k : Nat) (data : List Byte) : (s.placeAhead p k data).saf.safe = s.saf.safe := rfl

@[simp] theorem State.replayApply_saf_safe (a : Ahead) : (s.replayApply a).saf.safe = s.saf.safe := by
  unfold State.replayApply
  dsimp only
  repeat' split
  all_goals simp

@[simp] theorem State.readAhead_saf_safe : s.readAhead.2.saf.safe = s.saf.safe := by
  unfold State.readAhead
  dsimp only
  repeat' split
  all_goals simp

/-! ### Rods and split-lock pairs -/

@[simp] theorem State.rodFault_saf_safe (n code : Nat) (k : Option Nat) (detail : Word) :
    (s.rodFault n code k detail).saf.safe = s.saf.safe := by
  unfold State.rodFault
  dsimp only
  repeat' split
  all_goals simp

@[simp] theorem State.bankClash_saf_safe (n : Nat) : (s.bankClash n).saf.safe = s.saf.safe := by
  simp [State.bankClash]

@[simp] theorem State.mismatched_saf_safe (n a : Nat) (disagree : Bool) : (s.mismatched n a disagree).saf.safe = s.saf.safe := by
  simp [State.mismatched]

theorem State.lockstep_saf_safe (n : Nat) {f : State → State} (hf : ∀ s, (f s).saf.safe = s.saf.safe) :
    (s.lockstep n f).saf.safe = s.saf.safe := by
  unfold State.lockstep
  split
  · exact hf s
  · dsimp only
    split <;> simp [hf]

@[simp] theorem State.zeroSpad_saf_safe (n : Nat) : (s.zeroSpad n).saf.safe = s.saf.safe := rfl
@[simp] theorem State.copySpad_saf_safe (k : Nat) : (s.copySpad k).saf.safe = s.saf.safe := rfl

@[simp] theorem State.beginHandover_saf_safe (k st : Nat) : (s.beginHandover k st).saf.safe = s.saf.safe := by
  simp [State.beginHandover]

@[simp] theorem State.pairNext_saf_safe (k : Nat) : (s.pairNext k).saf.safe = s.saf.safe := by
  simp [State.pairNext]

/-! ### The rod sequencer -/

@[simp] theorem State.traceInstr_saf_safe (n : Nat) : (s.traceInstr n).saf.safe = s.saf.safe := by
  simp [State.traceInstr]

@[simp] theorem State.spadRead_saf_safe (n off len : Nat) : (s.spadRead n off len).2.saf.safe = s.saf.safe := by
  simp only [State.spadRead]
  split
  · simp
  · split <;> simp

/-- `State.spadRead` behind a variable: a scratchpad has 2^22 bytes, and the kernel, where it compares two readings, would multiply by that
number step by step for a rod that is not known. -/
theorem exists_spadRead :
    ∃ read : State → Nat → Nat → Nat → Option (List Byte) × State,
      read = State.spadRead ∧ ∀ s n off len, (read s n off len).2.saf.safe = s.saf.safe :=
  ⟨_, rfl, State.spadRead_saf_safe⟩

@[simp] theorem State.readLines_saf_safe (n : Nat) (ls : List Nat) : (s.readLines n ls).2.saf.safe = s.saf.safe := by
  obtain ⟨read, hread, hsafe⟩ := exists_spadRead
  delta State.readLines State.readLines._f
  rw [← hread]
  induction ls generalizing s with
  | nil => rfl
  | cons l ls ih =>
    dsimp only [List.brecOn, List.brecOn.go] at ih ⊢
    split
    next h => exact (snd_saf_safe_of_eq h).trans (hsafe ..)
    next h =>
      split
      all_goals next h' => exact (snd_saf_safe_of_eq h').trans ((ih _).trans (by simp [snd_saf_safe_of_eq h, hsafe]))

@[simp] theorem State.holdCode_saf_safe (n : Nat) : (s.holdCode n).2.saf.safe = s.saf.safe := by
  simp only [State.holdCode]
  split
  · rfl
  · split
    all_goals next h => simp [snd_saf_safe_of_eq h]

@[simp] theorem State.retire_saf_safe (n : Nat) (f : Rod → Rod) : (s.retire n f).saf.safe = s.saf.safe := by
  simp [State.retire]

@[simp] theorem State.hold_saf_safe (n : Nat) (counts : Bool) : (s.hold n counts).saf.safe = s.saf.safe := rfl

@[simp] theorem State.startLoop_saf_safe (n li body : Nat) (count : Word) : (s.startLoop n li body count).saf.safe = s.saf.safe := by
  simp [State.startLoop]

@[simp] theorem State.waitStep_saf_safe (n w : Nat) : (s.waitStep n w).saf.safe = s.saf.safe := by
  unfold State.waitStep
  split <;> simp

@[simp] theorem State.alignTo_saf_safe (upto : Nat) : (s.alignTo upto).saf.safe = s.saf.safe := by
  simp [State.alignTo]

@[simp] theorem State.timeRead_saf_safe (n d : Nat) : (s.timeRead n d).saf.safe = s.saf.safe := by
  unfold State.timeRead
  dsimp only
  split
  · split <;> simp
  · simp

@[simp] theorem State.scanClaim_saf_safe (n stream : Nat) : (s.scanClaim n stream).2.saf.safe = s.saf.safe := by
  unfold State.scanClaim
  dsimp only
  repeat' split
  all_goals simp

@[simp] theorem State.issueStep_saf_safe (n w : Nat) : (s.issueStep n w).saf.safe = s.saf.safe := by
  simp only [State.issueStep]
  split
  · exact State.rodFault_saf_safe ..
  · split
    next h => rw [snd_saf_safe_of_eq h, State.spadRead_saf_safe]
    next h =>
      refine Eq.trans ?_ ((snd_saf_safe_of_eq h).trans (State.spadRead_saf_safe ..))
      split
      · exact State.rodFault_saf_safe ..
      · split
        · exact State.hold_saf_safe ..
        · split <;> simp

@[simp] theorem State.jobEnd_saf_safe (j : Nat) : (s.jobEnd j).saf.safe = s.saf.safe := by
  simp [State.jobEnd]

/-! ### A rod's units -/

@[simp] theorem State.touch_saf_safe (n : Nat) (ts : List (Nat × Nat)) : (s.touch n ts).2.saf.safe = s.saf.safe := by
  unfold State.touch
  repeat' split
  all_goals simp

@[simp] theorem State.putEl_saf_safe (w : ElW) : (s.putEl w).saf.safe = s.saf.safe := by
  simp [State.putEl]

@[simp] theorem State.foldLine_saf_safe (j line : Nat) (words : List Nat) : (s.foldLine j line words).saf.safe = s.saf.safe := by
  unfold State.foldLine
  split <;> simp

@[simp] theorem State.putRun_saf_safe (n : Nat) (ws : List ElW) : (s.putRun n ws).saf.safe = s.saf.safe := by
  unfold State.putRun
  dsimp only
  repeat' split
  all_goals simp

@[simp] theorem State.putAll_saf_safe (n : Nat) (ws : List ElW) : (s.putAll n ws).saf.safe = s.saf.safe := by
  simp [State.putAll]

@[simp] theorem State.putBytes_saf_safe (n a : Nat) (bs : List Byte) : (s.putBytes n a bs).saf.safe = s.saf.safe := by
  simp [State.putBytes]

@[simp] theorem State.drawVal_saf_safe : s.drawVal.2.saf.safe = s.saf.safe := rfl

@[simp] theorem State.drain_saf_safe (a : Acc) (policy : Bool) : (s.drain a policy).2.saf.safe = s.saf.safe := by
  unfold State.drain
  split <;> simp

@[simp] theorem State.writeStat_saf_safe (n unit k : Nat) (d : Desc) (t : Stat) : (s.writeStat n unit k d t).saf.safe = s.saf.safe := by
  simp [State.writeStat]

@[simp] theorem State.emit_saf_safe (n unit : Nat) (d : Desc) (o : Opnd) (zp : ℤ) (stats : Bool) (xs : List Val) (before : List Bool) :
    (s.emit n unit d o zp stats xs before).saf.safe = s.saf.safe := by
  simp [State.emit]

@[simp] theorem State.chain_saf_safe (n lane w : Nat) (g0 : Nat × Bool) (g1 : Option (Nat × Bool)) :
    (s.chain n lane w g0 g1).2.saf.safe = s.saf.safe := by
  unfold State.chain
  dsimp only
  split <;> simp

@[simp] theorem State.fetchAll_saf_safe (n : Nat) (os : List (Opnd × Nat)) : (s.fetchAll n os).2.saf.safe = s.saf.safe := by
  unfold State.fetchAll
  split
  all_goals next h => simp [snd_saf_safe_of_eq h]

@[simp] theorem State.fetchSome_saf_safe (n : Nat) (o : Opnd) (is : List Nat) : (s.fetchSome n o is).2.saf.safe = s.saf.safe := by
  unfold State.fetchSome
  split
  all_goals next h => simp [snd_saf_safe_of_eq h]

@[simp] theorem State.atEnd_saf_safe (n unit code : Nat) : (s.atEnd n unit code).saf.safe = s.saf.safe := rfl

/-! ### Matrix units -/

@[simp] theorem MacRun.element_saf_safe (x : MacRun) (n : Nat) (d : Desc) (path : Nat) (sh : Shape) (oa ob : Opnd) (t : Nat) :
    (x.element n d path sh oa ob t).s.saf.safe = x.s.saf.safe := by
  unfold MacRun.element
  dsimp only
  split <;> simp

@[simp] theorem MacRun.foldl_saf_safe {α : Type} {f : MacRun → α → MacRun} (hf : ∀ x, Keeps (fun r : MacRun => r.s.saf.safe) (f · x))
    (l : List α) (r : MacRun) : (l.foldl f r).s.saf.safe = r.s.saf.safe :=
  foldl_keeps (fun r : MacRun => r.s.saf.safe) hf l r

@[simp] theorem State.clearAcc_saf_safe (n : Nat) (sh : Shape) : (s.clearAcc n sh).saf.safe = s.saf.safe := rfl

@[simp] theorem State.fusedElem_saf_safe (n : Nat) (d : Desc) (w : Nat) (aux : Option Opnd) (t : Nat) (x : Val) :
    (s.fusedElem n d w aux t x).2.saf.safe = s.saf.safe := by
  simp [State.fusedElem]

@[simp] theorem State.matmul_saf_safe (n : Nat) (d : Desc) (e : DescEnv) : (s.matmul n d e).saf.safe = s.saf.safe := by
  unfold State.matmul
  extract_lets
  split
  · split
    next h => rw [snd_saf_safe_of_eq h, State.fetchAll_saf_safe]
    next h =>
      refine Eq.trans ?_ ((snd_saf_safe_of_eq h).trans (State.fetchAll_saf_safe ..))
      simp
  · rfl

@[simp] theorem State.elemwise_saf_safe (n : Nat) (d : Desc) (e : DescEnv) : (s.elemwise n d e).saf.safe = s.saf.safe := by
  unfold State.elemwise
  dsimp only
  split
  all_goals next h => simp [snd_saf_safe_of_eq h]

@[simp] theorem State.convert_saf_safe (n : Nat) (d : Desc) (e : DescEnv) : (s.convert n d e).saf.safe = s.saf.safe := by
  unfold State.convert
  dsimp only
  split
  all_goals next h => simp [snd_saf_safe_of_eq h]

@[simp] theorem State.poolValue_saf_safe (n : Nat) (d : Desc) (oa : Opnd) (ix : List Nat) :
    (s.poolValue n d oa ix).2.1.saf.safe = s.saf.safe := by
  unfold State.poolValue
  repeat' split
  all_goals simp

@[simp] theorem State.poolUnit_saf_safe (n : Nat) (d : Desc) (e : DescEnv) : (s.poolUnit n d e).saf.safe = s.saf.safe := by
  unfold State.poolUnit
  dsimp only
  split
  all_goals next h => simp [snd_saf_safe_of_eq h]

/-! ### Attention units -/

@[simp] theorem State.stage_saf_safe (c : AttnCtx) (bs : List Nat) : (s.stage c bs).saf.safe = s.saf.safe := by
  simp [State.stage]

@[simp] theorem State.attnScore_saf_safe (n : Nat) (d : Desc) (e : DescEnv) : (s.attnScore n d e).saf.safe = s.saf.safe := by
  unfold State.attnScore
  extract_lets
  split
  · extract_lets
    split
    · exact State.rodFault_saf_safe ..
    · split
      · exact State.rodFault_saf_safe ..
      · split
        next h => rw [snd_saf_safe_of_eq h, State.touch_saf_safe]
        next h =>
          refine Eq.trans ?_ ((snd_saf_safe_of_eq h).trans (State.touch_saf_safe ..))
          extract_lets
          split
          next h' => rw [snd_saf_safe_of_eq h', State.fetchAll_saf_safe, State.count_saf_safe]
          next h' =>
            refine Eq.trans ?_ ((snd_saf_safe_of_eq h').trans ((State.fetchAll_saf_safe ..).trans (State.count_saf_safe ..)))
            dsimp only
            rw [ite_saf_safe, State.rodFault_saf_safe, ite_saf_safe, State.rodFault_saf_safe, ite_saf_safe, State.atEnd_saf_safe, ite_self,
              ite_saf_safe, State.atEnd_saf_safe, ite_self, foldl_saf_safe (by simp), State.count_saf_safe, foldl_saf_safe (by simp),
              State.stage_saf_safe, State.updRod_saf, foldl_saf_safe (by simp), ite_self, ite_self]
  · rfl

@[simp] theorem State.divide_saf_safe (o l : Val) : (s.divide o l).2.saf.safe = s.saf.safe := by
  unfold State.divide
  repeat' split
  all_goals simp

@[simp] theorem State.mergeRow_saf_safe (dim : Nat) (fin : Bool) (ps : List AttnPart) :
    (s.mergeRow dim fin ps).2.2.saf.safe = s.saf.safe := by
  unfold State.mergeRow
  dsimp only
  repeat' split
  all_goals simp

@[simp] theorem State.attnMerge_saf_safe (n : Nat) (d : Desc) (e : DescEnv) : (s.attnMerge n d e).saf.safe = s.saf.safe := by
  unfold State.attnMerge
  dsimp only
  split
  · rfl
  · split
    · simp
    · split
      next h => simp [snd_saf_safe_of_eq h]
      next h => simp [snd_saf_safe_of_eq h]

/-! ### Plan images -/

@[simp] theorem State.wrZero_saf_safe (a n : Nat) : (s.wrZero a n).saf.safe = s.saf.safe := rfl

@[simp] theorem State.applyLoad_saf_safe (e : LoadSet) : (s.applyLoad e).saf.safe = s.saf.safe := by
  simp [State.applyLoad]

@[simp] theorem State.zeroSpads_saf_safe : s.zeroSpads.saf.safe = s.saf.safe := rfl

@[simp] theorem State.loadSpads_saf_safe (pl : Plan) : (s.loadSpads pl).saf.safe = s.saf.safe := by
  simp [State.loadSpads]

/-! ### The partner device -/

@[simp] theorem State.toPartner_saf_safe (type : Nat) (payload : List Byte) : (s.toPartner type payload).saf.safe = s.saf.safe := by
  simp [State.toPartner]

@[simp] theorem State.sendWitness_saf_safe : s.sendWitness.saf.safe = s.saf.safe := by
  unfold State.sendWitness
  split <;> simp

@[simp] theorem State.partnerTime_saf_safe (t1 t2 t3 t4 : Nat) : (s.partnerTime t1 t2 t3 t4).saf.safe = s.saf.safe := by
  simp [State.partnerTime]

@[simp] theorem State.signature_saf_safe (k : Nat) (mine : Bool) (key : Word) (value : BitVec 448) :
    (s.signature k mine key value).saf.safe = s.saf.safe := by
  simp [State.signature]

@[simp] theorem State.tybSigWrite_saf_safe (job rod k : Nat) (data : List Byte) : (s.tybSigWrite job rod k data).saf.safe = s.saf.safe := by
  simp [State.tybSigWrite]

/-! ### Plans -/

@[simp] theorem State.scramble_saf_safe (block : Nat) : (s.scramble block).saf.safe = s.saf.safe := rfl

@[simp] theorem State.dropProt_saf_safe : s.dropProt.saf.safe = s.saf.safe := by
  simp [State.dropProt]

@[simp] theorem State.resetKeeper_saf_safe : s.resetKeeper.saf.safe = s.saf.safe := rfl

@[simp] theorem State.install_saf_safe (pl : Plan) : (s.install pl).saf.safe = s.saf.safe := by
  simp [State.install]

@[simp] theorem State.missRelease_saf_safe (r : JobRec) : (s.missRelease r).saf.safe = s.saf.safe := by
  simp [State.missRelease]

@[simp] theorem State.releaseJob_saf_safe (pl : Plan) (r : JobRec) : (s.releaseJob pl r).saf.safe = s.saf.safe := by
  simp [State.releaseJob]

@[simp] theorem State.releaseDue_saf_safe (pl : Plan) (w : Nat) (r : JobRec) : (s.releaseDue pl w r).saf.safe = s.saf.safe := by
  unfold State.releaseDue
  dsimp only
  repeat' split
  all_goals simp

@[simp] theorem State.judgeGolden_saf_safe (pl : Plan) (v : Nat) : (s.judgeGolden pl v).saf.safe = s.saf.safe := by
  simp [State.judgeGolden]

@[simp] theorem State.beamOverruns_saf_safe (pl : Plan) (w : Nat) : (s.beamOverruns pl w).saf.safe = s.saf.safe := by
  simp [State.beamOverruns]

@[simp] theorem State.deadlines_saf_safe (pl : Plan) (v : Nat) : (s.deadlines pl v).saf.safe = s.saf.safe := by
  refine foldl_saf_safe (fun e s => ?_) _ s
  dsimp only
  split <;> simp

@[simp] theorem State.takeRods_saf_safe (pl : Plan) (r : JobRec) (f : JobRod → Rod → Rod) : (s.takeRods pl r f).saf.safe = s.saf.safe := by
  simp [State.takeRods]

@[simp] theorem State.beginRestore_saf_safe (pl : Plan) (r : JobRec) : (s.beginRestore pl r).saf.safe = s.saf.safe := by
  simp [State.beginRestore]

@[simp] theorem State.resumeJobs_saf_safe (pl : Plan) (w : Nat) : (s.resumeJobs pl w).saf.safe = s.saf.safe := by
  simp [State.resumeJobs]

@[simp] theorem State.planPairs_saf_safe (pl : Plan) (w : Nat) : (s.planPairs pl w).saf.safe = s.saf.safe := by
  simp [State.planPairs]

@[simp] theorem State.openGaps_saf_safe (pl : Plan) (w : Nat) (first : Bool) : (s.openGaps pl w first).saf.safe = s.saf.safe := by
  simp [State.openGaps]

@[simp] theorem State.openGolden_saf_safe (pl : Plan) (w : Nat) : (s.openGolden pl w).saf.safe = s.saf.safe := by
  unfold State.openGolden
  split <;> simp

@[simp] theorem State.resumeParts_saf_safe : s.resumeParts.saf.safe = s.saf.safe := by
  simp [State.resumeParts]

@[simp] theorem State.openWindow_saf_safe (pl : Plan) (w : Nat) (first : Bool) : (s.openWindow pl w first).saf.safe = s.saf.safe := by
  simp [State.openWindow]

@[simp] theorem State.beginPlan_saf_safe (pl : Plan) (h : Option Hdr) : (s.beginPlan pl h).saf.safe = s.saf.safe := by
  simp [State.beginPlan]

/-! ### The beam -/

@[simp] theorem State.loseRods_saf_safe (j : Nat) : (s.loseRods j).saf.safe = s.saf.safe := by
  simp [State.loseRods]

@[simp] theorem State.saveRod_saf_safe (n gen part saves : Nat) : (s.saveRod n gen part saves).saf.safe = s.saf.safe := by
  simp [State.saveRod]

@[simp] theorem State.saved_saf_safe (n j saves : Nat) : (s.saved n j saves).saf.safe = s.saf.safe := by
  simp only [State.saved]
  rw [State.updRod_saf, State.endSegment_saf_safe, State.traceJob_saf_safe, State.count_saf_safe, ite_saf_safe, State.wr_saf, ite_self,
    State.saveRod_saf_safe]

@[simp] theorem State.restoreRod_saf_safe (n j : Nat) : (s.restoreRod n j).saf.safe = s.saf.safe := by
  obtain ⟨read, hread, hsafe⟩ := exists_spadRead
  have hdef : @State.restoreRod = @State.restoreRod := rfl
  conv at hdef => rhs; delta State.restoreRod
  rw [← hread] at hdef
  rw [hdef]
  dsimp only
  split
  next h => rw [snd_saf_safe_of_eq h, hsafe]
  next h =>
    rw [ite_saf_safe, State.rodFault_saf_safe, State.holdCode_saf_safe, State.updRod_saf, State.count_saf_safe, ite_self, snd_saf_safe_of_eq h, hsafe]

/-- `State.restoreRod` behind a variable, as `exists_spadRead`. -/
theorem exists_restoreRod :
    ∃ restore : State → Nat → Nat → State, restore = State.restoreRod ∧ ∀ s n j, (restore s n j).saf.safe = s.saf.safe :=
  ⟨_, rfl, State.restoreRod_saf_safe⟩

@[simp] theorem State.reload_saf_safe (j : Nat) (e : LoadSet) : (s.reload j e).saf.safe = s.saf.safe := by
  unfold State.reload
  split <;> simp

@[simp] theorem State.endSlice_saf_safe (n : Nat) : (s.endSlice n).saf.safe = s.saf.safe := by
  simp [State.endSlice]

/-! ### The ledger -/

@[simp] theorem State.numberRec_saf_safe (r : LedgerRec) (seq : Nat) (prev : List Byte) :
    (s.numberRec r seq prev).2.saf.safe = s.saf.safe := by
  simp [State.numberRec]

@[simp] theorem State.numberNext_saf_safe (r : LedgerRec) : (s.numberNext r).2.saf.safe = s.saf.safe := by
  simp [State.numberNext]

@[simp] theorem State.enqueueRec_saf_safe (type payload : Nat) : (s.enqueueRec type payload).saf.safe = s.saf.safe := by
  unfold State.enqueueRec
  split <;> simp

@[simp] theorem State.raiseRec_saf_safe (type payload : Nat) : (s.raiseRec type payload).saf.safe = s.saf.safe := by
  simp [State.raiseRec]

@[simp] theorem State.flushRecs_saf_safe : s.flushRecs.saf.safe = s.saf.safe := by
  simp [State.flushRecs]

@[simp] theorem State.otpEvent_saf_safe (ev which value : Nat) : (s.otpEvent ev which value).saf.safe = s.saf.safe := by
  simp [State.otpEvent]

@[simp] theorem State.securityRec_saf_safe (code : Nat) : (s.securityRec code).saf.safe = s.saf.safe := by
  simp [State.securityRec]

@[simp] theorem State.numberAll_saf_safe : s.numberAll.saf.safe = s.saf.safe := by
  simp [State.numberAll]

@[simp] theorem State.burn_saf_safe (p : Nat × Word) : (s.burn p).saf.safe = s.saf.safe := rfl

@[simp] theorem State.abandonOtp_saf_safe : s.abandonOtp.saf.safe = s.saf.safe := by
  unfold State.abandonOtp
  split <;> simp

/-! ### Security commands -/

@[simp] theorem State.openChain_saf_safe (old : Nat) : (s.openChain old).saf.safe = s.saf.safe := by
  simp [State.openChain]

@[simp] theorem State.otpDone_saf_safe (j : OtpJob) : (s.otpDone j).saf.safe = s.saf.safe := by
  unfold State.otpDone
  split <;> simp

@[simp] theorem State.beginMemInit_saf_safe : s.beginMemInit.saf.safe = s.saf.safe := by
  simp [State.beginMemInit]

/-! ### Boot -/

theorem State.verifyImage_saf_safe {next : State → State} (hnext : ∀ s, (next s).saf.safe = s.saf.safe) :
    (s.verifyImage next).saf.safe = s.saf.safe := by
  simp [State.verifyImage, hnext]

@[simp] theorem State.romEvents_saf_safe : s.romEvents.saf.safe = s.saf.safe := by
  simp [State.romEvents]

@[simp] theorem State.wearBase_saf_safe : s.wearBase.saf.safe = s.saf.safe := rfl

/-! ### The memory system -/

@[simp] theorem State.serve_saf_safe (q : MemReq) : (s.serve q).saf.safe = s.saf.safe := by
  unfold State.serve
  repeat' split
  all_goals simp

@[simp] theorem State.continueQueue_saf_safe (l : List MemReq) : (s.continueQueue l).1.saf.safe = s.saf.safe := by
  induction l generalizing s with
  | nil => rfl
  | cons q l ih =>
    unfold State.continueQueue
    split
    · simp [ih]
    · exact ih s

@[simp] theorem State.serveQueue_saf_safe (pos : Nat) (mine : Nat → Bool) (l : List MemReq) (used : List Nat) :
    (s.serveQueue pos mine l used).1.saf.safe = s.saf.safe := by
  induction l generalizing s used with
  | nil => rfl
  | cons q l ih =>
    unfold State.serveQueue
    dsimp only
    split
    · exact ih ..
    · split
      · split
        · simp [ih]
        · exact ih ..
      · rfl

@[simp] theorem State.serveSlot_saf_safe (pos : Nat) (mine : Nat → Bool) (l : List MemReq) :
    (s.serveSlot pos mine l).1.saf.safe = s.saf.safe := by
  simp [State.serveSlot]

@[simp] theorem State.keepQueues_saf_safe (island : Nat) (left : List MemReq) : (s.keepQueues island left).saf.safe = s.saf.safe := rfl

/-! ### Sensor streams -/

@[simp] theorem State.dropFrame_saf_safe (p cause : Nat) : (s.dropFrame p cause).saf.safe = s.saf.safe := by
  unfold State.dropFrame
  split <;> simp

@[simp] theorem State.missSlot_saf_safe (p : Nat) : (s.missSlot p).saf.safe = s.saf.safe := rfl

@[simp] theorem State.writeRow_saf_safe (p k y : Nat) (f : FrameRun) : (s.writeRow p k y f).saf.safe = s.saf.safe := by
  simp [State.writeRow]

@[simp] theorem State.discardPkt_saf_safe (port : Nat) (unknown : Bool) : (s.discardPkt port unknown).saf.safe = s.saf.safe := rfl
@[simp] theorem State.markFrame_saf_safe (p cause : Nat) : (s.markFrame p cause).saf.safe = s.saf.safe := rfl

@[simp] theorem State.noteEcc_saf_safe (port : Nat) (ecc : Fin 3) : (s.noteEcc port ecc).saf.safe = s.saf.safe := by
  simp [State.noteEcc]

@[simp] theorem State.abandonInjection_saf_safe (port : Nat) : (s.abandonInjection port).saf.safe = s.saf.safe := by
  simp [State.abandonInjection]

@[simp] theorem State.frameStart_saf_safe (p num : Nat) : (s.frameStart p num).saf.safe = s.saf.safe := by
  unfold State.frameStart
  dsimp only
  split <;> simp

@[simp] theorem State.lineIn_saf_safe (p : Nat) (data : List Byte) (crcOk : Bool) : (s.lineIn p data crcOk).saf.safe = s.saf.safe := by
  unfold State.lineIn
  dsimp only
  repeat' split
  all_goals simp

@[simp] theorem State.embeddedIn_saf_safe (p : Nat) (data : List Byte) (crcOk : Bool) :
    (s.embeddedIn p data crcOk).saf.safe = s.saf.safe := by
  simp [State.embeddedIn]

@[simp] theorem State.embCheck_saf_safe (p : Nat) (f : FrameRun) : (s.embCheck p f).2.saf.safe = s.saf.safe := by
  unfold State.embCheck
  dsimp only
  repeat' split
  all_goals simp

@[simp] theorem State.frameEnd_saf_safe (p : Nat) : (s.frameEnd p).saf.safe = s.saf.safe := by
  unfold State.frameEnd
  dsimp only
  repeat' split
  all_goals simp

@[simp] theorem State.inject_saf_safe (p : Nat) : (s.inject p).saf.safe = s.saf.safe := by
  simp [State.inject]

@[simp] theorem State.roiWrite_saf_safe (job rod stream : Nat) (data : List Byte) :
    (s.roiWrite job rod stream data).saf.safe = s.saf.safe := by
  simp [State.roiWrite]

/-! ### The data mover -/

@[simp] theorem State.portWrite_saf_safe (rod job block port : Nat) (data : List Byte) :
    (s.portWrite rod job block port data).saf.safe = s.saf.safe := by
  unfold State.portWrite
  split <;> simp

@[simp] theorem State.dmaMove_saf_safe (n : Nat) (d : Desc) (e : DescEnv) : (s.dmaMove n d e).saf.safe = s.saf.safe := by
  unfold State.dmaMove
  dsimp only
  split
  · simp
  · split
    · simp
    · split
      next h => simp [snd_saf_safe_of_eq h]
      next h =>
        split
        · split <;> simp [snd_saf_safe_of_eq h]
        · simp [snd_saf_safe_of_eq h]

/-! ### Power -/

@[simp] theorem State.guardDomain_saf_safe (i avg : Nat) : (s.guardDomain i avg).saf.safe = s.saf.safe := by
  simp [State.guardDomain]

@[simp] theorem State.sawLevel_saf_safe (r : Fin 4) (low level : BitVec 16) : (s.sawLevel r low level).saf.safe = s.saf.safe := rfl

/-! ### Trace commands -/

@[simp] theorem State.traceOut_saf_safe (r : TraceRec) : (s.traceOut r).saf.safe = s.saf.safe := rfl

@[simp] theorem State.traceDrain_saf_safe (n : Nat) : (s.traceDrain n).saf.safe = s.saf.safe := by
  induction n generalizing s with
  | zero => rfl
  | succ n ih =>
    unfold State.traceDrain
    dsimp only
    split
    · split <;> simp [ih]
    · rfl

@[simp] theorem State.traceOff_saf_safe : s.traceOff.saf.safe = s.saf.safe := by
  unfold State.traceOff
  split <;> simp

@[simp] theorem State.traceKeep_saf_safe (r : TraceRec) : (s.traceKeep r).saf.safe = s.saf.safe := by
  simp [State.traceKeep]

@[simp] theorem State.traceBufGap_saf_safe : s.traceBufGap.saf.safe = s.saf.safe := by
  simp [State.traceBufGap]

@[simp] theorem State.traceMove_saf_safe : s.traceMove.saf.safe = s.saf.safe := by
  unfold State.traceMove
  repeat' split
  all_goals simp

@[simp] theorem State.traceSyncRec_saf_safe : s.traceSyncRec.saf.safe = s.saf.safe := by
  simp [State.traceSyncRec]

@[simp] theorem State.answerRead_saf_safe (w : Nat) : (s.answerRead w).saf.safe = s.saf.safe := rfl

/-! ### Registers -/

@[simp] theorem State.msixWrite_saf_safe (v i : Nat) (w : Word) : (s.msixWrite v i w).saf.safe = s.saf.safe := by
  unfold State.msixWrite
  split <;> simp

/-! ### Command take -/

@[simp] theorem State.functionReset_saf_safe (f : Fin 16) : (s.functionReset f).saf.safe = s.saf.safe := rfl

/-! ### Vision units -/

@[simp] theorem State.cropResize_saf_safe (n : Nat) (d : Desc) (e : DescEnv) : (s.cropResize n d e).saf.safe = s.saf.safe := by
  unfold State.cropResize
  dsimp only
  split
  · rfl
  · split
    · simp
    · split
      next h => simp [snd_saf_safe_of_eq h]
      next h =>
        split
        all_goals next h' => simp [snd_saf_safe_of_eq h', snd_saf_safe_of_eq h]

@[simp] theorem State.chArgmax_saf_safe (n : Nat) (d : Desc) (e : DescEnv) : (s.chArgmax n d e).saf.safe = s.saf.safe := by
  unfold State.chArgmax
  dsimp only
  split
  all_goals next h => simp [snd_saf_safe_of_eq h]

/-- `State.touch` behind a variable, as `exists_spadRead`. -/
theorem exists_touch :
    ∃ touch : State → Nat → List (Nat × Nat) → Bool × State, touch = State.touch ∧ ∀ s n ts, (touch s n ts).2.saf.safe = s.saf.safe :=
  ⟨_, rfl, State.touch_saf_safe⟩

@[simp] theorem State.scan_saf_safe (n : Nat) (d : Desc) (e : DescEnv) : (s.scan n d e).saf.safe = s.saf.safe := by
  obtain ⟨touch, htouch, hsafe⟩ := exists_touch
  have hdef : @State.scan = @State.scan := rfl
  conv at hdef => rhs; delta State.scan
  rw [← htouch] at hdef
  rw [hdef]
  dsimp only
  split
  · exact State.rodFault_saf_safe ..
  · split
    next h => rw [snd_saf_safe_of_eq h, hsafe]
    next h =>
      split
      next h' => rw [snd_saf_safe_of_eq h', State.fetchAll_saf_safe, snd_saf_safe_of_eq h, hsafe]
      next h' =>
        rw [State.updStream_saf, State.putBytes_saf_safe, State.emit_saf_safe, snd_saf_safe_of_eq h', State.fetchAll_saf_safe,
          snd_saf_safe_of_eq h, hsafe]

end Sys2Proof.Machine
end

section
/-! Steps and answers that stay in the safe state. -/

namespace Sys2Proof.Machine

@[simp] theorem State.settle_saf_safe {s : State} (hs : s.saf.safe = true) : s.settle.saf.safe = true := State.settleN_saf_safe hs 8

@[simp] theorem State.beamTo_saf_safe {s : State} (hs : s.saf.safe = true) (pl : Plan) (w : Nat) : (s.beamTo pl w).saf.safe = true := by
  simp [State.beamTo, hs]

/-- A step that answers a next state answers one in the safe state. -/
def StaysSafe (o : Out) : Prop := ∀ t, o = .next t → t.saf.safe = true

/-- An answer that carries a state carries one in the safe state. -/
def Ans.StaysSafe : Ans → Prop
  | .ok s _ => s.saf.safe = true
  | .no _ _ => True
  | .later s => s.saf.safe = true

@[simp] theorem staysSafe_next (t : State) : StaysSafe (.next t) ↔ t.saf.safe = true :=
  ⟨fun h => h t rfl, fun h u e => by cases e; exact h⟩

theorem staysSafe_refused (r : Refusal) : StaysSafe (.refused r) := fun _ e => nomatch e

theorem staysSafe_fault (f : Fault) : StaysSafe (.fault f) := fun _ e => nomatch e

@[simp] theorem staysSafe_ite (c : Prop) [Decidable c] (a b : Out) :
    StaysSafe (if c then a else b) ↔ if c then StaysSafe a else StaysSafe b := by
  split <;> rfl

@[simp] theorem Ans.staysSafe_ok (s : State) (r : Rep) : (Ans.ok s r).StaysSafe ↔ s.saf.safe = true := Iff.rfl

@[simp] theorem Ans.staysSafe_no (st d : Nat) : (Ans.no st d).StaysSafe := trivial

@[simp] theorem Ans.staysSafe_later (s : State) : (Ans.later s).StaysSafe ↔ s.saf.safe = true := Iff.rfl

@[simp] theorem Ans.staysSafe_ite (c : Prop) [Decidable c] (a b : Ans) :
    (if c then a else b).StaysSafe ↔ if c then a.StaysSafe else b.StaysSafe := by
  split <;> rfl

@[simp] theorem checks_staysSafe {k : Ans} (hk : k.StaysSafe) (cs : List (Bool × Nat)) : (checks cs k).StaysSafe := by
  unfold checks
  split
  · trivial
  · exact hk

theorem stepAns_staysSafe {r : Bool × State} (hr : r.2.saf.safe = true) : (stepAns r).StaysSafe := by
  simp [stepAns, hr]

theorem finish_staysSafe {s : State} (hs : s.saf.safe = true) (h : Hdr) (fast : Bool) {a : Ans} (ha : a.StaysSafe) :
    StaysSafe (finish h fast s a) := by
  intro t e
  rcases finish_cases e with rfl | ⟨r, rfl⟩ | ⟨s', r, rfl, rfl⟩ | rfl
  · exact hs
  · rwa [State.reply_saf_safe]
  · rwa [State.reply_saf_safe]
  · exact ha

theorem firmware_staysSafe {s : State} (hs : s.saf.safe = true) {h : Hdr} {a : Ans} (ha : a.StaysSafe) : StaysSafe (firmware h s a) :=
  finish_staysSafe hs h false ha

theorem fastPath_staysSafe {s : State} (hs : s.saf.safe = true) {h : Hdr} {a : Ans} (ha : a.StaysSafe) : StaysSafe (fastPath h s a) :=
  finish_staysSafe hs h true ha

end Sys2Proof.Machine
end

section
/-! In the safe state every command, event and instruction but a reset leaves the device in it. Reading order: the families of the model. -/

namespace Sys2Proof.Machine

variable {s : State} (hs : s.saf.safe = true)

include hs

/-! ### The time base -/

@[simp] theorem execTimeSet_staysSafe (h : Hdr) (frac : BitVec 16) (ns : Word) (sec : BitVec 64) :
    StaysSafe (execTimeSet h frac ns sec s) :=
  firmware_staysSafe hs (checks_staysSafe (stepAns_staysSafe (by simp [hs])) _)

@[simp] theorem execTimeStep_staysSafe (h : Hdr) (frac : BitVec 16) (ns : Word) (sec : BitVec 64) :
    StaysSafe (execTimeStep h frac ns sec s) :=
  firmware_staysSafe hs (checks_staysSafe (stepAns_staysSafe (by simp [hs])) _)

@[simp] theorem execTimeRate_staysSafe (h : Hdr) (incr : BitVec 64) : StaysSafe (execTimeRate h incr s) :=
  firmware_staysSafe hs (checks_staysSafe (by simp [hs]) _)

@[simp] theorem execTimeSlew_staysSafe (h : Hdr) (rate count : Word) : StaysSafe (execTimeSlew h rate count s) :=
  firmware_staysSafe hs (by simp [doTimeSlew, hs])

@[simp] theorem execSlewEnd_staysSafe : StaysSafe (execSlewEnd s) := by
  simp [execSlewEnd, hs]

@[simp] theorem execTimeRead_staysSafe (h : Hdr) : StaysSafe (execTimeRead h s) := firmware_staysSafe hs (by simp [hs])

@[simp] theorem execTimePinConfig_staysSafe (h : Hdr) (pin mode edge : Byte) (at_ : BitVec 64) (period width : Word) :
    StaysSafe (execTimePinConfig h pin mode edge at_ period width s) :=
  firmware_staysSafe hs (checks_staysSafe (by simp [hs]) _)

@[simp] theorem execTimeCapture_staysSafe (h : Hdr) (pin : Byte) : StaysSafe (execTimeCapture h pin s) := by
  refine firmware_staysSafe hs ?_
  unfold doTimeCapture
  dsimp only
  split <;> simp [hs]

@[simp] theorem execTimeJumpLimit_staysSafe (h : Hdr) (limit : Word) : StaysSafe (execTimeJumpLimit h limit s) :=
  firmware_staysSafe hs (checks_staysSafe (by simp [hs]) _)

@[simp] theorem execTimNowFracRead_staysSafe (fn : Fin 16) : StaysSafe (execTimNowFracRead fn s) := by
  simp [execTimNowFracRead, hs]

@[simp] theorem execPpsOutPulse_staysSafe : StaysSafe (execPpsOutPulse s) := by
  simp [execPpsOutPulse, hs]

@[simp] theorem execTimePinEdge_staysSafe (p : Fin 6) (level : Bool) : StaysSafe (execTimePinEdge p level s) := by
  simp [execTimePinEdge, hs]

/-! ### CAN FD controllers -/

@[simp] theorem execCanConfig_staysSafe (h : Hdr) (ctrl mode : Byte) (lateNs minGap : Word) :
    StaysSafe (execCanConfig h ctrl mode lateNs minGap s) :=
  firmware_staysSafe hs (checks_staysSafe (by simp [hs]) _)

@[simp] theorem execCanTiming_staysSafe (h : Hdr) (ctrl : Byte) (nBrp nTseg1 nTseg2 nSjw : BitVec 16)
    (dBrp dTseg1 dTseg2 dSjw tdco tdcEn : Byte) :
    StaysSafe (execCanTiming h ctrl nBrp nTseg1 nTseg2 nSjw dBrp dTseg1 dTseg2 dSjw tdco tdcEn s) :=
  firmware_staysSafe hs (checks_staysSafe (by simp [hs]) _)

@[simp] theorem execCanFilterSet_staysSafe (h : Hdr) (ctrl index target buf ide : Byte) (value mask : Word) :
    StaysSafe (execCanFilterSet h ctrl index target buf ide value mask s) :=
  firmware_staysSafe hs (checks_staysSafe (by simp [hs]) _)

@[simp] theorem execCanMbSet_staysSafe (h : Hdr) (ctrl buf kind mode oneShot : Byte) (at_ src : BitVec 64) :
    StaysSafe (execCanMbSet h ctrl buf kind mode oneShot at_ src s) := by
  refine firmware_staysSafe hs (checks_staysSafe ?_ _)
  dsimp only
  rw [Ans.staysSafe_ok]
  split
  · rw [State.reply_saf_safe, ite_saf_safe, State.armLate_saf_safe, ite_self, State.updCtl_saf, hs]
  · rw [ite_saf_safe, State.armLate_saf_safe, ite_self, State.updCtl_saf, hs]

@[simp] theorem execCanMbSend_staysSafe (h : Hdr) (ctrl buf : Byte) : StaysSafe (execCanMbSend h ctrl buf s) :=
  firmware_staysSafe hs (checks_staysSafe (by simp [hs]) _)

@[simp] theorem execCanMbAbort_staysSafe (h : Hdr) (ctrl buf : Byte) : StaysSafe (execCanMbAbort h ctrl buf s) := by
  refine firmware_staysSafe hs ?_
  unfold doCanMbAbort
  dsimp only
  repeat' split
  all_goals simp [hs]

@[simp] theorem execCanRxfConfig_staysSafe (h : Hdr) (ctrl fifo depth : Byte) : StaysSafe (execCanRxfConfig h ctrl fifo depth s) :=
  firmware_staysSafe hs (checks_staysSafe (by simp [hs]) _)

@[simp] theorem execCanRecover_staysSafe (h : Hdr) (ctrl : Byte) : StaysSafe (execCanRecover h ctrl s) :=
  firmware_staysSafe hs (checks_staysSafe (by simp [hs]) _)

@[simp] theorem execCanQuery_staysSafe (h : Hdr) (ctrl : Byte) : StaysSafe (execCanQuery h ctrl s) :=
  firmware_staysSafe hs (checks_staysSafe (by simp [hs]) _)

@[simp] theorem execCanMbWord0Read_staysSafe (c : Fin 16) (i : Nat) : StaysSafe (execCanMbWord0Read c i s) := by
  simp [execCanMbWord0Read, hs]

@[simp] theorem execCanMbWord23Read_staysSafe (c : Fin 16) (i : Nat) : StaysSafe (execCanMbWord23Read c i s) := by
  simp [execCanMbWord23Read, hs]

@[simp] theorem execCanError_staysSafe (c : Fin 16) (e : CanErr) : StaysSafe (execCanError c e s) := by
  unfold execCanError
  split <;> simp [hs]

@[simp] theorem execCanRecoveryDone_staysSafe (c : Fin 16) : StaysSafe (execCanRecoveryDone c s) := by
  simp [execCanRecoveryDone, hs]

@[simp] theorem execCanBusIntegrationDone_staysSafe (c : Fin 16) : StaysSafe (execCanBusIntegrationDone c s) := by
  simp [execCanBusIntegrationDone, hs]

@[simp] theorem execCanArbitration_staysSafe (c : Fin 16) : StaysSafe (execCanArbitration c s) := by
  unfold execCanArbitration
  dsimp only
  repeat' split
  all_goals simp [hs]

@[simp] theorem execCanTxDone_staysSafe (c : Fin 16) (r : CanTx) (delay : Option (BitVec 7)) : StaysSafe (execCanTxDone c r delay s) := by
  unfold execCanTxDone
  dsimp only
  repeat' split
  all_goals simp [hs]

@[simp] theorem execCanLaunchWithdraw_staysSafe (c : Fin 16) (b : Fin 64) : StaysSafe (execCanLaunchWithdraw c b s) := by
  simp [execCanLaunchWithdraw, hs]

@[simp] theorem execCanFrameReceive_staysSafe (c : Fin 16) (f : CanFrame) (age : Nat) : StaysSafe (execCanFrameReceive c f age s) := by
  unfold execCanFrameReceive
  dsimp only
  repeat' split
  all_goals simp [hs]

/-! ### Tallies -/

@[simp] theorem execTallyAdd_staysSafe (h : Hdr) (t : BitVec 16) (v : Word) : StaysSafe (execTallyAdd h t v s) :=
  fastPath_staysSafe hs (checks_staysSafe (by simp [hs]) _)

@[simp] theorem execTallySet_staysSafe (h : Hdr) (t : BitVec 16) (v : Word) : StaysSafe (execTallySet h t v s) :=
  fastPath_staysSafe hs (checks_staysSafe (by simp [hs]) _)

@[simp] theorem execTallyRead_staysSafe (h : Hdr) (t : BitVec 16) : StaysSafe (execTallyRead h t s) :=
  fastPath_staysSafe hs (checks_staysSafe (by simp [hs]) _)

@[simp] theorem execTallyApply_staysSafe (t : BitVec 14) : StaysSafe (execTallyApply t s) := by
  unfold execTallyApply
  dsimp only
  split <;> simp [hs]

@[simp] theorem execTallyWait_staysSafe (h : Hdr) (t : BitVec 16) (target timeoutUs : Word) :
    StaysSafe (execTallyWait h t target timeoutUs s) := by
  refine fastPath_staysSafe hs (checks_staysSafe ?_ _)
  split
  next e => exact (State.takeWait_fst_saf_safe (congrArg Prod.fst e)).trans hs
  next e => exact (snd_saf_safe_of_eq e).trans (by simpa using hs)

@[simp] theorem execTallyWaitSatisfied_staysSafe (i : Nat) : StaysSafe (execTallyWaitSatisfied i s) := by
  unfold execTallyWaitSatisfied
  split
  · simpa using hs
  · split <;> simp [hs]

@[simp] theorem execTallyWaitTimeout_staysSafe (i : Nat) : StaysSafe (execTallyWaitTimeout i s) := by
  unfold execTallyWaitTimeout
  split <;> simp [hs]

theorem State.remoteSend_staysSafe (h : Hdr) (op : Nat) (t node : BitVec 16) (value timeoutUs : Word) :
    (s.remoteSend h op t node value timeoutUs).StaysSafe := by
  unfold State.remoteSend
  extract_lets
  split
  · trivial
  next hsend => exact (State.sendMsg_saf_safe hsend).trans hs

theorem State.remoteAns_staysSafe {a : Ans} (ha : a.StaysSafe) : (s.remoteAns a).StaysSafe := by
  unfold State.remoteAns
  split
  · simp [hs]
  · exact ha

theorem doRemote_staysSafe (h : Hdr) (op : Nat) (t node : BitVec 16) (value timeoutUs : Word) :
    (doRemote h op t node value timeoutUs s).StaysSafe :=
  checks_staysSafe (State.remoteAns_staysSafe hs (State.remoteSend_staysSafe hs ..)) _

@[simp] theorem execTallyRemoteAdd_staysSafe (h : Hdr) (t node : BitVec 16) (v : Word) : StaysSafe (execTallyRemoteAdd h t node v s) :=
  firmware_staysSafe hs (doRemote_staysSafe hs ..)

@[simp] theorem execTallyRemoteSet_staysSafe (h : Hdr) (t node : BitVec 16) (v : Word) : StaysSafe (execTallyRemoteSet h t node v s) :=
  firmware_staysSafe hs (doRemote_staysSafe hs ..)

@[simp] theorem execTallyRemoteRead_staysSafe (h : Hdr) (t node : BitVec 16) : StaysSafe (execTallyRemoteRead h t node s) :=
  firmware_staysSafe hs (doRemote_staysSafe hs ..)

@[simp] theorem execTallyRemoteWait_staysSafe (h : Hdr) (t node : BitVec 16) (target timeoutUs : Word) :
    StaysSafe (execTallyRemoteWait h t node target timeoutUs s) :=
  firmware_staysSafe hs (doRemote_staysSafe hs ..)

@[simp] theorem execRemoteResponseTimeout_staysSafe (i : Nat) : StaysSafe (execRemoteResponseTimeout i s) := by
  unfold execRemoteResponseTimeout
  split <;> simp [hs]

@[simp] theorem execTallyReqRx_staysSafe (p : Fin 2) : StaysSafe (execTallyReqRx p s) := by
  unfold execTallyReqRx
  split
  · simpa using hs
  next hm =>
    have hs' := (State.takeMsg_saf_safe hm).trans hs
    dsimp only
    split
    · simpa using hs'
    · split
      · simpa using hs'
      · split
        · simpa using hs'
        · split
          · simpa using hs'
          · split
            next e => simpa using (State.takeWait_fst_saf_safe (congrArg Prod.fst e)).trans hs'
            next e => simpa [snd_saf_safe_of_eq e] using hs'
          · simp [hs', hs]

@[simp] theorem execTallyRespRx_staysSafe (p : Fin 2) : StaysSafe (execTallyRespRx p s) := by
  unfold execTallyRespRx
  split
  · simpa using hs
  next hm =>
    have hs' := (State.takeMsg_saf_safe hm).trans hs
    dsimp only
    split
    · simpa using hs'
    · split <;> simp [hs']

/-! ### Tyben ports -/

@[simp] theorem execTybNodeSet_staysSafe (h : Hdr) (node : BitVec 16) : StaysSafe (execTybNodeSet h node s) :=
  firmware_staysSafe hs (checks_staysSafe (by simp [hs]) _)

@[simp] theorem execTybPortConfig_staysSafe (h : Hdr) (port enable medium maxRate mac cls flits : Byte) (peerMac : BitVec 48) :
    StaysSafe (execTybPortConfig h port enable medium maxRate mac cls flits peerMac s) :=
  firmware_staysSafe hs (checks_staysSafe (by simp [hs]) _)

@[simp] theorem execTybRouteSet_staysSafe (h : Hdr) (index prefix_ : BitVec 16) (len port valid : Byte) :
    StaysSafe (execTybRouteSet h index prefix_ len port valid s) :=
  firmware_staysSafe hs (checks_staysSafe (by simp [hs]) _)

@[simp] theorem execTybMsgSend_staysSafe (h : Hdr) (node : BitVec 16) (data : BitVec 224) : StaysSafe (execTybMsgSend h node data s) := by
  refine firmware_staysSafe hs (checks_staysSafe ?_ _)
  split
  · exact hs
  · trivial
  · split
    · trivial
    next hsend => simp [State.sendMsg_saf_safe hsend, hs]

@[simp] theorem execTybOffsetMeasure_staysSafe (h : Hdr) (port : Byte) : StaysSafe (execTybOffsetMeasure h port s) :=
  firmware_staysSafe hs (checks_staysSafe (by simp [hs]) _)

@[simp] theorem execTybQuery_staysSafe (h : Hdr) (port : Byte) : StaysSafe (execTybQuery h port s) :=
  firmware_staysSafe hs (checks_staysSafe (by simp [hs]) _)

@[simp] theorem execTybPeerDetect_staysSafe (p : Fin 2) : StaysSafe (execTybPeerDetect p s) := by
  simp [execTybPeerDetect, hs]

@[simp] theorem execTybTrainDone_staysSafe (p : Fin 2) (lock : Option (BitVec 2 × BitVec 2)) : StaysSafe (execTybTrainDone p lock s) := by
  unfold execTybTrainDone
  split <;> simp [hs]

@[simp] theorem execTybDetectRetry_staysSafe (p : Fin 2) : StaysSafe (execTybDetectRetry p s) := by
  simp [execTybDetectRetry, hs]

@[simp] theorem execTybConfigFlitSend_staysSafe (p : Fin 2) : StaysSafe (execTybConfigFlitSend p s) := by
  simp [execTybConfigFlitSend, hs]

@[simp] theorem execTybConfigFlitRx_staysSafe (p : Fin 2) (f : List Byte) : StaysSafe (execTybConfigFlitRx p f s) := by
  simp [execTybConfigFlitRx, hs]

@[simp] theorem execTybRetrainEntry_staysSafe (p : Fin 2) (c : RetrainCause) : StaysSafe (execTybRetrainEntry p c s) := by
  simp [execTybRetrainEntry, hs]

@[simp] theorem execTybRetrainDone_staysSafe (p : Fin 2) (rate width : BitVec 2) : StaysSafe (execTybRetrainDone p rate width s) := by
  simp [execTybRetrainDone, hs]

@[simp] theorem execTybRetrainTimeout_staysSafe (p : Fin 2) : StaysSafe (execTybRetrainTimeout p s) := by
  simp [execTybRetrainTimeout, hs]

@[simp] theorem execTybFlitRx_staysSafe (p : Fin 2) (f : List Byte) : StaysSafe (execTybFlitRx p f s) := by
  simp [execTybFlitRx, hs]

@[simp] theorem execTybMsgRx_staysSafe (p : Fin 2) : StaysSafe (execTybMsgRx p s) := by
  simp [execTybMsgRx, hs]

@[simp] theorem execHostMsgRx_staysSafe (p : Fin 2) : StaysSafe (execHostMsgRx p s) := by
  unfold execHostMsgRx
  split
  · simpa using hs
  next hm => simp [State.takeMsg_saf_safe hm, hs]

@[simp] theorem execOffsetProbeRx_staysSafe (p : Fin 2) : StaysSafe (execOffsetProbeRx p s) := by
  unfold execOffsetProbeRx
  split
  · simpa using hs
  next hm => simp [State.takeMsg_saf_safe hm, hs]

@[simp] theorem execOffsetReplyRx_staysSafe (p : Fin 2) : StaysSafe (execOffsetReplyRx p s) := by
  unfold execOffsetReplyRx
  split
  · simpa using hs
  next hm =>
    split <;> simp [State.takeMsg_saf_safe hm, hs]

/-! ### Ethernet MACs -/

@[simp] theorem execEthPortConfig_staysSafe (h : Hdr) (mac speed enable : Byte) (maxFrame : BitVec 16) (txDelay rxDelay lateNs : Word) :
    StaysSafe (execEthPortConfig h mac speed enable maxFrame txDelay rxDelay lateNs s) :=
  firmware_staysSafe hs (checks_staysSafe (by simp [hs]) _)

@[simp] theorem execEthRxqConfig_staysSafe (h : Hdr) (mac queue mode log2 : Byte) (minGap : Word) (base wb : BitVec 64) :
    StaysSafe (execEthRxqConfig h mac queue mode log2 minGap base wb s) :=
  firmware_staysSafe hs (checks_staysSafe (by simp [hs]) _)

@[simp] theorem execEthFilterSet_staysSafe (h : Hdr) (mac index queue tests : Byte) (etype vid : BitVec 16) (da : BitVec 48) :
    StaysSafe (execEthFilterSet h mac index queue tests etype vid da s) :=
  firmware_staysSafe hs (checks_staysSafe (by simp [hs]) _)

@[simp] theorem execEthGclSet_staysSafe (h : Hdr) (mac : Byte) (len : BitVec 16) (cycle : Word) (baseTime : BitVec 64)
    (entries : List (BitVec 64)) : StaysSafe (execEthGclSet h mac len cycle baseTime entries s) :=
  firmware_staysSafe hs (checks_staysSafe (by simp [hs]) _)

@[simp] theorem execEthTxPost_staysSafe (h : Hdr) (mac cls launch : Byte) (length : BitVec 16) (addr at_ : BitVec 64) :
    StaysSafe (execEthTxPost h mac cls launch length addr at_ s) :=
  firmware_staysSafe hs (checks_staysSafe (by simp [hs]) _)

@[simp] theorem execEthLaunchSet_staysSafe (h : Hdr) (mac entry cls mode : Byte) (length : BitVec 16) (src at_ : BitVec 64) :
    StaysSafe (execEthLaunchSet h mac entry cls mode length src at_ s) :=
  firmware_staysSafe hs (checks_staysSafe (by simp [hs]) _)

@[simp] theorem execEthLaunchQuery_staysSafe (h : Hdr) (mac entry : Byte) : StaysSafe (execEthLaunchQuery h mac entry s) :=
  firmware_staysSafe hs (checks_staysSafe (by simp [hs]) _)

@[simp] theorem execEthQuery_staysSafe (h : Hdr) (mac : Byte) : StaysSafe (execEthQuery h mac s) :=
  firmware_staysSafe hs (checks_staysSafe (by simp [hs]) _)

@[simp] theorem execEthRxqHeadWrite_staysSafe (m : Fin 8) (q : Fin 4) (value : Word) : StaysSafe (execEthRxqHeadWrite m q value s) := by
  simp [execEthRxqHeadWrite, hs]

@[simp] theorem execEthLinkChange_staysSafe (m : Fin 8) (up : Bool) : StaysSafe (execEthLinkChange m up s) := by
  simp [execEthLinkChange, hs]

@[simp] theorem execEthGateChange_staysSafe (m : Fin 8) : StaysSafe (execEthGateChange m s) := by
  simp [execEthGateChange, hs]

@[simp] theorem execEthGclSwitch_staysSafe (m : Fin 8) : StaysSafe (execEthGclSwitch m s) := by
  simp [execEthGclSwitch, hs]

@[simp] theorem execComparatorFire_staysSafe (c : Comparator) : StaysSafe (execComparatorFire c s) := by
  unfold execComparatorFire
  split <;> simp [hs]

@[simp] theorem execEthLaunchDiscard_staysSafe (c : Comparator) : StaysSafe (execEthLaunchDiscard c s) := by
  unfold execEthLaunchDiscard
  dsimp only
  repeat' split
  all_goals simp [hs]

@[simp] theorem execEthTxStart_staysSafe (m : Fin 8) : StaysSafe (execEthTxStart m s) := by
  unfold execEthTxStart
  dsimp only
  repeat' split
  all_goals simp [hs]

@[simp] theorem execEthTxDone_staysSafe (m : Fin 8) : StaysSafe (execEthTxDone m s) := by
  unfold execEthTxDone
  dsimp only
  repeat' split
  all_goals simp [hs]

@[simp] theorem execEthFrameReceive_staysSafe (m : Fin 8) (frame : List Byte) : StaysSafe (execEthFrameReceive m frame s) := by
  unfold execEthFrameReceive
  dsimp only
  repeat' split
  all_goals simp [hs]

/-! ### The control loop engine -/

@[simp] theorem execCleLoopConfig_staysSafe (h : Hdr) (loop : Byte) (rec_ : BitVec 2048) : StaysSafe (execCleLoopConfig h loop rec_ s) :=
  firmware_staysSafe hs (checks_staysSafe (by simp [hs]) _)

@[simp] theorem execCleCoefSet_staysSafe (h : Hdr) (loop set : Byte) (coef : BitVec 512) :
    StaysSafe (execCleCoefSet h loop set coef s) :=
  firmware_staysSafe hs (checks_staysSafe (by simp [hs]) _)

@[simp] theorem execCleLoopEnable_staysSafe (h : Hdr) (loop : Byte) : StaysSafe (execCleLoopEnable h loop s) :=
  firmware_staysSafe hs (checks_staysSafe (by simp [hs]) _)

@[simp] theorem execCleLoopDisable_staysSafe (h : Hdr) (loop : Byte) : StaysSafe (execCleLoopDisable h loop s) :=
  firmware_staysSafe hs (checks_staysSafe (by simp [hs]) _)

@[simp] theorem execCleLoopResume_staysSafe (h : Hdr) (loop : Byte) : StaysSafe (execCleLoopResume h loop s) :=
  firmware_staysSafe hs (checks_staysSafe (by simp [hs]) _)

@[simp] theorem execCleMailboxWrite_staysSafe (h : Hdr) (loop : Byte) (sp accel sched : Word) :
    StaysSafe (execCleMailboxWrite h loop sp accel sched s) :=
  firmware_staysSafe hs (checks_staysSafe (by simp [hs]) _)

@[simp] theorem execCleInputConfig_staysSafe (h : Hdr) (kind index : Byte) (fields : BitVec 112) :
    StaysSafe (execCleInputConfig h kind index fields s) := by
  refine firmware_staysSafe hs ?_
  unfold doCleInputConfig
  dsimp only
  repeat' split
  all_goals simp [hs]

@[simp] theorem execSpiFrame_staysSafe (p : Fin 8) (words : List Word) : StaysSafe (execSpiFrame p words s) := by
  simp [execSpiFrame, hs]

@[simp] theorem execSdDecimation_staysSafe (c : Fin 32) (bits : List Bool) : StaysSafe (execSdDecimation c bits s) := by
  simp [execSdDecimation, hs]

@[simp] theorem execSdClockRestored_staysSafe (c : Fin 32) : StaysSafe (execSdClockRestored c s) := by
  simp [execSdClockRestored, hs]

@[simp] theorem execClePwmConfig_staysSafe (h : Hdr) (pair : Byte) (period : Word) (mode update : Byte) (dtRise dtFall : BitVec 16)
    (polA polB safeA safeB group : Byte) :
    StaysSafe (execClePwmConfig h pair period mode update dtRise dtFall polA polB safeA safeB group s) :=
  firmware_staysSafe hs (checks_staysSafe (by simp [hs]) _)

@[simp] theorem execClePwmRelease_staysSafe (h : Hdr) (pair : Byte) : StaysSafe (execClePwmRelease h pair s) :=
  firmware_staysSafe hs (checks_staysSafe (by simp [hs]) _)

@[simp] theorem execSafeEnForce_staysSafe (i : Fin 2) (low : Bool) : StaysSafe (execSafeEnForce i low s) := by
  simp [execSafeEnForce, hs]

@[simp] theorem execPwmLoadPoint_staysSafe (q : Fin 48) (top : Bool) : StaysSafe (execPwmLoadPoint q top s) := by
  simp [execPwmLoadPoint, hs]

@[simp] theorem execCleStart_staysSafe (h : Hdr) (mode pin : Byte) (at_ : BitVec 64) : StaysSafe (execCleStart h mode pin at_ s) :=
  firmware_staysSafe hs (checks_staysSafe (by simp [hs]) _)

@[simp] theorem execCleStartFire_staysSafe : StaysSafe (execCleStartFire s) := by
  unfold execCleStartFire
  split <;> simp [hs]

@[simp] theorem execCleStop_staysSafe (h : Hdr) : StaysSafe (execCleStop h s) := by
  refine firmware_staysSafe hs ?_
  unfold doCleStop
  dsimp only
  split <;> simp [hs]

@[simp] theorem execClePeriodStart_staysSafe : StaysSafe (execClePeriodStart s) := by
  simp [execClePeriodStart, hs]

@[simp] theorem execCleInject_staysSafe (h : Hdr) (gen kind loop point : Byte) (amp length : Word) (hold : BitVec 16) (f0 df seed : Word) :
    StaysSafe (execCleInject h gen kind loop point amp length hold f0 df seed s) :=
  firmware_staysSafe hs (checks_staysSafe (by simp [hs]) _)

@[simp] theorem execCleCapture_staysSafe (h : Hdr) (ch loop start gen : Byte) (decim : BitVec 16) (count : Word) (dest : BitVec 64) :
    StaysSafe (execCleCapture h ch loop start gen decim count dest s) :=
  firmware_staysSafe hs (checks_staysSafe (by simp [hs]) _)

@[simp] theorem execCleQuery_staysSafe (h : Hdr) (loop : Byte) : StaysSafe (execCleQuery h loop s) :=
  firmware_staysSafe hs (checks_staysSafe (by simp [hs]) _)

/-! ### The host link -/

@[simp] theorem execHifFnWrite_staysSafe (fn f : Fin 16) (reg : FnReg) (w : Word) : StaysSafe (execHifFnWrite fn f reg w s) := by
  simp [execHifFnWrite, hs]

@[simp] theorem execRingDescWrite_staysSafe (fn : Fin 16) (r : BitVec 14) (i : Fin 8) (w : Word) :
    StaysSafe (execRingDescWrite fn r i w s) := by
  simp [execRingDescWrite, hs]

@[simp] theorem execDoorbell_staysSafe (fn : Fin 16) (off : BitVec 16) (size : Nat) (v : BitVec 64) :
    StaysSafe (execDoorbell fn off size v s) := by
  simp [execDoorbell, hs]

@[simp] theorem execHostUnmappedAccess_staysSafe (_fn : Fin 16) (addr : BitVec 48) : StaysSafe (execHostUnmappedAccess _fn addr s) := by
  simp [execHostUnmappedAccess, hs]

@[simp] theorem execBar4Access_staysSafe (fn : Fin 16) (off : BitVec 36) (acc : Access) : StaysSafe (execBar4Access fn off acc s) := by
  simp [execBar4Access, hs]

@[simp] theorem execEventsLostRecord_staysSafe (fn : Fin 16) : StaysSafe (execEventsLostRecord fn s) := by
  simp [execEventsLostRecord, hs]

@[simp] theorem execOpenSession_staysSafe (h : Hdr) (low high : Byte) (rb : BitVec 64) : StaysSafe (execOpenSession h low high rb s) :=
  firmware_staysSafe hs (checks_staysSafe (by simp [hs]) _)

@[simp] theorem execCloseSession_staysSafe (h : Hdr) : StaysSafe (execCloseSession h s) :=
  firmware_staysSafe hs (by simp [doCloseSession, hs])

@[simp] theorem execEventBind_staysSafe (h : Hdr) (ring : BitVec 16) : StaysSafe (execEventBind h ring s) :=
  firmware_staysSafe hs (checks_staysSafe (by simp [hs]) _)

@[simp] theorem execNop_staysSafe (h : Hdr) (echo : Word) : StaysSafe (execNop h echo s) := fastPath_staysSafe hs (by simp [hs])
@[simp] theorem execDeviceQuery_staysSafe (h : Hdr) : StaysSafe (execDeviceQuery h s) := firmware_staysSafe hs (by simp [hs])

@[simp] theorem execDmaCopy_staysSafe (h : Hdr) (engine : Byte) (src dst : BitVec 64) (bytes : Word) :
    StaysSafe (execDmaCopy h engine src dst bytes s) :=
  fastPath_staysSafe hs (checks_staysSafe (by simp [hs]) _)

@[simp] theorem execDmaFill_staysSafe (h : Hdr) (engine : Byte) (pattern : Word) (dst : BitVec 64) (bytes : Word) :
    StaysSafe (execDmaFill h engine pattern dst bytes s) :=
  fastPath_staysSafe hs (checks_staysSafe (by simp [hs]) _)

@[simp] theorem execHostDmaDone_staysSafe (i : Nat) : StaysSafe (execHostDmaDone i s) := by
  unfold execHostDmaDone
  split
  · simpa using hs
  · simp [dmaRun_saf_safe, hs]

@[simp] theorem execBar4Set_staysSafe (h : Hdr) (base : BitVec 64) : StaysSafe (execBar4Set h base s) :=
  firmware_staysSafe hs (checks_staysSafe (by simp [hs]) _)

/-! ### The page keeper -/

theorem doKv_staysSafe (h : Hdr) (op : Nat) (params : BitVec 384) : (doKv h op params s).StaysSafe := (State.kvPost_saf_safe ..).trans hs

@[simp] theorem execKvSeqOpen_staysSafe (h : Hdr) (x : BitVec 384) : StaysSafe (execKvSeqOpen h x s) :=
  firmware_staysSafe hs (doKv_staysSafe hs ..)

@[simp] theorem execKvSeqFork_staysSafe (h : Hdr) (x : BitVec 384) : StaysSafe (execKvSeqFork h x s) :=
  firmware_staysSafe hs (doKv_staysSafe hs ..)

@[simp] theorem execKvAppend_staysSafe (h : Hdr) (x : BitVec 384) : StaysSafe (execKvAppend h x s) :=
  firmware_staysSafe hs (doKv_staysSafe hs ..)

@[simp] theorem execKvSeqClose_staysSafe (h : Hdr) (x : BitVec 384) : StaysSafe (execKvSeqClose h x s) :=
  firmware_staysSafe hs (doKv_staysSafe hs ..)

@[simp] theorem execKvSeqQuery_staysSafe (h : Hdr) (x : BitVec 384) : StaysSafe (execKvSeqQuery h x s) :=
  firmware_staysSafe hs (doKv_staysSafe hs ..)

@[simp] theorem execKvPoolQuery_staysSafe (h : Hdr) (x : BitVec 384) : StaysSafe (execKvPoolQuery h x s) :=
  firmware_staysSafe hs (doKv_staysSafe hs ..)

@[simp] theorem execKvRingOpen_staysSafe (h : Hdr) (x : BitVec 384) : StaysSafe (execKvRingOpen h x s) :=
  firmware_staysSafe hs (doKv_staysSafe hs ..)

@[simp] theorem execKvRingStep_staysSafe (h : Hdr) (x : BitVec 384) : StaysSafe (execKvRingStep h x s) :=
  firmware_staysSafe hs (doKv_staysSafe hs ..)

@[simp] theorem execKvPartialSend_staysSafe (h : Hdr) (x : BitVec 384) : StaysSafe (execKvPartialSend h x s) :=
  firmware_staysSafe hs (doKv_staysSafe hs ..)

@[simp] theorem execKvRingClose_staysSafe (h : Hdr) (x : BitVec 384) : StaysSafe (execKvRingClose h x s) :=
  firmware_staysSafe hs (doKv_staysSafe hs ..)

@[simp] theorem execCarryOpen_staysSafe (h : Hdr) (x : BitVec 384) : StaysSafe (execCarryOpen h x s) :=
  firmware_staysSafe hs (doKv_staysSafe hs ..)

@[simp] theorem execCarryClose_staysSafe (h : Hdr) (x : BitVec 384) : StaysSafe (execCarryClose h x s) :=
  firmware_staysSafe hs (doKv_staysSafe hs ..)

@[simp] theorem execCarrySwapOut_staysSafe (h : Hdr) (x : BitVec 384) : StaysSafe (execCarrySwapOut h x s) :=
  firmware_staysSafe hs (doKv_staysSafe hs ..)

@[simp] theorem execCarrySwapIn_staysSafe (h : Hdr) (x : BitVec 384) : StaysSafe (execCarrySwapIn h x s) :=
  firmware_staysSafe hs (doKv_staysSafe hs ..)

@[simp] theorem execCarryReset_staysSafe (h : Hdr) (x : BitVec 384) : StaysSafe (execCarryReset h x s) :=
  firmware_staysSafe hs (doKv_staysSafe hs ..)

@[simp] theorem execCarryQuery_staysSafe (h : Hdr) (x : BitVec 384) : StaysSafe (execCarryQuery h x s) :=
  firmware_staysSafe hs (doKv_staysSafe hs ..)

@[simp] theorem execCarryExport_staysSafe (h : Hdr) (x : BitVec 384) : StaysSafe (execCarryExport h x s) :=
  firmware_staysSafe hs (doKv_staysSafe hs ..)

@[simp] theorem execCarryImport_staysSafe (h : Hdr) (x : BitVec 384) : StaysSafe (execCarryImport h x s) :=
  firmware_staysSafe hs (doKv_staysSafe hs ..)

@[simp] theorem execCarrySwapDone_staysSafe (n : BitVec 12) : StaysSafe (execCarrySwapDone n s) := by
  unfold execCarrySwapDone
  dsimp only
  split <;> simp [hs]

@[simp] theorem execPageTakeResume_staysSafe (p : Fin 16) : StaysSafe (execPageTakeResume p s) := by
  unfold execPageTakeResume
  split <;> simp [hs]

@[simp] theorem execRingSendDone_staysSafe (g : Fin 16) : StaysSafe (execRingSendDone g s) := by
  unfold execRingSendDone
  dsimp only
  split <;> simp [hs]

@[simp] theorem execRingArrival_staysSafe (g : Fin 16) : StaysSafe (execRingArrival g s) := by
  unfold execRingArrival
  split
  · simpa using hs
  · dsimp only
    split
    · simpa using hs
    · split
      · simpa using hs
      · split
        · simpa using hs
        · split
          · simpa using hs
          next hshard => simp [State.shardIn_saf_safe hshard, hs]

@[simp] theorem execPartialArrival_staysSafe (g : Fin 16) : StaysSafe (execPartialArrival g s) := by
  unfold execPartialArrival
  split <;> simp [hs]

/-! ### The safety mechanisms -/

@[simp] theorem execSafReactSet_staysSafe (h : Hdr) (code : BitVec 16) (cls reaction : Byte) :
    StaysSafe (execSafReactSet h code cls reaction s) :=
  firmware_staysSafe hs (checks_staysSafe (by simp [hs]) _)

@[simp] theorem execSafReactQuery_staysSafe (h : Hdr) (code : BitVec 16) (cls : Byte) : StaysSafe (execSafReactQuery h code cls s) :=
  firmware_staysSafe hs (checks_staysSafe (by simp [hs]) _)

@[simp] theorem execSafGoldenSet_staysSafe (h : Hdr) (index : Byte) (expect : BitVec 64) :
    StaysSafe (execSafGoldenSet h index expect s) :=
  firmware_staysSafe hs (checks_staysSafe (by simp [hs]) _)

@[simp] theorem execSafFaultInject_staysSafe (h : Hdr) (code : BitVec 16) (device : Byte) (job : BitVec 16) :
    StaysSafe (execSafFaultInject h code device job s) :=
  firmware_staysSafe hs (checks_staysSafe (by simp [hs]) _)

@[simp] theorem execSafQuery_staysSafe (h : Hdr) : StaysSafe (execSafQuery h s) := firmware_staysSafe hs (checks_staysSafe (by simp [hs]) _)

@[simp] theorem execSafCtlRelease_staysSafe (by_ : Writer) (value : Word) : StaysSafe (execSafCtlRelease by_ value s) := by
  simp [execSafCtlRelease, hs]

@[simp] theorem execSupLockstep_staysSafe (disagree : Bool) : StaysSafe (execSupLockstep disagree s) := by
  unfold execSupLockstep
  split
  · simpa using hs
  · exact (staysSafe_next _).2 (State.settle_saf_safe hs)

@[simp] theorem execSafDisagree_staysSafe : StaysSafe (execSafDisagree s) := by
  simp [execSafDisagree, hs]

@[simp] theorem execWdgLate_staysSafe (i : Byte) (ticks : Word) (job : Option (BitVec 10)) : StaysSafe (execWdgLate i ticks job s) := by
  unfold execWdgLate
  split
  · simpa using hs
  · extract_lets
    split
    · simpa using hs
    · split
      · exact (staysSafe_next _).2 (State.settle_saf_safe hs)
      · split
        · exact (staysSafe_next _).2 (State.settle_saf_safe hs)
        · simpa using hs

@[simp] theorem execKvJobPortRequest_staysSafe (rod : Fin 64) (port : Fin 16) (data : List Byte) :
    StaysSafe (execKvJobPortRequest rod port data s) := by
  simp [execKvJobPortRequest, hs]

@[simp] theorem execKvCommandDone_staysSafe (p : Fin 16) : StaysSafe (execKvCommandDone p s) := by
  simp [execKvCommandDone, hs]

@[simp] theorem execKvTableUe_staysSafe : StaysSafe (execKvTableUe s) := by
  simp [execKvTableUe, hs]

@[simp] theorem execLoopEvaluation_staysSafe (n : Fin 128) : StaysSafe (execLoopEvaluation n s) := by
  simp [execLoopEvaluation, hs]

@[simp] theorem execEncoderUpdate_staysSafe (e : Fin 32) (a b z : Bool) : StaysSafe (execEncoderUpdate e a b z s) := by
  simp [execEncoderUpdate, hs]

@[simp] theorem execCleSdClock_staysSafe (c : Fin 32) : StaysSafe (execCleSdClock c s) := by
  simp [execCleSdClock, hs]

@[simp] theorem execCleMailboxPortWrite_staysSafe (rod : Fin 64) (loop : Fin 128) (data : List Byte) :
    StaysSafe (execCleMailboxPortWrite rod loop data s) := by
  simp [execCleMailboxPortWrite, hs]

@[simp] theorem execInputAdmit_staysSafe (point : Byte) : StaysSafe (execInputAdmit point s) := by
  simp [execInputAdmit, hs]

/-! ### Journal and replay -/

@[simp] theorem execJournalOpen_staysSafe (h : Hdr) (ring : BitVec 16) (base bytes : BitVec 64) :
    StaysSafe (execJournalOpen h ring base bytes s) :=
  firmware_staysSafe hs (checks_staysSafe (by simp [hs]) _)

@[simp] theorem execJournalClose_staysSafe (h : Hdr) : StaysSafe (execJournalClose h s) :=
  firmware_staysSafe hs (checks_staysSafe (by simp [hs]) _)

@[simp] theorem execReplayOpen_staysSafe (h : Hdr) (ring : BitVec 16) (base bytes : BitVec 64) :
    StaysSafe (execReplayOpen h ring base bytes s) :=
  firmware_staysSafe hs (checks_staysSafe (by simp [hs]) _)

@[simp] theorem execReplayClose_staysSafe (h : Hdr) : StaysSafe (execReplayClose h s) :=
  firmware_staysSafe hs (checks_staysSafe (by simp [hs]) _)

@[simp] theorem execCrossingQuery_staysSafe (h : Hdr) (kind inst : Byte) : StaysSafe (execCrossingQuery h kind inst s) :=
  firmware_staysSafe hs (checks_staysSafe (by simp [hs]) _)

@[simp] theorem execCrossingLate_staysSafe (kind inst : Byte) (job : Option (BitVec 10)) (point : Option Byte) :
    StaysSafe (execCrossingLate kind inst job point s) := by
  unfold execCrossingLate
  split <;> simp [hs]

@[simp] theorem execJournalGapRecord_staysSafe : StaysSafe (execJournalGapRecord s) := by
  simp [execJournalGapRecord, hs]

@[simp] theorem execReplayAdmit_staysSafe : StaysSafe (execReplayAdmit s) := by
  unfold execReplayAdmit
  dsimp only
  repeat' split
  all_goals simp [hs]

/-! ### Rods and split-lock pairs -/

@[simp] theorem execRodPairCtlWrite_staysSafe (by_ : Writer) (rod : Fin 64) (value : Word) :
    StaysSafe (execRodPairCtlWrite by_ rod value s) := by
  simp [execRodPairCtlWrite, hs]

@[simp] theorem execLockHandover_staysSafe (pair : Fin 32) : StaysSafe (execLockHandover pair s) := by
  unfold execLockHandover
  dsimp only
  repeat' split
  all_goals simp [hs]

@[simp] theorem execSplitHandover_staysSafe (pair : Fin 32) : StaysSafe (execSplitHandover pair s) := by
  simp [execSplitHandover, hs]

@[simp] theorem execCeClear_staysSafe (by_ : Writer) (rod : Fin 64) : StaysSafe (execCeClear by_ rod s) := by
  simp [execCeClear, hs]

@[simp] theorem execScrubGap_staysSafe (rod : Fin 64) : StaysSafe (execScrubGap rod s) := by
  simp [execScrubGap, hs]

/-! ### The rod sequencer -/

theorem State.instr_staysSafe (n op : Nat) {k : Nat → State → State} (hk : ∀ w s, (k w s).saf.safe = s.saf.safe) :
    StaysSafe (s.instr n op k) := by
  unfold State.instr
  extract_lets
  split
  · simpa using hs
  · split
    · simp [hs]
    · split
      all_goals
        next hcode =>
        have hs' := (snd_saf_safe_of_eq hcode).trans ((State.holdCode_saf_safe ..).trans hs)
        simp [hk, hs, hs']

@[simp] theorem execLoop_staysSafe (rod : Fin 64) : StaysSafe (execLoop rod s) :=
  State.instr_staysSafe hs _ _ fun _ s => State.startLoop_saf_safe s ..

@[simp] theorem execLoopi_staysSafe (rod : Fin 64) : StaysSafe (execLoopi rod s) :=
  State.instr_staysSafe hs _ _ fun _ s => State.startLoop_saf_safe s ..

@[simp] theorem execAddi_staysSafe (rod : Fin 64) : StaysSafe (execAddi rod s) :=
  State.instr_staysSafe hs _ _ fun _ s => State.retire_saf_safe s ..

@[simp] theorem execAlu_staysSafe (rod : Fin 64) : StaysSafe (execAlu rod s) :=
  State.instr_staysSafe hs _ _ fun _ s => State.retire_saf_safe s ..

@[simp] theorem execLui_staysSafe (rod : Fin 64) : StaysSafe (execLui rod s) :=
  State.instr_staysSafe hs _ _ fun _ s => State.retire_saf_safe s ..

@[simp] theorem execLdw_staysSafe (rod : Fin 64) : StaysSafe (execLdw rod s) :=
  State.instr_staysSafe hs _ _ fun _ _ => by
    dsimp only
    split
    · simp
    · split
      next h => rw [snd_saf_safe_of_eq h, State.spadRead_saf_safe]
      next h => rw [State.retire_saf_safe, State.count_saf_safe, snd_saf_safe_of_eq h, State.spadRead_saf_safe]

@[simp] theorem execBr_staysSafe (rod : Fin 64) : StaysSafe (execBr rod s) := State.instr_staysSafe hs _ _ fun _ _ => by simp

@[simp] theorem execWait_staysSafe (rod : Fin 64) : StaysSafe (execWait rod s) :=
  State.instr_staysSafe hs _ _ fun _ s => State.waitStep_saf_safe s ..

@[simp] theorem execWaitSatisfied_staysSafe (rod : Fin 64) : StaysSafe (execWaitSatisfied rod s) := by
  unfold execWaitSatisfied
  split
  · exact execWait_staysSafe hs rod
  · simpa using hs

@[simp] theorem execSignal_staysSafe (rod : Fin 64) : StaysSafe (execSignal rod s) :=
  State.instr_staysSafe hs _ _ fun _ _ => by
    dsimp only
    split
    · simp
    · cases (State.rod _ _).job <;> simp

@[simp] theorem execFence_staysSafe (rod : Fin 64) : StaysSafe (execFence rod s) := State.instr_staysSafe hs _ _ fun _ _ => by simp
@[simp] theorem execAlign_staysSafe (rod : Fin 64) : StaysSafe (execAlign rod s) := State.instr_staysSafe hs _ _ fun _ _ => by simp

@[simp] theorem execRds_staysSafe (rod : Fin 64) : StaysSafe (execRds rod s) :=
  State.instr_staysSafe hs _ _ fun _ _ => by
    dsimp only
    split <;> simp

@[simp] theorem execSetb_staysSafe (rod : Fin 64) : StaysSafe (execSetb rod s) := State.instr_staysSafe hs _ _ fun _ _ => by simp

@[simp] theorem execIssue_staysSafe (rod : Fin 64) : StaysSafe (execIssue rod s) :=
  State.instr_staysSafe hs _ _ fun _ s => State.issueStep_saf_safe s ..

@[simp] theorem execScanIssueResume_staysSafe (rod : Fin 64) : StaysSafe (execScanIssueResume rod s) := by
  unfold execScanIssueResume
  split
  · exact execIssue_staysSafe hs rod
  · simpa using hs

@[simp] theorem execTileEnd_staysSafe (rod : Fin 64) : StaysSafe (execTileEnd rod s) := State.instr_staysSafe hs _ _ fun _ _ => by simp

@[simp] theorem execHalt_staysSafe (rod : Fin 64) : StaysSafe (execHalt rod s) :=
  State.instr_staysSafe hs _ _ fun _ _ => by
    dsimp only
    split
    · simp
    · split <;> simp

@[simp] theorem execTrap_staysSafe (rod : Fin 64) : StaysSafe (execTrap rod s) := State.instr_staysSafe hs _ _ fun _ _ => by simp

@[simp] theorem execTileOverrun_staysSafe (rod : Fin 64) : StaysSafe (execTileOverrun rod s) := by
  simp [execTileOverrun, hs]

@[simp] theorem execDescOverrun_staysSafe (rod : Fin 64) (unit : Fin 4) : StaysSafe (execDescOverrun rod unit s) := by
  simp [execDescOverrun, hs]

/-! ### A rod's units -/

theorem State.start_staysSafe (n op : Nat) {k : Desc → DescEnv → State → State} (hk : ∀ d e s, (k d e s).saf.safe = s.saf.safe) :
    StaysSafe (s.start n op k) := by
  have settled {t : State} (ht : t.saf.safe = true) : StaysSafe (.next t.settle) := (staysSafe_next _).2 (State.settle_saf_safe ht)
  unfold State.start
  extract_lets
  split
  · exact (staysSafe_next _).2 hs
  · split
    · exact (staysSafe_next _).2 hs
    · extract_lets
      split
      next hread => exact settled ((snd_saf_safe_of_eq hread).trans ((State.spadRead_saf_safe ..).trans hs))
      next hread =>
        have hs1 := (snd_saf_safe_of_eq hread).trans ((State.spadRead_saf_safe ..).trans hs)
        split
        · exact settled ((State.rodFault_saf_safe ..).trans hs1)
        · extract_lets
          split
          next htouch => exact settled ((snd_saf_safe_of_eq htouch).trans ((State.touch_saf_safe ..).trans hs1))
          next htouch =>
            extract_lets s2 s' s3
            have hs2 : s2.saf.safe = true :=
              (State.count_saf_safe ..).trans ((snd_saf_safe_of_eq htouch).trans ((State.touch_saf_safe ..).trans hs1))
            have hs3 : s3.saf.safe = true := by
              rw [show s3.saf = _ from State.updRod_saf .., State.trace_saf_safe, hs2]
            have hs' : s'.saf.safe = true := by
              rw [show s'.saf.safe = _ from ite_saf_safe .., State.rodFault_saf_safe, ite_self, hs2]
            split
            · exact settled ((State.rodFault_saf_safe ..).trans hs2)
            · split
              · refine settled ?_
                rw [ite_saf_safe, State.rodFault_saf_safe, ite_self, hs']
              · split
                next htouch' => exact settled ((snd_saf_safe_of_eq htouch').trans ((State.touch_saf_safe s3 ..).trans hs3))
                next htouch' =>
                  have hs4 := (snd_saf_safe_of_eq htouch').trans ((State.touch_saf_safe s3 ..).trans hs3)
                  exact settled ((State.lockstep_saf_safe _ _ (hk _ _)).trans ((State.count_saf_safe ..).trans hs4))

@[simp] theorem execDescEnd_staysSafe (rod : Fin 64) (unit : Fin 4) : StaysSafe (execDescEnd rod unit s) := by
  unfold execDescEnd
  dsimp only
  split <;> simp [hs]

/-! ### Matrix units -/

@[simp] theorem execMatmul_staysSafe (rod : Fin 64) : StaysSafe (execMatmul rod s) :=
  State.start_staysSafe hs _ _ fun d e s => State.matmul_saf_safe s rod.val d e

@[simp] theorem execConv_staysSafe (rod : Fin 64) : StaysSafe (execConv rod s) :=
  State.start_staysSafe hs _ _ fun d e s => State.matmul_saf_safe s rod.val d e

@[simp] theorem execElemwise_staysSafe (rod : Fin 64) : StaysSafe (execElemwise rod s) :=
  State.start_staysSafe hs _ _ fun d e s => State.elemwise_saf_safe s rod.val d e

@[simp] theorem execConvert_staysSafe (rod : Fin 64) : StaysSafe (execConvert rod s) :=
  State.start_staysSafe hs _ _ fun d e s => State.convert_saf_safe s rod.val d e

@[simp] theorem execPool_staysSafe (rod : Fin 64) : StaysSafe (execPool rod s) :=
  State.start_staysSafe hs _ _ fun d e s => State.poolUnit_saf_safe s rod.val d e

/-! ### Attention units -/

@[simp] theorem execAttnScore_staysSafe (rod : Fin 64) : StaysSafe (execAttnScore rod s) :=
  State.start_staysSafe hs _ _ fun d e s => State.attnScore_saf_safe s rod.val d e

@[simp] theorem execAttnMerge_staysSafe (rod : Fin 64) : StaysSafe (execAttnMerge rod s) :=
  State.start_staysSafe hs _ _ fun d e s => State.attnMerge_saf_safe s rod.val d e

/-! ### The partner device -/

@[simp] theorem execTybPartnerConfig_staysSafe (h : Hdr) (port enable hbMiss : Byte) (hbUs tolNs : Word) (peer : BitVec 16) :
    StaysSafe (execTybPartnerConfig h port enable hbMiss hbUs tolNs peer s) :=
  firmware_staysSafe hs (checks_staysSafe (by simp [hs]) _)

@[simp] theorem execTybSigConfig_staysSafe (h : Hdr) (slot part enable : Byte) : StaysSafe (execTybSigConfig h slot part enable s) :=
  firmware_staysSafe hs (checks_staysSafe (by simp [hs]) _)

@[simp] theorem execHeartbeatSend_staysSafe : StaysSafe (execHeartbeatSend s) := by
  simp [execHeartbeatSend, hs]

@[simp] theorem execHeartbeatRx_staysSafe (p : Fin 2) : StaysSafe (execHeartbeatRx p s) := by
  unfold execHeartbeatRx
  split
  · simpa using hs
  next hm =>
    have hs' := (State.takeMsg_saf_safe hm).trans hs
    split
    · simpa using hs'
    · exact (staysSafe_next _).2 (State.settle_saf_safe (by simp [hs']))

@[simp] theorem execPartnerLost_staysSafe : StaysSafe (execPartnerLost s) := by
  simp [execPartnerLost, hs]

@[simp] theorem execTybSigWrite_staysSafe (rod : Fin 64) (slot : BitVec 4) (data : List Byte) :
    StaysSafe (execTybSigWrite rod slot data s) := by
  unfold execTybSigWrite
  split <;> simp [hs]

@[simp] theorem execSignatureRx_staysSafe (p : Fin 2) : StaysSafe (execSignatureRx p s) := by
  unfold execSignatureRx
  split
  · simpa using hs
  next hm =>
    have hs' := (State.takeMsg_saf_safe hm).trans hs
    extract_lets
    split
    · simpa using hs'
    · exact (staysSafe_next _).2 (State.settle_saf_safe (by simp [hs']))

@[simp] theorem execWitnessRx_staysSafe (p : Fin 2) : StaysSafe (execWitnessRx p s) := by
  unfold execWitnessRx
  split
  · simpa using hs
  next hm =>
    have hs' := (State.takeMsg_saf_safe hm).trans hs
    split
    · simpa using hs'
    · extract_lets
      split
      · simpa using hs'
      · split
        · simpa using hs'
        · exact (staysSafe_next _).2 (State.settle_saf_safe (by simp [hs']))

/-! ### Plans -/

@[simp] theorem execLoadPlan_staysSafe (h : Hdr) (addr : BitVec 64) (bytes : Word) : StaysSafe (execLoadPlan h addr bytes s) :=
  firmware_staysSafe hs (checks_staysSafe (by simp [hs]) _)

@[simp] theorem execPlanLoadDone_staysSafe : StaysSafe (execPlanLoadDone s) := by
  unfold execPlanLoadDone
  dsimp only
  repeat' split
  all_goals simp [hs]

@[simp] theorem execStartPlan_staysSafe (h : Hdr) (mode pin : Byte) (at_ : BitVec 64) : StaysSafe (execStartPlan h mode pin at_ s) := by
  refine firmware_staysSafe hs ?_
  unfold doStartPlan
  dsimp only
  split <;> simp [hs]

@[simp] theorem execPlanStartFire_staysSafe : StaysSafe (execPlanStartFire s) := by
  unfold execPlanStartFire
  split <;> simp [hs]

@[simp] theorem execStopPlan_staysSafe (h : Hdr) (mode : Byte) : StaysSafe (execStopPlan h mode s) :=
  firmware_staysSafe hs (checks_staysSafe (by simp [hs]) _)

@[simp] theorem execPlanStopFrameEnd_staysSafe : StaysSafe (execPlanStopFrameEnd s) := by
  simp [execPlanStopFrameEnd, hs]

@[simp] theorem execUnloadPlan_staysSafe (h : Hdr) : StaysSafe (execUnloadPlan h s) :=
  firmware_staysSafe hs (checks_staysSafe (by simp [hs]) _)

@[simp] theorem execPlanQuery_staysSafe (h : Hdr) : StaysSafe (execPlanQuery h s) := firmware_staysSafe hs (by simp [doPlanQuery, hs])

@[simp] theorem execJobStart_staysSafe (h : Hdr) (job : BitVec 16) : StaysSafe (execJobStart h job s) :=
  fastPath_staysSafe hs (checks_staysSafe (by simp [hs]) _)

@[simp] theorem execJobQuery_staysSafe (h : Hdr) (job : BitVec 16) : StaysSafe (execJobQuery h job s) :=
  firmware_staysSafe hs (checks_staysSafe (by simp [hs]) _)

@[simp] theorem execPartitionHalt_staysSafe (h : Hdr) (p : Byte) : StaysSafe (execPartitionHalt h p s) :=
  firmware_staysSafe hs (checks_staysSafe (by simp [hs]) _)

@[simp] theorem execPartitionResume_staysSafe (h : Hdr) (p : Byte) : StaysSafe (execPartitionResume h p s) :=
  firmware_staysSafe hs (checks_staysSafe (by simp [hs]) _)

@[simp] theorem execSelftestQuery_staysSafe (h : Hdr) (rod : Byte) : StaysSafe (execSelftestQuery h rod s) :=
  firmware_staysSafe hs (checks_staysSafe (by simp [hs]) _)

/-! ### The beam -/

@[simp] theorem execBeam_staysSafe (w : Byte) : StaysSafe (execBeam w s) := by
  unfold execBeam
  split <;> simp [hs]

@[simp] theorem execPreemptRequest_staysSafe : StaysSafe (execPreemptRequest s) := by
  unfold execPreemptRequest
  split <;> simp [hs]

@[simp] theorem execJobRunStart_staysSafe (j : BitVec 10) : StaysSafe (execJobRunStart j s) := by
  unfold execJobRunStart
  split <;> simp [hs]

@[simp] theorem execContextSaveDone_staysSafe (j : BitVec 10) : StaysSafe (execContextSaveDone j s) := by
  unfold execContextSaveDone
  dsimp only
  split <;> simp [hs]

@[simp] theorem execContextRestoreDone_staysSafe (j : BitVec 10) : StaysSafe (execContextRestoreDone j s) := by
  obtain ⟨restore, hrestore, hsafe⟩ := exists_restoreRod
  have hdef : @execContextRestoreDone = @execContextRestoreDone := rfl
  conv at hdef => rhs; delta execContextRestoreDone
  rw [← hrestore] at hdef
  rw [hdef]
  dsimp only
  exact (staysSafe_next _).2 (State.settle_saf_safe ((foldl_saf_safe (fun n t => hsafe t n j.toNat) _ s).trans hs))

@[simp] theorem execReloadComplete_staysSafe (j : BitVec 10) : StaysSafe (execReloadComplete j s) := by
  unfold execReloadComplete
  dsimp only
  split <;> simp [hs]

@[simp] theorem execSelftestSliceStop_staysSafe (rod : Fin 64) : StaysSafe (execSelftestSliceStop rod s) := by
  simp [execSelftestSliceStop, hs]

@[simp] theorem execSelftestSegmentDone_staysSafe (rod : Fin 64) (pass last : Bool) :
    StaysSafe (execSelftestSegmentDone rod pass last s) := by
  simp [execSelftestSegmentDone, hs]

/-! ### Security commands -/

theorem State.program_staysSafe (h : Hdr) (kind which value : Nat) (rows commit : List (Nat × Word)) :
    (s.program h kind which value rows commit).StaysSafe :=
  hs

@[simp] theorem execOtpCommit_staysSafe (h : Hdr) (block : BitVec 1024) : StaysSafe (execOtpCommit h block s) :=
  firmware_staysSafe hs (checks_staysSafe (State.program_staysSafe hs ..) _)

@[simp] theorem execOtpQuery_staysSafe (h : Hdr) (first rows : BitVec 16) : StaysSafe (execOtpQuery h first rows s) :=
  firmware_staysSafe hs (checks_staysSafe (by simp [hs]) _)

@[simp] theorem execSvnAdvance_staysSafe (h : Hdr) (counter target : Byte) : StaysSafe (execSvnAdvance h counter target s) := by
  refine firmware_staysSafe hs ?_
  unfold doSvnAdvance
  extract_lets
  split
  · exact hs
  · exact checks_staysSafe (State.program_staysSafe hs ..) _

@[simp] theorem execOwnerProvision_staysSafe (h : Hdr) (params : List Byte) : StaysSafe (execOwnerProvision h params s) :=
  firmware_staysSafe hs (checks_staysSafe (State.program_staysSafe hs ..) _)

theorem authFail_staysSafe : (authFail s).StaysSafe := by
  simp [authFail, hs]

@[simp] theorem execOwnerKeyLoad_staysSafe (h : Hdr) (slot : Byte) (key : List Byte) : StaysSafe (execOwnerKeyLoad h slot key s) :=
  firmware_staysSafe hs (checks_staysSafe (by simp [authFail_staysSafe hs, hs]) _)

@[simp] theorem execOwnerKeyRevoke_staysSafe (h : Hdr) (slot : Byte) : StaysSafe (execOwnerKeyRevoke h slot s) :=
  firmware_staysSafe hs (checks_staysSafe (State.program_staysSafe (by exact hs) ..) _)

@[simp] theorem execLcRetire_staysSafe (h : Hdr) : StaysSafe (execLcRetire h s) :=
  firmware_staysSafe hs (checks_staysSafe (State.program_staysSafe hs ..) _)

@[simp] theorem execLedgerNew_staysSafe (h : Hdr) : StaysSafe (execLedgerNew h s) :=
  firmware_staysSafe hs (checks_staysSafe (State.program_staysSafe hs ..) _)

@[simp] theorem execOtpProgramDone_staysSafe (bad : Option (BitVec 10 × Word)) : StaysSafe (execOtpProgramDone bad s) := by
  unfold execOtpProgramDone
  dsimp only
  repeat' split
  all_goals simp [hs]

@[simp] theorem execOtpSuspendTimeout_staysSafe : StaysSafe (execOtpSuspendTimeout s) := by
  unfold execOtpSuspendTimeout
  split <;> simp [hs]

@[simp] theorem execSettingsOverride_staysSafe (h : Hdr) (block : BitVec 2048) : StaysSafe (execSettingsOverride h block s) :=
  firmware_staysSafe hs (checks_staysSafe (by simp [authFail_staysSafe hs, hs]) _)

@[simp] theorem execAttest_staysSafe (h : Hdr) (nonce : BitVec 384) (dest : BitVec 64) : StaysSafe (execAttest h nonce dest s) :=
  firmware_staysSafe hs (checks_staysSafe (by simp [hs]) _)

@[simp] theorem execDebugChallenge_staysSafe (h : Hdr) : StaysSafe (execDebugChallenge h s) :=
  firmware_staysSafe hs (checks_staysSafe (by simp [hs]) _)

@[simp] theorem execDebugUnlock_staysSafe (h : Hdr) (token : List Byte) : StaysSafe (execDebugUnlock h token s) :=
  firmware_staysSafe hs (checks_staysSafe (by simp [authFail_staysSafe hs, hs]) _)

@[simp] theorem execJtagInstruction_staysSafe (ir : JtagIr) : StaysSafe (execJtagInstruction ir s) := by
  cases ir <;> simp [execJtagInstruction, hs, staysSafe_refused]

@[simp] theorem execLedgerOpen_staysSafe (h : Hdr) (record : List Byte) : StaysSafe (execLedgerOpen h record s) :=
  firmware_staysSafe hs (checks_staysSafe (by simp [hs]) _)

@[simp] theorem execLedgerFetch_staysSafe (h : Hdr) : StaysSafe (execLedgerFetch h s) := by
  refine firmware_staysSafe hs ?_
  unfold doLedgerFetch
  dsimp only
  split <;> simp [hs]

@[simp] theorem execLedgerAck_staysSafe (h : Hdr) (seq : BitVec 64) : StaysSafe (execLedgerAck h seq s) :=
  firmware_staysSafe hs (checks_staysSafe (by simp [hs]) _)

@[simp] theorem execLedgerNote_staysSafe (h : Hdr) (note : List Byte) : StaysSafe (execLedgerNote h note s) :=
  firmware_staysSafe hs (checks_staysSafe (by simp [hs]) _)

/-! ### Boot -/

@[simp] theorem execSecBootWindowWrite_staysSafe (fn : Fin 16) (off : BitVec 19) (data : List Byte) :
    StaysSafe (execSecBootWindowWrite fn off data s) := by
  simp [execSecBootWindowWrite, hs]

@[simp] theorem execSecBootGo_staysSafe (fn : Fin 16) (value : Word) : StaysSafe (execSecBootGo fn value s) := by
  simp [execSecBootGo, State.verifyImage_saf_safe, hs]

@[simp] theorem execBootRom_staysSafe (marks : List (BitVec 10 × Fin 4)) (link : UcieLink) : StaysSafe (execBootRom marks link s) := by
  unfold execBootRom
  split
  · simpa using hs
  · extract_lets
    split
    · exact staysSafe_fault _
    · split
      · simpa using hs
      next htrain =>
        have hs' := (State.trained_saf_safe htrain).trans hs
        simp [State.verifyImage_saf_safe, hs']

@[simp] theorem execOverrideWaitExpiry_staysSafe : StaysSafe (execOverrideWaitExpiry s) := by
  simp [execOverrideWaitExpiry, hs]

@[simp] theorem execMemInitSequence_staysSafe (dev : MemDev) (fail : Option (Fin 32 × Fin 7)) :
    StaysSafe (execMemInitSequence dev fail s) := by
  unfold execMemInitSequence
  dsimp only
  repeat' split
  all_goals simp [hs]

@[simp] theorem execBootReady_staysSafe : StaysSafe (execBootReady s) := by
  simp [execBootReady, hs]

@[simp] theorem execWearRecord_staysSafe (age : BitVec 384) (temps : BitVec 128) : StaysSafe (execWearRecord age temps s) := by
  simp [execWearRecord, hs]

/-! ### The memory system -/

@[simp] theorem execMemDataSlot_staysSafe (island : Fin 4) (j : Nat) : StaysSafe (execMemDataSlot island j s) := by
  unfold execMemDataSlot
  dsimp only
  repeat' split
  all_goals simp [hs]

@[simp] theorem execMemRefresh_staysSafe (channel : Fin 32) (temp : Byte) (high : Bool) (wrCe : Word) (wrUe : Bool) :
    StaysSafe (execMemRefresh channel temp high wrCe wrUe s) := by
  simp [execMemRefresh, hs]

@[simp] theorem execMemScrub_staysSafe (channel : Fin 32) (bank : Fin 16) : StaysSafe (execMemScrub channel bank s) := by
  simp [execMemScrub, hs]

/-! ### Sensor streams -/

@[simp] theorem execPortConfig_staysSafe (h : Hdr) (port phy lanes : Byte) (rate : BitVec 16) :
    StaysSafe (execPortConfig h port phy lanes rate s) :=
  firmware_staysSafe hs (checks_staysSafe (by simp [hs]) _)

@[simp] theorem execStreamConfig_staysSafe (h : Hdr) (point : Byte) (desc : BitVec 2048) : StaysSafe (execStreamConfig h point desc s) :=
  firmware_staysSafe hs (checks_staysSafe (by simp [hs]) _)

@[simp] theorem execRecordConfig_staysSafe (h : Hdr) (point : Byte) (desc : BitVec 2048) : StaysSafe (execRecordConfig h point desc s) :=
  firmware_staysSafe hs (checks_staysSafe (by simp [hs]) _)

@[simp] theorem execStreamEnable_staysSafe (h : Hdr) (point : Byte) : StaysSafe (execStreamEnable h point s) :=
  firmware_staysSafe hs (checks_staysSafe (by simp [hs]) _)

@[simp] theorem execStreamDisable_staysSafe (h : Hdr) (point : Byte) : StaysSafe (execStreamDisable h point s) :=
  firmware_staysSafe hs (checks_staysSafe (by simp [hs]) _)

@[simp] theorem execRecordSubmit_staysSafe (h : Hdr) (point : Byte) (addr : BitVec 64) (bytes : Word) :
    StaysSafe (execRecordSubmit h point addr bytes s) :=
  firmware_staysSafe hs (checks_staysSafe (by simp [hs]) _)

@[simp] theorem execStreamQuery_staysSafe (h : Hdr) (point clear : Byte) : StaysSafe (execStreamQuery h point clear s) :=
  firmware_staysSafe hs (checks_staysSafe (by simp [hs]) _)

@[simp] theorem execCsiFrameStart_staysSafe (port : Fin 16) (vc : BitVec 2) (num : BitVec 16) (ecc : Fin 3) :
    StaysSafe (execCsiFrameStart port vc num ecc s) := by
  simp [execCsiFrameStart, hs]

@[simp] theorem execCsiLine_staysSafe (port : Fin 16) (k : CsiPkt) : StaysSafe (execCsiLine port k s) := by
  simp [execCsiLine, hs]

@[simp] theorem execCsiFrameEnd_staysSafe (port : Fin 16) (vc : BitVec 2) (ecc : Fin 3) : StaysSafe (execCsiFrameEnd port vc ecc s) := by
  simp [execCsiFrameEnd, hs]

@[simp] theorem execPatternInjection_staysSafe (port : Fin 16) : StaysSafe (execPatternInjection port s) := by
  simp [execPatternInjection, hs]

@[simp] theorem execCsiPhyLockChange_staysSafe (port : Fin 16) (locked : Bool) : StaysSafe (execCsiPhyLockChange port locked s) := by
  simp [execCsiPhyLockChange, hs]

@[simp] theorem execSnsRoiWrite_staysSafe (rod : Fin 64) (stream : Fin 32) (data : List Byte) :
    StaysSafe (execSnsRoiWrite rod stream data s) := by
  unfold execSnsRoiWrite
  split <;> simp [hs]

@[simp] theorem execRecordDecodeStart_staysSafe (dec : Fin 3) (n : Fin 32) : StaysSafe (execRecordDecodeStart dec n s) := by
  unfold execRecordDecodeStart
  dsimp only
  repeat' split
  all_goals simp [hs]

@[simp] theorem execRecordDecodeEnd_staysSafe (n : Fin 32) : StaysSafe (execRecordDecodeEnd n s) := by
  unfold execRecordDecodeEnd
  dsimp only
  split <;> simp [hs]

@[simp] theorem execDecodeBudget_staysSafe (n : Fin 32) : StaysSafe (execDecodeBudget n s) := by
  unfold execDecodeBudget
  dsimp only
  split <;> simp [hs]

/-! ### The data mover -/

@[simp] theorem execDmaMove_staysSafe (rod : Fin 64) : StaysSafe (execDmaMove rod s) := by
  unfold execDmaMove
  split
  · simpa using hs
  · exact State.start_staysSafe hs _ _ fun d e s => State.dmaMove_saf_safe s rod.val d e

/-! ### Power -/

@[simp] theorem execPwrPlanWrite_staysSafe (fn : Fin 16) (value : Word) : StaysSafe (execPwrPlanWrite fn value s) := by
  simp [execPwrPlanWrite, hs]

@[simp] theorem execPwrThermWarnWrite_staysSafe (fn : Fin 16) (value : Word) : StaysSafe (execPwrThermWarnWrite fn value s) := by
  simp [execPwrThermWarnWrite, hs]

@[simp] theorem execPwrSupClear_staysSafe (fn : Fin 16) (value : Word) : StaysSafe (execPwrSupClear fn value s) := by
  simp [execPwrSupClear, hs]

@[simp] theorem execGuardSample_staysSafe (avg : List Word) : StaysSafe (execGuardSample avg s) := by
  simp [execGuardSample, hs]

@[simp] theorem execThermSample_staysSafe (temps : List (BitVec 16)) : StaysSafe (execThermSample temps s) := by
  simp [execThermSample, hs]

@[simp] theorem execSupplyWarn_staysSafe (r : Fin 4) (low : BitVec 16) : StaysSafe (execSupplyWarn r low s) := by
  simp [execSupplyWarn, hs]

@[simp] theorem execSupplyUnderSpec_staysSafe (r : Fin 4) (low : BitVec 16) : StaysSafe (execSupplyUnderSpec r low s) := by
  simp [execSupplyUnderSpec, hs]

@[simp] theorem execSupplyWarnClear_staysSafe (r : Fin 4) (low level : BitVec 16) : StaysSafe (execSupplyWarnClear r low level s) := by
  simp [execSupplyWarnClear, hs]

@[simp] theorem execOtpHoldExpiry_staysSafe (r : Fin 4) : StaysSafe (execOtpHoldExpiry r s) := by
  simp [execOtpHoldExpiry, hs]

/-! ### Resets -/

@[simp] theorem execJtagTestReset_staysSafe : StaysSafe (execJtagTestReset s) := by
  simp [execJtagTestReset, hs]

/-! ### Trace commands -/

@[simp] theorem execTraceMerge_staysSafe : StaysSafe (execTraceMerge s) := by
  simp [execTraceMerge, hs]

@[simp] theorem execTraceGapRecord_staysSafe : StaysSafe (execTraceGapRecord s) := by
  simp [execTraceGapRecord, hs]

@[simp] theorem execTraceSync_staysSafe : StaysSafe (execTraceSync s) := by
  simp [execTraceSync, hs]

@[simp] theorem execTraceConfig_staysSafe (h : Hdr) (params : BitVec 384) : StaysSafe (execTraceConfig h params s) :=
  firmware_staysSafe hs (checks_staysSafe (by simp [hs]) _)

@[simp] theorem execTraceSources_staysSafe (h : Hdr) (params : BitVec 384) : StaysSafe (execTraceSources h params s) :=
  firmware_staysSafe hs (checks_staysSafe (by simp [hs]) _)

@[simp] theorem execTraceStart_staysSafe (h : Hdr) : StaysSafe (execTraceStart h s) :=
  firmware_staysSafe hs (checks_staysSafe (by simp [hs]) _)

@[simp] theorem execTraceStop_staysSafe (h : Hdr) : StaysSafe (execTraceStop h s) :=
  firmware_staysSafe hs (checks_staysSafe (by simp [hs]) _)

@[simp] theorem execTraceTrigger_staysSafe (h : Hdr) : StaysSafe (execTraceTrigger h s) :=
  firmware_staysSafe hs (checks_staysSafe (by simp [hs]) _)

@[simp] theorem execTraceDump_staysSafe (h : Hdr) : StaysSafe (execTraceDump h s) :=
  firmware_staysSafe hs (checks_staysSafe (by simp [hs]) _)

@[simp] theorem execCntRead_staysSafe (h : Hdr) (rod bank : Byte) : StaysSafe (execCntRead h rod bank s) :=
  firmware_staysSafe hs (checks_staysSafe (by simp [hs]) _)

@[simp] theorem execCntLoRead_staysSafe (fn : Fin 16) (rod : Fin 64) (bank : Fin 3) (k : Fin 32) :
    StaysSafe (execCntLoRead fn rod bank k s) := by
  simp [execCntLoRead, hs]

@[simp] theorem execDbgStampLoRead_staysSafe (fn : Fin 16) : StaysSafe (execDbgStampLoRead fn s) := by
  simp [execDbgStampLoRead, hs]

@[simp] theorem execDbgTraceRptrWrite_staysSafe (fn : Fin 16) (value : Word) : StaysSafe (execDbgTraceRptrWrite fn value s) := by
  simp [execDbgTraceRptrWrite, hs]

/-! ### Command take -/

@[simp] theorem execFunctionLevelReset_staysSafe (fn : Fin 16) : StaysSafe (execFunctionLevelReset fn s) := by
  simp [execFunctionLevelReset, hs]

@[simp] theorem execHotReset_staysSafe : StaysSafe (execHotReset s) := by
  simp [execHotReset, hs]

@[simp] theorem execUcieLinkRetrain_staysSafe (link : UcieLink) : StaysSafe (execUcieLinkRetrain link s) := by
  unfold execUcieLinkRetrain
  split
  next htrain => simp [State.trained_saf_safe htrain, hs]
  · simpa using hs

/-! ### Vision units -/

@[simp] theorem execCropResize_staysSafe (rod : Fin 64) : StaysSafe (execCropResize rod s) :=
  State.start_staysSafe hs _ _ fun d e s => State.cropResize_saf_safe s rod.val d e

@[simp] theorem execChArgmax_staysSafe (rod : Fin 64) : StaysSafe (execChArgmax rod s) :=
  State.start_staysSafe hs _ _ fun d e s => State.chArgmax_saf_safe s rod.val d e

@[simp] theorem execScan_staysSafe (rod : Fin 64) : StaysSafe (execScan rod s) :=
  State.start_staysSafe hs _ _ fun d e s => State.scan_saf_safe s rod.val d e

end Sys2Proof.Machine
end

section
/-! Of all register writes only one of 0x5A to PWR_RESET_REQ by PF0 can end the safe state (R435, R486). -/

namespace Sys2Proof.Machine

variable {s : State} (hs : s.saf.safe = true)

include hs

@[simp] theorem State.hifWrite_staysSafe (o : Nat) (w : Word) : StaysSafe (s.hifWrite o w) := by
  unfold State.hifWrite
  split
  · simp [hs]
  · split
    · dsimp only
      split <;> simp [hs]
    · simp [hs]

@[simp] theorem State.tybWrite_staysSafe (o : Nat) (w : Word) : StaysSafe (s.tybWrite o w) := by
  unfold State.tybWrite
  dsimp only
  split <;> simp [hs]

@[simp] theorem State.pgkWrite_staysSafe (o : Nat) (w : Word) : StaysSafe (s.pgkWrite o w) := by
  unfold State.pgkWrite
  split <;> simp [hs]

@[simp] theorem State.snsWrite_staysSafe (o : Nat) (w : Word) : StaysSafe (s.snsWrite o w) := by
  simp [State.snsWrite, hs]

@[simp] theorem State.safWrite_staysSafe (o : Nat) (w : Word) : StaysSafe (s.safWrite o w) := by
  unfold State.safWrite
  split <;> simp [hs]

@[simp] theorem State.rodWrite_staysSafe (n : Fin 64) (o : Nat) (w : Word) : StaysSafe (s.rodWrite n o w) := by
  unfold State.rodWrite
  split <;> simp [hs]

@[simp] theorem State.fwWrite_staysSafe (off : Nat) (w : Word) : StaysSafe (s.fwWrite off w) := by
  simp [State.fwWrite, hs]

@[simp] theorem State.vfWrite_staysSafe (f : Fin 16) (off : Nat) (w : Word) : StaysSafe (s.vfWrite f off w) := by
  simp [State.vfWrite, hs]

theorem execPwrResetReq_staysSafe {fn : Fin 16} {w : Word} (hw : ¬ (fn = 0 ∧ w.toNat % 256 = 0x5A)) :
    StaysSafe (execPwrResetReq fn w s) := by
  rw [execPwrResetReq, if_neg hw]
  simpa using hs

/-- Of the registers of PWR only PWR_RESET_REQ can end the safe state, by the value 0x5A. -/
theorem State.pwrWrite_staysSafe {o : Nat} {w : Word} (hw : ¬ (o = 0x0C ∧ w.toNat % 256 = 0x5A)) : StaysSafe (s.pwrWrite o w) := by
  unfold State.pwrWrite
  dsimp only
  split
  case h_3 => exact execPwrResetReq_staysSafe hs fun h => hw ⟨rfl, h.2⟩
  all_goals simp [hs]

theorem State.pf0Write_staysSafe {off : Nat} {w : Word} (hw : ¬ (off = 0x120000C ∧ w.toNat % 256 = 0x5A)) :
    StaysSafe (s.pf0Write off w) := by
  unfold State.pf0Write
  dsimp only
  split
  case h_12 hpage => exact State.pwrWrite_staysSafe hs fun h => hw ⟨by omega, h.2⟩
  all_goals simp [hs]

theorem execRegisterWrite_staysSafe {by_ : Writer} {addr : BitVec 48} {w : Word}
    (hw : ¬ (by_ = .host 0 ∧ addr = 0x02000120000C ∧ w.toNat % 256 = 0x5A)) : StaysSafe (execRegisterWrite by_ addr w s) := by
  unfold execRegisterWrite
  dsimp only
  split
  · simp [hs]
  next f =>
    split
    · simp [hs]
    next hf =>
      split
      next hspace =>
        rw [Bool.and_eq_true, decide_eq_true_iff, decide_eq_true_iff] at hspace
        refine State.pf0Write_staysSafe hs fun h => hw ⟨?_, BitVec.eq_of_toNat_eq ?_, h.2⟩
        · simpa using hf
        · change addr.toNat = 0x02000120000C
          omega
      · simpa using hs

end Sys2Proof.Machine
end

section
/-! No command that a ring delivers ends the safe state. -/

namespace Sys2Proof.Machine

variable {s : State} (hs : s.saf.safe = true)

include hs

theorem run01_staysSafe {op x : Nat} {h : Hdr} : ∀ o ∈ run01 op x h s, StaysSafe o := by
  unfold run01
  split <;> simp [hs]

theorem run23_staysSafe {op x : Nat} {h : Hdr} : ∀ o ∈ run23 op x h s, StaysSafe o := by
  unfold run23
  split <;> simp [hs]

theorem run4_staysSafe {op x : Nat} {h : Hdr} : ∀ o ∈ run4 op x h s, StaysSafe o := by
  unfold run4
  split <;> simp [hs]

theorem run56_staysSafe {op x : Nat} {h : Hdr} : ∀ o ∈ run56 op x h s, StaysSafe o := by
  unfold run56
  split <;> simp [hs]

theorem run7_staysSafe {op x : Nat} {h : Hdr} : ∀ o ∈ run7 op x h s, StaysSafe o := by
  unfold run7
  split <;> simp [hs]

theorem run89_staysSafe {op x : Nat} {h : Hdr} : ∀ o ∈ run89 op x h s, StaysSafe o := by
  unfold run89
  split <;> simp [hs]

theorem runAB_staysSafe {op x : Nat} {h : Hdr} : ∀ o ∈ runAB op x h s, StaysSafe o := by
  unfold runAB
  split <;> simp [hs]

theorem runOpcode_staysSafe {op x : Nat} {h : Hdr} : ∀ o ∈ runOpcode op x h s, StaysSafe o := by
  unfold runOpcode
  split
  · exact run01_staysSafe hs
  · exact run01_staysSafe hs
  · exact run23_staysSafe hs
  · exact run23_staysSafe hs
  · exact run4_staysSafe hs
  · exact run56_staysSafe hs
  · exact run56_staysSafe hs
  · exact run7_staysSafe hs
  · exact run89_staysSafe hs
  · exact run89_staysSafe hs
  · exact runAB_staysSafe hs
  · exact runAB_staysSafe hs
  · simp

theorem State.runPacket_staysSafe (h : Hdr) (pkt : Nat) : StaysSafe (s.runPacket h pkt) := by
  have hno (st d : Nat) : StaysSafe (.next (s.reply h { status := st, detail := d })) := by simp [hs]
  have hrun {x : Nat} {t : State} (ht : t.saf.safe = true) : ∀ o ∈ runOpcode (fld pkt 0 16) x h t, StaysSafe o := runOpcode_staysSafe ht
  unfold State.runPacket
  refine iteInduction (fun _ => hno _ _) fun _ => iteInduction (fun _ => hno _ _) fun _ => iteInduction (fun _ => hno _ _) fun _ => ?_
  cases bit pkt 24
  · simp only [Bool.false_eq_true, if_false]
    split
    · exact hno _ _
    · split
      · exact hno _ _
      · split
        next ho => exact hrun hs _ ho
        · exact hno _ _
  · simp only [if_true]
    split
    · exact hno _ _
    · split
      · exact hno _ _
      · split
        · exact hno _ _
        · split
          next ho => exact hrun ((State.noteRead_saf_safe ..).trans hs) _ ho
          · exact hno _ _

theorem State.checkPacket_staysSafe (h : Hdr) (pkt : Nat) : StaysSafe (s.checkPacket h pkt) := by
  simp [State.checkPacket, State.runPacket_staysSafe, hs]

@[simp] theorem execCommandTake_staysSafe (fn : Fin 16) (ring : BitVec 13) : StaysSafe (execCommandTake fn ring s) := by
  unfold execCommandTake
  dsimp only
  split
  · simpa using hs
  · split
    · simpa using hs
    · split
      next hcheck => exact (staysSafe_next _).2 (State.settle_saf_safe (State.checkPacket_staysSafe (by simp [hs]) _ _ _ hcheck))
      · exact State.checkPacket_staysSafe (by simp [hs]) _ _

end Sys2Proof.Machine
end

section
/-! Only a reset ends the safe state, and three commands are refused in it (R435). -/

namespace Sys2Proof.Machine

/-- The steps that can end the safe state (R435): the resets of warm or power-on scope, and PF0's 0x5A to PWR_RESET_REQ by either command. -/
def CanEndSafe (c : Instr) : Prop :=
  c = .powerOnReset ∨ (∃ r io, c = .supplyReset r io) ∨ c = .clockLossReset ∨ (∃ k, c = .warmReset k) ∨
    (∃ w : Word, w.toNat % 256 = 0x5A ∧ (c = .pwrResetReq 0 w ∨ c = .registerWrite (.host 0) 0x02000120000C w))

theorem canEndSafe_pwrResetReq {w : Word} (hw : w.toNat % 256 = 0x5A) : CanEndSafe (.pwrResetReq 0 w) :=
  .inr (.inr (.inr (.inr ⟨w, hw, .inl rfl⟩)))

theorem canEndSafe_registerWrite {w : Word} (hw : w.toNat % 256 = 0x5A) : CanEndSafe (.registerWrite (.host 0) 0x02000120000C w) :=
  .inr (.inr (.inr (.inr ⟨w, hw, .inr rfl⟩)))

theorem exec_staysSafe {s : State} (hs : s.saf.safe = true) {c : Instr} (hc : ¬ CanEndSafe c) : StaysSafe (exec c s) := by
  cases c
  case powerOnReset | supplyReset | clockLossReset | warmReset => simp [CanEndSafe] at hc
  case pwrResetReq fn w =>
    refine execPwrResetReq_staysSafe hs ?_
    rintro ⟨rfl, hw⟩
    exact hc (canEndSafe_pwrResetReq hw)
  case registerWrite by_ addr w =>
    refine execRegisterWrite_staysSafe hs ?_
    rintro ⟨rfl, rfl, hw⟩
    exact hc (canEndSafe_registerWrite hw)
  all_goals simp [exec, hs]

/-! ### The commands refused in the safe state -/

theorem exec_startPlan_of_safe {s : State} (hs : s.saf.safe = true) {h : Hdr} (hp : Claims.pf0 s h) (mode pin : Byte) (at_ : BitVec 64) :
    exec (.startPlan h mode pin at_) s = .next (s.reply h { status := 0x1001 }) := by
  obtain ⟨hsup, hfn⟩ := hp
  change firmware h s (doStartPlan h mode pin at_ s) = _
  rw [doStartPlan, hfn, bne_self_eq_false]
  cases s.pln.plan with
  | none => exact firmware_no hsup ..
  | some pl =>
    dsimp only
    rw [checks_cons_false, hs, Bool.or_true]
    cases decide (2 < mode.toNat) || (mode == 2 && decide (3 < pin.toNat)) with
    | true => rw [checks_cons_true, firmware_no hsup]
    | false => rw [checks_cons_false, checks_cons_true, firmware_no hsup]

theorem exec_cleStart_of_safe {s : State} (hs : s.saf.safe = true) {h : Hdr} (hp : Claims.pf0 s h) {mode pin : Byte} (hmode : mode.toNat ≤ 2)
    (hpin : pin.toNat ≤ 3) (at_ : BitVec 64) : exec (.cleStart h mode pin at_) s = .next (s.reply h { status := 0x6002 }) := by
  obtain ⟨hsup, hfn⟩ := hp
  change firmware h s (doCleStart h mode pin at_ s) = _
  rw [doCleStart, hfn, bne_self_eq_false, checks_cons_false, decide_eq_false (Nat.not_lt.2 hmode), decide_eq_false (Nat.not_lt.2 hpin),
    Bool.or_false, checks_cons_false, hs, Bool.true_or, Bool.true_or, checks_cons_true, firmware_no hsup]

theorem exec_clePwmRelease_of_safe {s : State} (hs : s.saf.safe = true) {h : Hdr} (hp : Claims.pf0 s h) {pair : Byte} (hpair : pair.toNat ≤ 47) :
    exec (.clePwmRelease h pair) s = .next (s.reply h { status := 0x6002 }) := by
  obtain ⟨hsup, hfn⟩ := hp
  change firmware h s (doClePwmRelease h pair s) = _
  rw [doClePwmRelease, hfn, bne_self_eq_false, checks_cons_false, decide_eq_false (Nat.not_lt.2 hpair), checks_cons_false, hs, Bool.or_true,
    checks_cons_true, firmware_no hsup]

/-- Settles O60: every command but the resets of warm or power-on scope keeps the safe state, and the three starts fail their state check. -/
theorem safeStateHolds : Obligations.SafeStateHolds := by
  unfold Obligations.SafeStateHolds
  intro s hs
  refine ⟨fun c t ht hend => ?_, fun h mode pin at_ hp => ⟨?_, fun hmode hpin => ?_⟩, fun h pair hp hpair => ?_⟩
  · by_contra hc
    exact Bool.false_ne_true (hend.symm.trans (exec_staysSafe hs hc t ht))
  · exact exec_startPlan_of_safe hs hp mode pin at_
  · exact exec_cleStart_of_safe hs hp hmode hpin at_
  · exact exec_clePwmRelease_of_safe hs hp hpair

end Sys2Proof.Machine
end

section
/-! What every step keeps, whatever the state: the waiting commands (O5), the canonical form of the memory (O4) and the programmed OTP bits (O51).
One relation holds the three, so that each operation of the model is walked once. -/

namespace Sys2Proof.Machine

/-! ### The canonical form as an order on the keys -/

theorem Tab.wfFrom_iff {α : Type} [Inhabited α] [DecidableEq α] (lo : Option Nat) (l : List (Nat × α)) :
    Tab.wfFrom lo l = true ↔ (∀ c ∈ l, (∀ k ∈ lo, k < c.1) ∧ c.2 ≠ default) ∧ l.Pairwise fun c d => c.1 < d.1 := by
  induction l generalizing lo with
  | nil => simp [Tab.wfFrom]
  | cons c l ih =>
    obtain ⟨j, v⟩ := c
    have hfirst : Tab.wfFrom lo ((j, v) :: l) = true ↔ ((∀ k ∈ lo, k < j) ∧ v ≠ default) ∧ Tab.wfFrom (some j) l = true := by
      cases lo <;> simp [Tab.wfFrom]
    simp only [hfirst, ih, List.forall_mem_cons, List.pairwise_cons, Option.mem_some_iff, forall_eq']
    constructor
    · rintro ⟨⟨h1, h2⟩, h3, h4⟩
      exact ⟨⟨⟨h1, h2⟩, fun c hc => ⟨fun k hk => (h1 k hk).trans (h3 c hc).1, (h3 c hc).2⟩⟩, fun c hc => (h3 c hc).1, h4⟩
    · rintro ⟨⟨⟨h1, h2⟩, h3⟩, h4, h5⟩
      exact ⟨⟨h1, h2⟩, fun c hc => ⟨h4 c hc, (h3 c hc).2⟩, h5⟩

/-- A table is in canonical form when its keys rise and no listed value is the default. -/
theorem Tab.wf_iff {α : Type} [Inhabited α] [DecidableEq α] (t : Tab α) :
    t.wf = true ↔ (∀ c ∈ t.cells, c.2 ≠ default) ∧ t.cells.Pairwise fun c d => c.1 < d.1 := by
  simp [Tab.wf, Tab.wfFrom_iff]

/-- Cells below `b`, those of `[a, b)` moved up by `d = b - a`, and those from `b + d` on stay in canonical form. -/
theorem Tab.copyUp_wf {m : Tab Byte} (h : m.wf = true) (a b d : Nat) (hab : b = a + d) :
    (Tab.mk (m.cells.filter (fun x => decide (x.1 < b)) ++
      ((m.cells.filter fun x => decide (a ≤ x.1) && decide (x.1 < b)).map fun x => (x.1 + d, x.2)) ++
        m.cells.filter fun x => decide (b + d ≤ x.1))).wf = true := by
  obtain ⟨hne, hlt⟩ := (Tab.wf_iff m).1 h
  refine (Tab.wf_iff _).2 ⟨?_, ?_⟩
  · simp only [List.mem_append, List.mem_filter, List.mem_map]
    rintro c ((⟨hc, -⟩ | ⟨x, ⟨hx, -⟩, rfl⟩) | ⟨hc, -⟩)
    · exact hne c hc
    · exact hne x hx
    · exact hne c hc
  · refine List.pairwise_append.2 ⟨List.pairwise_append.2 ⟨hlt.filter _, ?_, ?_⟩, hlt.filter _, ?_⟩
    · exact List.pairwise_map.2 ((hlt.filter _).imp fun hcd => Nat.add_lt_add_right hcd d)
    · simp only [List.mem_filter, List.mem_map, Bool.and_eq_true, decide_eq_true_eq]
      rintro c ⟨-, hc⟩ _ ⟨x, ⟨-, hx, -⟩, rfl⟩
      dsimp only
      omega
    · simp only [List.mem_append, List.mem_filter, List.mem_map, Bool.and_eq_true, decide_eq_true_eq]
      rintro c (⟨-, hc⟩ | ⟨x, ⟨-, -, hx⟩, rfl⟩) e ⟨-, he⟩
      · omega
      · dsimp only
        omega

/-! ### The relation -/

/-- Against `s`: the same commands `p` wait, the memory `m` keeps a canonical form, and no programmed bit of the OTP rows `o` is taken back. -/
structure Lasting (s : State) (p : List Instr) (m : Memory) (o : Tab Word) : Prop where
  pending : p = s.pending
  form : s.mem.wf = true → m.wf = true
  otp : ∀ r, s.sec.otp.get r &&& o.get r = s.sec.otp.get r

/-- From `s` to `t` the commands that wait stay, the memory keeps its canonical form, and no programmed OTP bit is taken back. -/
@[simp] abbrev Lasts (s t : State) : Prop := Lasting s t.pending t.mem t.sec.otp

/-- The same as `Lasting`, out of reach of the rewrite rules for it. -/
def LastingOtherwise (s : State) (p : List Instr) (m : Memory) (o : Tab Word) : Prop := Lasting s p m o

/-- `simp` does not look into the states that it has set aside. -/
@[congr] theorem lastingOtherwise_congr (s : State) (p : List Instr) (m : Memory) (o : Tab Word) :
    LastingOtherwise s p m o = LastingOtherwise s p m o := rfl

/-- `t` keeps of `s` what lasts, as a rewrite rule with which `simp` follows a chain of operations to any depth (it follows side conditions to
depth two only): what lasts from `s₀` to `s` lasts to `t`. -/
abbrev Steady (s t : State) : Prop := ∀ s₀, Lasts s₀ t ↔ Lasts s₀ s ∨ LastingOtherwise s₀ t.pending t.mem t.sec.otp

variable {s t : State}

@[simp] theorem Lasts.refl (s : State) : Lasts s s := ⟨rfl, id, fun _ => BitVec.and_self⟩

theorem Lasts.trans {u : State} (h : Lasts s t) (k : Lasts t u) : Lasts s u where
  pending := k.pending.trans h.pending
  form hm := k.form (h.form hm)
  otp r := by rw [← h.otp r, BitVec.and_assoc, k.otp r]

theorem Lasts.steady (h : Lasts s t) : Steady s t := fun _ => ⟨.inr, fun k => k.elim (·.trans h) id⟩

theorem Steady.lasts (h : Steady s t) : Lasts s t := (h s).2 (.inl (.refl s))

@[simp] theorem lasts_ite (c : Prop) [Decidable c] (a b : State) : Lasts s (if c then a else b) ↔ if c then Lasts s a else Lasts s b := by
  split <;> rfl

@[simp] theorem lasts_ite_snd {α : Type} (c : Prop) [Decidable c] (a b : α × State) :
    Lasts s (if c then a else b).2 ↔ if c then Lasts s a.2 else Lasts s b.2 := by
  split <;> rfl

@[simp] theorem lasting_write (p : List Instr) (m : Memory) (a : Nat) (bs : List Byte) (o : Tab Word) :
    Lasting s p (Memory.write m a bs) o ↔ Lasting s p m o ∨ LastingOtherwise s p (Memory.write m a bs) o :=
  ⟨.inr, fun k => k.elim (fun h => ⟨h.pending, fun w => Memory.write_wf _ _ _ (h.form w), h.otp⟩) id⟩

@[simp] theorem lasting_filter (p : List Instr) (m : Memory) (f : Nat × Byte → Bool) (o : Tab Word) :
    Lasting s p ⟨m.cells.filter f⟩ o ↔ Lasting s p m o ∨ LastingOtherwise s p ⟨m.cells.filter f⟩ o :=
  ⟨.inr, fun k => k.elim (fun h => ⟨h.pending, fun w => Tab.filter_wf _ _ (h.form w), h.otp⟩) id⟩

@[simp] theorem lasting_zero (p : List Instr) (m : Memory) (lo hi : Nat) (o : Tab Word) :
    Lasting s p (Memory.zero m lo hi) o ↔ Lasting s p m o ∨ LastingOtherwise s p (Memory.zero m lo hi) o :=
  lasting_filter ..

/-- An OTP row only gains bits (R450). -/
@[simp] theorem lasting_burn (p : List Instr) (m : Memory) (o : Tab Word) (k : Nat) (w : Word) :
    Lasting s p m (o.upd k (· ||| w)) ↔ Lasting s p m o ∨ LastingOtherwise s p m (o.upd k (· ||| w)) := by
  refine ⟨.inr, fun h => h.elim (fun h => ⟨h.pending, h.form, fun r => ?_⟩) id⟩
  have hr := h.otp r
  by_cases hk : r = k
  · subst hk
    rw [Tab.get_upd_self, ← hr, BitVec.and_assoc]
    congr 1
    exact BitVec.eq_of_getLsbD_eq fun i _ => by cases h : (o.get r).getLsbD i <;> simp [h]
  · rwa [Tab.get_upd_ne _ _ hk]

/-- Under the name of the second part of an operation's result. -/
theorem snd_steady_of_eq {α : Type} {p : α × State} {a : α} (h : p = (a, t)) : Steady p.2 t := Lasts.steady (by rw [h]; exact .refl t)

theorem snd_lasts_of_eq {α : Type} {p : α × State} {a : α} (hp : Lasts s p.2) (h : p = (a, t)) : Lasts s t :=
  hp.trans (snd_steady_of_eq h).lasts

/-! ### Folds -/

/-- The same as `Lasts`, for the step of a fold: `simp` unfolds it by a proof, so that what it then finds by computation fits the fold's rule. -/
def StepLasts (s t : State) : Prop := Lasts s t

@[simp] theorem stepLasts_iff : StepLasts s t ↔ Lasts s t := ⟨id, id⟩

theorem foldl_lasts {α β : Type} (g : β → State) {f : β → α → β} (hf : ∀ x b, Lasts (g b) (g (f b x))) (l : List α) (b : β) :
    Lasts (g b) (g (l.foldl f b)) := by
  induction l generalizing b with
  | nil => exact .refl _
  | cons x l ih => exact (hf x b).trans (ih _)

theorem Lasts.foldl {α : Type} {f : State → α → State} (hf : ∀ x t, Lasts t (f t x)) (l : List α) : Lasts s (l.foldl f s) :=
  foldl_lasts id hf l s

@[simp] theorem foldl_steady {α : Type} {f : State → α → State} (hf : ∀ x t, StepLasts t (f t x)) (l : List α) : Steady s (l.foldl f s) :=
  (foldl_lasts id hf l s).steady

@[simp] theorem foldl_snd_steady {α β : Type} {f : β × State → α → β × State} (hf : ∀ x (b : β × State), StepLasts b.2 (f b x).2) (l : List α)
    (b : β × State) : Steady b.2 (l.foldl f b).2 :=
  (foldl_lasts Prod.snd hf l b).steady

@[simp] theorem foldl_snd_snd_steady {α β γ : Type} {f : β × γ × State → α → β × γ × State}
    (hf : ∀ x (b : β × γ × State), StepLasts b.2.2 (f b x).2.2) (l : List α) (b : β × γ × State) : Steady b.2.2 (l.foldl f b).2.2 :=
  (foldl_lasts (fun b : β × γ × State => b.2.2) hf l b).steady

@[simp] theorem foldl_snd_fst_steady {α β γ : Type} {f : β × State × γ → α → β × State × γ}
    (hf : ∀ x (b : β × State × γ), StepLasts b.2.1 (f b x).2.1) (l : List α) (b : β × State × γ) : Steady b.2.1 (l.foldl f b).2.1 :=
  (foldl_lasts (fun b : β × State × γ => b.2.1) hf l b).steady

variable (s)

/-! ### Shared operations: memory, faults, rings, events, replies -/

@[simp] theorem State.wrN_steady (a n x : Nat) : Steady s (s.wrN a n x) := Lasts.steady (by simp [State.wrN])

theorem State.wr_lasts {s t : State} (h : Lasts s t) (a : Nat) (bs : List Byte) : Lasts s (t.wr a bs) := h.trans (by simp)

end Sys2Proof.Machine
end

section
/-! Each operation of the model keeps what lasts: `X_steady` for an operation `X` on the state. -/

namespace Sys2Proof.Machine

variable (s : State)

/-! ### Shared operations: memory, faults, rings, events, replies -/

@[simp] theorem State.noteUe_steady (a : Nat) :
    Steady s (s.noteUe a) := Lasts.steady (by simp [State.noteUe])

@[simp] theorem State.noteRead_steady (a n : Nat) :
    Steady s (s.noteRead a n) := Lasts.steady <| by
  simp [State.noteRead]

@[simp] theorem State.noteBoth_steady (a n : Nat) :
    Steady s (s.noteBoth a n) := Lasts.steady <| by
  unfold State.noteBoth
  split <;> simp

@[simp] theorem State.raiseJob_steady (code job : Nat) (rod : Option Nat) (detail : Word) :
    Steady s (s.raiseJob code job rod detail) := Lasts.steady (by simp [State.raiseJob])

@[simp] theorem State.raiseDev_steady (code : Nat) (detail detail2 : Word) :
    Steady s (s.raiseDev code detail detail2) := Lasts.steady (by simp [State.raiseDev])
@[simp] theorem State.latched_steady (n k code j : Nat) :
    Steady s (s.latched n k code j) := Lasts.steady (by simp [State.latched])

@[simp] theorem State.handoverAccess_steady (n : Nat) (job : Option Nat) :
    Steady s (s.handoverAccess n job) := Lasts.steady <| by
  unfold State.handoverAccess
  split <;> simp

@[simp] theorem State.blockRead_steady (a n : Nat) (job : Option Nat) :
    Steady s (s.blockRead a n job).2 := Lasts.steady <| by
  unfold State.blockRead
  dsimp only
  repeat' split
  all_goals simp

@[simp] theorem State.wrBoth_steady (a : Nat) (bs : List Byte) :
    Steady s (s.wrBoth a bs) := Lasts.steady <| by
  unfold State.wrBoth
  split <;> simp

@[simp] theorem State.putFor_steady (job : Option Nat) (a : Nat) (bs : List Byte) :
    Steady s (s.putFor job a bs) := Lasts.steady <| by
  unfold State.putFor
  split <;> simp

@[simp] theorem State.sendVector_steady (v : Nat) :
    Steady s (s.sendVector v) := Lasts.steady <| by
  simp [State.sendVector]

@[simp] theorem State.writeBack_steady (r : Ring) (idx : Word) :
    Steady s (s.writeBack r idx) := Lasts.steady <| by
  simp [State.writeBack]

@[simp] theorem State.ringIrq_steady (k : Nat) :
    Steady s (s.ringIrq k) := Lasts.steady <| by
  unfold State.ringIrq
  dsimp only
  repeat' split
  all_goals simp

@[simp] theorem State.postEntry_steady (k : Nat) (bs : List Byte) :
    Steady s (s.postEntry k bs) := Lasts.steady <| by
  simp [State.postEntry]

@[simp] theorem State.postEvent_steady (k kind part code payload : Nat) :
    Steady s (s.postEvent k kind part code payload) := Lasts.steady <| by
  simp [State.postEvent]

@[simp] theorem State.flushLost_steady (f : Fin 16) :
    Steady s (s.flushLost f) := Lasts.steady <| by
  unfold State.flushLost
  split <;> simp

@[simp] theorem State.event_steady (f : Fin 16) (kind part code payload : Nat) :
    Steady s (s.event f kind part code payload) := Lasts.steady <| by
  unfold State.event
  dsimp only
  split <;> simp

@[simp] theorem State.blockEvent_steady (code : Nat) (payload : Option Nat) :
    Steady s (s.blockEvent code payload) := Lasts.steady <| by
  unfold State.blockEvent
  split <;> simp

@[simp] theorem State.postReply_steady (h : Hdr) (r : Rep) :
    Steady s (s.postReply h r) := Lasts.steady <| by
  simp [State.postReply]

@[simp] theorem State.closeDrained_steady (h : Hdr) :
    Steady s (s.closeDrained h) := Lasts.steady <| by
  unfold State.closeDrained
  dsimp only
  split <;> simp

@[simp] theorem State.reply_steady (h : Hdr) (r : Rep) :
    Steady s (s.reply h r) := Lasts.steady <| by
  unfold State.reply
  split <;> simp

@[simp] theorem State.replyOpt_steady (h : Option Hdr) (r : Rep) :
    Steady s (s.replyOpt h r) := Lasts.steady <| by
  unfold State.replyOpt
  split <;> simp

/-! ### Journal and trace records -/

@[simp] theorem State.journalData_steady (bs : List Byte) :
    Steady s (s.journalData bs) := Lasts.steady (by simp [State.journalData])

@[simp] theorem State.journalPost_steady (kind point srcSeq fields : Nat) (data : List Byte) (hasData : Bool) :
    Steady s (s.journalPost kind point srcSeq fields data hasData) := Lasts.steady <| by
  simp [State.journalPost]

@[simp] theorem State.journalGap_steady :
    Steady s s.journalGap := Lasts.steady <| by
  simp [State.journalGap]

@[simp] theorem State.journalOut_steady (r : JRec) :
    Steady s (s.journalOut r) := Lasts.steady <| by
  simp [State.journalOut]

@[simp] theorem State.journalAt_steady (at_ kind sub srcSeq fields : Nat) (data : Option (List Byte)) :
    Steady s (s.journalAt at_ kind sub srcSeq fields data) := Lasts.steady <| by
  simp [State.journalAt]

@[simp] theorem State.journal_steady (kind sub srcSeq fields : Nat) (data : Option (List Byte)) :
    Steady s (s.journal kind sub srcSeq fields data) := Lasts.steady <| by
  simp [State.journal]

@[simp] theorem State.journalFlush_steady :
    Steady s s.journalFlush := Lasts.steady <| by
  simp [State.journalFlush]

@[simp] theorem State.journalMark_steady (kind fields : Nat) :
    Steady s (s.journalMark kind fields) := Lasts.steady <| by
  simp [State.journalMark]

@[simp] theorem State.journalStop_steady :
    Steady s s.journalStop := Lasts.steady <| by
  simp [State.journalStop]

@[simp] theorem State.journalEnd_steady :
    Steady s s.journalEnd := Lasts.steady <| by
  simp [State.journalEnd]

@[simp] theorem State.trace_steady (src level type a b : Nat) :
    Steady s (s.trace src level type a b) := Lasts.steady <| by
  simp [State.trace]

@[simp] theorem State.traceFreeze_steady :
    Steady s s.traceFreeze := Lasts.steady <| by
  simp [State.traceFreeze]

@[simp] theorem State.trigger_steady (c code : Nat) :
    Steady s (s.trigger c code) := Lasts.steady <| by
  simp [State.trigger]

/-! ### Intake points and watchdogs -/

@[simp] theorem State.wdgTrip_steady (e : WdgEnt) (late : Bool) (ticks : Nat) (job : Option Nat) :
    Steady s (s.wdgTrip e late ticks job) := Lasts.steady (by simp [State.wdgTrip])

@[simp] theorem State.watchEvent_steady (kind target : Nat) :
    Steady s (s.watchEvent kind target) := Lasts.steady <| by
  simp [State.watchEvent]

@[simp] theorem State.freeNext_steady (p : Nat) (ks : List Nat) :
    Steady s (s.freeNext p ks) := Lasts.steady <| by
  simp [State.freeNext]

@[simp] theorem State.dropSnap_steady (p : Nat) :
    Steady s (s.dropSnap p) := Lasts.steady (by simp [State.dropSnap])

@[simp] theorem State.dropOther_steady (p : Nat) :
    Steady s (s.dropOther p) := Lasts.steady <| by
  simp [State.dropOther]

@[simp] theorem State.dropFull_steady (p : Nat) :
    Steady s (s.dropFull p) := Lasts.steady <| by
  simp [State.dropFull]

@[simp] theorem State.dropRate_steady (p : Nat) :
    Steady s (s.dropRate p) := Lasts.steady (by simp [State.dropRate])
@[simp] theorem State.release_steady (p k seq : Nat) :
    Steady s (s.release p k seq) := Lasts.steady (by simp [State.release])

@[simp] theorem State.offer_steady (p seq w : Nat) (body : List Byte) :
    Steady s (s.offer p seq w body).2 := Lasts.steady <| by
  unfold State.offer
  dsimp only
  repeat' split
  all_goals simp

@[simp] theorem State.absent_steady (p seq reason : Nat) :
    Steady s (s.absent p seq reason) := Lasts.steady <| by
  simp [State.absent]

@[simp] theorem State.admitAt_steady (p : Nat) (a : Arrival) :
    Steady s (s.admitAt p a) := Lasts.steady <| by
  unfold State.admitAt
  split <;> simp

@[simp] theorem State.admitInput_steady (p : Nat) :
    Steady s (s.admitInput p) := Lasts.steady <| by
  unfold State.admitInput
  dsimp only
  split <;> simp

@[simp] theorem State.holdInput_steady (p : Nat) (b : Bound) :
    Steady s (s.holdInput p b) := Lasts.steady <| by
  simp [State.holdInput]

@[simp] theorem State.fillSlot_steady (p : Nat) :
    Steady s (s.fillSlot p) := Lasts.steady <| by
  unfold State.fillSlot
  split <;> simp

@[simp] theorem State.supersede_steady (p : Nat) (keep : Option Nat) :
    Steady s (s.supersede p keep) := Lasts.steady <| by
  simp [State.supersede]

@[simp] theorem State.skipInput_steady (b : Binding) :
    Steady s (s.skipInput b) := Lasts.steady <| by
  simp [State.skipInput]

@[simp] theorem State.resolve_steady (b : Binding) (hadRun : Bool) :
    Steady s (s.resolve b hadRun) := Lasts.steady <| by
  unfold State.resolve
  dsimp only
  split <;> simp

/-! ### The time base -/

@[simp] theorem State.armLate_steady (t : BitVec 64) :
    Steady s (s.armLate t) := Lasts.steady <| by
  simp [State.armLate]

@[simp] theorem State.stepTime_steady (off : ℤ) :
    Steady s (s.stepTime off).2 := Lasts.steady <| by
  unfold State.stepTime
  split <;> simp

@[simp] theorem State.pinFire_steady (p : Nat) :
    Steady s (s.pinFire p) := Lasts.steady <| by
  simp [State.pinFire]

@[simp] theorem State.seeEdge_steady (p : Nat) :
    Steady s (s.seeEdge p) := Lasts.steady (by simp [State.seeEdge])

/-! ### CAN FD controllers -/

@[simp] theorem State.canNext_steady (c b : Nat) :
    Steady s (s.canNext c b) := Lasts.steady <| by
  unfold State.canNext
  split <;> simp

@[simp] theorem State.withdraw_steady (c b : Nat) :
    Steady s (s.withdraw c b) := Lasts.steady (by simp [State.withdraw])

@[simp] theorem State.canFail_steady (c : Nat) :
    Steady s (s.canFail c) := Lasts.steady <| by
  unfold State.canFail
  dsimp only
  repeat' split
  all_goals simp

@[simp] theorem State.canCount_steady (c tec rc : Nat) :
    Steady s (s.canCount c tec rc) := Lasts.steady <| by
  simp [State.canCount]

@[simp] theorem State.canSent_steady (c b : Nat) (stamp : BitVec 96) :
    Steady s (s.canSent c b stamp) := Lasts.steady <| by
  unfold State.canSent
  dsimp only
  split <;> simp

@[simp] theorem State.canFire_steady (c b : Nat) :
    Steady s (s.canFire c b) := Lasts.steady <| by
  unfold State.canFire
  dsimp only
  split <;> simp

@[simp] theorem State.canHandover_steady (c b : Nat) (img : BitVec 768) (t : BitVec 64) :
    Steady s (s.canHandover c b img t) := Lasts.steady <| by
  simp [State.canHandover]

@[simp] theorem State.canIntake_steady (c seq n : Nat) (img : BitVec 768) :
    Steady s (s.canIntake c seq n img) := Lasts.steady <| by
  simp [State.canIntake]

/-! ### Tyben flits -/

@[simp] theorem State.flitGone_steady (f : Flit) :
    Steady s (s.flitGone f) := Lasts.steady <| by
  unfold State.flitGone
  split <;> simp

@[simp] theorem State.pump_steady (p n : Nat) : Steady s (s.pump p n) := Lasts.steady <| by
  induction n generalizing s with
  | zero => exact .refl s
  | succ n ih =>
    unfold State.pump
    split
    · exact Lasts.trans (by simp) (ih _)
    · simp

@[simp] theorem State.sendAll_steady (p : Nat) :
    Steady s (s.sendAll p) := Lasts.steady <| by
  simp [State.sendAll]

@[simp] theorem State.enqueue_steady (p : Nat) (fs : List Flit) :
    Steady s (s.enqueue p fs) := Lasts.steady <| by
  simp [State.enqueue]

theorem State.sendMsg_steady {s t : State} {dst type : Nat} {payload : List Byte} {reply : Option Hdr}
    (ht : s.sendMsg dst type payload reply = some t) : Steady s t := Lasts.steady <| by
  unfold State.sendMsg at ht
  dsimp only at ht
  split at ht
  · cases ht
  · split at ht
    · cases ht; simp
    · split at ht
      · cases ht
      · cases ht; simp

@[simp] theorem State.sendVia_steady (p dst type : Nat) (payload : List Byte) (probe : Bool) :
    Steady s (s.sendVia p dst type payload probe) := Lasts.steady <| by
  simp [State.sendVia]

@[simp] theorem State.sendOr_steady (dst type : Nat) (payload : List Byte) : Steady s (s.sendOr dst type payload) := Lasts.steady <| by
  unfold State.sendOr
  split
  · exact (State.sendMsg_steady ‹_›).lasts
  · simp

/-! ### Tallies -/

@[simp] theorem State.signalTally_steady (t : Nat) (v : Word) :
    Steady s (s.signalTally t v) := Lasts.steady (by simp [State.signalTally])

@[simp] theorem State.admitTally_steady (h : Hdr) (t : Nat) (isSet : Bool) (v : Word) :
    Steady s (s.admitTally h t isSet v) := Lasts.steady <| by
  simp [State.admitTally]

@[simp] theorem State.tallyAnswers_steady (ops : List TallyOp) : Steady s (s.tallyAnswers ops) := Lasts.steady <| by
  refine Lasts.foldl (fun o s => ?_) ops
  dsimp only
  split <;> split <;> simp

@[simp] theorem State.takeWait_steady (w : WaitEnt) :
    Steady s (s.takeWait w).2 := Lasts.steady <| by
  unfold State.takeWait
  split <;> simp

theorem State.takeWait_fst_steady {s t : State} {w : WaitEnt} (h : (s.takeWait w).1 = some t) : Steady s t := Lasts.steady <| by
  unfold State.takeWait at h
  split at h <;> cases h
  simp

@[simp] theorem State.endWait_steady (i : Nat) (w : WaitEnt) (status : Nat) (v : Word) :
    Steady s (s.endWait i w status v) := Lasts.steady <| by
  unfold State.endWait
  split <;> simp

theorem State.takeMsg_steady {s t : State} {p type : Nat} {m : Msg} (h : s.takeMsg p type = some (m, t)) : Steady s t := Lasts.steady <| by
  unfold State.takeMsg at h
  split at h
  · cases h
  · obtain ⟨m', -, hm⟩ := Option.map_eq_some_iff.1 h
    cases hm
    simp

@[simp] theorem State.rxDiscard_steady (p : Nat) :
    Steady s (s.rxDiscard p) := Lasts.steady (by simp [State.rxDiscard])

/-! ### Tyben ports -/

@[simp] theorem State.pageBack_steady (part g : Nat) :
    Steady s (s.pageBack part g) := Lasts.steady (by simp [State.pageBack])

@[simp] theorem State.unpin_steady (part g : Nat) :
    Steady s (s.unpin part g) := Lasts.steady <| by
  simp [State.unpin]

@[simp] theorem State.ringFailed_steady (g error : Nat) :
    Steady s (s.ringFailed g error) := Lasts.steady <| by
  simp [State.ringFailed]

@[simp] theorem State.ringsLost_steady (p : Nat) :
    Steady s (s.ringsLost p) := Lasts.steady <| by
  simp [State.ringsLost]

@[simp] theorem unpass_steady (p : Nat) (s : State) : Steady s (unpass p s) := Lasts.steady (by simp [unpass])

@[simp] theorem State.dropFlits_steady (fs : List Flit) : Steady s (s.dropFlits fs) := Lasts.steady <| by
  refine Lasts.foldl (fun f s => ?_) fs
  split <;> simp

@[simp] theorem State.linkLost_steady (p : Nat) : Steady s (s.linkLost p) := Lasts.steady <| by
  unfold State.linkLost
  refine Lasts.trans ?_ (Steady.lasts (State.blockEvent_steady _ _ _))
  refine Lasts.trans ?_ (Lasts.foldl (fun c s => by simp) _)
  refine Lasts.trans ?_ (Steady.lasts (State.ringsLost_steady _ _))
  dsimp only
  generalize hreplied : List.foldl _ _ _ = t
  have hlasts : Lasts s t := by
    subst hreplied
    refine Lasts.trans ?_ (Lasts.foldl (fun f s => ?_) _)
    · simp
    · split <;> simp
  split
  · split <;> simp [hlasts]
  · exact hlasts

@[simp] theorem State.portDown_steady (p : Nat) (dst : TybState) (error : BitVec 3) :
    Steady s (s.portDown p dst error) := Lasts.steady <| by
  simp [State.portDown]

@[simp] theorem State.sendProbe_steady (h : Option Hdr) (p : Nat) (repeated : Bool) :
    Steady s (s.sendProbe h p repeated) := Lasts.steady <| by
  simp [State.sendProbe]

@[simp] theorem State.configDone_steady (p : Nat) :
    Steady s (s.configDone p) := Lasts.steady <| by
  simp [State.configDone]

@[simp] theorem State.configRx_steady (p : Nat) (f : List Byte) :
    Steady s (s.configRx p f) := Lasts.steady <| by
  simp [State.configRx]

@[simp] theorem State.spoil_steady (fs : List Flit) :
    Steady s (s.spoil fs) := Lasts.steady <| by
  simp [State.spoil]

@[simp] theorem State.retrained_steady (p : Nat) :
    Steady s (s.retrained p) := Lasts.steady <| by
  simp [State.retrained]

@[simp] theorem State.flitBack_steady (p x : Nat) : Steady s (s.flitBack p x) := Lasts.steady <| by
  unfold State.flitBack
  dsimp only
  generalize hreplied : List.foldl _ _ _ = t
  have hlasts : Lasts s t := by
    subst hreplied
    refine Lasts.trans ?_ (Lasts.foldl (fun f s => ?_) _)
    · simp
    · split <;> simp
  simp [hlasts]

@[simp] theorem State.flitRx_steady (p : Nat) (f : List Byte) (at_ : Nat) :
    Steady s (s.flitRx p f at_) := Lasts.steady <| by
  simp [State.flitRx]

@[simp] theorem State.freeFlits_steady (p vc n : Nat) :
    Steady s (s.freeFlits p vc n) := Lasts.steady <| by
  simp [State.freeFlits]

@[simp] theorem State.msgRx_steady (p : Nat) :
    Steady s (s.msgRx p) := Lasts.steady <| by
  unfold State.msgRx
  dsimp only
  repeat' split
  all_goals simp

/-! ### Ethernet MACs -/

@[simp] theorem State.dropQueued_steady (m : Nat) :
    Steady s (s.dropQueued m) := Lasts.steady <| by
  simp [State.dropQueued]

@[simp] theorem State.launchLate_steady (m e : Nat) :
    Steady s (s.launchLate m e) := Lasts.steady (by simp [State.launchLate])

@[simp] theorem State.postLate_steady (m c i : Nat) :
    Steady s (s.postLate m c i) := Lasts.steady <| by
  unfold State.postLate
  split <;> simp

@[simp] theorem State.launchFire_steady (m e : Nat) :
    Steady s (s.launchFire m e) := Lasts.steady <| by
  unfold State.launchFire
  split <;> simp

@[simp] theorem State.postFire_steady (m c i : Nat) :
    Steady s (s.postFire m c i) := Lasts.steady <| by
  unfold State.postFire
  split <;> simp

@[simp] theorem State.ethHandover_steady (m e : Nat) (frame : List Byte) (t : BitVec 64) :
    Steady s (s.ethHandover m e frame t) := Lasts.steady <| by
  simp [State.ethHandover]

@[simp] theorem State.takeFrame_steady (m c : Nat) (f : TxFrom) :
    Steady s (s.takeFrame m c f) := Lasts.steady <| by
  unfold State.takeFrame
  split <;> simp

@[simp] theorem State.gateDiscards_steady (m c n : Nat) : Steady s (s.gateDiscards m c n) := Lasts.steady <| by
  induction n generalizing s with
  | zero => exact .refl s
  | succ n ih =>
    unfold State.gateDiscards
    dsimp only
    split
    · simp
    · refine Lasts.trans ?_ (ih _)
      split <;> simp

@[simp] theorem State.tunnelRx_steady (p : Nat) (f : List Byte) (at_ : Nat) : Steady s (s.tunnelRx p f at_) := Lasts.steady <| by
  unfold State.tunnelRx
  dsimp only
  split
  · simp
  · refine Lasts.trans ?_ (Lasts.foldl (fun i s => ?_) _)
    · split <;> simp
    · split <;> simp

@[simp] theorem State.rxRing_steady (m k : Nat) (f : List Byte) (stamp : BitVec 96) :
    Steady s (s.rxRing m k f stamp) := Lasts.steady <| by
  simp [State.rxRing]

@[simp] theorem State.rxIntake_steady (m k : Nat) (f : List Byte) (stamp : BitVec 96) :
    Steady s (s.rxIntake m k f stamp) := Lasts.steady <| by
  simp [State.rxIntake]

/-! ### The control loop engine -/

@[simp] theorem State.forcePairs_steady :
    Steady s s.forcePairs := Lasts.steady <| by
  simp [State.forcePairs]

@[simp] theorem State.stopLoop_steady (n : Nat) :
    Steady s (s.stopLoop n) := Lasts.steady <| by
  simp [State.stopLoop]

@[simp] theorem State.inputStop_steady (kind index : Nat) :
    Steady s (s.inputStop kind index) := Lasts.steady <| by
  simp [State.inputStop]

@[simp] theorem State.stopIfLost_steady (n : Nat) :
    Steady s (s.stopIfLost n) := Lasts.steady <| by
  simp [State.stopIfLost]

@[simp] theorem State.captureDrain_steady (c : Nat) :
    Steady s (s.captureDrain c) := Lasts.steady <| by
  simp [State.captureDrain]

@[simp] theorem State.captureDone_steady (c : Nat) :
    Steady s (s.captureDone c) := Lasts.steady <| by
  simp [State.captureDone]

@[simp] theorem State.captureEnd_steady (c : Nat) :
    Steady s (s.captureEnd c) := Lasts.steady <| by
  simp [State.captureEnd]

@[simp] theorem State.endTests_steady (n : Nat) :
    Steady s (s.endTests n) := Lasts.steady <| by
  simp [State.endTests]

@[simp] theorem State.mailbox_steady (n : Nat) (sp accel sched : Word) :
    Steady s (s.mailbox n sp accel sched) := Lasts.steady (by simp [State.mailbox])

@[simp] theorem State.mailboxPort_steady (rod n : Nat) (data : List Byte) :
    Steady s (s.mailboxPort rod n data) := Lasts.steady <| by
  unfold State.mailboxPort
  split <;> simp

@[simp] theorem State.encoderUpdate_steady (i : Nat) (a b z : Bool) :
    Steady s (s.encoderUpdate i a b z) := Lasts.steady <| by
  simp [State.encoderUpdate]

@[simp] theorem State.sdClock_steady (c : Nat) :
    Steady s (s.sdClock c) := Lasts.steady <| by
  simp [State.sdClock]

@[simp] theorem State.cleBegin_steady (h : Option Hdr) :
    Steady s (s.cleBegin h) := Lasts.steady <| by
  simp [State.cleBegin]

@[simp] theorem State.cleHalt_steady :
    Steady s s.cleHalt := Lasts.steady <| by
  simp [State.cleHalt]

@[simp] theorem State.stepGens_steady (n : Nat) :
    Steady s (s.stepGens n).2.2 := Lasts.steady <| by
  simp [State.stepGens]

@[simp] theorem State.captureStep_steady (c : Nat) (started : List Nat) (rec_ : List Byte) :
    Steady s (s.captureStep c started rec_) := Lasts.steady <| by
  simp [State.captureStep]

@[simp] theorem State.loopOutput_steady (l : CleLoop) (out : ℤ) (slotTime : Nat) :
    Steady s (s.loopOutput l out slotTime).1 := Lasts.steady <| by
  unfold State.loopOutput
  dsimp only
  split <;> simp

@[simp] theorem State.evaluate_steady (n : Nat) :
    Steady s (s.evaluate n) := Lasts.steady <| by
  simp [State.evaluate]

/-! ### The host link -/

@[simp] theorem State.abortWaits_steady (f : Fin 16) (ring : Nat) : Steady s (s.abortWaits f ring) := Lasts.steady <| by
  refine Lasts.trans ?_ (Lasts.foldl (fun w s => ?_) _)
  · simp
  · split <;> simp

@[simp] theorem State.cancelStart_steady :
    Steady s s.cancelStart := Lasts.steady <| by
  unfold State.cancelStart
  split <;> simp

@[simp] theorem State.stopTaking_steady (f : Fin 16) (ring : Nat) :
    Steady s (s.stopTaking f ring) := Lasts.steady <| by
  unfold State.stopTaking
  dsimp only
  split <;> simp

@[simp] theorem State.moveIndex_steady (k : Nat) (x : Word) :
    Steady s (s.moveIndex k x) := Lasts.steady (by simp [State.moveIndex])

@[simp] theorem State.arm_steady (k : Nat) :
    Steady s (s.arm k) := Lasts.steady <| by
  simp [State.arm]

@[simp] theorem State.ringFail_steady (f : Fin 16) (k : Nat) (x : Word) :
    Steady s (s.ringFail f k x) := Lasts.steady <| by
  simp [State.ringFail]

@[simp] theorem State.openSession_steady (h : Hdr) (rb : BitVec 64) :
    Steady s (s.openSession h rb) := Lasts.steady (by simp [State.openSession])

theorem dmaRun_steady (d : HostDma) (l : List (Nat × Nat)) (s : State) : Steady s (dmaRun d l s).1 := by
  induction l generalizing s with
  | nil => exact (Lasts.refl s).steady
  | cons x l ih =>
    refine Lasts.steady ?_
    unfold dmaRun
    split <;> repeat' split
    all_goals simp [ih]

theorem State.trained_steady {s t : State} {l : UcieLink} (h : s.trained l = some t) :
    Steady s t := Lasts.steady <| by
  unfold State.trained at h
  split at h <;> cases h
  simp

/-! ### Carry records -/

@[simp] theorem State.carryExec_steady (p op x : Nat) :
    Steady s (s.carryExec p op x).2 := Lasts.steady <| by
  unfold State.carryExec
  dsimp only
  repeat' split
  all_goals simp

@[simp] theorem State.swapDone_steady (n : Nat) :
    Steady s (s.swapDone n) := Lasts.steady <| by
  unfold State.swapDone
  dsimp only
  split <;> simp

@[simp] theorem State.commitCarries_steady (j : Nat) :
    Steady s (s.commitCarries j) := Lasts.steady (by simp [State.commitCarries])
@[simp] theorem State.dropCarries_steady (j : Nat) :
    Steady s (s.dropCarries j) := Lasts.steady (by simp [State.dropCarries])

/-! ### The page keeper -/

@[simp] theorem State.setEntry_steady (k : KvPool) (n b : Nat) (g : Option Nat) :
    Steady s (s.setEntry k n b g) := Lasts.steady (by simp [State.setEntry])

theorem State.takePage_steady {s t : State} {k : KvPool} {g : Nat} (ht : s.takePage k = some (g, t)) :
    Steady s t := Lasts.steady <| by
  unfold State.takePage at ht
  dsimp only at ht
  split at ht
  · cases ht; simp
  · split at ht <;> cases ht
    simp

@[simp] theorem State.decRef_steady (part g : Nat) :
    Steady s (s.decRef part g) := Lasts.steady <| by
  simp [State.decRef]

@[simp] theorem State.nextSlot_steady (part : Nat) :
    Steady s (s.nextSlot part) := Lasts.steady (by simp [State.nextSlot])
@[simp] theorem State.pin_steady (g : Nat) :
    Steady s (s.pin g) := Lasts.steady (by simp [State.pin])

@[simp] theorem State.openSeq_steady (part n policy maxLen tokBase len : Nat) :
    Steady s (s.openSeq part n policy maxLen tokBase len) := Lasts.steady (by simp [State.openSeq])

@[simp] theorem State.kvOpen_steady (p x : Nat) :
    Steady s (s.kvOpen p x).2 := Lasts.steady <| by
  unfold State.kvOpen
  dsimp only
  repeat' split
  all_goals simp

@[simp] theorem State.kvFork_steady (p x : Nat) : Steady s (s.kvFork p x).2 := Lasts.steady <| by
  unfold State.kvFork
  dsimp only
  split
  · simp
  · split
    · simp
    · refine Lasts.trans (t := s.openSeq _ _ _ _ _ _) (by simp) (Lasts.foldl (fun e s => ?_) _)
      split <;> simp

@[simp] theorem State.kvClose_steady (p x : Nat) : Steady s (s.kvClose p x).2 := Lasts.steady <| by
  unfold State.kvClose
  dsimp only
  split
  · simp
  · split
    · simp
    · generalize hclosed : List.foldl _ _ _ = a
      have hlasts : Lasts s a.2 := by
        subst hclosed
        refine foldl_lasts Prod.snd (fun i a => ?_) _ (0, s)
        split <;> simp
      simp [hlasts]

@[simp] theorem State.writeToken_steady (k : KvPool) (g row src : Nat) (job : Option Nat) :
    Steady s (s.writeToken k g row src job) := Lasts.steady <| by
  simp [State.writeToken]

@[simp] theorem State.copyRows_steady (k : KvPool) (src dst rows : Nat) (job : Option Nat) :
    Steady s (s.copyRows k src dst rows job) := Lasts.steady <| by
  simp [State.copyRows]

@[simp] theorem State.pageFor_steady (k : KvPool) (n b : Nat) (job : Option Nat) :
    Steady s (s.pageFor k n b job).2.2.2 := Lasts.steady <| by
  unfold State.pageFor
  dsimp only
  repeat' split
  all_goals simp

theorem State.pageFor_got_steady {s t : State} {k : KvPool} {n b g : Nat} {job : Option Nat}
    (h : (s.pageFor k n b job).2.2.1 = some (g, t)) :
    Steady s t := Lasts.steady <| by
  unfold State.pageFor at h
  dsimp only at h
  split at h
  · split at h
    · cases h
    · split at h
      · cases h; simp
      · split at h
        · cases h
        next ht => cases h; simp [State.takePage_steady ht]
  · split at h
    · cases h
    next ht =>
      cases h
      rw [State.setEntry_steady, State.takePage_steady ht]
      split <;> simp

@[simp] theorem State.appendRun_steady (k : KvPool) (n at_ src stride : Nat) (job : Option Nat) (todo : Nat) (r : KvRun) :
    Steady s (s.appendRun k n at_ src stride job todo r).2 := by
  induction todo generalizing s r with
  | zero => exact (Lasts.refl s).steady
  | succ todo ih =>
    refine Lasts.steady ?_
    unfold State.appendRun
    dsimp only
    split
    · simp [ih]
    · split
      next hgot => simp
      next hgot => simp [ih, State.pageFor_got_steady hgot]

@[simp] theorem State.kvAppend_steady (p : Nat) (r : KvRun) : Steady s (s.kvAppend p r).2 := Lasts.steady <| by
  unfold State.kvAppend
  dsimp only
  split
  · simp
  · split
    · simp
    · split
      · simp
      · split
        · simp
        · generalize hrun : State.appendRun _ _ _ _ _ _ _ _ _ = run
          have hlasts : Lasts s run.2 := by simp [← hrun]
          cases run.1.dropped <;> simp [hlasts.steady]

@[simp] theorem State.kvRingOpen_steady (p x : Nat) :
    Steady s (s.kvRingOpen p x).2 := Lasts.steady <| by
  unfold State.kvRingOpen
  dsimp only
  repeat' split
  all_goals simp

@[simp] theorem State.kvRingStep_steady (p x : Nat) (job : Option Nat) :
    Steady s (s.kvRingStep p x job).2 := Lasts.steady <| by
  unfold State.kvRingStep
  dsimp only
  repeat' split
  all_goals simp

@[simp] theorem State.kvPartialSend_steady (p x : Nat) (job : Option Nat) :
    Steady s (s.kvPartialSend p x job).2 := Lasts.steady <| by
  unfold State.kvPartialSend
  dsimp only
  repeat' split
  all_goals simp

@[simp] theorem State.kvRingClose_steady (p x : Nat) :
    Steady s (s.kvRingClose p x).2 := Lasts.steady <| by
  unfold State.kvRingClose
  dsimp only
  split <;> simp

@[simp] theorem State.kvExec_steady (p : Nat) (r : KvRun) :
    Steady s (s.kvExec p r).2 := Lasts.steady <| by
  unfold State.kvExec
  dsimp only
  split
  · simp
  · split
    case h_11 =>
      split
      all_goals next h => simp [snd_steady_of_eq h]
    all_goals simp

@[simp] theorem State.kvStart_steady (p fuel : Nat) : Steady s (s.kvStart p fuel) := by
  induction fuel generalizing s with
  | zero => exact (Lasts.refl s).steady
  | succ fuel ih =>
    refine Lasts.steady ?_
    unfold State.kvStart
    split
    · simp
    · split
      next c _ _ _ =>
        cases c.from_ with
        | host => simp
        | job => simp [ih]
      · simp

@[simp] theorem State.kvPost_steady (p : Nat) (c : KvCmd) :
    Steady s (s.kvPost p c) := Lasts.steady <| by
  simp [State.kvPost]

@[simp] theorem State.jobPort_steady (rod port : Nat) (data : List Byte) :
    Steady s (s.jobPort rod port data) := Lasts.steady <| by
  unfold State.jobPort
  split <;> simp

@[simp] theorem State.kvReply_steady (c : KvCmd) (r : Rep) :
    Steady s (s.kvReply c r) := Lasts.steady <| by
  unfold State.kvReply
  split <;> simp

@[simp] theorem State.kvDone_steady (p : Nat) :
    Steady s (s.kvDone p) := Lasts.steady <| by
  unfold State.kvDone
  split <;> simp

theorem State.guestPages_steady {s t : State} {k : KvPool} {n blocks b : Nat} (h : s.guestPages k n blocks b = some t) :
    Steady s t := Lasts.steady <| by
  induction b generalizing t with
  | zero => cases h; simp
  | succ b ih =>
    unfold State.guestPages at h
    split at h
    · cases h
    next hu =>
      refine (ih hu).trans ?_
      split at h
      · split at h <;> cases h <;> simp
      · split at h
        · split at h
          next hp => cases h; simp [State.takePage_steady hp]
          · cases h
        · cases h; simp

theorem State.shardIn_steady {s t : State} {g : Nat} {payload : List Byte} (h : s.shardIn g payload = some t) :
    Steady s t := Lasts.steady <| by
  unfold State.shardIn at h
  dsimp only at h
  split at h
  · cases h; simp
  · split at h
    · cases h; simp
    · split at h
      · cases h; simp
      · obtain ⟨-, hguest⟩ := Option.ite_none_left_eq_some.1 h
        obtain ⟨u, hu, rfl⟩ := Option.map_eq_some_iff.1 hguest
        generalize hstored : List.foldl _ _ _ = v
        have hlasts : Lasts u v := by
          subst hstored
          refine Lasts.foldl (fun i s => ?_) _
          split <;> simp
        exact (State.guestPages_steady hu).lasts.trans (by simp [hlasts])

@[simp] theorem State.partialIn_steady (g : Nat) (payload : List Byte) :
    Steady s (s.partialIn g payload) := Lasts.steady <| by
  simp [State.partialIn]

@[simp] theorem State.dropMsg_steady (p i : Nat) (m : Msg) :
    Steady s (s.dropMsg p i m) := Lasts.steady (by simp [State.dropMsg])

@[simp] theorem State.journalRing_steady (p kind : Nat) (m : Msg) :
    Steady s (s.journalRing p kind m) := Lasts.steady <| by
  simp [State.journalRing]

@[simp] theorem State.arrivalWaits_steady (g : Nat) (payload : List Byte) :
    Steady s (s.arrivalWaits g payload) := Lasts.steady <| by
  simp [State.arrivalWaits]

@[simp] theorem State.admitRing_steady (g kind : Nat) (payload : List Byte) :
    Steady s (s.admitRing g kind payload) := Lasts.steady (by simp [State.admitRing])

/-! ### Runs of jobs -/

@[simp] theorem State.count_steady (n k v : Nat) :
    Steady s (s.count n k v) := Lasts.steady <| by
  simp [State.count]

@[simp] theorem State.traceJob_steady (n j kind : Nat) :
    Steady s (s.traceJob n j kind) := Lasts.steady <| by
  simp [State.traceJob]

@[simp] theorem State.endSegment_steady (n j kind : Nat) :
    Steady s (s.endSegment n j kind) := Lasts.steady <| by
  simp [State.endSegment]

@[simp] theorem State.complete_steady (j status : Nat) :
    Steady s (s.complete j status) := Lasts.steady <| by
  simp [State.complete]

@[simp] theorem State.stopRod_steady (n : Nat) :
    Steady s (s.stopRod n) := Lasts.steady <| by
  simp [State.stopRod]

@[simp] theorem State.freeRods_steady (j : Nat) :
    Steady s (s.freeRods j) := Lasts.steady (by simp [State.freeRods])

@[simp] theorem State.dropKeeper_steady (j : Nat) :
    Steady s (s.dropKeeper j) := Lasts.steady <| by
  simp [State.dropKeeper]

@[simp] theorem State.tearEffects_steady (j : Nat) :
    Steady s (s.tearEffects j) := Lasts.steady <| by
  unfold State.tearEffects
  split <;> simp

@[simp] theorem State.abandonJob_steady (j status : Nat) (last : JobState) :
    Steady s (s.abandonJob j status last) := Lasts.steady <| by
  simp [State.abandonJob]

@[simp] theorem State.haltPartition_steady (p : Nat) :
    Steady s (s.haltPartition p) := Lasts.steady <| by
  simp [State.haltPartition]

@[simp] theorem State.stopNow_steady :
    Steady s s.stopNow := Lasts.steady <| by
  simp [State.stopNow]

@[simp] theorem State.stopPlanNow_steady :
    Steady s s.stopPlanNow := Lasts.steady <| by
  unfold State.stopPlanNow
  split <;> simp

/-! ### Faults and their reactions -/

@[simp] theorem State.recordFault_steady (r : Raise) :
    Steady s (s.recordFault r) := Lasts.steady <| by
  unfold State.recordFault
  repeat' split
  all_goals simp

@[simp] theorem State.faultTrigger_steady (rs : List Raise) :
    Steady s (s.faultTrigger rs) := Lasts.steady <| by
  unfold State.faultTrigger
  split
  · split
    · simp
    · split <;> simp
  · simp

@[simp] theorem State.reacted_steady (r : Nat) :
    Steady s (s.reacted r) := Lasts.steady (by simp [State.reacted])

/-! ### Journal and replay -/

@[simp] theorem State.lateInput_steady (p : Nat) :
    Steady s (s.lateInput p) := Lasts.steady <| by
  unfold State.lateInput
  split <;> simp

@[simp] theorem State.journalStart_steady (pl : Plan) :
    Steady s (s.journalStart pl) := Lasts.steady <| by
  simp [State.journalStart]

@[simp] theorem State.replayTake_steady :
    Steady s s.replayTake := Lasts.steady <| by
  simp [State.replayTake]

@[simp] theorem State.replayStop_steady (status : Nat) :
    Steady s (s.replayStop status) := Lasts.steady <| by
  simp [State.replayStop]

@[simp] theorem State.discardDue_steady : Steady s s.discardDue := Lasts.steady <| by
  unfold State.discardDue
  refine Lasts.trans (Lasts.foldl (fun m s => ?_) _) (Lasts.foldl (fun c s => by simp) _)
  exact Lasts.trans (Lasts.foldl (by simp) _) (Lasts.foldl (fun c s => Lasts.foldl (by simp) _) _)

@[simp] theorem State.replayOutputs_steady :
    Steady s s.replayOutputs := Lasts.steady <| by
  simp [State.replayOutputs]

@[simp] theorem State.placeAhead_steady (p k : Nat) (data : List Byte) :
    Steady s (s.placeAhead p k data) := Lasts.steady (by simp [State.placeAhead])

@[simp] theorem State.replayApply_steady (a : Ahead) :
    Steady s (s.replayApply a) := Lasts.steady <| by
  unfold State.replayApply
  dsimp only
  repeat' split
  all_goals simp

@[simp] theorem State.readAhead_steady :
    Steady s s.readAhead.2 := Lasts.steady <| by
  unfold State.readAhead
  dsimp only
  repeat' split
  all_goals simp

/-! ### Rods and split-lock pairs -/

@[simp] theorem State.rodFault_steady (n code : Nat) (k : Option Nat) (detail : Word) :
    Steady s (s.rodFault n code k detail) := Lasts.steady <| by
  unfold State.rodFault
  dsimp only
  repeat' split
  all_goals simp

@[simp] theorem State.bankClash_steady (n : Nat) :
    Steady s (s.bankClash n) := Lasts.steady <| by
  simp [State.bankClash]

@[simp] theorem State.mismatched_steady (n a : Nat) (disagree : Bool) :
    Steady s (s.mismatched n a disagree) := Lasts.steady <| by
  simp [State.mismatched]

theorem State.lockstep_steady (n : Nat) {f : State → State} (hf : ∀ s, Steady s (f s)) : Steady s (s.lockstep n f) := Lasts.steady <| by
  unfold State.lockstep
  split
  · exact (hf s).lasts
  · dsimp only
    split <;> simp [hf]

@[simp] theorem State.zeroSpad_steady (n : Nat) : Steady s (s.zeroSpad n) := Lasts.steady (by simp [State.zeroSpad])
@[simp] theorem State.copySpad_steady (k : Nat) : Steady s (s.copySpad k) := Lasts.steady <| by
  have hzero : Lasts s (s.zeroSpad (2 * k + 1)) := by simp
  exact ⟨hzero.pending, fun hm => Tab.copyUp_wf (hzero.form hm) _ _ _ rfl, hzero.otp⟩

@[simp] theorem State.beginHandover_steady (k st : Nat) :
    Steady s (s.beginHandover k st) := Lasts.steady <| by
  simp [State.beginHandover]

@[simp] theorem State.pairNext_steady (k : Nat) :
    Steady s (s.pairNext k) := Lasts.steady <| by
  simp [State.pairNext]

/-! ### The rod sequencer -/

@[simp] theorem State.traceInstr_steady (n : Nat) :
    Steady s (s.traceInstr n) := Lasts.steady <| by
  simp [State.traceInstr]

@[simp] theorem State.spadRead_steady (n off len : Nat) :
    Steady s (s.spadRead n off len).2 := Lasts.steady <| by
  simp only [State.spadRead]
  split
  · simp
  · split <;> simp

/-- `State.spadRead` behind a variable: a scratchpad has 2^22 bytes, and the kernel, where it compares two readings, would multiply by that
number step by step for a rod that is not known. -/
theorem exists_spadRead_steady :
    ∃ read : State → Nat → Nat → Nat → Option (List Byte) × State,
      read = State.spadRead ∧ ∀ s n off len, Steady s (read s n off len).2 :=
  ⟨_, rfl, State.spadRead_steady⟩

@[simp] theorem State.readLines_steady (n : Nat) (ls : List Nat) : Steady s (s.readLines n ls).2 := by
  obtain ⟨read, hread, hsteady⟩ := exists_spadRead_steady
  delta State.readLines State.readLines._f
  rw [← hread]
  induction ls generalizing s with
  | nil => exact (Lasts.refl s).steady
  | cons l ls ih =>
    refine Lasts.steady ?_
    dsimp only [List.brecOn, List.brecOn.go] at ih ⊢
    split
    next h => simp [snd_steady_of_eq h, hsteady]
    next h =>
      split
      all_goals next h' => simp [snd_steady_of_eq h', ih, snd_steady_of_eq h, hsteady]

@[simp] theorem State.holdCode_steady (n : Nat) :
    Steady s (s.holdCode n).2 := Lasts.steady <| by
  simp only [State.holdCode]
  split
  · simp
  · split
    all_goals next h => simp [snd_steady_of_eq h]

@[simp] theorem State.retire_steady (n : Nat) (f : Rod → Rod) :
    Steady s (s.retire n f) := Lasts.steady <| by
  simp [State.retire]

@[simp] theorem State.hold_steady (n : Nat) (counts : Bool) :
    Steady s (s.hold n counts) := Lasts.steady (by simp [State.hold])

@[simp] theorem State.startLoop_steady (n li body : Nat) (count : Word) :
    Steady s (s.startLoop n li body count) := Lasts.steady <| by
  simp [State.startLoop]

@[simp] theorem State.waitStep_steady (n w : Nat) :
    Steady s (s.waitStep n w) := Lasts.steady <| by
  unfold State.waitStep
  split <;> simp

@[simp] theorem State.alignTo_steady (upto : Nat) :
    Steady s (s.alignTo upto) := Lasts.steady <| by
  simp [State.alignTo]

@[simp] theorem State.timeRead_steady (n d : Nat) :
    Steady s (s.timeRead n d) := Lasts.steady <| by
  unfold State.timeRead
  dsimp only
  split
  · split <;> simp
  · simp

@[simp] theorem State.scanClaim_steady (n stream : Nat) :
    Steady s (s.scanClaim n stream).2 := Lasts.steady <| by
  unfold State.scanClaim
  dsimp only
  repeat' split
  all_goals simp

@[simp] theorem State.issueStep_steady (n w : Nat) : Steady s (s.issueStep n w) := Lasts.steady <| by
  simp only [State.issueStep]
  split
  · simp
  · split
    next h => exact snd_lasts_of_eq (by simp) h
    next h =>
      refine Lasts.trans (snd_lasts_of_eq (by simp) h) ?_
      split
      · simp
      · split
        · simp
        · split <;> simp

@[simp] theorem State.jobEnd_steady (j : Nat) :
    Steady s (s.jobEnd j) := Lasts.steady <| by
  simp [State.jobEnd]

/-! ### A rod's units -/

@[simp] theorem State.touch_steady (n : Nat) (ts : List (Nat × Nat)) :
    Steady s (s.touch n ts).2 := Lasts.steady <| by
  unfold State.touch
  repeat' split
  all_goals simp

@[simp] theorem State.putEl_steady (w : ElW) :
    Steady s (s.putEl w) := Lasts.steady <| by
  simp [State.putEl]

@[simp] theorem State.foldLine_steady (j line : Nat) (words : List Nat) :
    Steady s (s.foldLine j line words) := Lasts.steady <| by
  unfold State.foldLine
  split <;> simp

@[simp] theorem State.putRun_steady (n : Nat) (ws : List ElW) :
    Steady s (s.putRun n ws) := Lasts.steady <| by
  unfold State.putRun
  dsimp only
  repeat' split
  all_goals simp

@[simp] theorem State.putAll_steady (n : Nat) (ws : List ElW) :
    Steady s (s.putAll n ws) := Lasts.steady <| by
  simp [State.putAll]

@[simp] theorem State.putBytes_steady (n a : Nat) (bs : List Byte) :
    Steady s (s.putBytes n a bs) := Lasts.steady <| by
  simp [State.putBytes]

@[simp] theorem State.drawVal_steady :
    Steady s s.drawVal.2 := Lasts.steady (by simp [State.drawVal])

@[simp] theorem State.drain_steady (a : Acc) (policy : Bool) :
    Steady s (s.drain a policy).2 := Lasts.steady <| by
  unfold State.drain
  split <;> simp

@[simp] theorem State.writeStat_steady (n unit k : Nat) (d : Desc) (t : Stat) :
    Steady s (s.writeStat n unit k d t) := Lasts.steady <| by
  simp [State.writeStat]

@[simp] theorem State.emit_steady (n unit : Nat) (d : Desc) (o : Opnd) (zp : ℤ) (stats : Bool) (xs : List Val) (before : List Bool) :
    Steady s (s.emit n unit d o zp stats xs before) := Lasts.steady <| by
  simp [State.emit]

@[simp] theorem State.chain_steady (n lane w : Nat) (g0 : Nat × Bool) (g1 : Option (Nat × Bool)) :
    Steady s (s.chain n lane w g0 g1).2 := Lasts.steady <| by
  unfold State.chain
  dsimp only
  split <;> simp

@[simp] theorem State.fetchAll_steady (n : Nat) (os : List (Opnd × Nat)) :
    Steady s (s.fetchAll n os).2 := Lasts.steady <| by
  unfold State.fetchAll
  split
  all_goals next h => simp [snd_steady_of_eq h]

@[simp] theorem State.fetchSome_steady (n : Nat) (o : Opnd) (is : List Nat) :
    Steady s (s.fetchSome n o is).2 := Lasts.steady <| by
  unfold State.fetchSome
  split
  all_goals next h => simp [snd_steady_of_eq h]

@[simp] theorem State.atEnd_steady (n unit code : Nat) :
    Steady s (s.atEnd n unit code) := Lasts.steady (by simp [State.atEnd])

/-! ### Matrix units -/

@[simp] theorem MacRun.element_steady (x : MacRun) (n : Nat) (d : Desc) (path : Nat) (sh : Shape) (oa ob : Opnd) (t : Nat) :
    Steady x.s (x.element n d path sh oa ob t).s := Lasts.steady <| by
  unfold MacRun.element
  dsimp only
  split <;> simp

@[simp] theorem MacRun.foldl_steady {α : Type} {f : MacRun → α → MacRun} (hf : ∀ x (r : MacRun), StepLasts r.s (f r x).s)
    (l : List α) (r : MacRun) : Steady r.s (l.foldl f r).s :=
  (foldl_lasts (fun r : MacRun => r.s) hf l r).steady

@[simp] theorem State.clearAcc_steady (n : Nat) (sh : Shape) :
    Steady s (s.clearAcc n sh) := Lasts.steady (by simp [State.clearAcc])

@[simp] theorem State.fusedElem_steady (n : Nat) (d : Desc) (w : Nat) (aux : Option Opnd) (t : Nat) (x : Val) :
    Steady s (s.fusedElem n d w aux t x).2 := Lasts.steady <| by
  simp [State.fusedElem]

@[simp] theorem State.matmul_steady (n : Nat) (d : Desc) (e : DescEnv) : Steady s (s.matmul n d e) := Lasts.steady <| by
  unfold State.matmul
  extract_lets
  split
  · split
    next h => simp [snd_steady_of_eq h]
    next h => simp [snd_steady_of_eq h]
  · simp

@[simp] theorem State.elemwise_steady (n : Nat) (d : Desc) (e : DescEnv) :
    Steady s (s.elemwise n d e) := Lasts.steady <| by
  unfold State.elemwise
  dsimp only
  split
  all_goals next h => simp [snd_steady_of_eq h]

@[simp] theorem State.convert_steady (n : Nat) (d : Desc) (e : DescEnv) :
    Steady s (s.convert n d e) := Lasts.steady <| by
  unfold State.convert
  dsimp only
  split
  all_goals next h => simp [snd_steady_of_eq h]

@[simp] theorem State.poolValue_steady (n : Nat) (d : Desc) (oa : Opnd) (ix : List Nat) :
    Steady s (s.poolValue n d oa ix).2.1 := Lasts.steady <| by
  unfold State.poolValue
  repeat' split
  all_goals simp

@[simp] theorem State.poolUnit_steady (n : Nat) (d : Desc) (e : DescEnv) :
    Steady s (s.poolUnit n d e) := Lasts.steady <| by
  unfold State.poolUnit
  dsimp only
  split
  all_goals next h => simp [snd_steady_of_eq h]

/-! ### Attention units -/

@[simp] theorem State.stage_steady (c : AttnCtx) (bs : List Nat) :
    Steady s (s.stage c bs) := Lasts.steady <| by
  simp [State.stage]

@[simp] theorem State.attnScore_steady (n : Nat) (d : Desc) (e : DescEnv) : Steady s (s.attnScore n d e) := Lasts.steady <| by
  unfold State.attnScore
  extract_lets
  split
  · extract_lets
    split
    · simp
    · split
      · simp
      · split
        next h => exact snd_lasts_of_eq (by simp) h
        next h =>
          extract_lets u
          have hcount : Lasts _ u := Steady.lasts (State.count_steady _ _ _ _)
          refine ((snd_lasts_of_eq (by simp) h).trans hcount).trans ?_
          split
          next h' => exact snd_lasts_of_eq (by simp) h'
          next h' =>
            refine Lasts.trans (snd_lasts_of_eq (by simp) h') ?_
            simp
  · simp

@[simp] theorem State.divide_steady (o l : Val) :
    Steady s (s.divide o l).2 := Lasts.steady <| by
  unfold State.divide
  repeat' split
  all_goals simp

@[simp] theorem State.mergeRow_steady (dim : Nat) (fin : Bool) (ps : List AttnPart) :
    Steady s (s.mergeRow dim fin ps).2.2 := Lasts.steady <| by
  unfold State.mergeRow
  dsimp only
  repeat' split
  all_goals simp

@[simp] theorem State.attnMerge_steady (n : Nat) (d : Desc) (e : DescEnv) :
    Steady s (s.attnMerge n d e) := Lasts.steady <| by
  unfold State.attnMerge
  dsimp only
  split
  · simp
  · split
    · simp
    · split
      next h => simp [snd_steady_of_eq h]
      next h => simp [snd_steady_of_eq h]

/-! ### Plan images -/

@[simp] theorem State.wrZero_steady (a n : Nat) : Steady s (s.wrZero a n) := Lasts.steady (by simp [State.wrZero])

@[simp] theorem State.applyLoad_steady (e : LoadSet) :
    Steady s (s.applyLoad e) := Lasts.steady <| by
  simp [State.applyLoad]

@[simp] theorem State.zeroSpads_steady : Steady s s.zeroSpads := Lasts.steady (by simp [State.zeroSpads])

@[simp] theorem State.loadSpads_steady (pl : Plan) :
    Steady s (s.loadSpads pl) := Lasts.steady <| by
  simp [State.loadSpads]

/-! ### The partner device -/

@[simp] theorem State.toPartner_steady (type : Nat) (payload : List Byte) :
    Steady s (s.toPartner type payload) := Lasts.steady <| by
  simp [State.toPartner]

@[simp] theorem State.sendWitness_steady :
    Steady s s.sendWitness := Lasts.steady <| by
  unfold State.sendWitness
  split <;> simp

@[simp] theorem State.partnerTime_steady (t1 t2 t3 t4 : Nat) :
    Steady s (s.partnerTime t1 t2 t3 t4) := Lasts.steady <| by
  simp [State.partnerTime]

@[simp] theorem State.signature_steady (k : Nat) (mine : Bool) (key : Word) (value : BitVec 448) :
    Steady s (s.signature k mine key value) := Lasts.steady <| by
  simp [State.signature]

@[simp] theorem State.tybSigWrite_steady (job rod k : Nat) (data : List Byte) :
    Steady s (s.tybSigWrite job rod k data) := Lasts.steady <| by
  simp [State.tybSigWrite]

/-! ### Plans -/

@[simp] theorem State.scramble_steady (block : Nat) :
    Steady s (s.scramble block) := Lasts.steady (by simp [State.scramble])

@[simp] theorem State.dropProt_steady :
    Steady s s.dropProt := Lasts.steady <| by
  simp [State.dropProt]

@[simp] theorem State.resetKeeper_steady :
    Steady s s.resetKeeper := Lasts.steady (by simp [State.resetKeeper])

@[simp] theorem State.install_steady (pl : Plan) :
    Steady s (s.install pl) := Lasts.steady <| by
  simp [State.install]

@[simp] theorem State.missRelease_steady (r : JobRec) :
    Steady s (s.missRelease r) := Lasts.steady <| by
  simp [State.missRelease]

@[simp] theorem State.releaseJob_steady (pl : Plan) (r : JobRec) :
    Steady s (s.releaseJob pl r) := Lasts.steady <| by
  simp [State.releaseJob]

@[simp] theorem State.releaseDue_steady (pl : Plan) (w : Nat) (r : JobRec) :
    Steady s (s.releaseDue pl w r) := Lasts.steady <| by
  unfold State.releaseDue
  dsimp only
  repeat' split
  all_goals simp

@[simp] theorem State.judgeGolden_steady (pl : Plan) (v : Nat) :
    Steady s (s.judgeGolden pl v) := Lasts.steady <| by
  simp [State.judgeGolden]

@[simp] theorem State.beamOverruns_steady (pl : Plan) (w : Nat) :
    Steady s (s.beamOverruns pl w) := Lasts.steady <| by
  simp [State.beamOverruns]

@[simp] theorem State.deadlines_steady (pl : Plan) (v : Nat) : Steady s (s.deadlines pl v) := Lasts.steady <| by
  refine Lasts.foldl (fun e s => ?_) _
  dsimp only
  split <;> simp

@[simp] theorem State.takeRods_steady (pl : Plan) (r : JobRec) (f : JobRod → Rod → Rod) :
    Steady s (s.takeRods pl r f) := Lasts.steady <| by
  simp [State.takeRods]

@[simp] theorem State.beginRestore_steady (pl : Plan) (r : JobRec) :
    Steady s (s.beginRestore pl r) := Lasts.steady <| by
  simp [State.beginRestore]

@[simp] theorem State.resumeJobs_steady (pl : Plan) (w : Nat) :
    Steady s (s.resumeJobs pl w) := Lasts.steady <| by
  simp [State.resumeJobs]

@[simp] theorem State.planPairs_steady (pl : Plan) (w : Nat) :
    Steady s (s.planPairs pl w) := Lasts.steady <| by
  simp [State.planPairs]

@[simp] theorem State.openGaps_steady (pl : Plan) (w : Nat) (first : Bool) :
    Steady s (s.openGaps pl w first) := Lasts.steady <| by
  simp [State.openGaps]

@[simp] theorem State.openGolden_steady (pl : Plan) (w : Nat) :
    Steady s (s.openGolden pl w) := Lasts.steady <| by
  unfold State.openGolden
  split <;> simp

@[simp] theorem State.resumeParts_steady :
    Steady s s.resumeParts := Lasts.steady <| by
  simp [State.resumeParts]

@[simp] theorem State.openWindow_steady (pl : Plan) (w : Nat) (first : Bool) :
    Steady s (s.openWindow pl w first) := Lasts.steady <| by
  simp [State.openWindow]

@[simp] theorem State.beginPlan_steady (pl : Plan) (h : Option Hdr) :
    Steady s (s.beginPlan pl h) := Lasts.steady <| by
  simp [State.beginPlan]

/-! ### The beam -/

@[simp] theorem State.loseRods_steady (j : Nat) :
    Steady s (s.loseRods j) := Lasts.steady <| by
  simp [State.loseRods]

@[simp] theorem State.saveRod_steady (n gen part saves : Nat) :
    Steady s (s.saveRod n gen part saves) := Lasts.steady <| by
  simp [State.saveRod]

@[simp] theorem State.saved_steady (n j saves : Nat) : Steady s (s.saved n j saves) := Lasts.steady <| by
  unfold State.saved
  extract_lets g p u off v
  have hu : Lasts s u := Steady.lasts (State.saveRod_steady _ _ _ _ _)
  have hv : Lasts s v := (lasts_ite ..).2 (by split; exacts [State.wr_lasts hu _ _, hu])
  clear_value u v
  simp [hv]

@[simp] theorem State.restoreRod_steady (n j : Nat) : Steady s (s.restoreRod n j) := Lasts.steady <| by
  obtain ⟨read, hread, hsteady⟩ := exists_spadRead_steady
  have hdef : @State.restoreRod = @State.restoreRod := rfl
  conv at hdef => rhs; delta State.restoreRod
  rw [← hread] at hdef
  rw [hdef]
  dsimp only
  split
  next h => simp [snd_steady_of_eq h, hsteady]
  next h => simp [snd_steady_of_eq h, hsteady]

/-- `State.restoreRod` behind a variable, as `exists_spadRead`. -/
theorem exists_restoreRod_steady :
    ∃ restore : State → Nat → Nat → State, restore = State.restoreRod ∧ ∀ s n j, Steady s (restore s n j) :=
  ⟨_, rfl, State.restoreRod_steady⟩

@[simp] theorem State.reload_steady (j : Nat) (e : LoadSet) :
    Steady s (s.reload j e) := Lasts.steady <| by
  unfold State.reload
  split <;> simp

@[simp] theorem State.endSlice_steady (n : Nat) :
    Steady s (s.endSlice n) := Lasts.steady <| by
  simp [State.endSlice]

/-! ### The ledger -/

@[simp] theorem State.numberRec_steady (r : LedgerRec) (seq : Nat) (prev : List Byte) :
    Steady s (s.numberRec r seq prev).2 := Lasts.steady <| by
  simp [State.numberRec]

@[simp] theorem State.numberNext_steady (r : LedgerRec) :
    Steady s (s.numberNext r).2 := Lasts.steady <| by
  simp [State.numberNext]

@[simp] theorem State.enqueueRec_steady (type payload : Nat) :
    Steady s (s.enqueueRec type payload) := Lasts.steady <| by
  unfold State.enqueueRec
  split <;> simp

@[simp] theorem State.raiseRec_steady (type payload : Nat) :
    Steady s (s.raiseRec type payload) := Lasts.steady <| by
  simp [State.raiseRec]

@[simp] theorem State.flushRecs_steady :
    Steady s s.flushRecs := Lasts.steady <| by
  simp [State.flushRecs]

@[simp] theorem State.otpEvent_steady (ev which value : Nat) :
    Steady s (s.otpEvent ev which value) := Lasts.steady <| by
  simp [State.otpEvent]

@[simp] theorem State.securityRec_steady (code : Nat) :
    Steady s (s.securityRec code) := Lasts.steady <| by
  simp [State.securityRec]

@[simp] theorem State.numberAll_steady :
    Steady s s.numberAll := Lasts.steady <| by
  simp [State.numberAll]

@[simp] theorem State.burn_steady (p : Nat × Word) :
    Steady s (s.burn p) := Lasts.steady (by simp [State.burn])

@[simp] theorem State.abandonOtp_steady :
    Steady s s.abandonOtp := Lasts.steady <| by
  unfold State.abandonOtp
  split <;> simp

/-! ### Security commands -/

@[simp] theorem State.openChain_steady (old : Nat) :
    Steady s (s.openChain old) := Lasts.steady <| by
  simp [State.openChain]

@[simp] theorem State.otpDone_steady (j : OtpJob) :
    Steady s (s.otpDone j) := Lasts.steady <| by
  unfold State.otpDone
  split <;> simp

@[simp] theorem State.beginMemInit_steady :
    Steady s s.beginMemInit := Lasts.steady <| by
  simp [State.beginMemInit]

/-! ### Boot -/

theorem State.verifyImage_steady {next : State → State} (hnext : ∀ s, Steady s (next s)) : Steady s (s.verifyImage next) := Lasts.steady <| by
  simp [State.verifyImage, hnext]

@[simp] theorem State.romEvents_steady :
    Steady s s.romEvents := Lasts.steady <| by
  simp [State.romEvents]

@[simp] theorem State.wearBase_steady :
    Steady s s.wearBase := Lasts.steady (by simp [State.wearBase])

/-! ### The memory system -/

@[simp] theorem State.serve_steady (q : MemReq) :
    Steady s (s.serve q) := Lasts.steady <| by
  unfold State.serve
  repeat' split
  all_goals simp

@[simp] theorem State.continueQueue_steady (l : List MemReq) : Steady s (s.continueQueue l).1 := by
  induction l generalizing s with
  | nil => exact (Lasts.refl s).steady
  | cons q l ih =>
    refine Lasts.steady ?_
    unfold State.continueQueue
    split
    · simp [ih]
    · exact (ih s).lasts

@[simp] theorem State.serveQueue_steady (pos : Nat) (mine : Nat → Bool) (l : List MemReq) (used : List Nat) :
    Steady s (s.serveQueue pos mine l used).1 := by
  induction l generalizing s used with
  | nil => exact (Lasts.refl s).steady
  | cons q l ih =>
    refine Lasts.steady ?_
    unfold State.serveQueue
    dsimp only
    split
    · exact Steady.lasts (ih s used)
    · split
      · split
        · simp [ih]
        · exact Steady.lasts (ih s _)
      · simp

@[simp] theorem State.serveSlot_steady (pos : Nat) (mine : Nat → Bool) (l : List MemReq) :
    Steady s (s.serveSlot pos mine l).1 := Lasts.steady <| by
  simp [State.serveSlot]

@[simp] theorem State.keepQueues_steady (island : Nat) (left : List MemReq) :
    Steady s (s.keepQueues island left) := Lasts.steady (by simp [State.keepQueues])

/-! ### Sensor streams -/

@[simp] theorem State.dropFrame_steady (p cause : Nat) :
    Steady s (s.dropFrame p cause) := Lasts.steady <| by
  unfold State.dropFrame
  split <;> simp

@[simp] theorem State.missSlot_steady (p : Nat) :
    Steady s (s.missSlot p) := Lasts.steady (by simp [State.missSlot])

@[simp] theorem State.writeRow_steady (p k y : Nat) (f : FrameRun) :
    Steady s (s.writeRow p k y f) := Lasts.steady <| by
  simp [State.writeRow]

@[simp] theorem State.discardPkt_steady (port : Nat) (unknown : Bool) :
    Steady s (s.discardPkt port unknown) := Lasts.steady (by simp [State.discardPkt])
@[simp] theorem State.markFrame_steady (p cause : Nat) :
    Steady s (s.markFrame p cause) := Lasts.steady (by simp [State.markFrame])

@[simp] theorem State.noteEcc_steady (port : Nat) (ecc : Fin 3) :
    Steady s (s.noteEcc port ecc) := Lasts.steady <| by
  simp [State.noteEcc]

@[simp] theorem State.abandonInjection_steady (port : Nat) :
    Steady s (s.abandonInjection port) := Lasts.steady <| by
  simp [State.abandonInjection]

@[simp] theorem State.frameStart_steady (p num : Nat) :
    Steady s (s.frameStart p num) := Lasts.steady <| by
  unfold State.frameStart
  dsimp only
  split <;> simp

@[simp] theorem State.lineIn_steady (p : Nat) (data : List Byte) (crcOk : Bool) :
    Steady s (s.lineIn p data crcOk) := Lasts.steady <| by
  unfold State.lineIn
  dsimp only
  repeat' split
  all_goals simp

@[simp] theorem State.embeddedIn_steady (p : Nat) (data : List Byte) (crcOk : Bool) :
    Steady s (s.embeddedIn p data crcOk) := Lasts.steady <| by
  simp [State.embeddedIn]

@[simp] theorem State.embCheck_steady (p : Nat) (f : FrameRun) :
    Steady s (s.embCheck p f).2 := Lasts.steady <| by
  unfold State.embCheck
  dsimp only
  repeat' split
  all_goals simp

@[simp] theorem State.frameEnd_steady (p : Nat) :
    Steady s (s.frameEnd p) := Lasts.steady <| by
  unfold State.frameEnd
  dsimp only
  repeat' split
  all_goals simp

@[simp] theorem State.inject_steady (p : Nat) :
    Steady s (s.inject p) := Lasts.steady <| by
  simp [State.inject]

@[simp] theorem State.roiWrite_steady (job rod stream : Nat) (data : List Byte) :
    Steady s (s.roiWrite job rod stream data) := Lasts.steady <| by
  simp [State.roiWrite]

/-! ### The data mover -/

@[simp] theorem State.portWrite_steady (rod job block port : Nat) (data : List Byte) :
    Steady s (s.portWrite rod job block port data) := Lasts.steady <| by
  unfold State.portWrite
  split <;> simp

@[simp] theorem State.dmaMove_steady (n : Nat) (d : Desc) (e : DescEnv) :
    Steady s (s.dmaMove n d e) := Lasts.steady <| by
  unfold State.dmaMove
  dsimp only
  split
  · simp
  · split
    · simp
    · split
      next h => simp [snd_steady_of_eq h]
      next h =>
        split
        · split <;> simp [snd_steady_of_eq h]
        · simp [snd_steady_of_eq h]

/-! ### Power -/

@[simp] theorem State.guardDomain_steady (i avg : Nat) : Steady s (s.guardDomain i avg) := Lasts.steady <| by
  unfold State.guardDomain
  dsimp only
  generalize (if i < 16 then s.islandJobs i else []) = js
  repeat' split
  all_goals simp

@[simp] theorem State.sawLevel_steady (r : Fin 4) (low level : BitVec 16) :
    Steady s (s.sawLevel r low level) := Lasts.steady (by simp [State.sawLevel])

/-! ### Trace commands -/

@[simp] theorem State.traceOut_steady (r : TraceRec) :
    Steady s (s.traceOut r) := Lasts.steady (by simp [State.traceOut])

@[simp] theorem State.traceDrain_steady (n : Nat) : Steady s (s.traceDrain n) := by
  induction n generalizing s with
  | zero => exact (Lasts.refl s).steady
  | succ n ih =>
    refine Lasts.steady ?_
    unfold State.traceDrain
    dsimp only
    split
    · split <;> simp [ih]
    · simp

@[simp] theorem State.traceOff_steady :
    Steady s s.traceOff := Lasts.steady <| by
  unfold State.traceOff
  split <;> simp

@[simp] theorem State.traceKeep_steady (r : TraceRec) :
    Steady s (s.traceKeep r) := Lasts.steady <| by
  simp [State.traceKeep]

@[simp] theorem State.traceBufGap_steady :
    Steady s s.traceBufGap := Lasts.steady <| by
  simp [State.traceBufGap]

@[simp] theorem State.traceMove_steady :
    Steady s s.traceMove := Lasts.steady <| by
  unfold State.traceMove
  repeat' split
  all_goals simp

@[simp] theorem State.traceSyncRec_steady :
    Steady s s.traceSyncRec := Lasts.steady <| by
  simp [State.traceSyncRec]

@[simp] theorem State.answerRead_steady (w : Nat) :
    Steady s (s.answerRead w) := Lasts.steady (by simp [State.answerRead])

/-! ### Registers -/

@[simp] theorem State.msixWrite_steady (v i : Nat) (w : Word) :
    Steady s (s.msixWrite v i w) := Lasts.steady <| by
  unfold State.msixWrite
  split <;> simp

/-! ### Command take -/

@[simp] theorem State.fnReset_steady (f : Fin 16) : Steady s (s.fnReset f) := Lasts.steady (by simp [State.fnReset])

@[simp] theorem State.functionReset_steady (f : Fin 16) :
    Steady s (s.functionReset f) := Lasts.steady (by simp [State.functionReset, State.dropReplies])

/-! ### Vision units -/

@[simp] theorem State.cropResize_steady (n : Nat) (d : Desc) (e : DescEnv) :
    Steady s (s.cropResize n d e) := Lasts.steady <| by
  unfold State.cropResize
  dsimp only
  split
  · simp
  · split
    · simp
    · split
      next h => simp [snd_steady_of_eq h]
      next h =>
        split
        all_goals next h' => simp [snd_steady_of_eq h', snd_steady_of_eq h]

@[simp] theorem State.chArgmax_steady (n : Nat) (d : Desc) (e : DescEnv) :
    Steady s (s.chArgmax n d e) := Lasts.steady <| by
  unfold State.chArgmax
  dsimp only
  split
  all_goals next h => simp [snd_steady_of_eq h]

/-- `State.touch` behind a variable, as `exists_spadRead_steady`. -/
theorem exists_touch_steady :
    ∃ touch : State → Nat → List (Nat × Nat) → Bool × State, touch = State.touch ∧ ∀ s n ts, Steady s (touch s n ts).2 :=
  ⟨_, rfl, State.touch_steady⟩

@[simp] theorem State.scan_steady (n : Nat) (d : Desc) (e : DescEnv) : Steady s (s.scan n d e) := Lasts.steady <| by
  obtain ⟨touch, htouch, hsteady⟩ := exists_touch_steady
  have hdef : @State.scan = @State.scan := rfl
  conv at hdef => rhs; delta State.scan
  rw [← htouch] at hdef
  rw [hdef]
  dsimp only
  split
  · simp
  · split
    next h => exact snd_lasts_of_eq (hsteady _ _ _).lasts h
    next h =>
      refine (snd_lasts_of_eq (hsteady _ _ _).lasts h).trans ?_
      split
      next h' => exact snd_lasts_of_eq (by simp) h'
      next v h' =>
        refine (snd_lasts_of_eq (by simp) h').trans ?_
        generalize hput : State.putBytes _ _ _ _ = u
        have hlasts : Lasts v u := by
          subst hput
          exact (Steady.lasts (State.emit_steady _ _ _ _ _ _ _ _ _)).trans (Steady.lasts (State.putBytes_steady _ _ _ _))
        simp [hlasts]

end Sys2Proof.Machine
end

section
/-! Reactions to faults, resets, and answers: what lasts through them. -/

namespace Sys2Proof.Machine

variable (s : State)

/-! ### Reactions to faults -/

@[simp] theorem State.cleSafe_steady : Steady s s.cleSafe := Lasts.steady <| by
  unfold State.cleSafe
  split <;> simp

@[simp] theorem State.canWithdrawAll_steady : Steady s s.canWithdrawAll := Lasts.steady (by simp [State.canWithdrawAll])

@[simp] theorem State.ethWithdrawAll_steady : Steady s s.ethWithdrawAll := Lasts.steady <| by
  unfold State.ethWithdrawAll
  refine Lasts.foldl (fun m s => ?_) _
  dsimp only
  refine Lasts.trans ?_ (Lasts.foldl (fun c s => ?_) _)
  · simp
  · refine Lasts.trans ?_ (Lasts.foldl (fun p s => ?_) _)
    · simp
    · simp

@[simp] theorem State.enterSafe_steady : Steady s s.enterSafe := Lasts.steady (by simp [State.enterSafe])

@[simp] theorem State.escalate_steady (p : Nat) : Steady s (s.escalate p) := Lasts.steady <| by
  unfold State.escalate
  split <;> simp

@[simp] theorem State.restartJob_steady (j : Nat) (late relock : Bool) : Steady s (s.restartJob j late relock) := Lasts.steady <| by
  unfold State.restartJob
  split <;> simp

@[simp] theorem State.reactAll_steady (rs : List (Raise × Nat)) : Steady s (s.reactAll rs) := Lasts.steady <| by
  simp [State.reactAll]

@[simp] theorem State.settleN_steady (n : Nat) : Steady s (s.settleN n) := by
  induction n generalizing s with
  | zero => exact (Lasts.refl s).steady
  | succ n ih =>
    refine Lasts.steady ?_
    unfold State.settleN
    split
    · simp
    · simp [ih]

@[simp] theorem State.settle_steady : Steady s s.settle := State.settleN_steady s 8

@[simp] theorem State.beamTo_steady (pl : Plan) (w : Nat) : Steady s (s.beamTo pl w) := Lasts.steady (by simp [State.beamTo])

/-! ### Resets -/

@[simp] theorem State.powerOn_steady (cause rail : Nat) : Steady s (s.powerOn cause rail) := Lasts.steady <| by
  simp [State.powerOn, State.resetBase]

@[simp] theorem State.warm_steady (cause : Nat) : Steady s (s.warm cause) := Lasts.steady <| by
  simp [State.warm, State.resetBase]

@[simp] theorem State.warmCause_steady (cause : Nat) : Steady s (s.warmCause cause) := Lasts.steady <| by
  simp [State.warmCause]

/-! ### Answers -/

/-- If the step answers a next state, what lasts has lasted. -/
def OutLasts (s : State) (o : Out) : Prop := ∀ t, o = .next t → Lasts s t

/-- If the command's answer carries a state, what lasts has lasted. -/
def AnsLasts (s : State) : Ans → Prop
  | .ok t _ => Lasts s t
  | .no _ _ => True
  | .later t => Lasts s t

variable {s}

@[simp] theorem outLasts_next (t : State) : OutLasts s (.next t) ↔ Lasts s t :=
  ⟨fun h => h t rfl, fun h u e => by cases e; exact h⟩

theorem OutLasts.after {t : State} {o : Out} (hs : Lasts s t) (ho : OutLasts t o) : OutLasts s o := fun u e => hs.trans (ho u e)

@[simp] theorem outLasts_refused (r : Refusal) : OutLasts s (.refused r) := fun _ e => nomatch e

@[simp] theorem outLasts_fault (f : Fault) : OutLasts s (.fault f) := fun _ e => nomatch e

@[simp] theorem outLasts_ite (c : Prop) [Decidable c] (a b : Out) :
    OutLasts s (if c then a else b) ↔ if c then OutLasts s a else OutLasts s b := by
  split <;> rfl

@[simp] theorem ansLasts_ok (t : State) (r : Rep) : AnsLasts s (.ok t r) ↔ Lasts s t := Iff.rfl

@[simp] theorem ansLasts_no (st d : Nat) : AnsLasts s (.no st d) := trivial

@[simp] theorem ansLasts_later (t : State) : AnsLasts s (.later t) ↔ Lasts s t := Iff.rfl

@[simp] theorem ansLasts_ite (c : Prop) [Decidable c] (a b : Ans) :
    AnsLasts s (if c then a else b) ↔ if c then AnsLasts s a else AnsLasts s b := by
  split <;> rfl

@[simp] theorem checks_lasts {k : Ans} (hk : AnsLasts s k) (cs : List (Bool × Nat)) : AnsLasts s (checks cs k) := by
  unfold checks
  split
  · trivial
  · exact hk

theorem stepAns_lasts {r : Bool × State} (hr : Lasts s r.2) : AnsLasts s (stepAns r) := by
  simp [stepAns, hr]

theorem finish_lasts (h : Hdr) (fast : Bool) {a : Ans} (ha : AnsLasts s a) : OutLasts s (finish h fast s a) := by
  intro t e
  rcases finish_cases e with rfl | ⟨r, rfl⟩ | ⟨s', r, rfl, rfl⟩ | rfl
  · exact .refl _
  · simp
  · exact Lasts.trans ha (by simp)
  · exact ha

theorem firmware_lasts {h : Hdr} {a : Ans} (ha : AnsLasts s a) : OutLasts s (firmware h s a) := finish_lasts h false ha

theorem fastPath_lasts {h : Hdr} {a : Ans} (ha : AnsLasts s a) : OutLasts s (fastPath h s a) := finish_lasts h true ha

end Sys2Proof.Machine
end

section
/-! Each command keeps what lasts. -/

namespace Sys2Proof.Machine

variable {s : State}

/-! ### The time base -/

@[simp] theorem execTimeSet_lasts (h : Hdr) (frac : BitVec 16) (ns : Word) (sec : BitVec 64) :
    OutLasts s (execTimeSet h frac ns sec s) :=
  firmware_lasts (checks_lasts (stepAns_lasts (by simp)) _)

@[simp] theorem execTimeStep_lasts (h : Hdr) (frac : BitVec 16) (ns : Word) (sec : BitVec 64) :
    OutLasts s (execTimeStep h frac ns sec s) :=
  firmware_lasts (checks_lasts (stepAns_lasts (by simp)) _)

@[simp] theorem execTimeRate_lasts (h : Hdr) (incr : BitVec 64) : OutLasts s (execTimeRate h incr s) :=
  firmware_lasts (checks_lasts (by simp) _)

@[simp] theorem execTimeSlew_lasts (h : Hdr) (rate count : Word) : OutLasts s (execTimeSlew h rate count s) :=
  firmware_lasts (by simp [doTimeSlew])

@[simp] theorem execSlewEnd_lasts : OutLasts s (execSlewEnd s) := by
  simp [execSlewEnd]

@[simp] theorem execTimeRead_lasts (h : Hdr) : OutLasts s (execTimeRead h s) := firmware_lasts (by simp)

@[simp] theorem execTimePinConfig_lasts (h : Hdr) (pin mode edge : Byte) (at_ : BitVec 64) (period width : Word) :
    OutLasts s (execTimePinConfig h pin mode edge at_ period width s) :=
  firmware_lasts (checks_lasts (by simp) _)

@[simp] theorem execTimeCapture_lasts (h : Hdr) (pin : Byte) : OutLasts s (execTimeCapture h pin s) := by
  refine firmware_lasts ?_
  unfold doTimeCapture
  dsimp only
  split <;> simp

@[simp] theorem execTimeJumpLimit_lasts (h : Hdr) (limit : Word) : OutLasts s (execTimeJumpLimit h limit s) :=
  firmware_lasts (checks_lasts (by simp) _)

@[simp] theorem execTimNowFracRead_lasts (fn : Fin 16) : OutLasts s (execTimNowFracRead fn s) := by
  simp [execTimNowFracRead]

@[simp] theorem execPpsOutPulse_lasts : OutLasts s (execPpsOutPulse s) := by
  simp [execPpsOutPulse]

@[simp] theorem execTimePinEdge_lasts (p : Fin 6) (level : Bool) : OutLasts s (execTimePinEdge p level s) := by
  simp [execTimePinEdge]

/-! ### CAN FD controllers -/

@[simp] theorem execCanConfig_lasts (h : Hdr) (ctrl mode : Byte) (lateNs minGap : Word) :
    OutLasts s (execCanConfig h ctrl mode lateNs minGap s) :=
  firmware_lasts (checks_lasts (by simp) _)

@[simp] theorem execCanTiming_lasts (h : Hdr) (ctrl : Byte) (nBrp nTseg1 nTseg2 nSjw : BitVec 16)
    (dBrp dTseg1 dTseg2 dSjw tdco tdcEn : Byte) :
    OutLasts s (execCanTiming h ctrl nBrp nTseg1 nTseg2 nSjw dBrp dTseg1 dTseg2 dSjw tdco tdcEn s) :=
  firmware_lasts (checks_lasts (by simp) _)

@[simp] theorem execCanFilterSet_lasts (h : Hdr) (ctrl index target buf ide : Byte) (value mask : Word) :
    OutLasts s (execCanFilterSet h ctrl index target buf ide value mask s) :=
  firmware_lasts (checks_lasts (by simp) _)

@[simp] theorem execCanMbSet_lasts (h : Hdr) (ctrl buf kind mode oneShot : Byte) (at_ src : BitVec 64) :
    OutLasts s (execCanMbSet h ctrl buf kind mode oneShot at_ src s) := by
  refine firmware_lasts (checks_lasts ?_ _)
  dsimp only
  rw [ansLasts_ok]
  split <;> simp

@[simp] theorem execCanMbSend_lasts (h : Hdr) (ctrl buf : Byte) : OutLasts s (execCanMbSend h ctrl buf s) :=
  firmware_lasts (checks_lasts (by simp) _)

@[simp] theorem execCanMbAbort_lasts (h : Hdr) (ctrl buf : Byte) : OutLasts s (execCanMbAbort h ctrl buf s) := by
  refine firmware_lasts ?_
  unfold doCanMbAbort
  dsimp only
  repeat' split
  all_goals simp

@[simp] theorem execCanRxfConfig_lasts (h : Hdr) (ctrl fifo depth : Byte) : OutLasts s (execCanRxfConfig h ctrl fifo depth s) :=
  firmware_lasts (checks_lasts (by simp) _)

@[simp] theorem execCanRecover_lasts (h : Hdr) (ctrl : Byte) : OutLasts s (execCanRecover h ctrl s) :=
  firmware_lasts (checks_lasts (by simp) _)

@[simp] theorem execCanQuery_lasts (h : Hdr) (ctrl : Byte) : OutLasts s (execCanQuery h ctrl s) :=
  firmware_lasts (checks_lasts (by simp) _)

@[simp] theorem execCanMbWord0Read_lasts (c : Fin 16) (i : Nat) : OutLasts s (execCanMbWord0Read c i s) := by
  simp [execCanMbWord0Read]

@[simp] theorem execCanMbWord23Read_lasts (c : Fin 16) (i : Nat) : OutLasts s (execCanMbWord23Read c i s) := by
  simp [execCanMbWord23Read]

@[simp] theorem execCanError_lasts (c : Fin 16) (e : CanErr) : OutLasts s (execCanError c e s) := by
  unfold execCanError
  split <;> simp

@[simp] theorem execCanRecoveryDone_lasts (c : Fin 16) : OutLasts s (execCanRecoveryDone c s) := by
  simp [execCanRecoveryDone]

@[simp] theorem execCanBusIntegrationDone_lasts (c : Fin 16) : OutLasts s (execCanBusIntegrationDone c s) := by
  simp [execCanBusIntegrationDone]

@[simp] theorem execCanArbitration_lasts (c : Fin 16) : OutLasts s (execCanArbitration c s) := by
  unfold execCanArbitration
  dsimp only
  repeat' split
  all_goals simp

@[simp] theorem execCanTxDone_lasts (c : Fin 16) (r : CanTx) (delay : Option (BitVec 7)) : OutLasts s (execCanTxDone c r delay s) := by
  unfold execCanTxDone
  dsimp only
  repeat' split
  all_goals simp

@[simp] theorem execCanLaunchWithdraw_lasts (c : Fin 16) (b : Fin 64) : OutLasts s (execCanLaunchWithdraw c b s) := by
  simp [execCanLaunchWithdraw]

@[simp] theorem execCanFrameReceive_lasts (c : Fin 16) (f : CanFrame) (age : Nat) : OutLasts s (execCanFrameReceive c f age s) := by
  unfold execCanFrameReceive
  dsimp only
  repeat' split
  all_goals simp

/-! ### Tallies -/

@[simp] theorem execTallyAdd_lasts (h : Hdr) (t : BitVec 16) (v : Word) : OutLasts s (execTallyAdd h t v s) :=
  fastPath_lasts (checks_lasts (by simp) _)

@[simp] theorem execTallySet_lasts (h : Hdr) (t : BitVec 16) (v : Word) : OutLasts s (execTallySet h t v s) :=
  fastPath_lasts (checks_lasts (by simp) _)

@[simp] theorem execTallyRead_lasts (h : Hdr) (t : BitVec 16) : OutLasts s (execTallyRead h t s) :=
  fastPath_lasts (checks_lasts (by simp) _)

@[simp] theorem execTallyApply_lasts (t : BitVec 14) : OutLasts s (execTallyApply t s) := by
  unfold execTallyApply
  dsimp only
  split <;> simp

@[simp] theorem execTallyWait_lasts (h : Hdr) (t : BitVec 16) (target timeoutUs : Word) :
    OutLasts s (execTallyWait h t target timeoutUs s) := by
  refine fastPath_lasts (checks_lasts ?_ _)
  split
  next e => exact (State.takeWait_fst_steady (congrArg Prod.fst e)).lasts
  next e => exact snd_lasts_of_eq (by simp) e

@[simp] theorem execTallyWaitSatisfied_lasts (i : Nat) : OutLasts s (execTallyWaitSatisfied i s) := by
  unfold execTallyWaitSatisfied
  split
  · simp
  · split <;> simp

@[simp] theorem execTallyWaitTimeout_lasts (i : Nat) : OutLasts s (execTallyWaitTimeout i s) := by
  unfold execTallyWaitTimeout
  split <;> simp

theorem State.remoteSend_lasts (h : Hdr) (op : Nat) (t node : BitVec 16) (value timeoutUs : Word) :
    AnsLasts s (s.remoteSend h op t node value timeoutUs) := by
  unfold State.remoteSend
  extract_lets
  split
  · trivial
  next hsend => exact (State.sendMsg_steady hsend).lasts

theorem State.remoteAns_lasts {a : Ans} (ha : AnsLasts s a) : AnsLasts s (s.remoteAns a) := by
  unfold State.remoteAns
  split
  · simp
  · exact ha

theorem doRemote_lasts (h : Hdr) (op : Nat) (t node : BitVec 16) (value timeoutUs : Word) :
    AnsLasts s (doRemote h op t node value timeoutUs s) :=
  checks_lasts (State.remoteAns_lasts (State.remoteSend_lasts ..)) _

@[simp] theorem execTallyRemoteAdd_lasts (h : Hdr) (t node : BitVec 16) (v : Word) : OutLasts s (execTallyRemoteAdd h t node v s) :=
  firmware_lasts (doRemote_lasts ..)

@[simp] theorem execTallyRemoteSet_lasts (h : Hdr) (t node : BitVec 16) (v : Word) : OutLasts s (execTallyRemoteSet h t node v s) :=
  firmware_lasts (doRemote_lasts ..)

@[simp] theorem execTallyRemoteRead_lasts (h : Hdr) (t node : BitVec 16) : OutLasts s (execTallyRemoteRead h t node s) :=
  firmware_lasts (doRemote_lasts ..)

@[simp] theorem execTallyRemoteWait_lasts (h : Hdr) (t node : BitVec 16) (target timeoutUs : Word) :
    OutLasts s (execTallyRemoteWait h t node target timeoutUs s) :=
  firmware_lasts (doRemote_lasts ..)

@[simp] theorem execRemoteResponseTimeout_lasts (i : Nat) : OutLasts s (execRemoteResponseTimeout i s) := by
  unfold execRemoteResponseTimeout
  split <;> simp

@[simp] theorem execTallyReqRx_lasts (p : Fin 2) : OutLasts s (execTallyReqRx p s) := by
  unfold execTallyReqRx
  split
  · simp
  next hm =>
    have hs' := (State.takeMsg_steady hm).lasts
    dsimp only
    split
    · simp [hs']
    · split
      · simp [hs']
      · split
        · simp [hs']
        · split
          · simp [hs']
          · split
            next e => simp [hs'.trans (State.takeWait_fst_steady (congrArg Prod.fst e)).lasts]
            next e => simp [hs'.trans (snd_lasts_of_eq (by simp) e)]
          · simp [hs']

@[simp] theorem execTallyRespRx_lasts (p : Fin 2) : OutLasts s (execTallyRespRx p s) := by
  unfold execTallyRespRx
  split
  · simp
  next hm =>
    have hs' := (State.takeMsg_steady hm).lasts
    dsimp only
    split
    · simp [hs']
    · split <;> simp [hs']

/-! ### Tyben ports -/

@[simp] theorem execTybNodeSet_lasts (h : Hdr) (node : BitVec 16) : OutLasts s (execTybNodeSet h node s) :=
  firmware_lasts (checks_lasts (by simp) _)

@[simp] theorem execTybPortConfig_lasts (h : Hdr) (port enable medium maxRate mac cls flits : Byte) (peerMac : BitVec 48) :
    OutLasts s (execTybPortConfig h port enable medium maxRate mac cls flits peerMac s) :=
  firmware_lasts (checks_lasts (by simp) _)

@[simp] theorem execTybRouteSet_lasts (h : Hdr) (index prefix_ : BitVec 16) (len port valid : Byte) :
    OutLasts s (execTybRouteSet h index prefix_ len port valid s) :=
  firmware_lasts (checks_lasts (by simp) _)

@[simp] theorem execTybMsgSend_lasts (h : Hdr) (node : BitVec 16) (data : BitVec 224) : OutLasts s (execTybMsgSend h node data s) := by
  refine firmware_lasts (checks_lasts ?_ _)
  split
  · simp
  · trivial
  · split
    · trivial
    next hsend => simp [(State.sendMsg_steady hsend).lasts]

@[simp] theorem execTybOffsetMeasure_lasts (h : Hdr) (port : Byte) : OutLasts s (execTybOffsetMeasure h port s) :=
  firmware_lasts (checks_lasts (by simp) _)

@[simp] theorem execTybQuery_lasts (h : Hdr) (port : Byte) : OutLasts s (execTybQuery h port s) :=
  firmware_lasts (checks_lasts (by simp) _)

@[simp] theorem execTybPeerDetect_lasts (p : Fin 2) : OutLasts s (execTybPeerDetect p s) := by
  simp [execTybPeerDetect]

@[simp] theorem execTybTrainDone_lasts (p : Fin 2) (lock : Option (BitVec 2 × BitVec 2)) : OutLasts s (execTybTrainDone p lock s) := by
  unfold execTybTrainDone
  split <;> simp

@[simp] theorem execTybDetectRetry_lasts (p : Fin 2) : OutLasts s (execTybDetectRetry p s) := by
  simp [execTybDetectRetry]

@[simp] theorem execTybConfigFlitSend_lasts (p : Fin 2) : OutLasts s (execTybConfigFlitSend p s) := by
  simp [execTybConfigFlitSend]

@[simp] theorem execTybConfigFlitRx_lasts (p : Fin 2) (f : List Byte) : OutLasts s (execTybConfigFlitRx p f s) := by
  simp [execTybConfigFlitRx]

@[simp] theorem execTybRetrainEntry_lasts (p : Fin 2) (c : RetrainCause) : OutLasts s (execTybRetrainEntry p c s) := by
  simp [execTybRetrainEntry]

@[simp] theorem execTybRetrainDone_lasts (p : Fin 2) (rate width : BitVec 2) : OutLasts s (execTybRetrainDone p rate width s) := by
  simp [execTybRetrainDone]

@[simp] theorem execTybRetrainTimeout_lasts (p : Fin 2) : OutLasts s (execTybRetrainTimeout p s) := by
  simp [execTybRetrainTimeout]

@[simp] theorem execTybFlitRx_lasts (p : Fin 2) (f : List Byte) : OutLasts s (execTybFlitRx p f s) := by
  simp [execTybFlitRx]

@[simp] theorem execTybMsgRx_lasts (p : Fin 2) : OutLasts s (execTybMsgRx p s) := by
  simp [execTybMsgRx]

@[simp] theorem execHostMsgRx_lasts (p : Fin 2) : OutLasts s (execHostMsgRx p s) := by
  unfold execHostMsgRx
  split
  · simp
  next hm => simp [State.takeMsg_steady hm]

@[simp] theorem execOffsetProbeRx_lasts (p : Fin 2) : OutLasts s (execOffsetProbeRx p s) := by
  unfold execOffsetProbeRx
  split
  · simp
  next hm => simp [State.takeMsg_steady hm]

@[simp] theorem execOffsetReplyRx_lasts (p : Fin 2) : OutLasts s (execOffsetReplyRx p s) := by
  unfold execOffsetReplyRx
  split
  · simp
  next hm =>
    split <;> simp [State.takeMsg_steady hm]

/-! ### Ethernet MACs -/

@[simp] theorem execEthPortConfig_lasts (h : Hdr) (mac speed enable : Byte) (maxFrame : BitVec 16) (txDelay rxDelay lateNs : Word) :
    OutLasts s (execEthPortConfig h mac speed enable maxFrame txDelay rxDelay lateNs s) :=
  firmware_lasts (checks_lasts (by simp) _)

@[simp] theorem execEthRxqConfig_lasts (h : Hdr) (mac queue mode log2 : Byte) (minGap : Word) (base wb : BitVec 64) :
    OutLasts s (execEthRxqConfig h mac queue mode log2 minGap base wb s) :=
  firmware_lasts (checks_lasts (by simp) _)

@[simp] theorem execEthFilterSet_lasts (h : Hdr) (mac index queue tests : Byte) (etype vid : BitVec 16) (da : BitVec 48) :
    OutLasts s (execEthFilterSet h mac index queue tests etype vid da s) :=
  firmware_lasts (checks_lasts (by simp) _)

@[simp] theorem execEthGclSet_lasts (h : Hdr) (mac : Byte) (len : BitVec 16) (cycle : Word) (baseTime : BitVec 64)
    (entries : List (BitVec 64)) : OutLasts s (execEthGclSet h mac len cycle baseTime entries s) :=
  firmware_lasts (checks_lasts (by simp) _)

@[simp] theorem execEthTxPost_lasts (h : Hdr) (mac cls launch : Byte) (length : BitVec 16) (addr at_ : BitVec 64) :
    OutLasts s (execEthTxPost h mac cls launch length addr at_ s) :=
  firmware_lasts (checks_lasts (by simp) _)

@[simp] theorem execEthLaunchSet_lasts (h : Hdr) (mac entry cls mode : Byte) (length : BitVec 16) (src at_ : BitVec 64) :
    OutLasts s (execEthLaunchSet h mac entry cls mode length src at_ s) :=
  firmware_lasts (checks_lasts (by simp) _)

@[simp] theorem execEthLaunchQuery_lasts (h : Hdr) (mac entry : Byte) : OutLasts s (execEthLaunchQuery h mac entry s) :=
  firmware_lasts (checks_lasts (by simp) _)

@[simp] theorem execEthQuery_lasts (h : Hdr) (mac : Byte) : OutLasts s (execEthQuery h mac s) :=
  firmware_lasts (checks_lasts (by simp) _)

@[simp] theorem execEthRxqHeadWrite_lasts (m : Fin 8) (q : Fin 4) (value : Word) : OutLasts s (execEthRxqHeadWrite m q value s) := by
  simp [execEthRxqHeadWrite]

@[simp] theorem execEthLinkChange_lasts (m : Fin 8) (up : Bool) : OutLasts s (execEthLinkChange m up s) := by
  simp [execEthLinkChange]

@[simp] theorem execEthGateChange_lasts (m : Fin 8) : OutLasts s (execEthGateChange m s) := by
  simp [execEthGateChange]

@[simp] theorem execEthGclSwitch_lasts (m : Fin 8) : OutLasts s (execEthGclSwitch m s) := by
  simp [execEthGclSwitch]

@[simp] theorem execComparatorFire_lasts (c : Comparator) : OutLasts s (execComparatorFire c s) := by
  unfold execComparatorFire
  split <;> simp

@[simp] theorem execEthLaunchDiscard_lasts (c : Comparator) : OutLasts s (execEthLaunchDiscard c s) := by
  unfold execEthLaunchDiscard
  dsimp only
  repeat' split
  all_goals simp

@[simp] theorem execEthTxStart_lasts (m : Fin 8) : OutLasts s (execEthTxStart m s) := by
  unfold execEthTxStart
  dsimp only
  repeat' split
  all_goals simp

@[simp] theorem execEthTxDone_lasts (m : Fin 8) : OutLasts s (execEthTxDone m s) := by
  unfold execEthTxDone
  dsimp only
  repeat' split
  all_goals simp

@[simp] theorem execEthFrameReceive_lasts (m : Fin 8) (frame : List Byte) : OutLasts s (execEthFrameReceive m frame s) := by
  unfold execEthFrameReceive
  dsimp only
  repeat' split
  all_goals simp

/-! ### The control loop engine -/

@[simp] theorem execCleLoopConfig_lasts (h : Hdr) (loop : Byte) (rec_ : BitVec 2048) : OutLasts s (execCleLoopConfig h loop rec_ s) :=
  firmware_lasts (checks_lasts (by simp) _)

@[simp] theorem execCleCoefSet_lasts (h : Hdr) (loop set : Byte) (coef : BitVec 512) :
    OutLasts s (execCleCoefSet h loop set coef s) :=
  firmware_lasts (checks_lasts (by simp) _)

@[simp] theorem execCleLoopEnable_lasts (h : Hdr) (loop : Byte) : OutLasts s (execCleLoopEnable h loop s) :=
  firmware_lasts (checks_lasts (by simp) _)

@[simp] theorem execCleLoopDisable_lasts (h : Hdr) (loop : Byte) : OutLasts s (execCleLoopDisable h loop s) :=
  firmware_lasts (checks_lasts (by simp) _)

@[simp] theorem execCleLoopResume_lasts (h : Hdr) (loop : Byte) : OutLasts s (execCleLoopResume h loop s) :=
  firmware_lasts (checks_lasts (by simp) _)

@[simp] theorem execCleMailboxWrite_lasts (h : Hdr) (loop : Byte) (sp accel sched : Word) :
    OutLasts s (execCleMailboxWrite h loop sp accel sched s) :=
  firmware_lasts (checks_lasts (by simp) _)

@[simp] theorem execCleInputConfig_lasts (h : Hdr) (kind index : Byte) (fields : BitVec 112) :
    OutLasts s (execCleInputConfig h kind index fields s) := by
  refine firmware_lasts ?_
  unfold doCleInputConfig
  dsimp only
  repeat' split
  all_goals simp

@[simp] theorem execSpiFrame_lasts (p : Fin 8) (words : List Word) : OutLasts s (execSpiFrame p words s) := by
  simp [execSpiFrame]

@[simp] theorem execSdDecimation_lasts (c : Fin 32) (bits : List Bool) : OutLasts s (execSdDecimation c bits s) := by
  simp [execSdDecimation]

@[simp] theorem execSdClockRestored_lasts (c : Fin 32) : OutLasts s (execSdClockRestored c s) := by
  simp [execSdClockRestored]

@[simp] theorem execClePwmConfig_lasts (h : Hdr) (pair : Byte) (period : Word) (mode update : Byte) (dtRise dtFall : BitVec 16)
    (polA polB safeA safeB group : Byte) :
    OutLasts s (execClePwmConfig h pair period mode update dtRise dtFall polA polB safeA safeB group s) :=
  firmware_lasts (checks_lasts (by simp) _)

@[simp] theorem execClePwmRelease_lasts (h : Hdr) (pair : Byte) : OutLasts s (execClePwmRelease h pair s) :=
  firmware_lasts (checks_lasts (by simp) _)

@[simp] theorem execSafeEnForce_lasts (i : Fin 2) (low : Bool) : OutLasts s (execSafeEnForce i low s) := by
  simp [execSafeEnForce]

@[simp] theorem execPwmLoadPoint_lasts (q : Fin 48) (top : Bool) : OutLasts s (execPwmLoadPoint q top s) := by
  simp [execPwmLoadPoint]

@[simp] theorem execCleStart_lasts (h : Hdr) (mode pin : Byte) (at_ : BitVec 64) : OutLasts s (execCleStart h mode pin at_ s) :=
  firmware_lasts (checks_lasts (by simp) _)

@[simp] theorem execCleStartFire_lasts : OutLasts s (execCleStartFire s) := by
  unfold execCleStartFire
  split <;> simp

@[simp] theorem execCleStop_lasts (h : Hdr) : OutLasts s (execCleStop h s) := by
  refine firmware_lasts ?_
  unfold doCleStop
  dsimp only
  split <;> simp

@[simp] theorem execClePeriodStart_lasts : OutLasts s (execClePeriodStart s) := by
  simp [execClePeriodStart]

@[simp] theorem execCleInject_lasts (h : Hdr) (gen kind loop point : Byte) (amp length : Word) (hold : BitVec 16) (f0 df seed : Word) :
    OutLasts s (execCleInject h gen kind loop point amp length hold f0 df seed s) :=
  firmware_lasts (checks_lasts (by simp) _)

@[simp] theorem execCleCapture_lasts (h : Hdr) (ch loop start gen : Byte) (decim : BitVec 16) (count : Word) (dest : BitVec 64) :
    OutLasts s (execCleCapture h ch loop start gen decim count dest s) :=
  firmware_lasts (checks_lasts (by simp) _)

@[simp] theorem execCleQuery_lasts (h : Hdr) (loop : Byte) : OutLasts s (execCleQuery h loop s) :=
  firmware_lasts (checks_lasts (by simp) _)

/-! ### The host link -/

@[simp] theorem execHifFnWrite_lasts (fn f : Fin 16) (reg : FnReg) (w : Word) : OutLasts s (execHifFnWrite fn f reg w s) := by
  simp [execHifFnWrite]

@[simp] theorem execRingDescWrite_lasts (fn : Fin 16) (r : BitVec 14) (i : Fin 8) (w : Word) :
    OutLasts s (execRingDescWrite fn r i w s) := by
  simp [execRingDescWrite]

@[simp] theorem execDoorbell_lasts (fn : Fin 16) (off : BitVec 16) (size : Nat) (v : BitVec 64) :
    OutLasts s (execDoorbell fn off size v s) := by
  simp [execDoorbell]

@[simp] theorem execHostUnmappedAccess_lasts (_fn : Fin 16) (addr : BitVec 48) : OutLasts s (execHostUnmappedAccess _fn addr s) := by
  simp [execHostUnmappedAccess]

@[simp] theorem execBar4Access_lasts (fn : Fin 16) (off : BitVec 36) (acc : Access) : OutLasts s (execBar4Access fn off acc s) := by
  simp [execBar4Access]

@[simp] theorem execEventsLostRecord_lasts (fn : Fin 16) : OutLasts s (execEventsLostRecord fn s) := by
  simp [execEventsLostRecord]

@[simp] theorem execOpenSession_lasts (h : Hdr) (low high : Byte) (rb : BitVec 64) : OutLasts s (execOpenSession h low high rb s) :=
  firmware_lasts (checks_lasts (by simp) _)

@[simp] theorem execCloseSession_lasts (h : Hdr) : OutLasts s (execCloseSession h s) :=
  firmware_lasts (by simp [doCloseSession])

@[simp] theorem execEventBind_lasts (h : Hdr) (ring : BitVec 16) : OutLasts s (execEventBind h ring s) :=
  firmware_lasts (checks_lasts (by simp) _)

@[simp] theorem execNop_lasts (h : Hdr) (echo : Word) : OutLasts s (execNop h echo s) := fastPath_lasts (by simp)
@[simp] theorem execDeviceQuery_lasts (h : Hdr) : OutLasts s (execDeviceQuery h s) := firmware_lasts (by simp)

@[simp] theorem execDmaCopy_lasts (h : Hdr) (engine : Byte) (src dst : BitVec 64) (bytes : Word) :
    OutLasts s (execDmaCopy h engine src dst bytes s) :=
  fastPath_lasts (checks_lasts (by simp) _)

@[simp] theorem execDmaFill_lasts (h : Hdr) (engine : Byte) (pattern : Word) (dst : BitVec 64) (bytes : Word) :
    OutLasts s (execDmaFill h engine pattern dst bytes s) :=
  fastPath_lasts (checks_lasts (by simp) _)

@[simp] theorem execHostDmaDone_lasts (i : Nat) : OutLasts s (execHostDmaDone i s) := by
  unfold execHostDmaDone
  split
  · simp
  · simp [dmaRun_steady]

@[simp] theorem execBar4Set_lasts (h : Hdr) (base : BitVec 64) : OutLasts s (execBar4Set h base s) :=
  firmware_lasts (checks_lasts (by simp) _)

/-! ### The page keeper -/

theorem doKv_lasts (h : Hdr) (op : Nat) (params : BitVec 384) : AnsLasts s (doKv h op params s) := by
  simp [doKv]

@[simp] theorem execKvSeqOpen_lasts (h : Hdr) (x : BitVec 384) : OutLasts s (execKvSeqOpen h x s) :=
  firmware_lasts (doKv_lasts ..)

@[simp] theorem execKvSeqFork_lasts (h : Hdr) (x : BitVec 384) : OutLasts s (execKvSeqFork h x s) :=
  firmware_lasts (doKv_lasts ..)

@[simp] theorem execKvAppend_lasts (h : Hdr) (x : BitVec 384) : OutLasts s (execKvAppend h x s) :=
  firmware_lasts (doKv_lasts ..)

@[simp] theorem execKvSeqClose_lasts (h : Hdr) (x : BitVec 384) : OutLasts s (execKvSeqClose h x s) :=
  firmware_lasts (doKv_lasts ..)

@[simp] theorem execKvSeqQuery_lasts (h : Hdr) (x : BitVec 384) : OutLasts s (execKvSeqQuery h x s) :=
  firmware_lasts (doKv_lasts ..)

@[simp] theorem execKvPoolQuery_lasts (h : Hdr) (x : BitVec 384) : OutLasts s (execKvPoolQuery h x s) :=
  firmware_lasts (doKv_lasts ..)

@[simp] theorem execKvRingOpen_lasts (h : Hdr) (x : BitVec 384) : OutLasts s (execKvRingOpen h x s) :=
  firmware_lasts (doKv_lasts ..)

@[simp] theorem execKvRingStep_lasts (h : Hdr) (x : BitVec 384) : OutLasts s (execKvRingStep h x s) :=
  firmware_lasts (doKv_lasts ..)

@[simp] theorem execKvPartialSend_lasts (h : Hdr) (x : BitVec 384) : OutLasts s (execKvPartialSend h x s) :=
  firmware_lasts (doKv_lasts ..)

@[simp] theorem execKvRingClose_lasts (h : Hdr) (x : BitVec 384) : OutLasts s (execKvRingClose h x s) :=
  firmware_lasts (doKv_lasts ..)

@[simp] theorem execCarryOpen_lasts (h : Hdr) (x : BitVec 384) : OutLasts s (execCarryOpen h x s) :=
  firmware_lasts (doKv_lasts ..)

@[simp] theorem execCarryClose_lasts (h : Hdr) (x : BitVec 384) : OutLasts s (execCarryClose h x s) :=
  firmware_lasts (doKv_lasts ..)

@[simp] theorem execCarrySwapOut_lasts (h : Hdr) (x : BitVec 384) : OutLasts s (execCarrySwapOut h x s) :=
  firmware_lasts (doKv_lasts ..)

@[simp] theorem execCarrySwapIn_lasts (h : Hdr) (x : BitVec 384) : OutLasts s (execCarrySwapIn h x s) :=
  firmware_lasts (doKv_lasts ..)

@[simp] theorem execCarryReset_lasts (h : Hdr) (x : BitVec 384) : OutLasts s (execCarryReset h x s) :=
  firmware_lasts (doKv_lasts ..)

@[simp] theorem execCarryQuery_lasts (h : Hdr) (x : BitVec 384) : OutLasts s (execCarryQuery h x s) :=
  firmware_lasts (doKv_lasts ..)

@[simp] theorem execCarryExport_lasts (h : Hdr) (x : BitVec 384) : OutLasts s (execCarryExport h x s) :=
  firmware_lasts (doKv_lasts ..)

@[simp] theorem execCarryImport_lasts (h : Hdr) (x : BitVec 384) : OutLasts s (execCarryImport h x s) :=
  firmware_lasts (doKv_lasts ..)

@[simp] theorem execCarrySwapDone_lasts (n : BitVec 12) : OutLasts s (execCarrySwapDone n s) := by
  unfold execCarrySwapDone
  dsimp only
  split <;> simp

@[simp] theorem execPageTakeResume_lasts (p : Fin 16) : OutLasts s (execPageTakeResume p s) := by
  unfold execPageTakeResume
  split <;> simp

@[simp] theorem execRingSendDone_lasts (g : Fin 16) : OutLasts s (execRingSendDone g s) := by
  unfold execRingSendDone
  dsimp only
  split <;> simp

@[simp] theorem execRingArrival_lasts (g : Fin 16) : OutLasts s (execRingArrival g s) := by
  unfold execRingArrival
  split
  · simp
  · dsimp only
    split
    · simp
    · split
      · simp
      · split
        · simp
        · split
          · simp
          next hshard => simp [State.shardIn_steady hshard]

@[simp] theorem execPartialArrival_lasts (g : Fin 16) : OutLasts s (execPartialArrival g s) := by
  unfold execPartialArrival
  split <;> simp

/-! ### The safety mechanisms -/

@[simp] theorem execSafReactSet_lasts (h : Hdr) (code : BitVec 16) (cls reaction : Byte) :
    OutLasts s (execSafReactSet h code cls reaction s) :=
  firmware_lasts (checks_lasts (by simp) _)

@[simp] theorem execSafReactQuery_lasts (h : Hdr) (code : BitVec 16) (cls : Byte) : OutLasts s (execSafReactQuery h code cls s) :=
  firmware_lasts (checks_lasts (by simp) _)

@[simp] theorem execSafGoldenSet_lasts (h : Hdr) (index : Byte) (expect : BitVec 64) :
    OutLasts s (execSafGoldenSet h index expect s) :=
  firmware_lasts (checks_lasts (by simp) _)

@[simp] theorem execSafFaultInject_lasts (h : Hdr) (code : BitVec 16) (device : Byte) (job : BitVec 16) :
    OutLasts s (execSafFaultInject h code device job s) :=
  firmware_lasts (checks_lasts (by simp) _)

@[simp] theorem execSafQuery_lasts (h : Hdr) : OutLasts s (execSafQuery h s) := firmware_lasts (checks_lasts (by simp) _)

@[simp] theorem execSafCtlRelease_lasts (by_ : Writer) (value : Word) : OutLasts s (execSafCtlRelease by_ value s) := by
  simp [execSafCtlRelease]

@[simp] theorem execSupLockstep_lasts (disagree : Bool) : OutLasts s (execSupLockstep disagree s) := by
  simp [execSupLockstep]

@[simp] theorem execSafDisagree_lasts : OutLasts s (execSafDisagree s) := by
  simp [execSafDisagree]

@[simp] theorem execWdgLate_lasts (i : Byte) (ticks : Word) (job : Option (BitVec 10)) : OutLasts s (execWdgLate i ticks job s) := by
  unfold execWdgLate
  split <;> simp

@[simp] theorem execKvJobPortRequest_lasts (rod : Fin 64) (port : Fin 16) (data : List Byte) :
    OutLasts s (execKvJobPortRequest rod port data s) := by
  simp [execKvJobPortRequest]

@[simp] theorem execKvCommandDone_lasts (p : Fin 16) : OutLasts s (execKvCommandDone p s) := by
  simp [execKvCommandDone]

@[simp] theorem execKvTableUe_lasts : OutLasts s (execKvTableUe s) := by
  simp [execKvTableUe]

@[simp] theorem execLoopEvaluation_lasts (n : Fin 128) : OutLasts s (execLoopEvaluation n s) := by
  simp [execLoopEvaluation]

@[simp] theorem execEncoderUpdate_lasts (e : Fin 32) (a b z : Bool) : OutLasts s (execEncoderUpdate e a b z s) := by
  simp [execEncoderUpdate]

@[simp] theorem execCleSdClock_lasts (c : Fin 32) : OutLasts s (execCleSdClock c s) := by
  simp [execCleSdClock]

@[simp] theorem execCleMailboxPortWrite_lasts (rod : Fin 64) (loop : Fin 128) (data : List Byte) :
    OutLasts s (execCleMailboxPortWrite rod loop data s) := by
  simp [execCleMailboxPortWrite]

@[simp] theorem execInputAdmit_lasts (point : Byte) : OutLasts s (execInputAdmit point s) := by
  simp [execInputAdmit]

/-! ### Journal and replay -/

@[simp] theorem execJournalOpen_lasts (h : Hdr) (ring : BitVec 16) (base bytes : BitVec 64) :
    OutLasts s (execJournalOpen h ring base bytes s) :=
  firmware_lasts (checks_lasts (by simp) _)

@[simp] theorem execJournalClose_lasts (h : Hdr) : OutLasts s (execJournalClose h s) :=
  firmware_lasts (checks_lasts (by simp) _)

@[simp] theorem execReplayOpen_lasts (h : Hdr) (ring : BitVec 16) (base bytes : BitVec 64) :
    OutLasts s (execReplayOpen h ring base bytes s) :=
  firmware_lasts (checks_lasts (by simp) _)

@[simp] theorem execReplayClose_lasts (h : Hdr) : OutLasts s (execReplayClose h s) :=
  firmware_lasts (checks_lasts (by simp) _)

@[simp] theorem execCrossingQuery_lasts (h : Hdr) (kind inst : Byte) : OutLasts s (execCrossingQuery h kind inst s) :=
  firmware_lasts (checks_lasts (by simp) _)

@[simp] theorem execCrossingLate_lasts (kind inst : Byte) (job : Option (BitVec 10)) (point : Option Byte) :
    OutLasts s (execCrossingLate kind inst job point s) := by
  unfold execCrossingLate
  split <;> simp

@[simp] theorem execJournalGapRecord_lasts : OutLasts s (execJournalGapRecord s) := by
  simp [execJournalGapRecord]

@[simp] theorem execReplayAdmit_lasts : OutLasts s (execReplayAdmit s) := by
  unfold execReplayAdmit
  dsimp only
  repeat' split
  all_goals simp

/-! ### Rods and split-lock pairs -/

@[simp] theorem execRodPairCtlWrite_lasts (by_ : Writer) (rod : Fin 64) (value : Word) :
    OutLasts s (execRodPairCtlWrite by_ rod value s) := by
  simp [execRodPairCtlWrite]

@[simp] theorem execLockHandover_lasts (pair : Fin 32) : OutLasts s (execLockHandover pair s) := by
  unfold execLockHandover
  dsimp only
  repeat' split
  all_goals simp

@[simp] theorem execSplitHandover_lasts (pair : Fin 32) : OutLasts s (execSplitHandover pair s) := by
  simp [execSplitHandover]

@[simp] theorem execCeClear_lasts (by_ : Writer) (rod : Fin 64) : OutLasts s (execCeClear by_ rod s) := by
  simp [execCeClear]

@[simp] theorem execScrubGap_lasts (rod : Fin 64) : OutLasts s (execScrubGap rod s) := by
  simp [execScrubGap]

/-! ### The rod sequencer -/

theorem State.instr_lasts (n op : Nat) {k : Nat → State → State} (hk : ∀ w t, Lasts t (k w t)) :
    OutLasts s (s.instr n op k) := by
  have hk' (w : Nat) (t : State) : Steady t (k w t) := (hk w t).steady
  unfold State.instr
  extract_lets
  split
  · simp
  · split
    · simp
    · split
      all_goals
        next hcode =>
        simp [hk', snd_lasts_of_eq (State.holdCode_steady s n).lasts hcode]

@[simp] theorem execLoop_lasts (rod : Fin 64) : OutLasts s (execLoop rod s) :=
  State.instr_lasts _ _ fun _ _ => by simp

@[simp] theorem execLoopi_lasts (rod : Fin 64) : OutLasts s (execLoopi rod s) :=
  State.instr_lasts _ _ fun _ _ => by simp

@[simp] theorem execAddi_lasts (rod : Fin 64) : OutLasts s (execAddi rod s) :=
  State.instr_lasts _ _ fun _ _ => by simp

@[simp] theorem execAlu_lasts (rod : Fin 64) : OutLasts s (execAlu rod s) :=
  State.instr_lasts _ _ fun _ _ => by simp

@[simp] theorem execLui_lasts (rod : Fin 64) : OutLasts s (execLui rod s) :=
  State.instr_lasts _ _ fun _ _ => by simp

@[simp] theorem execLdw_lasts (rod : Fin 64) : OutLasts s (execLdw rod s) :=
  State.instr_lasts _ _ fun _ _ => by
    dsimp only
    split
    · simp
    · split
      all_goals
        next hread =>
        simp [snd_lasts_of_eq (State.spadRead_steady _ _ _ _).lasts hread]

@[simp] theorem execBr_lasts (rod : Fin 64) : OutLasts s (execBr rod s) := State.instr_lasts _ _ fun _ _ => by simp

@[simp] theorem execWait_lasts (rod : Fin 64) : OutLasts s (execWait rod s) :=
  State.instr_lasts _ _ fun _ _ => by simp

@[simp] theorem execWaitSatisfied_lasts (rod : Fin 64) : OutLasts s (execWaitSatisfied rod s) := by
  unfold execWaitSatisfied
  split
  · exact execWait_lasts rod
  · simp

@[simp] theorem execSignal_lasts (rod : Fin 64) : OutLasts s (execSignal rod s) :=
  State.instr_lasts _ _ fun _ _ => by
    dsimp only
    split
    · simp
    · cases (State.rod _ _).job <;> simp

@[simp] theorem execFence_lasts (rod : Fin 64) : OutLasts s (execFence rod s) := State.instr_lasts _ _ fun _ _ => by simp
@[simp] theorem execAlign_lasts (rod : Fin 64) : OutLasts s (execAlign rod s) := State.instr_lasts _ _ fun _ _ => by simp

@[simp] theorem execRds_lasts (rod : Fin 64) : OutLasts s (execRds rod s) :=
  State.instr_lasts _ _ fun _ _ => by
    dsimp only
    split <;> simp

@[simp] theorem execSetb_lasts (rod : Fin 64) : OutLasts s (execSetb rod s) := State.instr_lasts _ _ fun _ _ => by simp

@[simp] theorem execIssue_lasts (rod : Fin 64) : OutLasts s (execIssue rod s) :=
  State.instr_lasts _ _ fun _ _ => by simp

@[simp] theorem execScanIssueResume_lasts (rod : Fin 64) : OutLasts s (execScanIssueResume rod s) := by
  unfold execScanIssueResume
  split
  · exact execIssue_lasts rod
  · simp

@[simp] theorem execTileEnd_lasts (rod : Fin 64) : OutLasts s (execTileEnd rod s) := State.instr_lasts _ _ fun _ _ => by simp

@[simp] theorem execHalt_lasts (rod : Fin 64) : OutLasts s (execHalt rod s) :=
  State.instr_lasts _ _ fun _ _ => by
    dsimp only
    split
    · simp
    · split <;> simp

@[simp] theorem execTrap_lasts (rod : Fin 64) : OutLasts s (execTrap rod s) := State.instr_lasts _ _ fun _ _ => by simp

@[simp] theorem execTileOverrun_lasts (rod : Fin 64) : OutLasts s (execTileOverrun rod s) := by
  simp [execTileOverrun]

@[simp] theorem execDescOverrun_lasts (rod : Fin 64) (unit : Fin 4) : OutLasts s (execDescOverrun rod unit s) := by
  simp [execDescOverrun]

/-! ### A rod's units -/

theorem State.start_lasts (n op : Nat) {k : Desc → DescEnv → State → State} (hk : ∀ d e s, Steady s (k d e s)) :
    OutLasts s (s.start n op k) := by
  unfold State.start
  extract_lets
  split
  · simp
  · split
    · simp
    · extract_lets s1
      have hs1 : Lasts s s1 := by simp [s1]
      split
      next hread => simp [hs1.trans (snd_lasts_of_eq (State.spadRead_steady s1 n _ _).lasts hread)]
      next hread =>
        have hs2 := hs1.trans (snd_lasts_of_eq (State.spadRead_steady s1 n _ _).lasts hread)
        split
        · simp [hs2]
        · extract_lets
          split
          next htouch => simp [hs2.trans (snd_lasts_of_eq (State.touch_steady _ n _).lasts htouch)]
          next htouch =>
            extract_lets s4 s' s5
            have hs4 : Lasts s s4 := by simp [s4, hs2.trans (snd_lasts_of_eq (State.touch_steady _ n _).lasts htouch)]
            have hs5 : Lasts s s5 := by simp [s5, hs4]
            have hs' : Lasts s s' := by simp [s', hs4]
            split
            · simp [hs4]
            · split
              · simp [hs']
              · split
                next htouch' => simp [hs5.trans (snd_lasts_of_eq (State.touch_steady s5 n _).lasts htouch')]
                next htouch' =>
                  simp [State.lockstep_steady _ _ (hk _ _), hs5.trans (snd_lasts_of_eq (State.touch_steady s5 n _).lasts htouch')]

@[simp] theorem execDescEnd_lasts (rod : Fin 64) (unit : Fin 4) : OutLasts s (execDescEnd rod unit s) := by
  unfold execDescEnd
  dsimp only
  split <;> simp

/-! ### Matrix units -/

@[simp] theorem execMatmul_lasts (rod : Fin 64) : OutLasts s (execMatmul rod s) :=
  State.start_lasts _ _ fun d e s => State.matmul_steady s rod.val d e

@[simp] theorem execConv_lasts (rod : Fin 64) : OutLasts s (execConv rod s) :=
  State.start_lasts _ _ fun d e s => State.matmul_steady s rod.val d e

@[simp] theorem execElemwise_lasts (rod : Fin 64) : OutLasts s (execElemwise rod s) :=
  State.start_lasts _ _ fun d e s => State.elemwise_steady s rod.val d e

@[simp] theorem execConvert_lasts (rod : Fin 64) : OutLasts s (execConvert rod s) :=
  State.start_lasts _ _ fun d e s => State.convert_steady s rod.val d e

@[simp] theorem execPool_lasts (rod : Fin 64) : OutLasts s (execPool rod s) :=
  State.start_lasts _ _ fun d e s => State.poolUnit_steady s rod.val d e

/-! ### Attention units -/

@[simp] theorem execAttnScore_lasts (rod : Fin 64) : OutLasts s (execAttnScore rod s) :=
  State.start_lasts _ _ fun d e s => State.attnScore_steady s rod.val d e

@[simp] theorem execAttnMerge_lasts (rod : Fin 64) : OutLasts s (execAttnMerge rod s) :=
  State.start_lasts _ _ fun d e s => State.attnMerge_steady s rod.val d e

/-! ### The partner device -/

@[simp] theorem execTybPartnerConfig_lasts (h : Hdr) (port enable hbMiss : Byte) (hbUs tolNs : Word) (peer : BitVec 16) :
    OutLasts s (execTybPartnerConfig h port enable hbMiss hbUs tolNs peer s) :=
  firmware_lasts (checks_lasts (by simp) _)

@[simp] theorem execTybSigConfig_lasts (h : Hdr) (slot part enable : Byte) : OutLasts s (execTybSigConfig h slot part enable s) :=
  firmware_lasts (checks_lasts (by simp) _)

@[simp] theorem execHeartbeatSend_lasts : OutLasts s (execHeartbeatSend s) := by
  simp [execHeartbeatSend]

@[simp] theorem execHeartbeatRx_lasts (p : Fin 2) : OutLasts s (execHeartbeatRx p s) := by
  unfold execHeartbeatRx
  split
  · simp
  next hm =>
    have hs' := (State.takeMsg_steady hm).lasts
    split <;> simp [hs']

@[simp] theorem execPartnerLost_lasts : OutLasts s (execPartnerLost s) := by
  simp [execPartnerLost]

@[simp] theorem execTybSigWrite_lasts (rod : Fin 64) (slot : BitVec 4) (data : List Byte) :
    OutLasts s (execTybSigWrite rod slot data s) := by
  unfold execTybSigWrite
  split <;> simp

@[simp] theorem execSignatureRx_lasts (p : Fin 2) : OutLasts s (execSignatureRx p s) := by
  unfold execSignatureRx
  split
  · simp
  next hm =>
    have hs' := (State.takeMsg_steady hm).lasts
    simp [hs']

@[simp] theorem execWitnessRx_lasts (p : Fin 2) : OutLasts s (execWitnessRx p s) := by
  unfold execWitnessRx
  split
  · simp
  next hm =>
    have hs' := (State.takeMsg_steady hm).lasts
    split
    · simp [hs']
    · extract_lets w old rank
      generalize BitVec.ofNat 480 w = c
      split
      · simp [hs']
      · split <;> simp [hs']

/-! ### Plans -/

@[simp] theorem execLoadPlan_lasts (h : Hdr) (addr : BitVec 64) (bytes : Word) : OutLasts s (execLoadPlan h addr bytes s) :=
  firmware_lasts (checks_lasts (by simp) _)

@[simp] theorem execPlanLoadDone_lasts : OutLasts s (execPlanLoadDone s) := by
  unfold execPlanLoadDone
  dsimp only
  repeat' split
  all_goals simp

@[simp] theorem execStartPlan_lasts (h : Hdr) (mode pin : Byte) (at_ : BitVec 64) : OutLasts s (execStartPlan h mode pin at_ s) := by
  refine firmware_lasts ?_
  unfold doStartPlan
  dsimp only
  split <;> simp

@[simp] theorem execPlanStartFire_lasts : OutLasts s (execPlanStartFire s) := by
  unfold execPlanStartFire
  split <;> simp

@[simp] theorem execStopPlan_lasts (h : Hdr) (mode : Byte) : OutLasts s (execStopPlan h mode s) :=
  firmware_lasts (checks_lasts (by simp) _)

@[simp] theorem execPlanStopFrameEnd_lasts : OutLasts s (execPlanStopFrameEnd s) := by
  simp [execPlanStopFrameEnd]

@[simp] theorem execUnloadPlan_lasts (h : Hdr) : OutLasts s (execUnloadPlan h s) :=
  firmware_lasts (checks_lasts (by simp) _)

@[simp] theorem execPlanQuery_lasts (h : Hdr) : OutLasts s (execPlanQuery h s) := firmware_lasts (by simp [doPlanQuery])

@[simp] theorem execJobStart_lasts (h : Hdr) (job : BitVec 16) : OutLasts s (execJobStart h job s) :=
  fastPath_lasts (checks_lasts (by simp) _)

@[simp] theorem execJobQuery_lasts (h : Hdr) (job : BitVec 16) : OutLasts s (execJobQuery h job s) :=
  firmware_lasts (checks_lasts (by simp) _)

@[simp] theorem execPartitionHalt_lasts (h : Hdr) (p : Byte) : OutLasts s (execPartitionHalt h p s) :=
  firmware_lasts (checks_lasts (by simp) _)

@[simp] theorem execPartitionResume_lasts (h : Hdr) (p : Byte) : OutLasts s (execPartitionResume h p s) :=
  firmware_lasts (checks_lasts (by simp) _)

@[simp] theorem execSelftestQuery_lasts (h : Hdr) (rod : Byte) : OutLasts s (execSelftestQuery h rod s) :=
  firmware_lasts (checks_lasts (by simp) _)

/-! ### The beam -/

@[simp] theorem execBeam_lasts (w : Byte) : OutLasts s (execBeam w s) := by
  unfold execBeam
  split <;> simp

@[simp] theorem execPreemptRequest_lasts : OutLasts s (execPreemptRequest s) := by
  unfold execPreemptRequest
  split <;> simp

@[simp] theorem execJobRunStart_lasts (j : BitVec 10) : OutLasts s (execJobRunStart j s) := by
  unfold execJobRunStart
  split <;> simp

@[simp] theorem execContextSaveDone_lasts (j : BitVec 10) : OutLasts s (execContextSaveDone j s) := by
  unfold execContextSaveDone
  dsimp only
  split <;> simp

@[simp] theorem execContextRestoreDone_lasts (j : BitVec 10) : OutLasts s (execContextRestoreDone j s) := by
  obtain ⟨restore, hrestore, hsteady⟩ := exists_restoreRod_steady
  have hdef : @execContextRestoreDone = @execContextRestoreDone := rfl
  conv at hdef => rhs; delta execContextRestoreDone
  rw [← hrestore] at hdef
  rw [hdef]
  simp [hsteady]

@[simp] theorem execReloadComplete_lasts (j : BitVec 10) : OutLasts s (execReloadComplete j s) := by
  unfold execReloadComplete
  dsimp only
  split <;> simp

@[simp] theorem execSelftestSliceStop_lasts (rod : Fin 64) : OutLasts s (execSelftestSliceStop rod s) := by
  simp [execSelftestSliceStop]

@[simp] theorem execSelftestSegmentDone_lasts (rod : Fin 64) (pass last : Bool) :
    OutLasts s (execSelftestSegmentDone rod pass last s) := by
  simp [execSelftestSegmentDone]

/-! ### Security commands -/

theorem State.program_lasts (h : Hdr) (kind which value : Nat) (rows commit : List (Nat × Word)) :
    AnsLasts s (s.program h kind which value rows commit) :=
  Lasts.refl s

@[simp] theorem execOtpCommit_lasts (h : Hdr) (block : BitVec 1024) : OutLasts s (execOtpCommit h block s) :=
  firmware_lasts (checks_lasts (State.program_lasts ..) _)

@[simp] theorem execOtpQuery_lasts (h : Hdr) (first rows : BitVec 16) : OutLasts s (execOtpQuery h first rows s) :=
  firmware_lasts (checks_lasts (by simp) _)

@[simp] theorem execSvnAdvance_lasts (h : Hdr) (counter target : Byte) : OutLasts s (execSvnAdvance h counter target s) := by
  refine firmware_lasts ?_
  unfold doSvnAdvance
  extract_lets
  split
  · simp
  · exact checks_lasts (State.program_lasts ..) _

@[simp] theorem execOwnerProvision_lasts (h : Hdr) (params : List Byte) : OutLasts s (execOwnerProvision h params s) :=
  firmware_lasts (checks_lasts (State.program_lasts ..) _)

theorem authFail_lasts : AnsLasts s (authFail s) := by
  simp [authFail]

@[simp] theorem execOwnerKeyLoad_lasts (h : Hdr) (slot : Byte) (key : List Byte) : OutLasts s (execOwnerKeyLoad h slot key s) :=
  firmware_lasts (checks_lasts (by simp [authFail_lasts]) _)

@[simp] theorem execOwnerKeyRevoke_lasts (h : Hdr) (slot : Byte) : OutLasts s (execOwnerKeyRevoke h slot s) :=
  firmware_lasts (checks_lasts (by simp [State.program]) _)

@[simp] theorem execLcRetire_lasts (h : Hdr) : OutLasts s (execLcRetire h s) :=
  firmware_lasts (checks_lasts (State.program_lasts ..) _)

@[simp] theorem execLedgerNew_lasts (h : Hdr) : OutLasts s (execLedgerNew h s) :=
  firmware_lasts (checks_lasts (State.program_lasts ..) _)

@[simp] theorem execOtpProgramDone_lasts (bad : Option (BitVec 10 × Word)) : OutLasts s (execOtpProgramDone bad s) := by
  unfold execOtpProgramDone
  dsimp only
  repeat' split
  all_goals simp

@[simp] theorem execOtpSuspendTimeout_lasts : OutLasts s (execOtpSuspendTimeout s) := by
  unfold execOtpSuspendTimeout
  split <;> simp

@[simp] theorem execSettingsOverride_lasts (h : Hdr) (block : BitVec 2048) : OutLasts s (execSettingsOverride h block s) :=
  firmware_lasts (checks_lasts (by simp [authFail_lasts]) _)

@[simp] theorem execAttest_lasts (h : Hdr) (nonce : BitVec 384) (dest : BitVec 64) : OutLasts s (execAttest h nonce dest s) :=
  firmware_lasts (checks_lasts (by simp) _)

@[simp] theorem execDebugChallenge_lasts (h : Hdr) : OutLasts s (execDebugChallenge h s) :=
  firmware_lasts (checks_lasts (by simp) _)

@[simp] theorem execDebugUnlock_lasts (h : Hdr) (token : List Byte) : OutLasts s (execDebugUnlock h token s) :=
  firmware_lasts (checks_lasts (by simp [authFail_lasts]) _)

@[simp] theorem execJtagInstruction_lasts (ir : JtagIr) : OutLasts s (execJtagInstruction ir s) := by
  cases ir <;> simp [execJtagInstruction]

@[simp] theorem execLedgerOpen_lasts (h : Hdr) (record : List Byte) : OutLasts s (execLedgerOpen h record s) :=
  firmware_lasts (checks_lasts (by simp) _)

@[simp] theorem execLedgerFetch_lasts (h : Hdr) : OutLasts s (execLedgerFetch h s) := by
  refine firmware_lasts ?_
  unfold doLedgerFetch
  dsimp only
  split <;> simp

@[simp] theorem execLedgerAck_lasts (h : Hdr) (seq : BitVec 64) : OutLasts s (execLedgerAck h seq s) :=
  firmware_lasts (checks_lasts (by simp) _)

@[simp] theorem execLedgerNote_lasts (h : Hdr) (note : List Byte) : OutLasts s (execLedgerNote h note s) :=
  firmware_lasts (checks_lasts (by simp) _)

/-! ### Boot -/

@[simp] theorem execSecBootWindowWrite_lasts (fn : Fin 16) (off : BitVec 19) (data : List Byte) :
    OutLasts s (execSecBootWindowWrite fn off data s) := by
  simp [execSecBootWindowWrite]

@[simp] theorem execSecBootGo_lasts (fn : Fin 16) (value : Word) : OutLasts s (execSecBootGo fn value s) := by
  have h : Steady s (s.verifyImage fun s => { s with sec.boot := .awaitSettings }) := State.verifyImage_steady _ fun _ => Lasts.steady (by simp)
  simp [execSecBootGo, h]

@[simp] theorem execBootRom_lasts (marks : List (BitVec 10 × Fin 4)) (link : UcieLink) : OutLasts s (execBootRom marks link s) := by
  unfold execBootRom
  split
  · simp
  · extract_lets
    split
    · exact outLasts_fault _
    · split
      · simp
      next htrain =>
        have hs' : Lasts s _ := Lasts.trans (by exact ⟨rfl, id, fun _ => BitVec.and_self⟩) (State.trained_steady htrain).lasts
        simp [State.verifyImage_steady _ State.beginMemInit_steady, hs']

@[simp] theorem execOverrideWaitExpiry_lasts : OutLasts s (execOverrideWaitExpiry s) := by
  simp [execOverrideWaitExpiry]

@[simp] theorem execMemInitSequence_lasts (dev : MemDev) (fail : Option (Fin 32 × Fin 7)) :
    OutLasts s (execMemInitSequence dev fail s) := by
  unfold execMemInitSequence
  dsimp only
  repeat' split
  all_goals simp

@[simp] theorem execBootReady_lasts : OutLasts s (execBootReady s) := by
  simp [execBootReady]

@[simp] theorem execWearRecord_lasts (age : BitVec 384) (temps : BitVec 128) : OutLasts s (execWearRecord age temps s) := by
  simp [execWearRecord]

/-! ### The memory system -/

@[simp] theorem execMemDataSlot_lasts (island : Fin 4) (j : Nat) : OutLasts s (execMemDataSlot island j s) := by
  unfold execMemDataSlot
  dsimp only
  repeat' split
  all_goals simp

@[simp] theorem execMemRefresh_lasts (channel : Fin 32) (temp : Byte) (high : Bool) (wrCe : Word) (wrUe : Bool) :
    OutLasts s (execMemRefresh channel temp high wrCe wrUe s) := by
  simp [execMemRefresh]

@[simp] theorem execMemScrub_lasts (channel : Fin 32) (bank : Fin 16) : OutLasts s (execMemScrub channel bank s) := by
  simp [execMemScrub]

/-! ### Sensor streams -/

@[simp] theorem execPortConfig_lasts (h : Hdr) (port phy lanes : Byte) (rate : BitVec 16) :
    OutLasts s (execPortConfig h port phy lanes rate s) :=
  firmware_lasts (checks_lasts (by simp) _)

@[simp] theorem execStreamConfig_lasts (h : Hdr) (point : Byte) (desc : BitVec 2048) : OutLasts s (execStreamConfig h point desc s) :=
  firmware_lasts (checks_lasts (by simp) _)

@[simp] theorem execRecordConfig_lasts (h : Hdr) (point : Byte) (desc : BitVec 2048) : OutLasts s (execRecordConfig h point desc s) :=
  firmware_lasts (checks_lasts (by simp) _)

@[simp] theorem execStreamEnable_lasts (h : Hdr) (point : Byte) : OutLasts s (execStreamEnable h point s) :=
  firmware_lasts (checks_lasts (by simp) _)

@[simp] theorem execStreamDisable_lasts (h : Hdr) (point : Byte) : OutLasts s (execStreamDisable h point s) :=
  firmware_lasts (checks_lasts (by simp) _)

@[simp] theorem execRecordSubmit_lasts (h : Hdr) (point : Byte) (addr : BitVec 64) (bytes : Word) :
    OutLasts s (execRecordSubmit h point addr bytes s) :=
  firmware_lasts (checks_lasts (by simp) _)

@[simp] theorem execStreamQuery_lasts (h : Hdr) (point clear : Byte) : OutLasts s (execStreamQuery h point clear s) :=
  firmware_lasts (checks_lasts (by simp) _)

@[simp] theorem execCsiFrameStart_lasts (port : Fin 16) (vc : BitVec 2) (num : BitVec 16) (ecc : Fin 3) :
    OutLasts s (execCsiFrameStart port vc num ecc s) := by
  simp [execCsiFrameStart]

@[simp] theorem execCsiLine_lasts (port : Fin 16) (k : CsiPkt) : OutLasts s (execCsiLine port k s) := by
  simp [execCsiLine]

@[simp] theorem execCsiFrameEnd_lasts (port : Fin 16) (vc : BitVec 2) (ecc : Fin 3) : OutLasts s (execCsiFrameEnd port vc ecc s) := by
  simp [execCsiFrameEnd]

@[simp] theorem execPatternInjection_lasts (port : Fin 16) : OutLasts s (execPatternInjection port s) := by
  simp [execPatternInjection]

@[simp] theorem execCsiPhyLockChange_lasts (port : Fin 16) (locked : Bool) : OutLasts s (execCsiPhyLockChange port locked s) := by
  simp [execCsiPhyLockChange]

@[simp] theorem execSnsRoiWrite_lasts (rod : Fin 64) (stream : Fin 32) (data : List Byte) :
    OutLasts s (execSnsRoiWrite rod stream data s) := by
  unfold execSnsRoiWrite
  split <;> simp

@[simp] theorem execRecordDecodeStart_lasts (dec : Fin 3) (n : Fin 32) : OutLasts s (execRecordDecodeStart dec n s) := by
  unfold execRecordDecodeStart
  dsimp only
  repeat' split
  all_goals simp

@[simp] theorem execRecordDecodeEnd_lasts (n : Fin 32) : OutLasts s (execRecordDecodeEnd n s) := by
  unfold execRecordDecodeEnd
  dsimp only
  split <;> simp

@[simp] theorem execDecodeBudget_lasts (n : Fin 32) : OutLasts s (execDecodeBudget n s) := by
  unfold execDecodeBudget
  dsimp only
  split <;> simp

/-! ### The data mover -/

@[simp] theorem execDmaMove_lasts (rod : Fin 64) : OutLasts s (execDmaMove rod s) := by
  unfold execDmaMove
  split
  · simp
  · exact State.start_lasts _ _ fun d e s => State.dmaMove_steady s rod.val d e

/-! ### Power -/

@[simp] theorem execPwrPlanWrite_lasts (fn : Fin 16) (value : Word) : OutLasts s (execPwrPlanWrite fn value s) := by
  simp [execPwrPlanWrite]

@[simp] theorem execPwrThermWarnWrite_lasts (fn : Fin 16) (value : Word) : OutLasts s (execPwrThermWarnWrite fn value s) := by
  simp [execPwrThermWarnWrite]

@[simp] theorem execPwrSupClear_lasts (fn : Fin 16) (value : Word) : OutLasts s (execPwrSupClear fn value s) := by
  simp [execPwrSupClear]

@[simp] theorem execGuardSample_lasts (avg : List Word) : OutLasts s (execGuardSample avg s) := by
  simp [execGuardSample]

@[simp] theorem execThermSample_lasts (temps : List (BitVec 16)) : OutLasts s (execThermSample temps s) := by
  simp [execThermSample]

@[simp] theorem execSupplyWarn_lasts (r : Fin 4) (low : BitVec 16) : OutLasts s (execSupplyWarn r low s) := by
  simp [execSupplyWarn]

@[simp] theorem execSupplyUnderSpec_lasts (r : Fin 4) (low : BitVec 16) : OutLasts s (execSupplyUnderSpec r low s) := by
  simp [execSupplyUnderSpec]

@[simp] theorem execSupplyWarnClear_lasts (r : Fin 4) (low level : BitVec 16) : OutLasts s (execSupplyWarnClear r low level s) := by
  simp [execSupplyWarnClear]

@[simp] theorem execOtpHoldExpiry_lasts (r : Fin 4) : OutLasts s (execOtpHoldExpiry r s) := by
  simp [execOtpHoldExpiry]

/-! ### Resets -/

@[simp] theorem execJtagTestReset_lasts : OutLasts s (execJtagTestReset s) := by
  simp [execJtagTestReset]

/-! ### Trace commands -/

@[simp] theorem execTraceMerge_lasts : OutLasts s (execTraceMerge s) := by
  simp [execTraceMerge]

@[simp] theorem execTraceGapRecord_lasts : OutLasts s (execTraceGapRecord s) := by
  simp [execTraceGapRecord]

@[simp] theorem execTraceSync_lasts : OutLasts s (execTraceSync s) := by
  simp [execTraceSync]

@[simp] theorem execTraceConfig_lasts (h : Hdr) (params : BitVec 384) : OutLasts s (execTraceConfig h params s) :=
  firmware_lasts (checks_lasts (by simp) _)

@[simp] theorem execTraceSources_lasts (h : Hdr) (params : BitVec 384) : OutLasts s (execTraceSources h params s) :=
  firmware_lasts (checks_lasts (by simp) _)

@[simp] theorem execTraceStart_lasts (h : Hdr) : OutLasts s (execTraceStart h s) :=
  firmware_lasts (checks_lasts (by simp) _)

@[simp] theorem execTraceStop_lasts (h : Hdr) : OutLasts s (execTraceStop h s) :=
  firmware_lasts (checks_lasts (by simp) _)

@[simp] theorem execTraceTrigger_lasts (h : Hdr) : OutLasts s (execTraceTrigger h s) :=
  firmware_lasts (checks_lasts (by simp) _)

@[simp] theorem execTraceDump_lasts (h : Hdr) : OutLasts s (execTraceDump h s) :=
  firmware_lasts (checks_lasts (by simp) _)

@[simp] theorem execCntRead_lasts (h : Hdr) (rod bank : Byte) : OutLasts s (execCntRead h rod bank s) :=
  firmware_lasts (checks_lasts (by simp) _)

@[simp] theorem execCntLoRead_lasts (fn : Fin 16) (rod : Fin 64) (bank : Fin 3) (k : Fin 32) :
    OutLasts s (execCntLoRead fn rod bank k s) := by
  simp [execCntLoRead]

@[simp] theorem execDbgStampLoRead_lasts (fn : Fin 16) : OutLasts s (execDbgStampLoRead fn s) := by
  simp [execDbgStampLoRead]

@[simp] theorem execDbgTraceRptrWrite_lasts (fn : Fin 16) (value : Word) : OutLasts s (execDbgTraceRptrWrite fn value s) := by
  simp [execDbgTraceRptrWrite]

/-! ### Command take -/

@[simp] theorem execFunctionLevelReset_lasts (fn : Fin 16) : OutLasts s (execFunctionLevelReset fn s) := by
  simp [execFunctionLevelReset]

@[simp] theorem execHotReset_lasts : OutLasts s (execHotReset s) := by
  simp [execHotReset]

@[simp] theorem execUcieLinkRetrain_lasts (link : UcieLink) : OutLasts s (execUcieLinkRetrain link s) := by
  unfold execUcieLinkRetrain
  split
  next htrain => simp [State.trained_steady htrain]
  · simp

/-! ### Vision units -/

@[simp] theorem execCropResize_lasts (rod : Fin 64) : OutLasts s (execCropResize rod s) :=
  State.start_lasts _ _ fun d e s => State.cropResize_steady s rod.val d e

@[simp] theorem execChArgmax_lasts (rod : Fin 64) : OutLasts s (execChArgmax rod s) :=
  State.start_lasts _ _ fun d e s => State.chArgmax_steady s rod.val d e

@[simp] theorem execScan_lasts (rod : Fin 64) : OutLasts s (execScan rod s) :=
  State.start_lasts _ _ fun d e s => State.scan_steady s rod.val d e

@[simp] theorem State.hifWrite_lasts (o : Nat) (w : Word) : OutLasts s (s.hifWrite o w) := by
  unfold State.hifWrite
  split
  · simp
  · split
    · dsimp only
      split <;> simp
    · simp

@[simp] theorem State.tybWrite_lasts (o : Nat) (w : Word) : OutLasts s (s.tybWrite o w) := by
  unfold State.tybWrite
  dsimp only
  split <;> simp

@[simp] theorem State.pgkWrite_lasts (o : Nat) (w : Word) : OutLasts s (s.pgkWrite o w) := by
  unfold State.pgkWrite
  split <;> simp

@[simp] theorem State.snsWrite_lasts (o : Nat) (w : Word) : OutLasts s (s.snsWrite o w) := by
  simp [State.snsWrite]

@[simp] theorem State.safWrite_lasts (o : Nat) (w : Word) : OutLasts s (s.safWrite o w) := by
  unfold State.safWrite
  split <;> simp

@[simp] theorem State.rodWrite_lasts (n : Fin 64) (o : Nat) (w : Word) : OutLasts s (s.rodWrite n o w) := by
  unfold State.rodWrite
  split <;> simp [execCeClear]

@[simp] theorem State.fwWrite_lasts (off : Nat) (w : Word) : OutLasts s (s.fwWrite off w) := by
  simp [State.fwWrite]

@[simp] theorem State.vfWrite_lasts (f : Fin 16) (off : Nat) (w : Word) : OutLasts s (s.vfWrite f off w) := by
  simp [State.vfWrite]

@[simp] theorem execPwrResetReq_lasts (fn : Fin 16) (w : Word) : OutLasts s (execPwrResetReq fn w s) := by
  simp [execPwrResetReq]

@[simp] theorem State.pwrWrite_lasts (o : Nat) (w : Word) : OutLasts s (s.pwrWrite o w) := by
  unfold State.pwrWrite
  dsimp only
  split <;> simp

@[simp] theorem State.pf0Write_lasts (off : Nat) (w : Word) : OutLasts s (s.pf0Write off w) := by
  unfold State.pf0Write
  dsimp only
  split <;> simp

@[simp] theorem execRegisterWrite_lasts (by_ : Writer) (addr : BitVec 48) (w : Word) : OutLasts s (execRegisterWrite by_ addr w s) := by
  unfold execRegisterWrite
  dsimp only
  split <;> simp

theorem run01_lasts {op x : Nat} {h : Hdr} : ∀ o ∈ run01 op x h s, OutLasts s o := by
  unfold run01
  split <;> simp

theorem run23_lasts {op x : Nat} {h : Hdr} : ∀ o ∈ run23 op x h s, OutLasts s o := by
  unfold run23
  split <;> simp

theorem run4_lasts {op x : Nat} {h : Hdr} : ∀ o ∈ run4 op x h s, OutLasts s o := by
  unfold run4
  split <;> simp

theorem run56_lasts {op x : Nat} {h : Hdr} : ∀ o ∈ run56 op x h s, OutLasts s o := by
  unfold run56
  split <;> simp

theorem run7_lasts {op x : Nat} {h : Hdr} : ∀ o ∈ run7 op x h s, OutLasts s o := by
  unfold run7
  split <;> simp

theorem run89_lasts {op x : Nat} {h : Hdr} : ∀ o ∈ run89 op x h s, OutLasts s o := by
  unfold run89
  split <;> simp

theorem runAB_lasts {op x : Nat} {h : Hdr} : ∀ o ∈ runAB op x h s, OutLasts s o := by
  unfold runAB
  split <;> simp

theorem runOpcode_lasts {op x : Nat} {h : Hdr} : ∀ o ∈ runOpcode op x h s, OutLasts s o := by
  unfold runOpcode
  split
  · exact run01_lasts
  · exact run01_lasts
  · exact run23_lasts
  · exact run23_lasts
  · exact run4_lasts
  · exact run56_lasts
  · exact run56_lasts
  · exact run7_lasts
  · exact run89_lasts
  · exact run89_lasts
  · exact runAB_lasts
  · exact runAB_lasts
  · simp

theorem State.runPacket_lasts (h : Hdr) (pkt : Nat) : OutLasts s (s.runPacket h pkt) := by
  have hno (st d : Nat) : OutLasts s (.next (s.reply h { status := st, detail := d })) := by simp
  unfold State.runPacket
  refine iteInduction (fun _ => hno _ _) fun _ => iteInduction (fun _ => hno _ _) fun _ => iteInduction (fun _ => hno _ _) fun _ => ?_
  cases bit pkt 24
  · simp only [Bool.false_eq_true, if_false]
    split
    · exact hno _ _
    · split
      · exact hno _ _
      · split
        next ho => exact runOpcode_lasts _ ho
        · exact hno _ _
  · simp only [if_true]
    split
    · exact hno _ _
    · split
      · exact hno _ _
      · split
        · exact hno _ _
        · split
          next ho => exact .after (State.noteRead_steady s _ _).lasts (runOpcode_lasts _ ho)
          · exact hno _ _

theorem State.checkPacket_lasts (h : Hdr) (pkt : Nat) : OutLasts s (s.checkPacket h pkt) := by
  have hrun (u : State) (hu : Lasts s u) : OutLasts s (u.runPacket h pkt) := .after hu (State.runPacket_lasts _ _)
  simp [State.checkPacket, hrun]

@[simp] theorem execCommandTake_lasts (fn : Fin 16) (ring : BitVec 13) : OutLasts s (execCommandTake fn ring s) := by
  unfold execCommandTake
  dsimp only
  split
  · simp
  · split
    · simp
    · have hcheck (u : State) (hu : Lasts s u) (h : Hdr) (pkt : Nat) : OutLasts s (u.checkPacket h pkt) :=
        .after hu (State.checkPacket_lasts _ _)
      split
      next ht => exact (outLasts_next _).2 ((hcheck _ (by simp) _ _ _ ht).trans (State.settle_steady _).lasts)
      · exact hcheck _ (by simp) _ _

end Sys2Proof.Machine
end

section
/-! Every step, of whatever state: settles O4, O5 and O51. -/

namespace Sys2Proof.Machine

variable {s : State}

@[simp] theorem execPowerOnReset_lasts : OutLasts s (execPowerOnReset s) := by
  simp [execPowerOnReset]

@[simp] theorem execSupplyReset_lasts (r : Fin 4) (ioHeld : Bool) : OutLasts s (execSupplyReset r ioHeld s) := by
  simp [execSupplyReset]

@[simp] theorem execClockLossReset_lasts : OutLasts s (execClockLossReset s) := by
  simp [execClockLossReset]

@[simp] theorem execWarmReset_lasts (c : PwrCause) : OutLasts s (execWarmReset c s) := by
  simp [execWarmReset]

/-- No command touches the queue, breaks the canonical form, or takes back an OTP bit. -/
theorem exec_lasts (c : Instr) : OutLasts s (exec c s) := by
  cases c
  all_goals simp only [exec]
  all_goals simp

variable (s)

@[simp] theorem State.landOne_steady (x : Landing) : Steady s (s.landOne x) := Lasts.steady <| by
  unfold State.landOne
  dsimp only
  split
  · simp
  · split
    · simp
    · split
      next hshard => simp [(State.shardIn_steady hshard).lasts]
      · simp

@[simp] theorem State.land_steady : Steady s s.land := Lasts.steady (by simp [State.land])

@[simp] theorem State.nullFlit_steady (p : Nat) : Steady s (s.nullFlit p) := Lasts.steady (by simp [State.nullFlit])

@[simp] theorem State.traceDue_steady : Steady s s.traceDue := Lasts.steady (by simp [State.traceDue])

theorem idle_lasts : Lasts s (idle s) := by
  simp [idle, State.judgeWaits]

variable {s}

theorem step_nil (h : s.pending = []) : step s = .next (idle s) := by
  simp only [step, h]

theorem step_cons {c : Instr} {cs : List Instr} (h : s.pending = c :: cs) : step s = exec c { s with pending := cs } := by
  simp only [step, h]

theorem step_lasts {t : State} (h : step s = .next t) : Lasts { s with pending := s.pending.tail } t := by
  cases hp : s.pending with
  | nil =>
    have ht : t = idle s := Host.Outcome.next.inj (h.symm.trans (step_nil hp))
    rw [List.tail_nil, ← hp, ht]
    exact idle_lasts s
  | cons c cs => exact exec_lasts c t ((step_cons hp).symm.trans h)

/-- Settles O4: a step keeps the memory's canonical form as it keeps all that lasts. -/
theorem everyStepKeepsMemory : Obligations.EveryStepKeepsMemory :=
  fun _ _ hs h => (step_lasts h).form hs

/-- Settles O5: no command touches the queue that its step hands it. -/
theorem everyStepKeepsTheQueue : Obligations.EveryStepKeepsTheQueue :=
  fun _ _ h => (step_lasts h).pending

/-- Settles O51: the operations that program the OTP only add bits, and a reset keeps the rows. -/
theorem otpBitsStaySet : Obligations.OtpBitsStaySet :=
  fun _ _ h => (step_lasts h).otp

end Sys2Proof.Machine
end

section
/-! The step, reset values, memory bytes and control arithmetic: settles O1, O3, O6 and O39. -/

namespace Sys2Proof.Machine

/-- Settles O1: the definition of a step on a queue that is not empty. -/
theorem stepRunsFront : Obligations.StepRunsFront := fun _ _ _ => rfl

/-- Settles O3: the reset state, evaluated. -/
theorem resetValues : Obligations.ResetValues := by
  unfold Obligations.ResetValues
  decide

/-! ### Little-endian bytes -/

theorem leNat_leBytes (n x : Nat) : leNat (leBytes n x) = x % 2 ^ (8 * n) := by
  induction n generalizing x with
  | zero => simp [leBytes, leNat, Nat.mod_one]
  | succ n ih =>
    have hpow : (2 : Nat) ^ (8 * (n + 1)) = 256 * 2 ^ (8 * n) := by rw [Nat.mul_succ, Nat.pow_add, Nat.mul_comm]
    rw [leBytes, leNat, ih, BitVec.toNat_ofNat, hpow, Nat.mod_mul]

theorem leBytes_leNat (bs : List Byte) : leBytes bs.length (leNat bs) = bs := by
  induction bs with
  | nil => rfl
  | cons b bs ih =>
    have hb := b.isLt
    have hhead : BitVec.ofNat 8 (b.toNat + 256 * leNat bs) = b := BitVec.eq_of_toNat_eq (by simp; omega)
    rw [List.length_cons, leNat, leBytes, hhead, show (b.toNat + 256 * leNat bs) / 256 = leNat bs by omega, ih]

/-- Settles O6: the laws of the memory's table, and the two inductions over the bytes. -/
theorem memoryBytes : Obligations.MemoryBytes := by
  unfold Obligations.MemoryBytes
  exact ⟨fun s a bs => ⟨Memory.read_write s.mem bs a, fun b hb => Memory.get_write_out s.mem bs a b hb, State.wr_keepsForm s a bs⟩,
    leNat_leBytes, leBytes_leNat⟩

/-! ### Control arithmetic -/

/-- The rounding shift is at most half a step away, from above by at most half, from below by less. -/
theorem sh_nearest (p : Int) (n : Nat) : -(2 ^ n : Int) < 2 * (2 ^ n * sh p n - p) ∧ 2 * (2 ^ n * sh p n - p) ≤ 2 ^ n := by
  cases n with
  | zero => simp [sh]
  | succ n =>
    have hpos : (0 : Int) < 2 ^ (n + 1) := by positivity
    have hhalf : (2 : Int) ^ (n + 1) = 2 * 2 ^ n := pow_succ' 2 n
    have hdiv := Int.mul_ediv_add_emod (p + 2 ^ n) (2 ^ (n + 1))
    have hlo := Int.emod_nonneg (p + 2 ^ n) hpos.ne'
    have hhi := Int.emod_lt_of_pos (p + 2 ^ n) hpos
    rw [sh, if_neg n.succ_ne_zero, Nat.add_sub_cancel]
    omega

theorem sat32_clamps (v : Int) : -(2 ^ 31) ≤ sat32 v ∧ sat32 v ≤ 2 ^ 31 - 1 ∧ (-(2 ^ 31) ≤ v → v ≤ 2 ^ 31 - 1 → sat32 v = v) := by
  unfold sat32
  omega

/-- The number of ways to write `k` as a sum of three natural numbers, zero below zero: the taps of three integrators. -/
def triple (k : Int) : Int := if k < 0 then 0 else (k + 2) * (k + 1) / 2

theorem sincWeight_eq (n k : Nat) : sincWeight n k = triple k - 3 * triple (k - n) + 3 * triple (k - 2 * n) := rfl

theorem sum_range_triple (m : Nat) : 6 * ((List.range m).map fun k : Nat => triple k).sum = (m : Int) * (m + 1) * (m + 2) := by
  induction m with
  | zero => simp
  | succ m ih =>
    have hdvd : (2 : Int) ∣ (m + 2) * (m + 1) := by
      have h := Int.even_mul_succ_self ((m : Int) + 1)
      rw [show ((m : Int) + 1) * (m + 1 + 1) = (m + 2) * (m + 1) by ring] at h
      exact h.two_dvd
    have htriple : 2 * triple m = ((m : Int) + 2) * (m + 1) := by
      rw [triple, if_neg (by omega), Int.mul_ediv_cancel' hdvd]
    rw [List.range_succ, List.map_append, List.sum_append, mul_add, ih]
    simp only [List.map_cons, List.map_nil, List.sum_cons, List.sum_nil, add_zero]
    push_cast
    linear_combination 3 * htriple

/-- A sum of shifted taps starts where its shift ends. -/
theorem sum_range_triple_shift (m d : Nat) :
    ((List.range (m + d)).map fun k : Nat => triple ((k : Int) - d)).sum = ((List.range m).map fun k : Nat => triple k).sum := by
  rw [Nat.add_comm, List.range_add, List.map_append, List.sum_append, List.map_map]
  have hzero : ((List.range d).map fun k : Nat => triple ((k : Int) - d)).sum = 0 := by
    refine List.sum_eq_zero fun x hx => ?_
    obtain ⟨k, hk, rfl⟩ := List.mem_map.1 hx
    have := List.mem_range.1 hk
    exact if_pos (by omega)
  rw [hzero, zero_add]
  congr 1
  exact List.map_congr_left fun k _ => by simp

theorem sum_map_sincWeight (n : Nat) (l : List Nat) :
    (l.map (sincWeight n)).sum =
      (l.map fun k : Nat => triple k).sum - 3 * (l.map fun k : Nat => triple ((k : Int) - n)).sum +
        3 * (l.map fun k : Nat => triple ((k : Int) - 2 * n)).sum := by
  induction l with
  | nil => simp
  | cons k l ih =>
    simp only [List.map_cons, List.sum_cons, ih, sincWeight_eq]
    ring

/-- The window of three boxes of `n`: the weights sum to `n ^ 3`. -/
theorem sum_sincWeight {n : Nat} (hn : 1 ≤ n) : ((List.range (3 * (n - 1) + 1)).map (sincWeight n)).sum = (n : Int) ^ 3 := by
  rw [sum_map_sincWeight]
  obtain rfl | ⟨m, rfl⟩ : n = 1 ∨ ∃ m, n = m + 2 := by
    rcases n with _ | _ | m
    · omega
    · exact .inl rfl
    · exact .inr ⟨m, rfl⟩
  · rfl
  · have hall := sum_range_triple (3 * (m + 2 - 1) + 1)
    have hone := sum_range_triple_shift (2 * (m + 1)) (m + 2)
    have htwo := sum_range_triple_shift m (2 * (m + 2))
    rw [show 2 * (m + 1) + (m + 2) = 3 * (m + 2 - 1) + 1 by omega] at hone
    rw [show m + 2 * (m + 2) = 3 * (m + 2 - 1) + 1 by omega, show ((2 * (m + 2) : Nat) : Int) = 2 * (m + 2 : Nat) by push_cast; ring] at htwo
    rw [hone, htwo]
    have hone' := sum_range_triple (2 * (m + 1))
    have htwo' := sum_range_triple m
    rw [show ((3 * (m + 2 - 1) + 1 : Nat) : Int) = 3 * m + 4 by omega] at hall
    push_cast at hall hone' htwo' ⊢
    refine mul_left_cancel₀ (show (6 : Int) ≠ 0 by decide) ?_
    linear_combination hall - 3 * hone' + 3 * htwo'

/-- Settles O39: rounding and saturation bound by bound, and the sum of the weights by the sums of triangular numbers. -/
theorem controlNumbers : Obligations.ControlNumbers := by
  unfold Obligations.ControlNumbers
  exact ⟨⟨sh_nearest, sat32_clamps⟩, fun n hn => sum_sincWeight hn⟩

end Sys2Proof.Machine
end

section
/-! An idle tick: settles O2. -/

namespace Sys2Proof.Machine

variable {s : State}

theorem State.journalFlush_of_batch_nil (h : s.jrn.j.batch = []) : s.journalFlush = s := by
  simp only [State.journalFlush, h, List.filter_nil, List.insertionSort_nil, List.foldl_nil]
  rw [← h]

theorem State.land_of_landing_nil (h : s.pgk.landing = []) : s.land = s := by
  rw [State.land, h, List.filter_nil, List.foldl_nil]

theorem State.journalEnd_of_not_closing (h : s.jrn.j.closing = false) : s.journalEnd = s := by
  rw [State.journalEnd, h, if_neg Bool.false_ne_true]

theorem Tab.keys_of_cells_nil {α : Type} [Inhabited α] {t : Tab α} (h : t.cells = []) (p : α → Bool) : t.keys p = [] := by
  rw [Tab.keys, h]
  rfl

theorem State.traceDue_off (h : s.trc.state = .off) : s.traceDue = s := by
  simp [State.traceDue, h]

/-- With trace off an instruction that ends changes its rod alone. -/
theorem State.retire_off (h : s.trc.state = .off) (n : Nat) (f : Rod → Rod) : s.retire n f = s.updRod n fun r => (f r).advance := by
  rw [State.retire, State.traceInstr_off s h]

theorem State.foldl_retire_off (h : s.trc.state = .off) (l : List Nat) :
    ∃ rods, l.foldl (fun s n => s.retire n) s = { s with rods := rods } := by
  induction l generalizing s with
  | nil => exact ⟨s.rods, rfl⟩
  | cons n l ih =>
    rw [List.foldl_cons, State.retire_off h]
    exact ih (s := s.updRod n fun r => r.advance) h

theorem State.alignTo_off (h : s.trc.state = .off) (upto : Nat) : ∃ rods, s.alignTo upto = { s with rods := rods } :=
  State.foldl_retire_off h _

theorem State.nullFlit_eq (s : State) (p : Nat) : ∃ tyb, s.nullFlit p = { s with tyb := tyb } := by
  rw [State.nullFlit]
  split
  · exact ⟨_, rfl⟩
  · exact ⟨s.tyb, rfl⟩

theorem Cle.tick_caps (c : Cle) : c.tick.caps = c.caps := by
  rw [Cle.tick]
  split <;> rfl

/-- FRAME_TICK after a tick: one more while a plan runs. -/
def State.nextFrameTick (s : State) : Nat :=
  if s.pln.state = .running ∨ s.pln.state = .stopping then s.pln.frameTick + 1 else s.pln.frameTick

/-- The Tyben ports' acknowledgements and the ALIGNs that end change ports and rods alone. -/
theorem endOfTick_eq (htrace : s.trc.state = .off) (hraised : s.saf.raised = []) (upto : Nat) :
    ∃ rods tyb, (([0, 1].foldl State.nullFlit s).alignTo upto).traceDue.settle = { s with rods := rods, tyb := tyb } := by
  obtain ⟨tyb₀, h₀⟩ := State.nullFlit_eq s 0
  obtain ⟨tyb₁, h₁⟩ := State.nullFlit_eq { s with tyb := tyb₀ } 1
  obtain ⟨rods, hr⟩ := State.alignTo_off (s := { s with tyb := tyb₁ }) htrace upto
  refine ⟨rods, tyb₁, ?_⟩
  rw [List.foldl_cons, List.foldl_cons, List.foldl_nil, h₀, h₁, hr]
  exact (congrArg State.settle (State.traceDue_off (by exact htrace))).trans (State.settle_quiet _ hraised)

/-- The clocks of an idle tick, before the new tick's own events. -/
def State.ticked (s : State) : State :=
  { s with
    tick := s.tick + 1
    tim := { s.tim.cycles (cyclesOf s.tick) with past := (s.tim.time :: s.tim.past).take 6 }
    pln.frameTick := s.nextFrameTick
    rods := s.rods.mapV (Rod.tick (s.trc.stamp + 1))
    cle := s.cle.tick
    trc.stamp := s.trc.stamp + 1 }

/-- What the new tick starts with: ring messages, waits, a closing journal's end, capture records. -/
def State.tickStarts (s : State) : State := (s.cle.caps.keys CleCap.running).foldl State.captureEnd s.land.judgeWaits.journalEnd

theorem idle_eq_ticked (s : State) :
    idle s = (([0, 1].foldl State.nullFlit s.journalFlush.ticked.tickStarts).alignTo s.journalFlush.ticked.tickStarts.pln.frameTick).traceDue.settle := by
  rw [idle, State.ticked, State.nextFrameTick]
  cases s.journalFlush.pln.state <;> rfl

theorem State.tickStarts_eq (hlanding : s.pgk.landing = []) (hclosing : s.jrn.j.closing = false) (hcaps : s.cle.caps.cells = []) :
    s.tickStarts = s.judgeWaits := by
  rw [State.tickStarts, State.land_of_landing_nil hlanding, Tab.keys_of_cells_nil hcaps, List.foldl_nil]
  exact State.journalEnd_of_not_closing hclosing

/-- An idle tick with nothing that waits for it: the clocks, the waits, and changes of rods and ports. -/
theorem idle_eq (hraised : s.saf.raised = []) (hbatch : s.jrn.j.batch = []) (hclosing : s.jrn.j.closing = false) (hlanding : s.pgk.landing = [])
    (hcaps : s.cle.caps.cells = []) (htrace : s.trc.state = .off) :
    ∃ rods tyb, idle s = { s.ticked.judgeWaits with rods := rods, tyb := tyb } := by
  rw [idle_eq_ticked, State.journalFlush_of_batch_nil hbatch,
    State.tickStarts_eq (s := s.ticked) hlanding hclosing ((congrArg Tab.cells (Cle.tick_caps s.cle)).trans hcaps)]
  exact endOfTick_eq (s := s.ticked.judgeWaits) htrace hraised _

/-- Settles O2: with nothing waiting, an idle tick is the change of the clocks, rods and ports that `idle_eq` writes out. -/
theorem stepIdle : Obligations.StepIdle := by
  unfold Obligations.StepIdle
  refine ⟨fun s h => ⟨_, step_nil h⟩, fun s hp hraised hbatch hclosing hlanding hcaps htrace => ⟨_, step_nil hp, ?_⟩⟩
  obtain ⟨rods, tyb, h⟩ := idle_eq hraised hbatch hclosing hlanding hcaps htrace
  rw [h]
  exact ⟨rfl, rfl, rfl, rfl, rfl, rfl, rfl, hp⟩

end Sys2Proof.Machine
end

section
/-! The rod sequencer's common steps: what a table keeps of a change, an instruction that is fetched, and the ways it ends. -/

namespace Sys2Proof.Machine

open Sys2Proof.Claims

/-! ### Tables -/

theorem Tab.look_mem {α : Type} [Inhabited α] (k : Nat) (l : List (Nat × α)) : Tab.look k l = default ∨ (k, Tab.look k l) ∈ l := by
  induction l with
  | nil => exact .inl rfl
  | cons c l ih =>
    obtain ⟨j, u⟩ := c
    by_cases hj : j = k
    · subst hj
      simp [Tab.look]
    · simpa [Tab.look, hj, Ne.symm hj] using ih

/-- What holds of every listed value and of the default holds of every value read. -/
theorem Tab.get_of_forall {α : Type} [Inhabited α] {t : Tab α} {P : α → Prop} (hdefault : P default) (h : ∀ c ∈ t.cells, P c.2) (k : Nat) :
    P (t.get k) := by
  rcases Tab.look_mem k t.cells with hk | hk
  · rw [Tab.get, hk]
    exact hdefault
  · exact h _ hk

theorem Tab.put_put {α : Type} [Inhabited α] [DecidableEq α] (k : Nat) {u : α} (hu : u ≠ default) (v : α) (l : List (Nat × α)) :
    Tab.put k v (Tab.put k u l) = Tab.put k v l := by
  induction l with
  | nil => simp [Tab.put, hu]
  | cons c l ih =>
    obtain ⟨j, x⟩ := c
    by_cases hlt : j < k
    · simp [Tab.put, hlt, ih]
    · by_cases heq : j = k
      · simp [Tab.put, heq, hu]
      · by_cases hv : v = default <;> simp [Tab.put, hlt, heq, hu, hv]

/-- Of two changes of one entry the second is all that is left, if the first did not empty the entry. -/
theorem Tab.upd_upd {α : Type} [Inhabited α] [DecidableEq α] (t : Tab α) (k : Nat) {f : α → α} (hf : f (t.get k) ≠ default) (g : α → α) :
    (t.upd k f).upd k g = t.upd k (g ∘ f) := by
  rw [Tab.upd, Tab.get_upd_self, Tab.upd, Tab.upd, Tab.set, Tab.set, Tab.put_put k hf]
  rfl

theorem State.updRod_updRod (s : State) (n : Nat) {f : Rod → Rod} (hf : f (s.rod n) ≠ default) (g : Rod → Rod) :
    (s.updRod n f).updRod n g = s.updRod n (g ∘ f) := by
  rw [State.updRod, State.updRod, State.updRod, ← Tab.upd_upd s.rods n hf g]

@[simp] theorem State.rod_updRod (s : State) (n : Nat) (f : Rod → Rod) : (s.updRod n f).rod n = f (s.rod n) := Tab.get_upd_self ..

theorem State.rod_updRod_ne (s : State) {k n : Nat} (f : Rod → Rod) (h : k ≠ n) : (s.updRod n f).rod k = s.rod k := Tab.get_upd_ne _ _ h

/-- Only the value read counts for a change. -/
theorem State.updRod_congr (s : State) (n : Nat) {f g : Rod → Rod} (h : f (s.rod n) = g (s.rod n)) : s.updRod n f = s.updRod n g := by
  rw [State.updRod, State.updRod, Tab.upd, Tab.upd]
  exact congrArg (fun r => { s with rods := s.rods.set n r }) h

/-! ### Where nothing fails -/

theorem State.upset_of_cells {s : State} (h : ∀ c ∈ s.rods.cells, c.2.upset = {}) (n : Nat) : (s.rods.get n).upset = {} :=
  Tab.get_of_forall (P := fun r : Rod => r.upset = {}) rfl h n

theorem State.jammed_of_upset {s : State} (h : ∀ c ∈ s.rods.cells, c.2.upset = {}) (a len : Nat) : s.jammed a len = false :=
  State.jammed_clean s (fun n => congrArg Upset.banks (s.upset_of_cells h n)) a len

theorem State.holdCode_held {s : State} {n : Nat} (h : (s.rod n).holds (s.rod n).codeWant = true) : s.holdCode n = (true, s) := by
  simp only [State.holdCode, h, if_true]

/-! ### An instruction that is fetched -/

/-- A fetched instruction is carried out: of its own command, on the state as it stands. -/
theorem State.instr_fetched {s : State} {n w : Nat} (h : fetches s n w) (op : Nat) (k : Nat → State → State) :
    s.instr n op k = .next (if fld w 26 6 = op then (k w s).settle else s) := by
  obtain ⟨hjob, hfollow, hseq, hpc, hholds, hword, hok, -⟩ := h
  have hfree : ¬ ((s.rod n).job.isNone || (s.rod n).follower n || !((s.rod n).seq == .ready || (s.rod n).seq == .waiting)) = true := by
    obtain ⟨j, hj⟩ := Option.isSome_iff_exists.1 hjob
    rcases hseq with hs | hs <;> simp [hfollow, hj, hs]
  simp only [State.instr, hfree, if_false, Nat.not_le.2 hpc, State.holdCode_held hholds, hword, hok, Bool.not_true, Bool.false_eq_true]
  split <;> rfl

theorem State.instr_fetched_op {s : State} {n w op : Nat} (h : fetches s n w) (hop : fld w 26 6 = op) (k : Nat → State → State) :
    s.instr n op k = .next (k w s).settle := by
  rw [State.instr_fetched h, if_pos hop]

/-- With no fault waiting a fetched instruction whose effect raises none ends in its effect. -/
theorem State.instr_quiet {s u : State} {n w op : Nat} (h : fetches s n w) (hop : fld w 26 6 = op) {k : Nat → State → State} (hk : k w s = u)
    (hu : u.saf.raised = s.saf.raised) : s.instr n op k = .next u := by
  obtain ⟨-, -, -, -, -, -, -, -, -, hraised, -⟩ := id h
  rw [State.instr_fetched_op h hop, hk, State.settle_quiet _ (hu.trans hraised)]

theorem State.retire_fetched {s : State} {n w : Nat} (h : fetches s n w) (m : Nat) (f : Rod → Rod) :
    s.retire m f = s.updRod m fun r => (f r).advance := by
  obtain ⟨-, -, -, -, -, -, -, -, -, -, htrace⟩ := h
  exact State.retire_off htrace m f

theorem State.spadRead_fetched {s : State} {n w : Nat} (h : fetches s n w) (m off len : Nat) :
    s.spadRead m off len = (some (s.rd (spadAddr m off) len), s) := by
  obtain ⟨-, -, -, -, -, -, -, herrs, hupset, -⟩ := h
  exact State.spadRead_clean s herrs m off len (State.jammed_of_upset hupset _ _)

/-- A bank access of a rod that is no follower is counted. -/
theorem State.count_eq {s : State} {n k v : Nat} (hv : v ≠ 0) (h : (s.rod n).follower n = false) :
    s.count n k v = s.updRod n fun r => { r with cnt := r.cnt.add k v } := by
  simp [State.count, hv, h]

end Sys2Proof.Machine
end

section
/-! Register instructions and the faults of a sequencer: settles O22 and O26. -/

namespace Sys2Proof.Machine

open Sys2Proof.Claims

/-! ### L registers -/

@[simp] theorem Rod.l_of_zero (r : Rod) : r.l_ 0 = 0 := rfl

@[simp] theorem Rod.setL_zero (r : Rod) (v : Word) : r.setL 0 v = r := rfl

theorem Rod.l_of_setL_self (r : Rod) {i : Nat} (hi : i ≠ 0) (v : Word) : (r.setL i v).l_ i = v := by
  simp [Rod.setL, Rod.l_, hi]

theorem Rod.l_of_setL_ne (r : Rod) {i k : Nat} (v : Word) (h : k ≠ i) : (r.setL i v).l_ k = r.l_ k := by
  by_cases hi : i = 0
  · rw [hi, Rod.setL_zero]
  · by_cases hk : k = 0
    · simp [hk]
    · simp [Rod.setL, Rod.l_, hi, hk, h]

theorem Rod.setL_wf (r : Rod) (i : Nat) (v : Word) (h : r.l.wf = true) : (r.setL i v).l.wf = true := by
  rw [Rod.setL]
  split
  · exact h
  · exact Tab.set_wf _ _ _ h

/-! ### Register instructions -/

section
variable {n : Fin 64} {w : Nat} {s : State} (h : fetches s n.val w)
include h

/-- An instruction that writes its destination and goes on. -/
theorem State.instr_retire {op : Nat} (hop : fld w 26 6 = op) {k : Nat → State → State} {f : Rod → Rod} (hk : k w s = s.retire n.val f) :
    s.instr n.val op k = .next (s.updRod n.val fun r => (f r).advance) :=
  State.instr_quiet h hop (hk.trans (State.retire_fetched h _ _)) rfl

/-- The same where only what it reads of its rod counts. -/
theorem State.instr_retire_const {op : Nat} (hop : fld w 26 6 = op) {k : Nat → State → State} {f g : Rod → Rod} (hk : k w s = s.retire n.val f)
    (hfg : f (s.rod n.val) = g (s.rod n.val)) : s.instr n.val op k = .next (s.updRod n.val fun r => (g r).advance) := by
  rw [State.instr_retire h hop hk]
  exact congrArg _ (State.updRod_congr _ _ (congrArg Rod.advance hfg))

theorem exec_ldw_fetched (hop : fld w 26 6 = 0x07) {off : Nat} (hoff : ((s.rod n.val).l_ (fld w 18 4) + sfld w 0 18).toNat = off)
    (halign : off % 4 = 0) (hrange : s.inJobRange n.val off 4 = true) :
    exec (.ldw n) s = .next ((s.count n.val 18 1).updRod n.val fun r =>
      (r.setL (fld w 22 4) (BitVec.ofNat 32 (s.rdN (spadAddr n.val off) 4))).advance) := by
  obtain ⟨-, hfollow, -, -, -, -, -, -, -, -, htrace⟩ := id h
  change execLdw n s = _
  refine State.instr_quiet h hop ?_ ?_
  · dsimp only
    rw [hoff, State.spadRead_fetched h, halign, hrange, bne_self_eq_false, Bool.not_true, Bool.or_false, if_neg Bool.false_ne_true]
    dsimp only
    rw [State.count_eq one_ne_zero hfollow]
    exact State.retire_off (by exact htrace) ..
  · rw [State.count_eq one_ne_zero hfollow]
    rfl

theorem exec_rds_time_fetched (hop : fld w 26 6 = 0x0E) (hsel : fld w 0 4 = 6) (hreplay : s.jrn.r.running = false)
    (hjournal : s.jrn.j.isOpen = false) :
    exec (.rds n) s = .next (s.updRod n.val fun r =>
      ({ r with latchSec := BitVec.ofNat 48 (s.admittedTime.toNat / 2 ^ 48), latchFrac := s.admittedTime.setWidth 16 }.setL (fld w 22 4)
        (BitVec.ofNat 32 (fld s.admittedTime.toNat 16 32))).advance) := by
  change execRds n s = _
  refine State.instr_retire h hop ?_
  dsimp only
  rw [hsel, State.timeRead, hreplay, if_neg Bool.false_ne_true]
  dsimp only
  rw [State.journal, State.journalAt_closed s hjournal]
  rfl

theorem exec_setb_fetched (hop : fld w 26 6 = 0x0F) (halign : lineAligned ((s.rod n.val).l_ (fld w 22 4)).toNat = true)
    (hrange : s.inJobRange n.val ((s.rod n.val).l_ (fld w 22 4)).toNat 1 = true) :
    exec (.setb n) s = .next (s.updRod n.val fun q =>
      (if fld w 0 2 = 0 then { q with descBase := (s.rod n.val).l_ (fld w 22 4) } else { q with recBase := (s.rod n.val).l_ (fld w 22 4) }).advance) := by
  change execSetb n s = _
  refine State.instr_retire h hop ?_
  dsimp only
  rw [halign, hrange, Bool.not_true, Bool.or_false, if_neg Bool.false_ne_true]

end

/-- Settles O22: each register instruction ends in its change of the rod, and the L registers are a table without an entry 0. -/
theorem sequencerRegisters : Obligations.SequencerRegisters := by
  unfold Obligations.SequencerRegisters
  refine ⟨fun n w s h => ⟨fun hop => ?_, fun hop => ?_, fun hop => ?_, fun hop ha hr => exec_ldw_fetched h hop rfl ha hr,
    fun hop hsel => ?_, fun hop hsel hr hj => exec_rds_time_fetched h hop hsel hr hj, fun hop ha hr => exec_setb_fetched h hop ha hr⟩,
    fun r i v => ⟨r.l_of_zero, r.setL_zero v, fun hi => r.l_of_setL_self hi v, fun k hk => r.l_of_setL_ne v hk, r.setL_wf i v⟩⟩
  · change execAddi n s = _
    exact State.instr_retire_const h hop rfl rfl
  · change execAlu n s = _
    exact State.instr_retire_const h hop rfl rfl
  · change execLui n s = _
    exact State.instr_retire h hop rfl
  · change execRds n s = _
    refine State.instr_retire h hop ?_
    dsimp only
    split
    case h_7 h6 => exact absurd h6 hsel
    all_goals simp only [*]

/-! ### Faults -/

theorem State.rodFault_raised {s : State} {n j : Nat} (hj : (s.rod n).job = some j) (code : Nat) (k : Option Nat) (d : Word) :
    (s.rodFault n code k d).saf.raised = s.saf.raised ++ [{ code := code, job := some j, rod := some n, detail := d }] := by
  cases k with
  | none => simp only [State.rodFault, hj]; rfl
  | some k =>
    have hj' : ((s.updRod n fun r => { r with fault := r.fault ||| BitVec.ofNat 32 (2 ^ k) }).rod n).job = some j := by
      rw [State.rod_updRod]
      exact hj
    simp only [State.rodFault, hj']
    rfl

theorem State.instr_illegal {s : State} {n : Nat} (hjob : (s.rod n).job.isSome = true) (hfollow : (s.rod n).follower n = false)
    (hseq : (s.rod n).seq = .ready) (hpc : (s.rod n).pc.toNat < (s.rod n).codeLen) (hholds : (s.rod n).holds (s.rod n).codeWant = true)
    (hok : instrOk (s.rod n).codeWord = false) (op : Nat) (k : Nat → State → State) : s.instr n op k = .next (s.rodFault n 0x0201).settle := by
  obtain ⟨j, hj⟩ := Option.isSome_iff_exists.1 hjob
  simp [State.instr, hj, hfollow, hseq, hpc, State.holdCode_held hholds, hok]

/-- Settles O26: each raises its fault against the job of the rod. -/
theorem sequencerFaults : Obligations.SequencerFaults := by
  unfold Obligations.SequencerFaults
  refine ⟨fun n w s h hop => ?_, fun n s hseq => ?_, fun n u s hrun => ?_, fun n w s hjob hfollow hseq hpc hholds hw hok => ?_,
    fun n code j k d s hj => State.rodFault_raised hj code k d⟩
  · obtain ⟨-, -, -, -, -, -, -, -, -, -, htrace⟩ := id h
    change execTrap n s = _
    refine (State.instr_fetched_op h hop _).trans ?_
    rw [State.traceInstr_off s htrace]
  · change execTileOverrun n s = _
    simp [execTileOverrun, hseq]
  · change execDescOverrun n u s = _
    rw [execDescOverrun, if_pos hrun]
  · change execAddi n s = _
    exact State.instr_illegal hjob hfollow hseq hpc hholds (by rw [hw]; exact hok) _ _

end Sys2Proof.Machine
end

section
/-! Waiting instructions and ISSUE: settles O24 and O25. -/

namespace Sys2Proof.Machine

open Sys2Proof.Claims

/-- Where an instruction's end leads: only PC, the loop stack and the L registers move. -/
theorem Rod.stepFrom_eq (r : Rod) (pc fuel : Nat) : ∃ pc' stack l, r.stepFrom pc fuel = { r with pc := pc', stack := stack, l := l } := by
  induction fuel generalizing r with
  | zero => exact ⟨_, r.stack, r.l, rfl⟩
  | succ fuel ih =>
    rw [Rod.stepFrom]
    split
    next t rest hstack =>
      split
      · split
        · rw [Rod.setL]
          split
          · exact ⟨_, _, r.l, rfl⟩
          · exact ⟨_, _, _, rfl⟩
        · obtain ⟨pc', stack, l, h⟩ := ih { r with stack := rest }
          exact ⟨pc', stack, l, h⟩
      · exact ⟨_, r.stack, r.l, rfl⟩
    · exact ⟨_, r.stack, r.l, rfl⟩

@[simp] theorem Rod.advance_locked (r : Rod) : r.advance.locked = r.locked := by
  obtain ⟨pc, stack, l, h⟩ := r.stepFrom_eq r.pc.toNat 5
  rw [Rod.advance, h]

@[simp] theorem Rod.advance_job (r : Rod) : r.advance.job = r.job := by
  obtain ⟨pc, stack, l, h⟩ := r.stepFrom_eq r.pc.toNat 5
  rw [Rod.advance, h]

@[simp] theorem State.jobRun_updJob (s : State) (j : Nat) (f : JobRun → JobRun) : (s.updJob j f).jobRun j = f (s.jobRun j) := Tab.get_upd_self ..

/-- A comparator without a fault reports what it compares. -/
theorem Upset.reports_none (c : Nat) (differ : Bool) : Upset.reports {} c differ = differ := by
  simp [Upset.reports]

section
variable {n : Fin 64} {w : Nat} {s : State} (h : fetches s n.val w)
include h

/-! ### Going on and waiting -/

theorem State.retire_id_fetched (m : Nat) : s.retire m = s.updRod m Rod.advance := State.retire_fetched h m id

theorem State.instr_goes_on {op : Nat} (hop : fld w 26 6 = op) {k : Nat → State → State} (hk : k w s = s.retire n.val) :
    s.instr n.val op k = .next (s.updRod n.val Rod.advance) :=
  State.instr_retire h hop hk

theorem State.instr_holds {op : Nat} (hop : fld w 26 6 = op) {k : Nat → State → State} {counts : Bool} (hk : k w s = s.hold n.val counts) :
    s.instr n.val op k = .next (s.updRod n.val fun r => { r with seq := .waiting, waitCounts := counts }) :=
  State.instr_quiet h hop hk rfl

theorem exec_wait_goes_on (hop : fld w 26 6 = 0x09) {t : Nat} (ht : s.jobTally n.val w false = some t)
    (hval : atOrLater 32 (s.tly.values.get t).toNat ((s.rod n.val).l_ (fld w 22 4)).toNat = true) :
    exec (.wait n) s = .next (s.updRod n.val Rod.advance) ∧
      ((s.rod n.val).seq = .waiting → exec (.waitSatisfied n) s = .next (s.updRod n.val Rod.advance)) := by
  have hstep : s.waitStep n.val w = s.retire n.val := by
    simp only [State.waitStep, ht, hval, if_true]
  refine ⟨State.instr_goes_on h hop (k := fun w s => s.waitStep n.val w) hstep, fun hseq => ?_⟩
  change execWaitSatisfied n s = _
  rw [execWaitSatisfied, if_pos hseq]
  exact State.instr_goes_on h hop hstep

theorem exec_wait_holds (hop : fld w 26 6 = 0x09) {t : Nat} (ht : s.jobTally n.val w false = some t)
    (hval : atOrLater 32 (s.tly.values.get t).toNat ((s.rod n.val).l_ (fld w 22 4)).toNat = false) :
    exec (.wait n) s = .next (s.updRod n.val fun r => { r with seq := .waiting, waitCounts := true }) := by
  refine State.instr_holds h hop (k := fun w s => s.waitStep n.val w) ?_
  simp only [State.waitStep, ht, hval, Bool.false_eq_true, if_false]

theorem exec_signal_fetched (hop : fld w 26 6 = 0x0A) {t j : Nat} (ht : s.jobTally n.val w true = some t) (hj : (s.rod n.val).job = some j)
    (hidle : (s.rod n.val).unitsIdle (fld w 14 4) = true) {v : Word} (hv : v = if fld w 22 4 = 0 then 1 else (s.rod n.val).l_ (fld w 22 4)) :
    exec (.signal n) s =
      .next (((s.updJob j fun q => { q with signalled := q.signalled.upd t (· + v) }).signalTally t v).updRod n.val Rod.advance) := by
  obtain ⟨-, -, -, -, -, -, -, -, hupset, -, htrace⟩ := id h
  change execSignal n s = _
  refine State.instr_quiet h hop ?_ rfl
  simp only [ht, hidle, Bool.not_true, Bool.false_eq_true, if_false, ← hv,
    show (s.rod n.val).upset = {} from s.upset_of_cells hupset n.val, Upset.reports_none, Bool.or_self, Bool.and_false, hj]
  exact State.retire_off (by exact htrace) n.val id

theorem exec_fence_goes_on (hop : fld w 26 6 = 0x0B) (hidle : (s.rod n.val).unitsIdle (fld w 0 4) = true) :
    exec (.fence n) s = .next (s.updRod n.val Rod.advance) := by
  change execFence n s = _
  exact State.instr_goes_on h hop (if_pos hidle)

theorem exec_fence_holds (hop : fld w 26 6 = 0x0B) (hidle : (s.rod n.val).unitsIdle (fld w 0 4) = false) :
    exec (.fence n) s = .next (s.updRod n.val fun r => { r with seq := .waiting, waitCounts := false }) := by
  change execFence n s = _
  exact State.instr_holds h hop (if_neg (by rw [hidle]; exact Bool.false_ne_true))

/-! ### ALIGN -/

theorem exec_align_fetched (hop : fld w 26 6 = 0x0D) {pl : Plan} (hpl : s.pln.plan = some pl) {t : Nat}
    (ht : ((s.rod n.val).l_ (fld w 22 4) + BitVec.ofNat 32 (fld w 0 22)).toNat = t) (hlen : t < pl.frameTicks) :
    exec (.align n) s = .next (if (s.rod n.val).alignAt = none ∧ t < s.pln.frameTick then s.rodFault n.val 0x0206
      else if t ≤ s.pln.frameTick then s.updRod n.val Rod.advance
      else s.updRod n.val fun r => { r with seq := .waiting, waitCounts := true, alignAt := some t }).settle := by
  change execAlign n s = _
  refine (State.instr_fetched_op h hop _).trans (congrArg (fun u => Host.Outcome.next (State.settle u)) ?_)
  have hhold : (s.hold n.val true).updRod n.val (fun r => { r with alignAt := some t }) =
      s.updRod n.val fun r => { r with seq := .waiting, waitCounts := true, alignAt := some t } :=
    State.updRod_updRod s n.val (fun he => nomatch (congrArg Rod.seq he : SeqState.waiting = SeqState.stopped)) _
  simp only [ht, hpl, Option.map_some, Option.getD_some, Nat.not_le.2 hlen, decide_false, Bool.false_or, Bool.and_eq_true, Option.isNone_iff_eq_none,
    decide_eq_true_eq, State.retire_id_fetched h, hhold]

theorem exec_align_cases (hop : fld w 26 6 = 0x0D) {pl : Plan} (hpl : s.pln.plan = some pl) {t : Nat}
    (ht : ((s.rod n.val).l_ (fld w 22 4) + BitVec.ofNat 32 (fld w 0 22)).toNat = t) (hlen : t < pl.frameTicks) :
    (t = s.pln.frameTick → exec (.align n) s = .next (s.updRod n.val Rod.advance)) ∧
      (s.pln.frameTick < t →
        exec (.align n) s = .next (s.updRod n.val fun r => { r with seq := .waiting, waitCounts := true, alignAt := some t })) ∧
      (t < s.pln.frameTick → exec (.align n) s =
        if (s.rod n.val).alignAt = none then .next (s.rodFault n.val 0x0206).settle else .next (s.updRod n.val Rod.advance)) := by
  obtain ⟨-, -, -, -, -, -, -, -, -, hraised, -⟩ := id h
  have hquiet (f : Rod → Rod) : (s.updRod n.val f).settle = s.updRod n.val f := State.settle_quiet _ hraised
  rw [exec_align_fetched h hop hpl ht hlen]
  refine ⟨fun heq => ?_, fun hlt => ?_, fun hgt => ?_⟩
  · rw [if_neg fun hc => heq.not_lt hc.2, if_pos heq.le, hquiet]
  · rw [if_neg fun hc => hlt.not_gt hc.2, if_neg hlt.not_ge, hquiet]
  · by_cases hat : (s.rod n.val).alignAt = none
    · rw [if_pos ⟨hat, hgt⟩, if_pos hat]
    · rw [if_neg fun hc => hat hc.1, if_pos hgt.le, hquiet, if_neg hat]

/-! ### TILE_END and HALT -/

theorem exec_tileEnd_fetched (hop : fld w 26 6 = 0x0C) {j : Nat} (hj : (s.rod n.val).job = some j) (hidle : (s.rod n.val).unitsIdle 15 = true) :
    exec (.tileEnd n) s = .next ((s.updRod n.val Rod.advance).updRod n.val fun r =>
      { r with tileTicks := 0, seq := if (s.jobRun j).preemptReq then .saving else .ready,
               state := if (s.jobRun j).preemptReq then 3 else r.state }) := by
  obtain ⟨-, -, -, -, -, -, -, -, -, -, htrace⟩ := id h
  change execTileEnd n s = _
  refine State.instr_quiet h hop ?_ rfl
  simp only [hidle, Bool.not_true, Bool.false_eq_true, if_false, hj, State.retire_id_fetched h]
  rw [State.trace_off (s.updRod n.val Rod.advance) htrace]
  rfl

/-- Rod `n` halted in the run of job `j` with EXIT `x`: the end of its segment is marked, and the job knows the rod's EXIT. -/
def State.haltRod (s : State) (n j x : Nat) : State :=
  (((s.updRod n Rod.advance).updRod n fun r => { r with seq := .halted }).updRod n fun r =>
    { r with cnt.closing := some (BitVec.ofNat 16 j, BitVec.ofNat 16 (s.jobRun j).gen.toNat, 1) }).updJob j fun q =>
      { q with exits := q.exits.set n (some x) }

theorem exec_halt_fetched (hop : fld w 26 6 = 0x10) {j : Nat} (hj : (s.rod n.val).job = some j) (hidle : (s.rod n.val).unitsIdle 15 = true)
    {rec_ : JobRec} (hrec : s.jobRec j = some rec_) :
    exec (.halt n) s = .next (if rec_.rods.all fun k => (((s.haltRod n.val j (fld w 0 16)).jobRun j).exits.get k).isSome then
      (s.haltRod n.val j (fld w 0 16)).jobEnd j else s.haltRod n.val j (fld w 0 16)).settle := by
  obtain ⟨-, hfollow, -, -, -, -, -, -, -, -, htrace⟩ := id h
  have hadv : (s.rod n.val).advance.follower n.val = false := by
    rw [Rod.follower, Rod.advance_locked]
    exact hfollow
  have htraceJob : (s.updRod n.val Rod.advance).traceJob n.val j 1 = s.updRod n.val Rod.advance := by
    rw [State.traceJob, State.rod_updRod, hadv, if_neg Bool.false_ne_true]
    exact State.trace_off (s.updRod n.val Rod.advance) htrace ..
  have hend (f : Rod → Rod) (hf : (f (s.rod n.val).advance).follower n.val = false) :
      (((s.updRod n.val Rod.advance).updRod n.val f).endSegment n.val j 1).updJob j (fun q => { q with exits := q.exits.set n.val (some (fld w 0 16)) }) =
        (((s.updRod n.val Rod.advance).updRod n.val f).updRod n.val fun r =>
          { r with cnt.closing := some (BitVec.ofNat 16 j, BitVec.ofNat 16 (s.jobRun j).gen.toNat, 1) }).updJob j
            fun q => { q with exits := q.exits.set n.val (some (fld w 0 16)) } := by
    rw [State.endSegment, State.rod_updRod, State.rod_updRod, hf, if_neg Bool.false_ne_true]
    rfl
  change execHalt n s = _
  refine (State.instr_fetched_op h hop _).trans (congrArg (fun u => Host.Outcome.next (State.settle u)) ?_)
  simp only [hidle, Bool.not_true, Bool.false_eq_true, if_false, hj, State.retire_id_fetched h, htraceJob]
  rw [hend _ hadv]
  have hhalted : (s.haltRod n.val j (fld w 0 16)).jobRec j = some rec_ := hrec
  change (if ((((s.haltRod n.val j (fld w 0 16)).jobRec j).map JobRec.rods).getD []).all
    (fun k => (((s.haltRod n.val j (fld w 0 16)).jobRun j).exits.get k).isSome) then _ else _) = _
  rw [hhalted]
  rfl

theorem exec_halt_not_last (hop : fld w 26 6 = 0x10) {j : Nat} (hj : (s.rod n.val).job = some j) {rec_ : JobRec} (hrec : s.jobRec j = some rec_)
    (hidle : (s.rod n.val).unitsIdle 15 = true) (hruns : ∃ k ∈ rec_.rods, k ≠ n.val ∧ (s.jobRun j).exits.get k = none) :
    exec (.halt n) s = .next (s.haltRod n.val j (fld w 0 16)) := by
  obtain ⟨-, -, -, -, -, -, -, -, -, hraised, -⟩ := id h
  obtain ⟨k, hk, hkn, hexit⟩ := hruns
  have hnone : ((s.haltRod n.val j (fld w 0 16)).jobRun j).exits.get k = none := by
    rw [State.haltRod, State.jobRun_updJob]
    exact (Tab.get_set_ne _ _ hkn).trans hexit
  rw [exec_halt_fetched h hop hj hidle hrec, if_neg, State.settle_quiet (s.haltRod _ _ _) hraised]
  intro hall
  have := List.all_eq_true.1 hall k hk
  rw [hnone] at this
  exact Bool.false_ne_true this

end

theorem State.rod_haltRod_self (s : State) (n j x : Nat) : ((s.haltRod n j x).rod n).seq = .halted ∧
    ((s.haltRod n j x).rod n).job = (s.rod n).job := by
  have hrod : (s.haltRod n j x).rod n = { (s.rod n).advance with
      seq := .halted, cnt.closing := some (BitVec.ofNat 16 j, BitVec.ofNat 16 (s.jobRun j).gen.toNat, 1) } := by
    rw [State.haltRod]
    exact (State.rod_updRod ..).trans (by rw [State.rod_updRod, State.rod_updRod])
  rw [hrod]
  exact ⟨rfl, Rod.advance_job _⟩

/-- Settles O24: each instruction goes on, holds or halts its rod as its own lemma above says. -/
theorem sequencerWaits : Obligations.SequencerWaits := by
  unfold Obligations.SequencerWaits
  intro n w s h
  refine ⟨fun t hop ht hv => exec_wait_goes_on h hop ht hv, fun t hop ht hv => exec_wait_holds h hop ht hv,
    fun t j hop ht hj hidle => ⟨exec_signal_fetched h hop ht hj hidle rfl, rfl⟩, fun hop hidle => exec_fence_goes_on h hop hidle,
    fun hop hidle => exec_fence_holds h hop hidle, fun pl hop hpl => fun hlen => exec_align_cases h hop hpl rfl hlen,
    fun j hop hj hidle => exec_tileEnd_fetched h hop hj hidle, fun j rec_ hop hj hrec hidle hruns => ?_⟩
  obtain ⟨hseq, hjob⟩ := s.rod_haltRod_self n.val j (fld w 0 16)
  exact ⟨_, exec_halt_not_last h hop hj hrec hidle hruns, hseq, hjob.trans hj, rfl, rfl, rfl⟩

end Sys2Proof.Machine
end

section
/-! ISSUE, and loops, branches and the end of a run: settles O25 and O23. -/

namespace Sys2Proof.Machine

open Sys2Proof.Claims

/-! ### ISSUE -/

/-- An issued descriptor at the end of its unit's queue, the rod gone on. -/
def State.queued (s : State) (n : Nat) (i : Issued) : State :=
  (s.count n 18 1).updRod n fun r => { r with units := r.units.upd (unitOf i.op) fun q => { q with queue := q.queue ++ [i] } }.advance

theorem State.count_retire_queue {s : State} {n : Nat} (hfollow : (s.rod n).follower n = false) (htrace : s.trc.state = .off) (i : Issued) :
    (s.count n 18 1).retire n (fun r => { r with units := r.units.upd (unitOf i.op) fun q => { q with queue := q.queue ++ [i] } }) = s.queued n i := by
  rw [State.queued, State.count_eq one_ne_zero hfollow]
  exact State.retire_off (by exact htrace) ..

section
variable {n : Fin 64} {w : Nat} {s : State} (h : fetches s n.val w)
include h

/-- ISSUE of a well-formed descriptor for a unit with room queues it, once a SCAN has claimed its stream. -/
theorem State.instr_issueStep (hop : fld w 26 6 = 0x01) {off d : Nat}
    (hoff : (s.rod n.val).descBase.toNat + (((s.rod n.val).l_ (fld w 22 4)).toNat + fld w 0 14) * 128 = off)
    (hd : s.rdN (spadAddr n.val off) 128 = d) (hrange : s.inJobRange n.val off 128 = true) (hlow : 1 ≤ fld d 0 8) (hhigh : fld d 0 8 ≤ 0x0B)
    (hticks : fld d 32 32 ≠ 0) (halign : off % 128 = 0) (hroom : ((s.rod n.val).units.get (unitOf (fld d 0 8))).queue.length < 4) {u : State}
    (hclaim : (if fld d 0 8 = 0x09 then s.scanClaim n.val (fld d 784 12) else (none, s)) = (none, u)) (hrods : u.rods = s.rods)
    (htrc : u.trc = s.trc) (hsaf : u.saf = s.saf) :
    s.instr n.val 0x01 (fun w s => s.issueStep n.val w) = .next (u.queued n.val
      { op := fld d 0 8, ticks := fld d 32 32, off := off, la := ((s.rod n.val).l_ (fld w 18 4)).toInt,
        lc := ((s.rod n.val).l_ (fld w 14 4)).toInt }) := by
  obtain ⟨-, hfollow, -, -, -, -, -, -, -, -, htrace⟩ := id h
  have hrod : u.rod n.val = s.rod n.val := congrArg (Tab.get · n.val) hrods
  have hgood : ¬ (decide (fld d 0 8 = 0) || decide (0x0B < fld d 0 8) || decide (fld d 32 32 = 0) || off % 128 != 0) = true := by
    simp only [Bool.or_eq_true, decide_eq_true_eq, bne_iff_ne]
    omega
  have hread : leNat (s.rd (spadAddr n.val off) 128) = d := hd
  refine State.instr_quiet h hop ?_ ?_
  · simp only [State.issueStep, hoff, hrange, Bool.not_true, Bool.false_eq_true, if_false, State.spadRead_fetched h, hread, hgood,
      Nat.not_le.2 hroom, hclaim]
    symm
    exact (State.count_retire_queue (by rw [hrod]; exact hfollow) (by rw [htrc]; exact htrace) _).symm
  · rw [State.queued, State.count_eq one_ne_zero (by rw [hrod]; exact hfollow)]
    exact congrArg Saf.raised hsaf

end

theorem State.scanClaim_resident {s : State} {n stream j : Nat} (hj : (s.rod n).job = some j) (hopen : (s.stream stream).isOpen = true)
    (hpart : (s.stream stream).part = s.jobPart j) (hres : (s.stream stream).resident = true) (hin : (s.stream stream).motion ≠ 1)
    (hout : (s.stream stream).motion ≠ 2) (hrod : (s.stream stream).rod = n) :
    s.scanClaim n stream = (none, s.updStream stream fun t => { t with executing := true, job := some j }) := by
  have hin' : ¬ (s.stream stream).motion = 1#2 := hin
  have hout' : ¬ (s.stream stream).motion = 2#2 := hout
  simp [State.scanClaim, hj, hopen, hpart, hres, hin', hout', hrod]

/-- Settles O25: ISSUE comes to its queue, and a SCAN's claim of a resident stream marks it. -/
theorem issueQueuesTheDescriptor : Obligations.IssueQueuesTheDescriptor := by
  unfold Obligations.IssueQueuesTheDescriptor
  intro n w s h hop
  extract_lets r off d op i queued t
  intro hrange hlow hhigh hticks halign hroom
  have hissue {u : State} := State.instr_issueStep h hop rfl rfl hrange hlow hhigh hticks halign hroom (u := u)
  refine ⟨fun hscan => hissue (if_neg hscan) rfl rfl rfl, fun j hscan hj => ?_⟩
  intro hopen hpart hres hin hout hrod u
  have hclaim : (if op = 9 then s.scanClaim n.val (fld d 784 12) else (none, s)) = _ :=
    (if_pos hscan).trans (State.scanClaim_resident hj hopen hpart hres hin hout hrod)
  refine ⟨hissue hclaim rfl rfl rfl, fun hseq => ?_⟩
  change execScanIssueResume n s = _
  rw [execScanIssueResume, if_pos hseq]
  exact hissue hclaim rfl rfl rfl

end Sys2Proof.Machine
end

section
/-! Reading of code lines: what a sequencer holds once it has read them (R94). -/

namespace Sys2Proof.Machine

/-! ### Reading parts of memory -/

theorem Memory.read_drop (m : Memory) (a n d : Nat) : (Memory.read m a n).drop d = Memory.read m (a + d) (n - d) := by
  induction n generalizing a d with
  | zero => simp [Memory.read]
  | succ n ih =>
    cases d with
    | zero => rfl
    | succ d => rw [Memory.read, List.drop_succ_cons, ih, Nat.add_sub_add_right, Nat.add_right_comm a 1 d, Nat.add_assoc]

theorem Memory.read_take (m : Memory) (a n k : Nat) : (Memory.read m a n).take k = Memory.read m a (min k n) := by
  induction n generalizing a k with
  | zero => simp [Memory.read]
  | succ n ih =>
    cases k with
    | zero => simp [Memory.read]
    | succ k => rw [Memory.read, List.take_succ_cons, ih, Nat.add_min_add_right, Memory.read]

/-! ### What reading leaves alone -/

/-- From `s` to `t` no byte of memory changes, and of the rods only what counts: corrections and operations. -/
structure ReadsOnly (s t : State) : Prop where
  mem : t.mem = s.mem
  rod : ∀ n, ∃ ce cnt, t.rod n = { s.rod n with ceCount := ce, cnt := cnt }

variable {s t u : State}

theorem ReadsOnly.refl (s : State) : ReadsOnly s s := ⟨rfl, fun n => ⟨(s.rod n).ceCount, (s.rod n).cnt, rfl⟩⟩

theorem ReadsOnly.trans (h : ReadsOnly s t) (k : ReadsOnly t u) : ReadsOnly s u := by
  refine ⟨k.mem.trans h.mem, fun n => ?_⟩
  obtain ⟨ce, cnt, ht⟩ := h.rod n
  obtain ⟨ce', cnt', hu⟩ := k.rod n
  exact ⟨ce', cnt', by rw [hu, ht]⟩

theorem ReadsOnly.codeBase (h : ReadsOnly s t) (n : Nat) : (t.rod n).codeBase = (s.rod n).codeBase := by
  obtain ⟨ce, cnt, hrod⟩ := h.rod n
  rw [hrod]

/-- A change of one rod's counts is one that reading may make. -/
theorem ReadsOnly.updRod (s : State) (k : Nat) {f : Rod → Rod} (hf : ∀ r, ∃ ce cnt, f r = { r with ceCount := ce, cnt := cnt }) :
    ReadsOnly s (s.updRod k f) := by
  refine ⟨rfl, fun n => ?_⟩
  by_cases hn : n = k
  · rw [hn, State.rod_updRod]
    exact hf _
  · rw [State.rod_updRod_ne s f hn]
    exact ⟨_, _, rfl⟩

theorem ReadsOnly.foldl {α : Type} {f : State → α → State} (hf : ∀ x t, ReadsOnly t (f t x)) (l : List α) (s : State) : ReadsOnly s (l.foldl f s) := by
  induction l generalizing s with
  | nil => exact .refl s
  | cons x l ih => exact (hf x s).trans (ih _)

theorem State.noteRead_readsOnly (s : State) (a n : Nat) : ReadsOnly s (s.noteRead a n) := by
  refine ReadsOnly.foldl (fun c t => ?_) _ s
  dsimp only
  split
  · exact ReadsOnly.updRod t _ fun r => ⟨_, _, rfl⟩
  · split <;> exact ⟨rfl, (ReadsOnly.refl t).rod⟩

theorem State.noteBoth_readsOnly (s : State) (a n : Nat) : ReadsOnly s (s.noteBoth a n) := by
  unfold State.noteBoth
  dsimp only
  split
  · exact (State.noteRead_readsOnly ..).trans (State.noteRead_readsOnly ..)
  · exact State.noteRead_readsOnly ..

theorem State.count_readsOnly (s : State) (n k v : Nat) : ReadsOnly s (s.count n k v) := by
  unfold State.count
  split
  · exact .refl s
  · exact ReadsOnly.updRod s n fun r => ⟨_, _, rfl⟩

/-- A scratchpad read that succeeds answers what the memory holds. -/
theorem State.spadRead_some {n off len : Nat} {bs : List Byte} (h : s.spadRead n off len = (some bs, t)) :
    bs = s.rd (spadAddr n off) len ∧ ReadsOnly s t := by
  unfold State.spadRead at h
  dsimp only at h
  split at h
  · exact nomatch congrArg Prod.fst h
  · split at h
    · exact nomatch congrArg Prod.fst h
    · obtain ⟨hbs, ht⟩ := Prod.mk.inj h
      exact ⟨(Option.some.inj hbs).symm, ht ▸ State.noteBoth_readsOnly ..⟩

/-! ### Code lines -/

/-- `State.spadRead` by another name, which the elaborator does not unfold. -/
theorem exists_spadRead_some :
    ∃ read : State → Nat → Nat → Nat → Option (List Byte) × State,
      read = State.spadRead ∧ ∀ s n off len bs t, read s n off len = (some bs, t) → bs = s.rd (spadAddr n off) len ∧ ReadsOnly s t :=
  ⟨_, rfl, fun _ _ _ _ _ _ => State.spadRead_some⟩

/-- The lines read are the lines asked for, each with the bytes that the scratchpad holds. -/
theorem State.readLines_some {n : Nat} {ls : List Nat} {new : List (Nat × List Byte)} (h : s.readLines n ls = (some new, t)) :
    new = ls.map (fun l => (l, s.rd (spadAddr n ((s.rod n).codeBase + 64 * l)) 64)) ∧ ReadsOnly s t := by
  obtain ⟨read, hread, hsome⟩ := exists_spadRead_some
  revert h
  delta State.readLines State.readLines._f
  rw [← hread]
  induction ls generalizing s t new with
  | nil =>
    intro h
    obtain ⟨hnew, rfl⟩ := Prod.mk.inj h
    exact ⟨(Option.some.inj hnew).symm, .refl s⟩
  | cons l ls ih =>
    dsimp only [List.brecOn, List.brecOn.go] at ih ⊢
    split
    next => exact fun h => nomatch congrArg Prod.fst h
    next bs v hv =>
      obtain ⟨hbs, hv⟩ := hsome _ _ _ _ _ _ hv
      have hcount := hv.trans (v.count_readsOnly n 18 1)
      split
      next rest w hw =>
        intro h
        obtain ⟨hmap, hw⟩ := ih hw
        obtain ⟨hnew, rfl⟩ := Prod.mk.inj h
        refine ⟨(Option.some.inj hnew).symm.trans ?_, hcount.trans hw⟩
        simp only [hmap, hbs, List.map_cons, hcount.codeBase, State.rd, hcount.mem]
      next => exact fun h => nomatch congrArg Prod.fst h

theorem Rod.mem_codeWant {r : Rod} (h : r.pc.toNat < r.codeLen) : Rod.lineOf r.pc.toNat ∈ r.codeWant := by
  simp only [Rod.codeWant, List.mem_filter, List.mem_eraseDups, List.mem_append, List.mem_map, List.mem_range, decide_eq_true_eq]
  refine ⟨.inl ⟨0, by decide, Nat.zero_add _⟩, ?_⟩
  unfold Rod.lineOf
  omega

/-- What a sequencer holds after it has read what it wants: of the lines held before and those read now the ones it wants. -/
theorem State.holdCode_true {n : Nat} (h : s.holdCode n = (true, t)) :
    t.mem = s.mem ∧ ∃ ce cnt, t.rod n = { s.rod n with ceCount := ce, cnt := cnt, code := (t.rod n).code } ∧
      ((s.rod n).holds (s.rod n).codeWant = false → (t.rod n).code = ((s.rod n).code ++
        (((s.rod n).codeWant.filter fun l => !(s.rod n).code.any fun c => c.1 == l).map fun l =>
          (l, s.rd (spadAddr n ((s.rod n).codeBase + 64 * l)) 64))).filter fun c => (s.rod n).codeWant.contains c.1) ∧
      ((s.rod n).holds (s.rod n).codeWant = true → t = s) := by
  unfold State.holdCode at h
  dsimp only at h
  split at h
  next hholds =>
    obtain ⟨-, rfl⟩ := Prod.mk.inj h
    exact ⟨rfl, _, _, rfl, fun hno => absurd hholds (by rw [hno]; exact Bool.false_ne_true), fun _ => rfl⟩
  next hholds =>
    split at h
    · exact nomatch congrArg Prod.fst h
    next new v hread =>
      obtain ⟨-, rfl⟩ := Prod.mk.inj h
      obtain ⟨hnew, hv⟩ := State.readLines_some hread
      obtain ⟨ce, cnt, hrod⟩ := hv.rod n
      refine ⟨hv.mem, ce, cnt, ?_, fun _ => ?_, fun hyes => absurd hyes hholds⟩
      · rw [State.rod_updRod, hrod]
      · rw [State.rod_updRod, hrod, hnew]

end Sys2Proof.Machine
end

section
/-! Loops, branches and the end of a run: settles O23. -/

namespace Sys2Proof.Machine

open Sys2Proof.Claims

/-! ### The end of an instruction -/

theorem BitVec.ofNat_toNat_add_one (x : BitVec 16) : BitVec.ofNat 16 (x.toNat + 1) = x + 1 := by
  apply BitVec.eq_of_toNat_eq
  simp

theorem Rod.advance_outside {r : Rod} (h : r.stack = [] ∨ ∃ t rest, r.stack = t :: rest ∧ t.last ≠ r.pc) :
    r.advance = { r with pc := r.pc + 1, prevPc := r.pc, seq := .ready, alignAt := none } := by
  rw [Rod.advance, Rod.stepFrom]
  rcases h with h | ⟨t, rest, h, hlast⟩
  · simp only [h, BitVec.ofNat_toNat_add_one]
  · have hne : ¬ t.last.toNat = r.pc.toNat := fun e => hlast (BitVec.eq_of_toNat_eq e)
    simp only [h, hne, if_false, BitVec.ofNat_toNat_add_one]

theorem Rod.advance_next_iteration {r : Rod} {t : LoopLvl} {rest : List LoopLvl} (h : r.stack = t :: rest) (hlast : t.last = r.pc)
    (hmore : t.next < t.count) :
    r.advance = { ({ r with pc := t.first, stack := { t with next := t.next + 1 } :: rest }.setL t.li.toNat t.next) with
      prevPc := r.pc, seq := .ready, alignAt := none } := by
  rw [Rod.advance, Rod.stepFrom]
  simp only [h, hlast, hmore, if_true]

theorem Rod.advance_loop_end {r : Rod} {t : LoopLvl} (h : r.stack = [t]) (hlast : t.last = r.pc) (hdone : ¬ t.next < t.count) :
    r.advance = { r with pc := r.pc + 1, stack := [], prevPc := r.pc, seq := .ready, alignAt := none } := by
  rw [Rod.advance, Rod.stepFrom]
  simp only [h, hlast, hdone, if_true, if_false, Rod.stepFrom, BitVec.ofNat_toNat_add_one]

/-! ### Fetching -/

theorem State.instr_of_holdCode {n op : Nat} {k : Nat → State → State} {s t : State} (hjob : (s.rod n).job.isSome = true)
    (hfollow : (s.rod n).follower n = false) (hseq : (s.rod n).seq = .ready ∨ (s.rod n).seq = .waiting)
    (hpc : (s.rod n).pc.toNat < (s.rod n).codeLen) (hcode : s.holdCode n = (true, t)) (hok : instrOk (t.rod n).codeWord = true)
    (hop : fld (t.rod n).codeWord 26 6 = op) : s.instr n op k = .next (k (t.rod n).codeWord t).settle := by
  obtain ⟨j, hj⟩ := Option.isSome_iff_exists.1 hjob
  have hfree : ¬ ((s.rod n).job.isNone || (s.rod n).follower n || !((s.rod n).seq == .ready || (s.rod n).seq == .waiting)) = true := by
    rcases hseq with hs | hs <;> simp [hfollow, hj, hs]
  simp only [State.instr, hfree, if_false, Nat.not_le.2 hpc, hcode, hok, Bool.not_true, Bool.false_eq_true, hop, if_true]

theorem find?_map_graph {β : Type} (f : Nat → β) {ls : List Nat} {l : Nat} (h : l ∈ ls) :
    (ls.map fun k => (k, f k)).find? (fun c => c.1 == l) = some (l, f l) := by
  induction ls with
  | nil => exact nomatch h
  | cons k ls ih =>
    by_cases hk : k = l
    · simp [hk]
    · simpa [hk] using ih ((List.mem_cons.1 h).resolve_left (Ne.symm hk))

/-- From an empty code store, the word is the one that stands in the scratchpad. -/
theorem State.codeWord_of_holdCode {n : Nat} {s t : State} (hpc : (s.rod n).pc.toNat < (s.rod n).codeLen) (hcode : s.holdCode n = (true, t))
    (hempty : (s.rod n).code = []) : (t.rod n).codeWord = s.rdN (spadAddr n ((s.rod n).codeBase + 4 * (s.rod n).pc.toNat)) 4 := by
  have hwant := Rod.mem_codeWant hpc
  obtain ⟨-, ce, cnt, hrod, hread, -⟩ := State.holdCode_true hcode
  have hnone : (s.rod n).holds (s.rod n).codeWant = false := by
    rw [Rod.holds, hempty, List.all_eq_false]
    exact ⟨_, hwant, by simp⟩
  have hlines : (t.rod n).code = (s.rod n).codeWant.map fun l => (l, s.rd (spadAddr n ((s.rod n).codeBase + 64 * l)) 64) := by
    rw [hread hnone, hempty]
    simp only [List.any_nil, Bool.not_false, List.filter_true, List.nil_append]
    refine List.filter_eq_self.2 fun c hc => ?_
    obtain ⟨l, hl, rfl⟩ := List.mem_map.1 hc
    simpa using hl
  have hpc' : (t.rod n).pc = (s.rod n).pc := by rw [hrod]
  have haddr : spadAddr n ((s.rod n).codeBase + 64 * Rod.lineOf (s.rod n).pc.toNat) + 4 * ((s.rod n).pc.toNat % 16) =
      spadAddr n ((s.rod n).codeBase + 4 * (s.rod n).pc.toNat) := by
    unfold spadAddr Rod.lineOf
    omega
  have hfour : min 4 (64 - 4 * ((s.rod n).pc.toNat % 16)) = 4 := by omega
  rw [Rod.codeWord, hpc', hlines, find?_map_graph _ hwant]
  dsimp only
  rw [State.rd, Memory.read_drop, Memory.read_take, haddr, hfour, State.rdN]

/-! ### Loops and branches -/

/-- A rod that enters a loop of `body` instructions for `count` iterations, `L[li]` the iteration's number (R101). -/
def Rod.enterLoop (r : Rod) (li body : Nat) (count : Word) : Rod :=
  { ({ r with stack := { first := BitVec.ofNat 16 (r.pc.toNat + 1), last := BitVec.ofNat 16 (r.pc.toNat + body), count := count, next := 1,
                         li := BitVec.ofNat 4 li } :: r.stack }.setL li 0) with
    pc := BitVec.ofNat 16 (r.pc.toNat + 1), prevPc := r.pc, seq := .ready }

/-- A rod that passes a loop's body of `body` instructions by (R101). -/
def Rod.skipLoop (r : Rod) (body : Nat) : Rod := { r.stepFrom (r.pc.toNat + body) 5 with prevPc := r.pc, seq := .ready }

/-- A loop that fits the loop stack and the body of the loop around it is entered or, with no iterations, skipped. -/
theorem State.startLoop_fits {s : State} {n li body : Nat} {count : Word} (hdepth : (s.rod n).stack.length < 4)
    (hin : ∀ t rest, (s.rod n).stack = t :: rest → (s.rod n).pc.toNat + body ≤ t.last.toNat) :
    s.startLoop n li body count =
      (s.traceInstr n).updRod n fun r => if count = 0 then
        { r.stepFrom ((s.rod n).pc.toNat + body) 5 with prevPc := r.pc, seq := .ready }
      else
        { ({ r with stack := { first := BitVec.ofNat 16 ((s.rod n).pc.toNat + 1), last := BitVec.ofNat 16 ((s.rod n).pc.toNat + body),
                               count := count, next := 1, li := BitVec.ofNat 4 li } :: r.stack }.setL li 0) with
          pc := BitVec.ofNat 16 ((s.rod n).pc.toNat + 1), prevPc := r.pc, seq := .ready } := by
  unfold State.startLoop
  extract_lets r pc last deep past
  have hdeep : deep = false := decide_eq_false (Nat.not_le.2 hdepth)
  have hpast : past = false := by
    unfold past
    split
    next t rest hstack => exact decide_eq_false (Nat.not_lt.2 (hin t rest hstack))
    · rfl
  rw [hdeep, hpast]
  by_cases hc : count = 0
  · simp only [hc, if_true]
    rfl
  · simp only [hc, if_false]
    rfl

section
variable {n : Fin 64} {w : Nat} {s : State} (h : fetches s n.val w)
include h

/-- A loop or branch changes its rod alone. -/
theorem State.instr_moves {op : Nat} (hop : fld w 26 6 = op) {k : Nat → State → State} {f : Rod → Rod}
    (hk : k w s = (s.traceInstr n.val).updRod n.val f) : s.instr n.val op k = .next (s.updRod n.val f) := by
  obtain ⟨-, -, -, -, -, -, -, -, -, -, htrace⟩ := id h
  exact State.instr_quiet h hop (hk.trans (by rw [State.traceInstr_off s htrace])) rfl

/-- LOOP and LOOPI, of a count that its own command reads. -/
theorem State.instr_startLoop {op : Nat} (hop : fld w 26 6 = op) {li body : Nat} {count : Word} {k : Nat → State → State}
    (hk : k w s = s.startLoop n.val li body count) (hdepth : (s.rod n.val).stack.length < 4)
    (hin : ∀ t rest, (s.rod n.val).stack = t :: rest → (s.rod n.val).pc.toNat + body ≤ t.last.toNat) :
    s.instr n.val op k = .next (s.updRod n.val fun r => if count = 0 then r.skipLoop body else r.enterLoop li body count) := by
  rw [State.instr_moves h hop (hk.trans (State.startLoop_fits hdepth hin))]
  refine congrArg _ (State.updRod_congr _ _ ?_)
  dsimp only
  split <;> rfl

theorem exec_br_not_taken (hop : fld w 26 6 = 0x08)
    (hcond : brCond (fld w 15 3) ((s.rod n.val).l_ (fld w 22 4)) ((s.rod n.val).l_ (fld w 18 4)) = false) :
    exec (.br n) s = .next (s.updRod n.val Rod.advance) := by
  change execBr n s = _
  exact State.instr_goes_on h hop (if_neg (by rw [hcond]; exact Bool.false_ne_true))

theorem exec_br_taken (hop : fld w 26 6 = 0x08)
    (hcond : brCond (fld w 15 3) ((s.rod n.val).l_ (fld w 22 4)) ((s.rod n.val).l_ (fld w 18 4)) = true) {t : Int}
    (ht : ((s.rod n.val).pc.toNat : Int) + sgn 15 (fld w 0 15) = t)
    (hin : ∀ q rest, (s.rod n.val).stack = q :: rest → (q.first.toNat : Int) ≤ t ∧ t ≤ q.last.toNat) :
    exec (.br n) s = .next (s.updRod n.val fun r => { r with pc := BitVec.ofInt 16 t, prevPc := r.pc, seq := .ready }) := by
  change execBr n s = _
  refine State.instr_moves h hop ?_
  simp only [hcond, if_true, ht]
  split
  next q rest hstack =>
    obtain ⟨hfirst, hlast⟩ := hin q rest hstack
    simp [hfirst, hlast]
  · rfl

end

/-! ### The end of a run -/

/-- From `s` to `t` only the rods change, and none of them changes its job. -/
structure KeepsJobs (s t : State) : Prop where
  rods : ∃ rods, t = { s with rods := rods }
  job : ∀ k, (t.rod k).job = (s.rod k).job

namespace KeepsJobs

variable {s t u : State}

theorem refl (s : State) : KeepsJobs s s := ⟨⟨s.rods, rfl⟩, fun _ => rfl⟩

theorem trans (h : KeepsJobs s t) (k : KeepsJobs t u) : KeepsJobs s u := by
  obtain ⟨⟨_, rfl⟩, hj⟩ := h
  obtain ⟨⟨_, rfl⟩, kj⟩ := k
  exact ⟨⟨_, rfl⟩, fun m => (kj m).trans (hj m)⟩

theorem updRod (h : KeepsJobs s t) (n : Nat) {f : Rod → Rod} (hf : ∀ r, (f r).job = r.job) : KeepsJobs s (t.updRod n f) := by
  refine h.trans ⟨⟨_, rfl⟩, fun k => ?_⟩
  by_cases hk : k = n
  · rw [hk, State.rod_updRod, hf]
  · rw [State.rod_updRod_ne t f hk]

theorem beginHandover (h : KeepsJobs s t) (k st : Nat) : KeepsJobs s (t.beginHandover k st) := by
  unfold State.beginHandover
  refine updRod ?_ _ fun _ => rfl
  split
  all_goals
    refine (h.updRod _ ?_).updRod _ ?_
    all_goals exact fun _ => rfl

theorem pairNext (s : State) (k : Nat) : KeepsJobs s (s.pairNext k) := by
  unfold State.pairNext
  dsimp only
  split
  · exact refl s
  · split
    · refine ((refl s).updRod _ ?_).beginHandover ..
      exact fun _ => rfl
    · split
      · exact (refl s).beginHandover ..
      · split
        · exact (refl s).beginHandover ..
        · exact refl s

theorem foldl {α : Type} {f : State → α → State} (hf : ∀ x t, KeepsJobs t (f t x)) (l : List α) (s : State) : KeepsJobs s (l.foldl f s) := by
  induction l generalizing s with
  | nil => exact refl s
  | cons x l ih => exact (hf x s).trans (ih _)

end KeepsJobs

theorem State.freeRods_job (s : State) (j k : Nat) : ((s.freeRods j).rod k).job ≠ some j := by
  refine Tab.get_of_forall (P := fun r : Rod => r.job ≠ some j) (Option.some_ne_none j).symm (fun c hc => ?_) k
  obtain ⟨hc, -⟩ := List.mem_filter.1 hc
  obtain ⟨d, -, rfl⟩ := List.mem_map.1 hc
  dsimp only
  split
  · exact fun h => nomatch h
  next h => exact h

/-- A completion that is recorded: an event, and the job's own record. -/
theorem State.complete_eq (s : State) (j status : Nat) : ∃ v f, Posts s v ∧ s.complete j status = v.updJob j f ∧
    ∀ q, (f q).runs = (if status = 0 then q.runs + 1 else q.runs) ∧ (f q).lastStatus = BitVec.ofNat 16 status := by
  unfold State.complete
  exact ⟨_, _, State.event_posts .., rfl, fun q => ⟨rfl, rfl⟩⟩

/-- The end of a run whose plan has no watchdogs: the job's record, completed and idle, and no rod with the job any more. -/
theorem State.jobEnd_spec {s : State} {j : Nat} {pl : Plan} (hplan : s.pln.plan = some pl) (hdogs : pl.watchdogs = []) :
    ((s.jobEnd j).jobRun j).state = .idle ∧ ((s.jobEnd j).jobRun j).runs = (s.jobRun j).runs + 1 ∧ ((s.jobEnd j).jobRun j).lastStatus = 0 ∧
      (∀ k, ((s.jobEnd j).rod k).job ≠ some j) ∧ (s.jobEnd j).saf = s.saf := by
  obtain ⟨v, f, hv, hcomplete, hf⟩ := ((s.commitCarries j).freeRods j).complete_eq j 0
  obtain ⟨hv, -⟩ := hv
  have hpln : v.pln = s.pln := by rw [hv]; rfl
  have hrods (k : Nat) : (v.rod k).job ≠ some j := by
    rw [hv]
    exact (s.commitCarries j).freeRods_job j k
  have hsaf : v.saf = s.saf := by rw [hv]; rfl
  have hdogs' : (v.pln.plan.map Plan.watchdogs).getD [] = [] := by rw [hpln, hplan]; exact hdogs
  unfold State.jobEnd
  rw [hcomplete]
  extract_lets q rods c w took u
  have hu : u = w := by
    change List.foldl _ w ((v.pln.plan.map Plan.watchdogs).getD []) = w
    rw [hdogs', List.foldl_nil]
  obtain ⟨⟨r, hr⟩, hjob⟩ := KeepsJobs.foldl (f := fun s n => State.pairNext s (n / 2)) (fun n t => KeepsJobs.pairNext t (n / 2)) rods u
  have hrun : ((rods.foldl (fun s n => State.pairNext s (n / 2)) u).jobRun j) =
      { f (s.jobRun j) with state := .idle, preemptReq := false, signalled := {} } := by
    rw [hr, hu]
    change ((v.updJob j f).updJob j _).jobRun j = _
    rw [State.jobRun_updJob, State.jobRun_updJob, State.jobRun, hpln]
    rfl
  obtain ⟨hruns, hstatus⟩ := hf (s.jobRun j)
  rw [hrun]
  refine ⟨rfl, hruns, hstatus, fun k => ?_, ?_⟩
  · rw [hjob, hu]
    exact hrods k
  · rw [hr, hu]
    exact hsaf

/-- The HALT of the last rod of a run ends the run. -/
theorem exec_halt_last {n : Fin 64} {w j : Nat} {rec_ : JobRec} {pl : Plan} {s : State} (h : fetches s n.val w) (hop : fld w 26 6 = 0x10)
    (hj : (s.rod n.val).job = some j) (hrec : s.jobRec j = some rec_) (hidle : (s.rod n.val).unitsIdle 15 = true) (hplan : s.pln.plan = some pl)
    (hdogs : pl.watchdogs = []) (hexits : ∀ k ∈ rec_.rods, k ≠ n.val → (s.jobRun j).exits.get k ≠ none) :
    exec (.halt n) s = .next ((s.haltRod n.val j (fld w 0 16)).jobEnd j) := by
  obtain ⟨-, -, -, -, -, -, -, -, -, hraised, -⟩ := id h
  obtain ⟨-, -, -, -, hsaf⟩ := State.jobEnd_spec (s := s.haltRod n.val j (fld w 0 16)) (j := j) hplan hdogs
  rw [exec_halt_fetched h hop hj hidle hrec, if_pos, State.settle_quiet _ ((congrArg Saf.raised hsaf).trans hraised)]
  refine List.all_eq_true.2 fun k hk => ?_
  rw [State.haltRod, State.jobRun_updJob]
  by_cases hkn : k = n.val
  · rw [hkn, Tab.get_set_self]
    rfl
  · rw [Tab.get_set_ne _ _ hkn]
    exact Option.isSome_iff_ne_none.2 (hexits k hk hkn)

theorem ofNat_fld_eq_zero_iff (w b : Nat) {k : Nat} (hk : k < 32) : BitVec.ofNat 32 (fld w b k) = 0 ↔ fld w b k = 0 := by
  have hlt : fld w b k < 2 ^ 32 := (Nat.mod_lt _ (by positivity)).trans (Nat.pow_lt_pow_right (by decide) hk)
  rw [← BitVec.toNat_inj, BitVec.toNat_ofNat, Nat.mod_eq_of_lt hlt]
  rfl

/-- Settles O23: the equations of `Rod.advance`, LOOP, LOOPI and BR, and the end of a run. -/
theorem sequencerFlow : Obligations.SequencerFlow := by
  unfold Obligations.SequencerFlow
  refine ⟨⟨fun r h => Rod.advance_outside h, fun n op k s t hjob hfollow hseq hpc hcode hok hop =>
      ⟨State.instr_of_holdCode hjob hfollow hseq hpc hcode hok hop, fun hempty => State.codeWord_of_holdCode hpc hcode hempty⟩,
    fun r t rest h hlast hmore => Rod.advance_next_iteration h hlast hmore, fun r t h hlast hdone => Rod.advance_loop_end h hlast hdone,
    fun n w s h => ?_⟩, fun n w j rec_ pl s h hop hj hrec hidle hplan hdogs hexits => ?_⟩
  · extract_lets r last fits entered skipped
    have hrod {f g : Rod → Rod} (hfg : f r = g r) : (Host.Outcome.next (s.updRod n.val f) : Out) = .next (s.updRod n.val g) :=
      congrArg _ (State.updRod_congr s n.val hfg)
    have hloop (hf : fits) (hop : fld w 26 6 = 0x02) : exec (.loop n) s = .next (s.updRod n.val fun q =>
        if r.l_ (fld w 18 4) = 0 then q.skipLoop (fld w 0 12) else q.enterLoop (fld w 22 4) (fld w 0 12) (r.l_ (fld w 18 4))) := by
      obtain ⟨hdepth, hin⟩ := hf
      change execLoop n s = _
      exact State.instr_startLoop h hop rfl hdepth hin
    have hloopi (hf : fits) (hop : fld w 26 6 = 0x03) : exec (.loopi n) s = .next (s.updRod n.val fun q =>
        if BitVec.ofNat 32 (fld w 12 10) = 0 then q.skipLoop (fld w 0 12)
        else q.enterLoop (fld w 22 4) (fld w 0 12) (BitVec.ofNat 32 (fld w 12 10))) := by
      obtain ⟨hdepth, hin⟩ := hf
      change execLoopi n s = _
      exact State.instr_startLoop h hop rfl hdepth hin
    exact ⟨fun hop hf hc => (hloop hf hop).trans (hrod (if_neg hc)), fun hop hf hc => (hloop hf hop).trans (hrod (if_pos hc)),
      fun hop hf hc => (hloopi hf hop).trans (hrod (if_neg (mt (ofNat_fld_eq_zero_iff w 12 (by decide)).1 hc))),
      fun hop hf hc => (hloopi hf hop).trans (hrod (if_pos ((ofNat_fld_eq_zero_iff w 12 (by decide)).2 hc))),
      fun hop hcond => exec_br_not_taken h hop hcond, fun hop hcond => fun hin => exec_br_taken h hop hcond rfl hin⟩
  · obtain ⟨hstate, hruns, hstatus, hjob, -⟩ := State.jobEnd_spec (s := s.haltRod n.val j (fld w 0 16)) (j := j) hplan hdogs
    refine ⟨_, exec_halt_last h hop hj hrec hidle hplan hdogs hexits, hstate, hruns.trans ?_, hstatus, hjob⟩
    rw [State.haltRod, State.jobRun_updJob]
    rfl

end Sys2Proof.Machine
end

section
/-! Tallies: settles O13 and O14. -/

namespace Sys2Proof.Machine

open Sys2Proof.Claims

/-! ### What a command's answer comes to: the reply later, and the fast path -/

theorem firmware_later {s : State} (hsup : s.saf.supHalted = false) (h : Hdr) (s' : State) : firmware h s (.later s') = .next s' := by
  simp [firmware, finish, hsup]

theorem fastPath_later (s : State) (h : Hdr) (s' : State) : fastPath h s (.later s') = .next s' := by
  simp [fastPath, finish]

theorem fastPath_ok (s : State) (h : Hdr) (s' : State) {r : Rep} (hext : r.ext = none) : fastPath h s (.ok s' r) = .next (s'.reply h r) := by
  simp [fastPath, finish, hext]

/-! ### Changes of one tick (R279) -/

theorem foldl_last_value (l : List TallyOp) (v : Word) : l.foldl (fun _ o => o.value) v = (l.getLast?.map TallyOp.value).getD v := by
  induction l using List.reverseRecOn with
  | nil => rfl
  | append_singleton l o _ => simp

theorem foldl_add_value (l : List TallyOp) (v : Word) : l.foldl (fun v o => v + o.value) v = v + (l.map TallyOp.value).sum := by
  induction l generalizing v with
  | nil => simp
  | cons o l ih => simp only [List.foldl_cons, ih, List.map_cons, List.sum_cons]; ring

theorem applyOps_eq (v : Word) (ops : List TallyOp) :
    applyOps v ops = ((((ops.filter TallyOp.isSet).insertionSort fun a b => a.src ≤ b.src).getLast?.map TallyOp.value).getD v) +
      ((ops.filter fun o => !o.isSet).map TallyOp.value).sum := by
  rw [applyOps, foldl_add_value, foldl_last_value]

theorem applyOps_perm (v : Word) {a b : List TallyOp} (hp : a.Perm b) (hset : a.filter TallyOp.isSet = b.filter TallyOp.isSet) :
    applyOps v a = applyOps v b := by
  have hadd := ((hp.filter fun o => !o.isSet).map TallyOp.value).sum_eq
  rw [applyOps_eq, applyOps_eq, hset, hadd]

/-- The changes of tally `t` due by now are the due ones among those of `t`. -/
theorem filter_tally_due (ops : List TallyOp) (t now : Nat) :
    (ops.filter fun o => o.tally == t && decide (o.due ≤ now)) = (ops.filter fun o => o.tally == t).filter fun o => decide (o.due ≤ now) := by
  rw [List.filter_filter]
  simp only [Bool.and_comm]

theorem foldl_min_due {os : List TallyOp} {due : Nat} (h : ∀ x ∈ os, x.due = due) : os.foldl (fun m x => min m x.due) due = due := by
  induction os with
  | nil => rfl
  | cons x os ih =>
    rw [List.foldl_cons, h x (by simp), min_self]
    exact ih fun y hy => h y (List.mem_cons_of_mem _ hy)

theorem State.tallyAnswers_none {ops : List TallyOp} (h : ∀ x ∈ ops, x.h = none ∧ x.resp = none) (s : State) : s.tallyAnswers ops = s := by
  unfold State.tallyAnswers
  induction ops with
  | nil => rfl
  | cons x ops ih =>
    obtain ⟨hh, hr⟩ := h x (by simp)
    simp only [List.foldl_cons, hh, hr]
    exact ih fun y hy => h y (List.mem_cons_of_mem _ hy)

theorem exec_tallyApply_early {s : State} {t : BitVec 14} (h : ∀ x ∈ s.tly.ops.filter (fun o => o.tally == t.toNat), s.tick < x.due) :
    exec (.tallyApply t) s = .next s := by
  have hnone : (s.tly.ops.filter fun o => o.tally == t.toNat && decide (o.due ≤ s.tick)) = [] := by
    rw [filter_tally_due, List.filter_eq_nil_iff]
    intro x hx
    simpa using h x hx
  change execTallyApply t s = _
  simp only [execTallyApply, hnone]

/-- Where all changes of the tally are due in one tick that has come, and answer nobody, they apply together. -/
theorem exec_tallyApply_due {s : State} {t : BitVec 14} {due : Nat} {o : TallyOp} {os : List TallyOp}
    (hops : s.tly.ops.filter (fun o => o.tally == t.toNat) = o :: os) (hdue : due ≤ s.tick)
    (hall : ∀ x ∈ o :: os, x.due = due ∧ x.h = none ∧ x.resp = none) :
    exec (.tallyApply t) s = .next { s with
      tly.values := s.tly.values.upd t.toNat (fun v => applyOps v (o :: os)),
      tly.ops := s.tly.ops.filter fun o => !(o.tally == t.toNat && o.due == due) } := by
  have hmine : (s.tly.ops.filter fun o => o.tally == t.toNat && decide (o.due ≤ s.tick)) = o :: os := by
    rw [filter_tally_due, hops, List.filter_eq_self]
    intro x hx
    simpa [(hall x hx).1] using hdue
  have hmin : os.foldl (fun m x => min m x.due) o.due = due := by
    rw [(hall o (by simp)).1]
    exact foldl_min_due fun x hx => (hall x (List.mem_cons_of_mem _ hx)).1
  have hnow : ((o :: os).filter fun x => x.due == due) = o :: os := by
    rw [List.filter_eq_self]
    intro x hx
    simpa using (hall x hx).1
  change execTallyApply t s = _
  simp only [execTallyApply, hmine, hmin, hnow]
  rw [State.tallyAnswers_none fun x hx => (hall x hx).2]

theorem filter_not_tally {ops : List TallyOp} {t due : Nat} (h : ∀ x ∈ ops.filter (fun o => o.tally == t), x.due = due) :
    ∀ x ∈ ops.filter (fun o => !(o.tally == t && o.due == due)), x.tally ≠ t := by
  intro x hx ht
  obtain ⟨hmem, hp⟩ := List.mem_filter.mp hx
  have hd := h x (List.mem_filter.mpr ⟨hmem, by simpa using ht⟩)
  simp [ht, hd] at hp

/-- Settles O13: the changes of one tick add up, and TALLY_APPLY carries them out together once their tick has come. -/
theorem tallyChanges : Obligations.TallyChanges := by
  unfold Obligations.TallyChanges
  refine ⟨⟨applyOps_eq, fun v a b => applyOps_perm v⟩, ?_⟩
  intro t due o os s hops hdue hall
  refine ⟨fun v hv hsame => ?_, _, exec_tallyApply_due hops hdue hall, rfl, fun k hk => Tab.get_upd_ne s.tly.values _ hk, ?_, rfl, rfl, rfl, rfl, rfl⟩
  · refine exec_tallyApply_early fun x hx => ?_
    rw [hsame, hops] at hx
    rw [(hall x hx).1]
    exact hv
  · exact filter_not_tally (hops ▸ fun x hx => (hall x hx).1)

/-! ### Tally commands -/

theorem dropAt_eq_eraseIdx {α : Type} (i : Nat) (as : List α) : dropAt i as = as.eraseIdx i := by
  induction as generalizing i with
  | nil => cases i <;> rfl
  | cons a as ih =>
    cases i with
    | zero => rfl
    | succ i => simp [dropAt, ih]

/-- The checks of a host tally command all pass for a tally the function may use (R278). -/
theorem State.checks_tally {s : State} {h : Hdr} {t : Nat} (ht : t < 16384) (how : h.fn = 0 ∨ s.tallyOwner t = some h.fn.val) (k : Ans) :
    checks (s.tallyChecks h t) k = k := by
  refine checks_pass ?_ k
  rcases how with how | how <;> simp [State.tallyChecks, ht, how]

theorem State.admitTally_closed {s : State} (hj : s.jrn.j.isOpen = false) (h : Hdr) (t : Nat) (isSet : Bool) (v : Word) :
    s.admitTally h t isSet v = { s with
      tly.ops := s.tly.ops ++ [{ tally := t, isSet := isSet, value := v, due := max s.tick s.tly.hostNext + 1, h := some h }],
      tly.hostNext := max s.tick s.tly.hostNext + 1 } := by
  rw [State.admitTally]
  exact State.journalAt_closed _ (by exact hj) _ _ _ _ _ _

theorem State.takeWait_room {s : State} (h : s.tly.waits.length < 4096) (w : WaitEnt) :
    s.takeWait w = (some { s with tly.waits := s.tly.waits ++ [w], tly.maxUsed := max s.tly.maxUsed (s.tly.waits.length + 1) }, s) := by
  simp [State.takeWait, h]

theorem exec_tallyAdd {s : State} {h : Hdr} {t : BitVec 16} (ht : t.toNat < 16384) (how : h.fn = 0 ∨ s.tallyOwner t.toNat = some h.fn.val)
    (v : Word) : exec (.tallyAdd h t v) s = .next (s.admitTally h t.toNat false v) := by
  change execTallyAdd h t v s = _
  rw [execTallyAdd, doTallyAdd, State.checks_tally ht how, fastPath_later]

theorem exec_tallySet {s : State} {h : Hdr} {t : BitVec 16} (ht : t.toNat < 16384) (how : h.fn = 0 ∨ s.tallyOwner t.toNat = some h.fn.val)
    (v : Word) : exec (.tallySet h t v) s = .next (s.admitTally h t.toNat true v) := by
  change execTallySet h t v s = _
  rw [execTallySet, doTallySet, State.checks_tally ht how, fastPath_later]

theorem exec_tallyRead {s : State} {h : Hdr} {t : BitVec 16} (ht : t.toNat < 16384) (how : h.fn = 0 ∨ s.tallyOwner t.toNat = some h.fn.val) :
    exec (.tallyRead h t) s = .next (s.reply h { r0 := (s.tallyNext t.toNat).toNat }) := by
  change execTallyRead h t s = _
  rw [execTallyRead, doTallyRead, State.checks_tally ht how, fastPath_ok _ _ _ rfl]

theorem exec_tallyWait {s : State} {h : Hdr} {t : BitVec 16} (ht : t.toNat < 16384) (how : h.fn = 0 ∨ s.tallyOwner t.toNat = some h.fn.val)
    (hroom : s.tly.waits.length < 4096) (v us : Word) :
    exec (.tallyWait h t v us) s = .next { s with
      tly.waits := s.tly.waits ++ [{ who := .host h, tally := t.toNat, target := v, timeoutUs := us, since := s.tick, from_ := s.now }],
      tly.maxUsed := max s.tly.maxUsed (s.tly.waits.length + 1) } := by
  change execTallyWait h t v us s = _
  rw [execTallyWait, doTallyWait, State.checks_tally ht how, State.takeWait_room hroom]
  exact fastPath_later s h _

/-! ### The ends of waits and of remote commands -/

theorem exec_tallyWaitTimeout {s : State} {i : Nat} {h : Hdr} {w : WaitEnt} (hw : s.tly.waits[i]? = some w) (hwho : w.who = .host h)
    (hus : w.timeoutUs ≠ 0) (hhit : w.hit = none)
    (hover : 0 ≤ wdiff 64 s.now.toNat (w.from_ + BitVec.ofNat 64 (1000 * w.timeoutUs.toNat)).toNat) :
    exec (.tallyWaitTimeout i) s =
      .next ({ s with tly.waits := s.tly.waits.eraseIdx i }.reply h { status := 0x3004, detail := (s.tly.values.get w.tally).toNat }) := by
  have hdone : (s.waitOver w && w.hit.isNone) = true := by
    rw [State.waitOver, bne_iff_ne.mpr hus, (atOrLater_iff _ _ _).mpr hover, hhit]
    rfl
  change execTallyWaitTimeout i s = _
  simp only [execTallyWaitTimeout, hw, hdone, if_true, State.endWait, hwho, dropAt_eq_eraseIdx]
  rfl

theorem exec_remoteResponseTimeout {s : State} {i : Nat} {c : RemoteCmd} (hc : s.tly.remote[i]? = some c) :
    exec (.remoteResponseTimeout i) s = .next ({ s with tly.remote := s.tly.remote.eraseIdx i }.reply c.h { status := 0x3005 }) := by
  change execRemoteResponseTimeout i s = _
  simp only [execRemoteResponseTimeout, hc, dropAt_eq_eraseIdx]

/-! ### Remote tally commands -/

/-- A remote command whose request finds a way waits for its response under a fresh request number (R281, R398). -/
theorem firmware_doRemote {s u : State} {h : Hdr} {op : Nat} {t node : BitVec 16} {v us : Word} (hsup : s.saf.supHalted = false)
    (ht : t.toNat < 16384) (hsend : s.sendMsg node.toNat 1 (tallyReq op t.toNat v.toNat us.toNat s.tly.nextReq) = some u) :
    firmware h s (doRemote h op t node v us s) = .next { u with
      tly.remote := u.tly.remote ++ [{ h := h, node := node.toNat, reqId := s.tly.nextReq, op := op, port := s.portTo node.toNat }],
      tly.nextReq := (s.tly.nextReq + 1) % 2 ^ 32 } := by
  have hrange : decide (16384 ≤ t.toNat) = false := by simpa using ht
  rw [doRemote, hrange, checks_cons_false, checks_nil, State.remoteSend]
  simp only [hsend]
  exact firmware_later hsup h _

/-- Settles O14: every tally command comes to its answer, every wait and remote command to its end. -/
theorem tallyCommandsComplete : Obligations.TallyCommandsComplete := by
  unfold Obligations.TallyCommandsComplete
  refine ⟨fun h t s ht how hj => ?_, ⟨fun i h w v s hw hwho hhit => ?_, fun i h w s => exec_tallyWaitTimeout, fun i c s => exec_remoteResponseTimeout⟩,
    fun h t node v us s hsup ht => ⟨fun u hu => ?_, fun u hu => ?_, fun u hu => ?_, fun u hu => ?_⟩⟩
  · refine ⟨fun v => ?_, fun v => ?_, exec_tallyRead ht how, fun v us hroom => exec_tallyWait ht how hroom v us⟩
    · rw [exec_tallyAdd ht how, State.admitTally_closed hj]
    · rw [exec_tallySet ht how, State.admitTally_closed hj]
  · rw [exec_tallyWaitSatisfied hw hhit, State.endWait_host_success hwho, ← dropAt_eq_eraseIdx]
  · exact firmware_doRemote (us := 0) hsup ht hu
  · exact firmware_doRemote (us := 0) hsup ht hu
  · exact firmware_doRemote (v := 0) (us := 0) hsup ht hu
  · exact firmware_doRemote hsup ht hu

end Sys2Proof.Machine
end

section
/-! The time base, plans and jobs: commands and their refusals. Settles O15, O16, O17, O18 and O19. -/

namespace Sys2Proof.Machine

open Sys2Proof.Claims

/-! ### A command whose checks pass (R533) -/

theorem firmware_checked {s : State} (hsup : s.saf.supHalted = false) (h : Hdr) {cs : List (Bool × Nat)} (hcs : cs.all (fun c => !c.1) = true)
    (s' : State) {r : Rep} (hext : r.ext = none) : firmware h s (checks cs (.ok s' r)) = .next (s'.reply h r) := by
  rw [checks_pass hcs, firmware_ok hsup h s' hext]

theorem firmware_checked_later {s : State} (hsup : s.saf.supHalted = false) (h : Hdr) {cs : List (Bool × Nat)}
    (hcs : cs.all (fun c => !c.1) = true) (s' : State) : firmware h s (checks cs (.later s')) = .next s' := by
  rw [checks_pass hcs, firmware_later hsup]

theorem fastPath_no (s : State) (h : Hdr) (st d : Nat) : fastPath h s (.no st d) = .next (s.reply h { status := st, detail := d }) := by
  simp [fastPath, finish]

/-- An extended result is written where the session has a result area (R273). -/
theorem firmware_area {s : State} {h : Hdr} (harea : area s h) (s' : State) (r : Rep) : firmware h s (.ok s' r) = .next (s'.reply h r) := by
  obtain ⟨hsup, hres⟩ := harea
  simp [firmware, finish, hsup, hres]

theorem firmware_checked_area {s : State} {h : Hdr} (harea : area s h) {cs : List (Bool × Nat)} (hcs : cs.all (fun c => !c.1) = true)
    (s' : State) (r : Rep) : firmware h s (checks cs (.ok s' r)) = .next (s'.reply h r) := by
  rw [checks_pass hcs, firmware_area harea]

/-! ### Time commands (R344 to R349) -/

theorem State.stepTime_ok {s : State} {off : Int} (h : s.tim.stepped = false ∨ |off| ≤ s.tim.jumpLimit.toNat * 2 ^ 40) :
    s.stepTime off = (true, { s with tim.time := (((s.tim.time : Int) + off) % (timeMod : Int)).toNat, tim.stepped := true }) := by
  have hno : (s.tim.stepped && decide ((s.tim.jumpLimit.toNat : Int) * 2 ^ 40 < |off|)) = false := by
    rcases h with h | h
    · simp [h]
    · simp only [not_lt.mpr h, decide_false, Bool.and_false]
  simp only [State.stepTime, hno, Bool.false_eq_true, if_false]

theorem State.stepTime_refused {s : State} {off : Int} (hstep : s.tim.stepped = true) (h : (s.tim.jumpLimit.toNat : Int) * 2 ^ 40 < |off|) :
    s.stepTime off = (false, ({ s with tim.jumpRefused := true, tim.refused := satInc s.tim.refused }).blockEvent 0x7002) := by
  simp only [State.stepTime, hstep, h, decide_true, Bool.and_self, if_true]

section
variable {s : State} {h : Hdr} (hpf : pf0 s h)
include hpf

theorem exec_timeSet (frac : BitVec 16) {ns : Word} (sec : BitVec 64) (hns : ns.toNat < 1000000000)
    (hlim : s.tim.stepped = false ∨ |timeUnits (sec.toNat % 2 ^ 48) ns.toNat frac.toNat - s.tim.time| ≤ s.tim.jumpLimit.toNat * 2 ^ 40) :
    exec (.timeSet h frac ns sec) s = .next
      ({ s with tim.time := (timeUnits (sec.toNat % 2 ^ 48) ns.toNat frac.toNat % (timeMod : Int)).toNat, tim.stepped := true }.reply h {}) := by
  obtain ⟨hsup, hfn⟩ := hpf
  change execTimeSet h frac ns sec s = _
  rw [execTimeSet, doTimeSet, State.stepTime_ok hlim, add_sub_cancel, stepAns]
  exact firmware_checked hsup h (by simp [hfn, hns]) _ rfl

theorem exec_timeStep (frac : BitVec 16) {ns : Word} {sec : BitVec 64} (hns : ns.toNat < 1000000000) (hlo : -(2 ^ 47) ≤ sec.toInt)
    (hhi : sec.toInt < 2 ^ 47) : exec (.timeStep h frac ns sec) s =
      firmware h s (stepAns (s.stepTime (timeUnits sec.toInt ns.toNat frac.toNat))) := by
  obtain ⟨hsup, hfn⟩ := hpf
  change execTimeStep h frac ns sec s = _
  rw [execTimeStep, doTimeStep, checks_pass]
  simp only [hfn, List.all_cons, List.all_nil, not_le.mpr hns, not_lt.mpr hlo, not_le.mpr hhi, decide_false, bne_self_eq_false, Bool.or_self,
    Bool.not_false, Bool.and_self]

theorem exec_timeSlew (rate : Word) {count : Word} (hcount : count ≠ 0) (hleft : s.tim.slewLeft = 0)
    (hrate : |(s.tim.incr.toNat : Int) + rate.toInt - 2 ^ 41| ≤ 2199023255) :
    exec (.timeSlew h rate count) s = .next ({ s with tim.slewRate := rate, tim.slewLeft := count }.reply h {}) := by
  obtain ⟨hsup, hfn⟩ := hpf
  have hok : rateOk ((s.tim.incr.toNat : Int) + rate.toInt) = true := decide_eq_true hrate
  change execTimeSlew h rate count s = _
  rw [execTimeSlew, doTimeSlew, if_neg (by simp [hfn]), if_neg hcount]
  exact firmware_checked hsup h (by simp [hok, hleft]) _ rfl

theorem exec_timeSlew_end (rate : Word) : exec (.timeSlew h rate 0) s = .next ({ s with tim.slewLeft := 0 }.reply h {}) := by
  obtain ⟨hsup, hfn⟩ := hpf
  change execTimeSlew h rate 0 s = _
  rw [execTimeSlew, doTimeSlew, if_neg (by simp [hfn]), if_pos rfl]
  exact firmware_ok hsup h _ rfl

theorem exec_timeJumpLimit {limit : Word} (hlim : limit.toNat ≤ s.tim.jumpLimit.toNat) :
    exec (.timeJumpLimit h limit) s = .next ({ s with tim.jumpLimit := limit }.reply h {}) := by
  obtain ⟨hsup, hfn⟩ := hpf
  exact firmware_checked hsup h (by simp [hfn, hlim]) _ rfl

end

/-- Settles O15: each time command in its range has its effect. -/
theorem timeCommandsComplete : Obligations.TimeCommandsComplete := by
  unfold Obligations.TimeCommandsComplete
  intro h s hpf
  have hsup := hpf.1
  refine ⟨fun frac ns sec hns => exec_timeSet hpf frac sec hns, fun frac ns sec hns hlo hhi hlim => ?_, fun rate count hc hl hr => exec_timeSlew hpf rate hc hl hr,
    exec_timeSlew_end hpf, firmware_ok hsup h s rfl, fun limit => exec_timeJumpLimit hpf⟩
  rw [exec_timeStep hpf frac hns hlo hhi, State.stepTime_ok hlim, stepAns]
  exact firmware_ok hsup h _ rfl

/-! ### Pins, captures and comparators (R350 to R353) -/

theorem State.ite_trigger_off {s : State} (h : s.trc.state = .off) (b : Bool) (c code : Nat) : (if b then s.trigger c code else s) = s := by
  rw [State.trigger_off s h, ite_self]

theorem exec_timePinConfig_pulse {s : State} {h : Hdr} (hpf : pf0 s h) {pin : Byte} {at_ : BitVec 64} {width : Word} (hpin : pin.toNat ≤ 3)
    (hlo : 10 ≤ width.toNat) (hhi : width.toNat ≤ 999999990) (hlate : atOrLater 64 s.now.toNat at_.toNat = false) :
    exec (.timePinConfig h pin 2 0 at_ 0 width) s = .next
      ({ s with tim.pins := s.tim.pins.upd pin.toNat fun q =>
          { q with mode := 2, edge := false, at_ := at_, period := 0, width := width, level := false, armed := true, target := at_ } }.reply h {}) := by
  obtain ⟨hsup, hfn⟩ := hpf
  have hpulse : (decide (pin.toNat ≤ 3) && decide (2 ≤ (2 : Byte).toNat)) = true := by simp [hpin]
  have hok : pinParamsOk pin.toNat 2 0 at_.toNat 0 width.toNat = true := by
    simp [pinParamsOk, hpin, hlo, hhi]
  have hnow : s.armLate at_ = s := by simp [State.armLate, hlate]
  change execTimePinConfig h pin 2 0 at_ 0 width s = _
  rw [execTimePinConfig, doTimePinConfig]
  simp only [hpulse, if_true, hnow]
  exact firmware_checked hsup h (by simp [hfn, hok]) _ rfl

theorem exec_timeCapture {s : State} {h : Hdr} (hpf : pf0 s h) {pin : Byte} {t : Nat} {rest : List Nat} (hpin : pin.toNat ≤ 4)
    (hfifo : (s.tim.pins.get pin.toNat).fifo = t :: rest) :
    exec (.timeCapture h pin) s = .next
      ({ s with tim.pins := s.tim.pins.set pin.toNat { s.tim.pins.get pin.toNat with fifo := rest } }.reply h
        { timeRep (time96 t) with detail := rest.length }) := by
  obtain ⟨hsup, hfn⟩ := hpf
  change execTimeCapture h pin s = _
  rw [execTimeCapture, doTimeCapture]
  simp only [hfifo]
  exact firmware_checked hsup h (by simp [hfn, hpin]) _ rfl

theorem exec_timePinEdge_captured {s : State} {p : Fin 6} {level : Bool} (hp : p.val ≤ 4) (hmode : (s.tim.pins.get p.val).mode = 1)
    (hedge : (s.tim.pins.get p.val).edge ≠ level) (hroom : (s.tim.pins.get p.val).fifo.length < 4) (htrc : s.trc.state = .off) :
    let t := { s with tim.pins := s.tim.pins.set p.val { s.tim.pins.get p.val with fifo := (s.tim.pins.get p.val).fifo ++ [s.edgeTime] } }
    exec (.timePinEdge p level) s = .next (if level then t.seeEdge p.val else t) := by
  intro t
  have hcap : (p.val ≤ 4 && (s.tim.pins.get p.val).mode == 1 && (s.tim.pins.get p.val).edge != level) = true := by simp [hp, hmode, hedge]
  change execTimePinEdge p level s = _
  simp only [execTimePinEdge, hcap, hroom, if_true]
  cases level with
  | false => rfl
  | true =>
    exact congrArg Host.Outcome.next (State.ite_trigger_off (by exact htrc) _ _ _)

theorem exec_timePinEdge_seen {s : State} {p : Fin 6} {q : PendStart} (hq : s.pln.start = some q) (hmode : q.mode = 2) (hpin : q.pin = p.val)
    (htrc : s.trc.state = .off) : ∃ t, exec (.timePinEdge p true) s = .next t ∧ t.pln.start = some { q with seen := true } := by
  have hsee : ∀ u : State, u.pln.start = some q → (u.seeEdge p.val).pln.start = some { q with seen := true } := fun u hu => by
    simp [State.seeEdge, hu, hmode, hpin]
  refine ⟨_, rfl, ?_⟩
  dsimp only
  rw [if_pos rfl, State.ite_trigger_off]
  · apply hsee
    split
    · split <;> exact hq
    · exact hq
  · split
    · split <;> exact htrc
    · exact htrc

theorem exec_comparatorFire_rise {s : State} {p : Fin 6} (harmed : (s.tim.pins.get p.val).armed = true)
    (hlow : (s.tim.pins.get p.val).level = false) (hdue : atOrLater 64 s.now.toNat (s.tim.pins.get p.val).target.toNat = true) :
    exec (.comparatorFire (.pin p)) s = .next { s with tim.pins := s.tim.pins.set p.val { s.tim.pins.get p.val with
      level := true, target := (s.tim.pins.get p.val).target + BitVec.ofNat 64 (s.tim.pins.get p.val).width.toNat } } := by
  change execComparatorFire (.pin p) s = _
  simp [execComparatorFire, State.pinFire, harmed, hlow, hdue]

theorem exec_ppsOutPulse {s : State} (hmode : (s.tim.pins.get 5).mode = 1) :
    exec .ppsOutPulse s = .next { s with tim.pins := s.tim.pins.set 5 { s.tim.pins.get 5 with
      level := true, armed := true, target := s.now + BitVec.ofNat 64 (s.tim.pins.get 5).width.toNat } } := by
  change execPpsOutPulse s = _
  simp only [execPpsOutPulse, hmode, if_true]

/-- Settles O16: pins are configured and captured, edges seen, slews ended, comparators fired, and NOW latched. -/
theorem timePinsComplete : Obligations.TimePinsComplete := by
  unfold Obligations.TimePinsComplete
  refine ⟨fun h pin at_ width s hpf => exec_timePinConfig_pulse hpf, fun h pin t rest s hpf => exec_timeCapture hpf,
    fun p level s => exec_timePinEdge_captured, fun p q s => exec_timePinEdge_seen, fun s => rfl, fun p s ha hl hd => ?_, fun s hm => ?_, fun s => rfl⟩
  · refine ⟨_, exec_comparatorFire_rise ha hl hd, ?_, ?_⟩ <;> simp
  · refine ⟨_, exec_ppsOutPulse hm, ?_, ?_, ?_⟩ <;> simp

/-! ### Plans (R227, R229) -/

section
variable {s : State} {h : Hdr} {pl : Plan}

theorem exec_loadPlan (hpf : pf0 s h) (hst : s.pln.state = .none ∨ s.pln.state = .loaded) (a : BitVec 64) (n : Word) :
    exec (.loadPlan h a n) s = .next { s with
      pln.state := .loading, pln.load := some { h := some h, addr := a.toNat, bytes := n.toNat, from_ := s.pln.state, power := s.pwr.plan.toNat } } := by
  obtain ⟨hsup, hfn⟩ := hpf
  refine firmware_checked_later hsup h ?_ _
  rcases hst with hst | hst <;> simp [hfn, hst]

/-- The checks of START_PLAN of a LOADED plan leave only those of its mode and pin. -/
theorem execStartPlan_loaded (hpf : pf0 s h) (hpl : s.pln.plan = some pl) (hst : s.pln.state = .loaded) (hsafe : s.saf.safe = false)
    (harm : s.jrn.r.armed = false) {mode pin : Byte} (hmode : (decide (2 < mode.toNat) || (mode == 2 && decide (3 < pin.toNat))) = false)
    (at_ : BitVec 64) : exec (.startPlan h mode pin at_) s =
      if mode = 0 then .next (s.beginPlan pl (some h)).settle
      else .next { (if mode = 1 then s.armLate at_ else s) with
        pln.state := .starting, pln.start := some { h := some h, mode := mode.toNat, pin := pin.toNat, at_ := at_ } } := by
  obtain ⟨hsup, hfn⟩ := hpf
  have hmis : s.replayMisfit pl = false := by simp [State.replayMisfit, harm]
  change execStartPlan h mode pin at_ s = _
  rw [execStartPlan, doStartPlan]
  simp only [hpl]
  rw [checks_pass (by simp only [hfn, hmode, hst, hsafe, hmis]; decide)]
  split <;> exact firmware_later hsup h _

theorem exec_stopPlan_running (hpf : pf0 s h) (hst : s.pln.state = .running) :
    exec (.stopPlan h 0) s = .next { s with pln.state := .stopping, pln.stop := some (some h) } ∧
      exec (.stopPlan h 1) s = .next { s with pln.stop := some (some h) }.stopNow.settle := by
  obtain ⟨hsup, hfn⟩ := hpf
  have hpass (m : Byte) (hm : m.toNat ≤ 1) : doStopPlan h m s =
      if m = 1 then .later { s with pln.stop := some (some h) }.stopNow.settle
      else .later { s with pln.state := .stopping, pln.stop := some (some h) } := by
    rw [doStopPlan, checks_pass (by simp [hfn, hm, hst]), if_neg (by simp [hst])]
  constructor
  · change firmware h s (doStopPlan h 0 s) = _
    rw [hpass 0 (by decide), if_neg (by decide), firmware_later hsup]
  · change firmware h s (doStopPlan h 1 s) = _
    rw [hpass 1 (by decide), if_pos rfl, firmware_later hsup]

theorem exec_stopPlan_starting (hpf : pf0 s h) (hst : s.pln.state = .starting) {m : Byte} (hm : m.toNat ≤ 1) :
    exec (.stopPlan h m) s = .next (s.cancelStart.reply h {}) := by
  obtain ⟨hsup, hfn⟩ := hpf
  change firmware h s (doStopPlan h m s) = _
  rw [doStopPlan, if_pos hst]
  exact firmware_checked hsup h (by simp [hfn, hm, hst]) _ rfl

theorem exec_unloadPlan (hpf : pf0 s h) (hst : s.pln.state = .loaded) : exec (.unloadPlan h) s =
    .next ({ s.dropProt.zeroSpads with pln.plan := none, pln.state := .none, tyb.partner := {}, pln.halted := {}, pln.resuming := {} }.reply h {}) := by
  obtain ⟨hsup, hfn⟩ := hpf
  exact firmware_checked hsup h (by simp [hfn, hst]) _ rfl

theorem exec_planQuery (hsup : s.saf.supHalted = false) (hpl : s.pln.plan = some pl) : exec (.planQuery h) s = .next (s.reply h
    { r0 := pack [(0, 3, s.pln.state.code), (8, 8, s.pln.window), (16, 16, pl.version.toNat)], r1 := pl.planId.toNat,
      r2 := s.pln.frameCount.toNat % 2 ^ 32 }) := by
  change firmware h s (doPlanQuery s) = _
  simp only [doPlanQuery, hpl]
  exact firmware_ok hsup h _ rfl

end

theorem exec_planStartFire {s : State} {p : PendStart} {pl : Plan} (hp : s.pln.start = some p) (hpl : s.pln.plan = some pl)
    (hdue : (p.mode = 2 ∧ p.seen = true) ∨ (p.mode ≠ 2 ∧ atOrLater 64 s.now.toNat p.at_.toNat = true)) :
    exec .planStartFire s = .next (s.beginPlan pl p.h).settle := by
  have hyes : (if p.mode = 2 then p.seen else atOrLater 64 s.now.toNat p.at_.toNat) = true := by
    rcases hdue with ⟨hm, hd⟩ | ⟨hm, hd⟩ <;> simp [hm, hd]
  change execPlanStartFire s = _
  simp only [execPlanStartFire, hp, hpl, hyes, if_true]

/-- Settles O17: each plan command has its effect in the states of Table 15. -/
theorem planCommandsComplete : Obligations.PlanCommandsComplete := by
  unfold Obligations.PlanCommandsComplete
  refine ⟨fun h a n s hpf hst => exec_loadPlan hpf hst a n, fun p s hp hready => ?_, fun pl s => ⟨rfl, rfl, rfl, rfl⟩,
    fun h pin at_ pl s hpf hpl hst hsafe harm => ?_, fun p pl s => exec_planStartFire,
    fun h s hpf => ⟨exec_stopPlan_running hpf, fun hst => ⟨exec_stopPlan_starting hpf hst (by decide), exec_stopPlan_starting hpf hst (by decide)⟩⟩,
    fun s hst => ?_, fun h s => exec_unloadPlan, fun h pl s => exec_planQuery⟩
  · change execPlanLoadDone s = _
    simp only [execPlanLoadDone, hp]
    cases s.loadVerdict p.addr p.bytes p.power with
    | none => simp only [hready, if_true]
    | some v => rfl
  · refine ⟨?_, fun hlate => ?_, fun hpin => ?_⟩
    · rw [execStartPlan_loaded hpf hpl hst hsafe harm (by simp), if_pos rfl]
    · have hnow : s.armLate at_ = s := by simp [State.armLate, hlate]
      rw [execStartPlan_loaded hpf hpl hst hsafe harm (by simp), if_neg (by decide), if_pos rfl, hnow]
      rfl
    · rw [execStartPlan_loaded hpf hpl hst hsafe harm (by simpa using hpin), if_neg (by decide), if_neg (by decide)]
      rfl
  · change execPlanStopFrameEnd s = _
    rw [execPlanStopFrameEnd, if_pos hst]

/-! ### Refusals (R229, R346, R347) -/

section
variable {s : State} {h : Hdr}

/-- A first check that fails refuses the command, and only the reply is left. -/
theorem firmware_refused (hsup : s.saf.supHalted = false) (h : Hdr) {c : Bool} (hc : c = true) (st : Nat) (cs : List (Bool × Nat)) (k : Ans) :
    firmware h s (checks ((c, st) :: cs) k) = .next (s.reply h { status := st }) := by
  rw [hc, checks_cons_true, firmware_no hsup]

theorem exec_jobStart_out_of_reach {j : BitVec 16} (hreach : s.jobReach h j.toNat = false) :
    exec (.jobStart h j) s = .next (s.reply h { status := 0x1022 }) := by
  change fastPath h s (doJobStart h j s) = _
  rw [doJobStart]
  simp only [hreach, Bool.not_false, checks_cons_true, fastPath_no]

theorem State.jobReach_own {j : Nat} {r : JobRec} (hr : s.jobRec j = some r) (hown : h.fn = 0 ∨ r.part = h.fn.val) : s.jobReach h j = true := by
  rcases hown with hown | hown <;> simp [State.jobReach, hr, hown]

theorem exec_jobStart_wrong_state {j : BitVec 16} {r : JobRec} (hr : s.jobRec j.toNat = some r) (hown : h.fn = 0 ∨ r.part = h.fn.val)
    (hrun : s.pln.state = .running) (hbad : r.onDemand = false ∨ (s.jobRun j.toNat).state ≠ .idle) :
    exec (.jobStart h j) s = .next (s.reply h { status := 0x1021 }) := by
  have hno : (!((s.jobRec j.toNat).any JobRec.onDemand) || (s.jobRun j.toNat).state != .idle) = true := by
    rcases hbad with hbad | hbad <;> simp [hr, hbad]
  change fastPath h s (doJobStart h j s) = _
  rw [doJobStart]
  simp only [State.jobReach_own hr hown, hrun, hno, Bool.not_true, bne_self_eq_false, checks_cons_false, checks_cons_true, fastPath_no]

end

theorem exec_timeStep_refused {s : State} {h : Hdr} (hpf : pf0 s h) {frac : BitVec 16} {ns : Word} {sec : BitVec 64} (hns : ns.toNat < 1000000000)
    (hlo : -(2 ^ 47) ≤ sec.toInt) (hhi : sec.toInt < 2 ^ 47) (hstep : s.tim.stepped = true)
    (hlim : (s.tim.jumpLimit.toNat : Int) * 2 ^ 40 < |timeUnits sec.toInt ns.toNat frac.toNat|) :
    ∃ t, exec (.timeStep h frac ns sec) s = .next t ∧ t.tim = { s.tim with jumpRefused := true, refused := satInc s.tim.refused } := by
  rw [exec_timeStep hpf frac hns hlo hhi, State.stepTime_refused hstep hlim, stepAns, if_neg Bool.false_ne_true, firmware_ok hpf.1 h _ rfl]
  refine ⟨_, rfl, ?_⟩
  obtain ⟨hreply, -⟩ := (State.blockEvent_posts { s with tim.jumpRefused := true, tim.refused := satInc s.tim.refused } 0x7002 none).trans
    (State.reply_posts _ h { status := 0x7002 })
  exact congrArg State.tim hreply

/-- Settles O18: a refused plan, job or time command leaves its reply, and what its rule says, alone. -/
theorem refusals : Obligations.Refusals := by
  unfold Obligations.Refusals
  refine ⟨fun h s hsup hfn => ⟨fun a n => ?_, fun m p a => ?_, fun m => ?_, ?_⟩,
    fun h j s => ⟨exec_jobStart_out_of_reach, fun r => exec_jobStart_wrong_state⟩, fun h frac ns sec s hpf hns hlo hhi hstep hlim => ?_⟩
  · exact firmware_refused hsup h (by simpa using hfn) _ _ _
  · change firmware h s (doStartPlan h m p a s) = _
    rw [doStartPlan]
    cases s.pln.plan with
    | none =>
      simp only [hfn, if_false]
      exact firmware_no hsup h _ _
    | some pl => exact firmware_refused hsup h (by simpa using hfn) _ _ _
  · exact firmware_refused hsup h (by simpa using hfn) _ _ _
  · exact firmware_refused hsup h (by simpa using hfn) _ _ _
  · obtain ⟨t, ht, htim⟩ := exec_timeStep_refused hpf hns hlo hhi hstep hlim
    exact ⟨t, ht, by rw [htim], by rw [htim], by rw [htim]⟩

/-! ### Jobs and partitions (R212, R220, R229, R230) -/

section
variable {s : State} {h : Hdr}

theorem exec_jobStart {j : BitVec 16} {r : JobRec} (hr : s.jobRec j.toNat = some r) (hown : h.fn = 0 ∨ r.part = h.fn.val)
    (hrun : s.pln.state = .running) (hdemand : r.onDemand = true) (hidle : (s.jobRun j.toNat).state = .idle) (hj : s.jrn.j.isOpen = false) :
    exec (.jobStart h j) s = .next ({ s with pln.jobs := s.pln.jobs.upd j.toNat fun q =>
      { q with requested := true, requestedAt := if q.requested then q.requestedAt else s.tick } }.reply h
      { r0 := b2n (!(s.jobRun j.toNat).requested) }) := by
  have hjrn : s.journal 0x05 j.toNat 0 j.toNat = s := State.journalAt_closed s hj ..
  change fastPath h s (doJobStart h j s) = _
  rw [doJobStart, checks_pass (by simp [State.jobReach_own hr hown, hrun, hr, hdemand, hidle]), hjrn]
  exact fastPath_ok s h _ rfl

theorem State.partReach_own {p : Nat} {pl : Plan} (hpl : s.pln.plan = some pl) (hpart : pl.hasPart p = true) (hown : h.fn = 0 ∨ h.fn.val = p) :
    s.partReach h p = true := by
  rcases hown with hown | hown <;> simp [State.partReach, hpl, hpart, hown]

end

/-- Settles O19: job and partition commands of a running plan have their effect. -/
theorem jobCommandsComplete : Obligations.JobCommandsComplete := by
  unfold Obligations.JobCommandsComplete
  refine ⟨fun h j r s => exec_jobStart, fun h j r s harea hr hown hst => ?_, fun h p pl s hsup hpl hpart hown hrun => ⟨?_, fun hhalt => ?_⟩,
    fun h n s hsup hn => ?_⟩
  · refine firmware_checked_area harea ?_ _ _
    rcases hst with hst | hst <;> simp [State.jobReach_own hr hown, hst]
  · exact firmware_checked hsup h (by simp [State.partReach_own hpl hpart hown, hrun]) _ rfl
  · exact firmware_checked hsup h (by simp [State.partReach_own hpl hpart hown, hrun, hhalt]) _ rfl
  · exact firmware_checked hsup h (by simp [hn]) _ rfl

end Sys2Proof.Machine
end

section
/-! Registers, host accesses, rings, sessions and replies: settles O8, O9, O10 and O12. -/

namespace Sys2Proof.Machine

open Sys2Proof.Claims

/-! ### Register writes and reads (R9, R10, R21, R287) -/

/-- PF0's write at an offset of the register space. -/
theorem exec_registerWrite_pf0 {a : BitVec 48} {off : Nat} (ha : a.toNat = 0x020000000000 + off) (hoff : off < 0x1500000) (w : Word) (s : State) :
    exec (.registerWrite (.host 0) a w) s = s.pf0Write off w := by
  have hhi : 0x020000000000 + off < 0x020001500000 := by omega
  change execRegisterWrite (.host 0) a w s = _
  simp [execRegisterWrite, ha, hhi]

/-- The CAP block is read-only. -/
theorem State.pf0Write_cap {off : Nat} (h : off < 0x100000) (w : Word) (s : State) : s.pf0Write off w = .next s := by
  have hblock : off / 0x100000 = 0 := Nat.div_eq_of_lt h
  simp only [State.pf0Write, hblock]

/-- PF0 writes no ROD register. -/
theorem State.pf0Write_rod {off : Nat} (hlo : 0x400000 ≤ off) (hhi : off < 0x800000) (w : Word) (s : State) : s.pf0Write off w = .next s := by
  have h4 : 4 ≤ off / 0x100000 := by omega
  have h7 : off / 0x100000 ≤ 7 := by omega
  unfold State.pf0Write
  interval_cases off / 0x100000 <;> rfl

theorem State.regRead_cap {o : Nat} (hlo : 0x18 ≤ o) (hhi : o < 0x100000) (s : State) : s.regRead o = 0 := by
  have hblock : o / 0x100000 = 0 := Nat.div_eq_of_lt hhi
  have hoff : o % 0x100000 = o := Nat.mod_eq_of_lt hhi
  obtain ⟨j, hj⟩ : ∃ j, o / 4 = j + 6 := ⟨o / 4 - 6, by omega⟩
  simp [State.regRead, hblock, hoff, hj, capWord]

/-- The ROD blocks are those of rods 0 to 63 in order (R91). -/
theorem State.regRead_rod {n o : Nat} (hn : n < 64) (ho : o < 0x10000) (s : State) :
    s.regRead (0x400000 + 0x10000 * n + o) = BitVec.ofNat 32 (s.rodReg n o) := by
  have hrod : (0x400000 + 0x10000 * n + o) % 0x100000 / 0x10000 = n % 16 := by omega
  have hoff : (0x400000 + 0x10000 * n + o) % 0x100000 % 0x10000 = o := by omega
  have hblock : (0x400000 + 0x10000 * n + o) / 0x100000 = 4 + n / 16 := by omega
  have hq : n / 16 ≤ 3 := by omega
  have hsplit : n = 16 * (n / 16) + n % 16 := by omega
  unfold State.regRead
  simp only [hrod, hoff, hblock]
  generalize n / 16 = q at hq hsplit
  interval_cases q <;> exact congrArg (fun m => BitVec.ofNat 32 (s.rodReg m o)) (by omega)

theorem State.rodReg_beyond {o : Nat} (ho : 0x20 ≤ o) (n : Nat) (s : State) : s.rodReg n o = 0 := by
  have hne : ∀ k, k < 0x20 → o ≠ k := fun k hk => by omega
  simp [State.rodReg, hne]

/-- ROD_PAIR_CTL of an odd rod is not there. -/
theorem State.rodReg_pairCtl_odd {n : Nat} (hn : n % 2 = 1) (s : State) : s.rodReg n 8 = 0 := by
  simp [State.rodReg, hn]

/-- Settles O8: register writes act on the fields of their register alone, and what is not listed reads as zero. -/
theorem registerAccesses : Obligations.RegisterAccesses := by
  unfold Obligations.RegisterAccesses
  refine ⟨fun s w => ⟨?_, ?_, ?_, ?_, ?_, fun i => ?_, fun n => ?_, ?_⟩,
    fun s => ⟨rfl, rfl, rfl, rfl, rfl, fun o hlo hhi => State.regRead_cap hlo hhi s, rfl, rfl, rfl, fun n o hn hlo hhi => ?_, fun n hn hodd => ?_⟩⟩
  · exact (exec_registerWrite_pf0 (off := 0x100000) rfl (by decide) w s).trans rfl
  · exact (exec_registerWrite_pf0 (off := 0x300018) rfl (by decide) w s).trans rfl
  · exact (exec_registerWrite_pf0 (off := 0x210000) rfl (by decide) w s).trans rfl
  · exact (exec_registerWrite_pf0 (off := 0x800004) rfl (by decide) w s).trans rfl
  · exact (exec_registerWrite_pf0 (off := 0x1000024) rfl (by decide) w s).trans rfl
  · have ha : (0x020000000000 + 4 * BitVec.ofNat 48 i.val : BitVec 48).toNat = 0x020000000000 + 4 * i.val := by
      simp; omega
    rw [exec_registerWrite_pf0 ha (by omega)]
    exact State.pf0Write_cap (by omega) w s
  · have ha : (0x020000400010 + 0x10000 * BitVec.ofNat 48 n.val : BitVec 48).toNat = 0x020000000000 + (0x400010 + 0x10000 * n.val) := by
      simp; omega
    rw [exec_registerWrite_pf0 ha (by omega)]
    exact State.pf0Write_rod (by omega) (by omega) w s
  · rfl
  · rw [State.regRead_rod hn hhi, State.rodReg_beyond hlo]
    rfl
  · rw [State.regRead_rod hn (by decide), State.rodReg_pairCtl_odd hodd]
    rfl

/-! ### Entries of rings (R263, R265) -/

/-- From `s` to `t` the sessions, the commands held and the functions of the host link stay. -/
def KeepsSessions (s t : State) : Prop := t.hif.sessions = s.hif.sessions ∧ t.hif.held = s.hif.held ∧ t.hif.fns = s.hif.fns

theorem KeepsSessions.refl (s : State) : KeepsSessions s s := ⟨rfl, rfl, rfl⟩

theorem KeepsSessions.trans {s t u : State} (h : KeepsSessions s t) (k : KeepsSessions t u) : KeepsSessions s u := by
  obtain ⟨h1, h2, h3⟩ := h
  obtain ⟨k1, k2, k3⟩ := k
  exact ⟨k1.trans h1, k2.trans h2, k3.trans h3⟩

theorem State.sendVector_keepsSessions (s : State) (v : Nat) : KeepsSessions s (s.sendVector v) := by
  unfold State.sendVector
  dsimp only
  split <;> exact .refl s

theorem State.writeBack_keepsSessions (s : State) (r : Ring) (i : Word) : KeepsSessions s (s.writeBack r i) := by
  unfold State.writeBack
  split <;> exact .refl s

theorem State.ringIrq_keepsSessions (s : State) (k : Nat) : KeepsSessions s (s.ringIrq k) := by
  unfold State.ringIrq
  dsimp only
  split
  · split
    · exact State.sendVector_keepsSessions _ _
    · exact .refl s
  · exact .refl s

theorem State.postEntry_keepsSessions (s : State) (k : Nat) (bs : List Byte) : KeepsSessions s (s.postEntry k bs) := by
  unfold State.postEntry
  refine .trans (.trans ?_ (State.writeBack_keepsSessions _ _ _)) (State.ringIrq_keepsSessions _ _)
  exact .refl s

theorem State.postReply_keepsSessions (s : State) (h : Hdr) (r : Rep) : KeepsSessions s (s.postReply h r) := by
  unfold State.postReply
  dsimp only
  split
  · exact State.postEntry_keepsSessions _ _ _
  · exact .refl s

theorem State.sendVector_rings (s : State) (v : Nat) : (s.sendVector v).hif.rings = s.hif.rings := by
  unfold State.sendVector
  dsimp only
  split <;> rfl

theorem State.writeBack_rings (s : State) (r : Ring) (i : Word) : (s.writeBack r i).hif.rings = s.hif.rings := by
  unfold State.writeBack
  split <;> rfl

/-- A vector is sent once: of a ring only ARMED changes. -/
theorem State.ringIrq_ring (s : State) (k : Nat) : ∃ b, (s.ringIrq k).hif.rings.get k = { s.hif.rings.get k with armed := b } := by
  unfold State.ringIrq
  dsimp only
  split
  · refine ⟨false, ?_⟩
    split
    · rw [State.sendVector_rings, Tab.get_set_self]
    · rw [Tab.get_set_self]
  · exact ⟨(s.hif.rings.get k).armed, rfl⟩

/-- An entry written advances TAIL, and of its ring nothing else but ARMED changes. -/
theorem State.postEntry_ring (s : State) (k : Nat) (bs : List Byte) :
    ∃ b, (s.postEntry k bs).hif.rings.get k = { s.hif.rings.get k with tail := (s.hif.rings.get k).tail + 1, armed := b } := by
  obtain ⟨b, hb⟩ := State.ringIrq_ring (State.writeBack { s.wr ((s.hif.rings.get k).entry (s.hif.rings.get k).tail) bs with
    hif.rings := s.hif.rings.set k { s.hif.rings.get k with tail := (s.hif.rings.get k).tail + 1 } }
    { s.hif.rings.get k with tail := (s.hif.rings.get k).tail + 1 } ((s.hif.rings.get k).tail + 1)) k
  refine ⟨b, hb.trans ?_⟩
  rw [State.writeBack_rings, Tab.get_set_self]

/-- On a ring without write-back and interrupt an entry changes its own bytes and TAIL alone. -/
theorem State.postEntry_plain {s : State} {k : Nat} (hwb : (s.hif.rings.get k).wb = 0) (hirq : (s.hif.rings.get k).irqEn = false) (bs : List Byte) :
    s.postEntry k bs = { s.wr ((s.hif.rings.get k).entry (s.hif.rings.get k).tail) bs with
      hif.rings := s.hif.rings.set k { s.hif.rings.get k with tail := (s.hif.rings.get k).tail + 1 } } := by
  simp [State.postEntry, State.writeBack, hwb, State.ringIrq, hirq]

/-! ### BAR4 (R258, R416) -/

theorem linePieces_one {a n : Nat} (h : a % 64 + n ≤ 64) : linePieces a n = [(a, 0, n)] := by
  have hlines : (a + n - 1) / 64 - a / 64 + 1 = 1 := by omega
  have hlo : max a (a / 64 * 64) = a := by omega
  have hlen : min (a + n) ((a / 64 + 1) * 64) - a = n := by omega
  simp [linePieces, hlines, hlo, hlen]

theorem linePieces_two {a n : Nat} (h : 64 < a % 64 + n) (h2 : a % 64 + n ≤ 128) :
    linePieces a n = [(a, 0, (a / 64 + 1) * 64 - a), ((a / 64 + 1) * 64, (a / 64 + 1) * 64 - a, a + n - (a / 64 + 1) * 64)] := by
  have hlo0 : max a (a / 64 * 64) = a := Nat.max_eq_left (by omega)
  have hlo1 : max a ((a / 64 + 1) * 64) = (a / 64 + 1) * 64 := Nat.max_eq_right (by omega)
  have hlen0 : min (a + n) ((a / 64 + 1) * 64) = (a / 64 + 1) * 64 := Nat.min_eq_right (by omega)
  have hlen1 : min (a + n) ((a / 64 + 1 + 1) * 64) = a + n := Nat.min_eq_left (by omega)
  have hlines : (a + n - 1) / 64 = a / 64 + 1 := by omega
  rw [linePieces, hlines, Nat.add_sub_cancel_left]
  change [(max a (a / 64 * 64), max a (a / 64 * 64) - a, min (a + n) ((a / 64 + 1) * 64) - max a (a / 64 * 64)),
    (max a ((a / 64 + 1) * 64), max a ((a / 64 + 1) * 64) - a, min (a + n) ((a / 64 + 1 + 1) * 64) - max a ((a / 64 + 1) * 64))] = _
  rw [hlo0, hlo1, hlen0, hlen1, Nat.sub_self]

/-- PF0's access of LPDDR5 that meets no check line is allowed. -/
theorem State.bar4Ok_pf0 {s : State} {a n : Nat} (hd : s.inDram a n = true) (hp : (s.protectedAt a && checkLine a n) = false) :
    s.bar4Ok 0 a n = true := by
  simp only [State.bar4Ok, hd, hp, Bool.not_false, Bool.and_self, beq_self_eq_true, Bool.true_or]

/-- The request of a line piece: its address, its offset in the access, and its bytes (R258, R416). -/
def bar4Req (s : State) (acc : Access) (x : Nat × Nat × Nat) : MemReq :=
  { part := 0, port := 21, addr := x.1, len := x.2.2, arrival := s.tick, fn := some 0, at_ := x.2.1,
    wr := match acc with | .read _ => none | .write d => some ((d.drop x.2.1).take x.2.2) }

theorem exec_bar4Access_pf0 {s : State} {off : BitVec 36} {acc : Access}
    (hok : s.bar4Ok 0 ((s.hif.fns.get 0).window.toNat + off.toNat) (accBytes acc) = true) :
    exec (.bar4Access 0 off acc) s = .next { s with
      memc.queues := (linePieces ((s.hif.fns.get 0).window.toNat + off.toNat) (accBytes acc)).foldl
        (fun t x => t.upd (queueKey (x.1 / 64 % 32 / 8) 0 21) (· ++ [bar4Req s acc x])) s.memc.queues,
      hif.cpl := {} } := by
  change execBar4Access 0 off acc s = _
  rw [execBar4Access]
  exact if_pos hok

theorem exec_bar4Access_refused {s : State} {fn : Fin 16} {off : BitVec 36} {acc : Access}
    (hno : s.bar4Ok fn ((s.hif.fns.get fn.val).window.toNat + off.toNat) (accBytes acc) = false) :
    exec (.bar4Access fn off acc) s = .next { s with hif.cpl := { unsupported := true } } := by
  change execBar4Access fn off acc s = _
  rw [execBar4Access]
  exact if_neg (by rw [hno]; decide)

/-! ### Ring set-up and doorbells (R256, R260, R262) -/

theorem exec_ringDescWrite_disabled {s : State} {fn : Fin 16} {r : BitVec 14} {i : Fin 8} (hown : s.ringOwner r.toNat = some fn)
    (hoff : (s.hif.rings.get r.toNat).enable = false) (hi : i ≠ 4) (w : Word) :
    exec (.ringDescWrite fn r i w) s = .next { s with hif.rings := s.hif.rings.set r.toNat ((s.hif.rings.get r.toNat).withWord i w) } := by
  change execRingDescWrite fn r i w s = _
  simp [execRingDescWrite, hown, hoff, hi]

theorem exec_ringDescWrite_enables {s : State} {fn : Fin 16} {r : BitVec 14} {w : Word} (hown : s.ringOwner r.toNat = some fn)
    (hoff : (s.hif.rings.get r.toNat).enable = false) (hbit : w.getLsbD 8 = true)
    (hok : s.ringOk fn ((s.hif.rings.get r.toNat).withWord 4 w) = true) :
    exec (.ringDescWrite fn r 4 w) s = .next { s with hif.rings := s.hif.rings.set r.toNat { (s.hif.rings.get r.toNat).withWord 4 w with
      enable := true, armed := false, state := 1, head := 0, tail := 0, eseq := 0 } } := by
  change execRingDescWrite fn r 4 w s = _
  rw [execRingDescWrite]
  simp only [hown, hoff, hbit, hok, ne_eq, not_true_eq_false, Bool.not_false, decide_true, Bool.and_self, if_true, if_false]

section
variable {s : State} {fn : Fin 16} {i : Nat} {v : BitVec 64}

theorem exec_doorbell_malformed {off : BitVec 16} {size : Nat}
    (h : size ≠ 8 ∨ off.toNat % 8 ≠ 0 ∨ (s.hif.fns.get fn.val).ringCount.toNat ≤ off.toNat / 8) :
    exec (.doorbell fn off size v) s = .next { s with hif.dbBad := true } := by
  have hbad : (decide (size ≠ 8) || decide (off.toNat % 8 ≠ 0) || decide ((s.hif.fns.get fn.val).ringCount.toNat ≤ off.toNat / 8)) = true := by
    rcases h with h | h | h <;> simp [h]
  change execDoorbell fn off size v s = _
  rw [execDoorbell]
  exact if_pos (by simpa using hbad)

/-- A well-formed doorbell speaks of its ring. -/
theorem exec_doorbell (hi : i < 8192) (hcount : i < (s.hif.fns.get fn.val).ringCount.toNat) :
    exec (.doorbell fn (BitVec.ofNat 16 (8 * i)) 8 v) s =
      if !(s.hif.rings.get (s.devRing fn i)).enable || (s.hif.rings.get (s.devRing fn i)).state ≠ 1 then .next s
      else if s.indexOk (s.devRing fn i) (v.setWidth 32) then
        .next (if v.getLsbD 32 then (s.moveIndex (s.devRing fn i) (v.setWidth 32)).arm (s.devRing fn i)
          else s.moveIndex (s.devRing fn i) (v.setWidth 32))
      else .next (s.ringFail fn (s.devRing fn i) (v.setWidth 32)) := by
  have hoff : (BitVec.ofNat 16 (8 * i)).toNat = 8 * i := by
    rw [BitVec.toNat_ofNat]
    omega
  have hidx : 8 * i / 8 = i := by omega
  change execDoorbell fn (BitVec.ofNat 16 (8 * i)) 8 v s = _
  rw [execDoorbell]
  simp only [hoff, hidx]
  rw [if_neg (by simpa using hcount)]

end

/-- An event that no ring takes is counted lost (R277). -/
theorem State.event_lost {s : State} {f : Fin 16} (h : s.eventRing f = none) (kind part code payload : Nat) :
    s.event f kind part code payload = { s with hif.fns := s.hif.fns.upd f.val fun n =>
      { n with lost := satAdd 0xFFFFFFFF n.lost 1, lostFirst := if n.lost == 0 then s.frameStamp else n.lostFirst, lostLast := s.frameStamp } } := by
  have hflush : s.flushLost f = s := by simp only [State.flushLost, h]
  simp only [State.event, hflush, h]

/-- With no event ring bound, an index that is not acceptable stops its ring and nothing of it moves. -/
theorem State.ringFail_unbound {s : State} {fn : Fin 16} (hbound : (s.hif.fns.get fn.val).bound = false) (k : Nat) (x : Word) :
    (s.ringFail fn k x).hif.rings = s.hif.rings.upd k (fun g => { g with state := 2 }) ∧ (s.ringFail fn k x).hif.ringError = true := by
  have hnone : State.eventRing { s with hif.rings := s.hif.rings.upd k (fun g => { g with state := 2 }), hif.ringError := true } fn = none := by
    simp [State.eventRing, hbound]
  rw [State.ringFail, State.event_lost hnone]
  exact ⟨rfl, rfl⟩

/-- A loss is reported once its ring has room: the record is posted and the loss forgotten (R277). -/
theorem State.flushLost_posts_record {s : State} {fn : Fin 16} {k : Nat} (hk : s.eventRing fn = some k) (hlost : (s.hif.fns.get fn.val).lost ≠ 0) :
    ((s.flushLost fn).hif.fns.get fn.val).lost = 0 ∧ ((s.flushLost fn).hif.rings.get k).tail = (s.hif.rings.get k).tail + 1 ∧
      ((s.flushLost fn).hif.rings.get k).eseq = (s.hif.rings.get k).eseq + 1 := by
  unfold State.flushLost
  simp only [hk, beq_iff_eq, hlost, if_false, State.postEvent, Tab.get_upd_self]
  obtain ⟨b, hb⟩ := State.postEntry_ring s k (eventBytes s 4 0 0 (s.hif.rings.get k).eseq
    ((s.hif.fns.get fn.val).lost + (s.hif.fns.get fn.val).lostFirst * 2 ^ 32 + (s.hif.fns.get fn.val).lostLast * 2 ^ 96))
  rw [hb]
  exact ⟨trivial, rfl, rfl⟩

/-- Settles O9: each access of the host and each write of a ring descriptor has its effect and no other. -/
theorem hostAccessesComplete : Obligations.HostAccessesComplete := by
  unfold Obligations.HostAccessesComplete
  refine ⟨⟨fun fn a s hmap => ?_, ?_, ?_, fun fn off acc s => exec_bar4Access_refused, fun f reg w s hr hf => ?_,
    fun fn r i w s hown hoff hi => exec_ringDescWrite_disabled hown hoff hi w, fun fn r w s => exec_ringDescWrite_enables, ?_,
    fun fn k s hk hlost => ⟨_, rfl, State.flushLost_posts_record hk hlost⟩⟩, fun fn off size v s => exec_doorbell_malformed,
    fun fn i v s hi hcount hoff => ?_, ?_⟩
  · change execHostUnmappedAccess fn a s = _
    simp [execHostUnmappedAccess, hmap]
  · intro off acc s a hd hp hline
    refine ⟨bar4Req s acc (a, 0, accBytes acc), rfl, rfl, rfl, rfl, rfl, ?_⟩
    rw [exec_bar4Access_pf0 (State.bar4Ok_pf0 hd hp), linePieces_one hline]
    rfl
  · intro off acc s a b hd hp h1 h2
    refine ⟨bar4Req s acc (a, 0, b - a), bar4Req s acc (b, b - a, a + accBytes acc - b), rfl, rfl, rfl, rfl, rfl, rfl, ?_⟩
    rw [exec_bar4Access_pf0 (State.bar4Ok_pf0 hd hp), linePieces_two h1 h2]
    rfl
  · change execHifFnWrite 0 f reg w s = _
    simp [execHifFnWrite, hr, hf]
  · intro fn i v s k hi hcount hen hst hok harm
    rw [exec_doorbell hi hcount, if_neg (by simpa [k, hen] using hst), if_pos hok, harm, if_neg Bool.false_ne_true]
    rfl
  · rw [exec_doorbell hi hcount, if_pos]
    rcases hoff with hoff | hoff
    · rw [hoff, Bool.not_false, Bool.true_or]
    · rw [decide_eq_true hoff, Bool.or_true]
  · intro fn i v s k hi hcount hen hst hno hbound
    obtain ⟨hrings, herr⟩ := State.ringFail_unbound hbound k (v.setWidth 32)
    rw [exec_doorbell hi hcount, if_neg (by simpa [k, hen] using hst), if_neg (by rw [hno]; exact Bool.false_ne_true)]
    refine ⟨_, rfl, ?_, herr, ?_, ?_⟩ <;> rw [hrings, Tab.get_upd_self]

end Sys2Proof.Machine
end

section
/-! Session commands, host DMA, and the taking and answering of commands: settles O10 and O12. -/

namespace Sys2Proof.Machine

open Sys2Proof.Claims

theorem fastPath_checked_later {s : State} (h : Hdr) {cs : List (Bool × Nat)} (hcs : cs.all (fun c => !c.1) = true) (s' : State) :
    fastPath h s (checks cs (.later s')) = .next s' := by
  rw [checks_pass hcs, fastPath_later]

/-! ### Sessions (R273, R274, R277) -/

section
variable {s : State} {h : Hdr}

theorem exec_openSession {low high : Byte} {rb : BitVec 64} (hsup : s.saf.supHalted = false) (hlow : low.toNat ≤ 0x10) (hhigh : 0x10 ≤ high.toNat)
    (hrb : rb = 0 ∨ (rb.toNat % 64 = 0 ∧ s.hostMem h.fn rb.toNat 64 = true))
    (hclosed : (s.hif.sessions.get (s.devRing h.fn h.ring.toNat)).isOpen = false) :
    exec (.openSession h low high rb) s = .next ((s.openSession h rb).reply h
      { r0 := 0x10 + h.fn.val * 256, r1 := (s.hif.fns.get h.fn.val).tagFirst.toNat + (s.hif.fns.get h.fn.val).tagCount.toNat * 65536,
        r2 := (s.hif.fns.get h.fn.val).ringFirst.toNat + (s.hif.fns.get h.fn.val).ringCount.toNat * 65536 }) := by
  refine firmware_checked hsup h ?_ _ rfl
  rcases hrb with hrb | ⟨hline, hmem⟩
  · simp [hlow, hhigh, hclosed, hrb]
  · simp [hlow, hhigh, hclosed, lineAligned, hline, hmem]

theorem exec_eventBind {ring : BitVec 16} (hsup : s.saf.supHalted = false) (hring : ring.toNat < (s.hif.fns.get h.fn.val).ringCount.toNat)
    (hen : (s.hif.rings.get (s.devRing h.fn ring.toNat)).enable = true) (htype : (s.hif.rings.get (s.devRing h.fn ring.toNat)).type = 3) :
    exec (.eventBind h ring) s = .next
      (({ s with hif.fns := s.hif.fns.upd h.fn.val fun n => { n with eventRing := ring.setWidth 13, bound := true } }).reply h {}) :=
  firmware_checked hsup h (by simp [hring, hen, htype]) _ rfl

/-- A session that closes with no other command waiting is closed at once and its CLOSE_SESSION answered (R274). -/
theorem State.closeDrained_alone {c : Hdr} (hc : (s.hif.sessions.get (s.devRing h.fn h.ring.toNat)).closing = some c)
    (hall : (s.heldOn h).all (fun x => x.h == c) = true) :
    s.closeDrained h = State.postReply { s with
      hif.held := s.hif.held.filter (fun x => !(x.h == c)), hif.sessions := s.hif.sessions.set (s.devRing h.fn h.ring.toNat) {} } c {} := by
  simp only [State.closeDrained, hc, hall, if_true]

theorem State.stopTaking_idle (hwaits : s.tly.waits = []) (hstart : s.pln.start = none) (f : Fin 16) (ring : Nat) : s.stopTaking f ring = s := by
  have habort : s.abortWaits f ring = s := by
    rw [State.abortWaits, hwaits]
    simp only [List.filter_nil, List.foldl_nil]
    rw [← hwaits]
  simp only [State.stopTaking, habort, hstart]

theorem exec_closeSession (hsup : s.saf.supHalted = false) (hheld : s.hif.held = [{ h := h }]) (hwaits : s.tly.waits = [])
    (hstart : s.pln.start = none) :
    ∃ t, exec (.closeSession h) s = .next t ∧ t.hif.held = [] ∧
      t.hif.sessions = (s.hif.sessions.upd (s.devRing h.fn h.ring.toNat) fun e => { e with closing := some h }).set (s.devRing h.fn h.ring.toNat) {} := by
  let u : State := { s with hif.sessions := s.hif.sessions.upd (s.devRing h.fn h.ring.toNat) fun e => { e with closing := some h } }
  have hclosing : (u.hif.sessions.get (u.devRing h.fn h.ring.toNat)).closing = some h := congrArg Session.closing (Tab.get_upd_self _ _ _)
  have hown : (u.heldOn h).all (fun x => x.h == h) = true := by
    change (s.hif.held.filter _).all _ = true
    simp [hheld]
  have hexec : exec (.closeSession h) s = .next (u.closeDrained h) := by
    change firmware h s (.later ((u.stopTaking h.fn h.ring.toNat).closeDrained h)) = _
    rw [State.stopTaking_idle (s := u) hwaits hstart, firmware_later hsup]
  rw [hexec, State.closeDrained_alone hclosing hown]
  obtain ⟨hsess, hkept, -⟩ := State.postReply_keepsSessions { u with
    hif.held := u.hif.held.filter (fun x => !(x.h == h)), hif.sessions := u.hif.sessions.set (u.devRing h.fn h.ring.toNat) {} } h {}
  refine ⟨_, rfl, hkept.trans ?_, hsess.trans rfl⟩
  change s.hif.held.filter _ = _
  simp [hheld]

/-! ### Host DMA (R272, R284) -/

theorem exec_dmaCopy {e : Byte} {src dst : BitVec 64} {n : Word} (hsrc : src.toNat % 4 = 0) (hdst : dst.toNat % 4 = 0) (hn : n.toNat % 4 = 0)
    (h4 : 4 ≤ n.toNat) (hov : overlap src.toNat dst.toNat n.toNat = false) (hs : s.dmaAddrOk h.fn src.toNat n.toNat = true)
    (hd : s.dmaAddrOk h.fn dst.toNat n.toNat = true) (he : s.dmaEngineOk h.fn e.toNat = true) :
    exec (.dmaCopy h e src dst n) s =
      .next { s with hif.dma := s.hif.dma ++ [{ h := h, fill := none, src := src.toNat, dst := dst.toNat, bytes := n.toNat, engine := e.toNat }] } :=
  fastPath_checked_later h (by simp [hsrc, hdst, hn, h4, hov, hs, hd, he]) _

theorem exec_dmaFill {e : Byte} {w : Word} {dst : BitVec 64} {n : Word} (hdst : dst.toNat % 4 = 0) (hn : n.toNat % 4 = 0)
    (h4 : 4 ≤ n.toNat) (hd : s.dmaAddrOk h.fn dst.toNat n.toNat = true) (he : s.dmaEngineOk h.fn e.toNat = true) :
    exec (.dmaFill h e w dst n) s =
      .next { s with hif.dma := s.hif.dma ++ [{ h := h, fill := some w, src := 0, dst := dst.toNat, bytes := n.toNat, engine := e.toNat }] } :=
  fastPath_checked_later h (by simp [hdst, hn, h4, hd, he]) _

end

/-- A fill of one line into memory that no hand-over holds. -/
theorem dmaRun_fill_line {h : Hdr} {w : Word} {a e : Nat} {s : State} (hfree : s.inHandover a 64 = false) :
    dmaRun { h := h, fill := some w, src := 0, dst := a, bytes := 64, engine := e } (dmaLines 64) s =
      (s.wrBoth a ((List.range 16).flatMap fun _ => leBytes 4 w.toNat), 64, 0) := by
  have hlines : dmaLines 64 = [(0, 64)] := rfl
  simp only [hlines, dmaRun, Nat.add_zero, hfree, Bool.false_eq_true, if_false]

theorem exec_hostDmaDone_fill_line {h : Hdr} {w : Word} {a e : Nat} {s : State}
    (hdma : s.hif.dma = [{ h := h, fill := some w, src := 0, dst := a, bytes := 64, engine := e }]) (hfree : s.inHandover a 64 = false)
    (hserve : s.engineServes e h.fn.val none = true) :
    exec (.hostDmaDone 0) s = .next (({ s with hif.dma := [] }.wrBoth a ((List.range 16).flatMap fun _ => leBytes 4 w.toNat)).reply h {}) := by
  change execHostDmaDone 0 s = _
  simp only [execHostDmaDone, hdma, List.getElem?_cons_zero, State.dmaBehind, List.take_zero, List.any_nil, hserve, Bool.not_true, Bool.or_self,
    Bool.false_eq_true, if_false, dropAt]
  rw [dmaRun_fill_line (by exact hfree)]
  rfl

theorem exec_hostDmaDone_behind {i : Nat} {d : HostDma} {s : State} (hd : s.hif.dma[i]? = some d)
    (hbehind : ((s.hif.dma.take i).any fun e => e.h.fn == d.h.fn && e.h.ring == d.h.ring) = true) : exec (.hostDmaDone i) s = .next s := by
  have hb : s.dmaBehind i d = true := hbehind
  change execHostDmaDone i s = _
  simp only [execHostDmaDone, hd, hb, Bool.true_or, if_true]

/-- Settles O10: session, management and host DMA commands have their effect. -/
theorem sessionCommandsComplete : Obligations.SessionCommandsComplete := by
  unfold Obligations.SessionCommandsComplete
  refine ⟨fun h low high rb s => exec_openSession, fun h s => exec_closeSession, fun h ring s => exec_eventBind, fun h x s => fastPath_ok s h s rfl,
    fun h s harea => firmware_area harea _ _, fun h b s hsup halign hlt => ?_, fun h e src dst n s => exec_dmaCopy, fun h e w dst n s => exec_dmaFill,
    fun h w a e s => exec_hostDmaDone_fill_line, fun i d s => exec_hostDmaDone_behind⟩
  exact firmware_checked hsup h (by simpa using ⟨halign, hlt⟩) _ rfl

end Sys2Proof.Machine
end

section
/-! A command is taken from its ring, and a reply stands at its status ring's tail: settles O12. -/

namespace Sys2Proof.Machine

/-! ### Reserved bits (R266, R267) -/

theorem Nat.and_two_pow_mul_add {k a m : Nat} (ha : a < 2 ^ k) (hm : m < 2 ^ k) (b n : Nat) :
    (2 ^ k * b + a) &&& (2 ^ k * n + m) = 2 ^ k * (b &&& n) + (a &&& m) := by
  have ham : a &&& m < 2 ^ k := Nat.and_lt_two_pow a hm
  refine Nat.eq_of_testBit_eq fun i => ?_
  rw [Nat.testBit_and, Nat.testBit_two_pow_mul_add _ ha, Nat.testBit_two_pow_mul_add _ hm, Nat.testBit_two_pow_mul_add _ ham]
  split <;> rw [Nat.testBit_and]

/-- Nothing is reserved in a value that its fields cover. -/
theorem firstReserved_covered {fs : List (Nat × Nat)} {x : Nat} (h : x &&& cover fs = x) (n : Nat) : firstReserved fs x n = none := by
  simp [firstReserved, h]

/-! ### The packet of a NOP (R266, R282) -/

/-- The 64 bytes of a NOP command of version 1.0, as one number: opcode, version, tag, PARAM_LEN 4, sequence number and the word to echo. -/
def nopPacket (tag seq echo : Nat) : Nat := 0x0004 + 0x10 * 2 ^ 16 + tag * 2 ^ 32 + 4 * 2 ^ 48 + seq * 2 ^ 64 + echo * 2 ^ 128

section
variable {tag seq echo : Nat}

theorem nopPacket_opcode : fld (nopPacket tag seq echo) 0 16 = 4 := by unfold fld nopPacket; omega
theorem nopPacket_version : fld (nopPacket tag seq echo) 16 8 = 0x10 := by unfold fld nopPacket; omega
theorem nopPacket_ext : bit (nopPacket tag seq echo) 24 = false := by unfold bit nopPacket; simp; omega
theorem nopPacket_fence : bit (nopPacket tag seq echo) 25 = false := by unfold bit nopPacket; simp; omega
theorem nopPacket_tag (htag : tag < 2 ^ 12) : fld (nopPacket tag seq echo) 32 12 = tag := by unfold fld nopPacket; omega
theorem nopPacket_len (htag : tag < 2 ^ 12) : fld (nopPacket tag seq echo) 48 16 = 4 := by unfold fld nopPacket; omega
theorem nopPacket_seq (htag : tag < 2 ^ 12) (hseq : seq < 2 ^ 32) : fld (nopPacket tag seq echo) 64 32 = seq := by unfold fld nopPacket; omega
theorem nopPacket_params (htag : tag < 2 ^ 12) (hseq : seq < 2 ^ 32) : nopPacket tag seq echo / 2 ^ 128 = echo := by unfold nopPacket; omega

theorem nopPacket_header (htag : tag < 2 ^ 12) (hseq : seq < 2 ^ 32) : fld (nopPacket tag seq echo) 0 128 = 2 ^ 32 * (2 ^ 16 * (2 ^ 16 * seq + 4) + tag) + 0x100004 := by
  unfold fld nopPacket
  omega

/-- The header of a NOP has no reserved bit set. -/
theorem nopPacket_header_ok (htag : tag < 2 ^ 12) (hseq : seq < 2 ^ 32) : firstReserved headerFields (fld (nopPacket tag seq echo) 0 128) 16 = none := by
  have hcover : cover headerFields = 2 ^ 32 * (2 ^ 16 * (2 ^ 48 - 1) + (2 ^ 12 - 1)) + 0x3FFFFFF := by decide
  refine firstReserved_covered ?_ 16
  rw [nopPacket_header htag hseq, hcover, Nat.and_two_pow_mul_add (by decide) (by decide),
    Nat.and_two_pow_mul_add (by omega) (by decide), Nat.and_two_pow_sub_one_of_lt_two_pow (by omega), Nat.and_two_pow_sub_one_of_lt_two_pow (by omega)]
  rfl

end

theorem fieldsOf_nop (x : Nat) : fieldsOf 4 x = some [(0, 32)] := rfl

theorem badParam_nop {echo : Nat} (hecho : echo < 2 ^ 32) : badParam 4 echo 4 48 = none := by
  refine firstReserved_covered ?_ 48
  have hcover : cover (fieldsBelow ((fieldsOf 4 echo).getD []) 4) = 2 ^ 32 - 1 := rfl
  rw [hcover, Nat.and_two_pow_sub_one_of_lt_two_pow hecho]

theorem prm_toNat (w : Word) : prm w.toNat 0 32 = w := by
  apply BitVec.eq_of_toNat_eq
  rw [prm, fld, BitVec.toNat_ofNat, Nat.pow_zero, Nat.div_one, Nat.mod_mod, Nat.mod_eq_of_lt w.isLt]

theorem runOpcode_nop (x : Nat) (h : Hdr) (s : State) : runOpcode 4 x h s = some (execNop h (prm x 0 32) s) := by
  rw [runOpcode]
  rfl

/-- A NOP packet runs as the command NOP (R271, R282). -/
theorem State.runPacket_nop (s : State) (h : Hdr) {tag seq : Nat} (echo : Word) (htag : tag < 2 ^ 12) (hseq : seq < 2 ^ 32) :
    s.runPacket h (nopPacket tag seq echo.toNat) = .next (s.reply h { r0 := echo.toNat }) := by
  unfold State.runPacket
  extract_lets op ext len inl addr no x
  have hop : op = 4 := nopPacket_opcode
  have hext : ext = false := nopPacket_ext
  have hlen : len = 4 := nopPacket_len htag
  have hinl : inl = echo.toNat := nopPacket_params htag hseq
  clear_value op ext len inl
  subst hop hext hlen hinl
  rw [fieldsOf_nop, if_neg Bool.false_ne_true, if_neg (by decide), if_neg (by decide)]
  rw [Bool.false_and, if_neg Bool.false_ne_true, nopPacket_header_ok htag hseq]
  simp only [if_neg Bool.false_ne_true]
  have hx : x = echo.toNat := if_neg Bool.false_ne_true
  rw [hx, badParam_nop echo.isLt]
  simp only [runOpcode_nop, prm_toNat]
  exact fastPath_ok s h s rfl

/-- The generic checks let a NOP packet through in an open session of its version, with the expected sequence number and a free tag (R269, R270). -/
theorem State.checkPacket_nop {s : State} {h : Hdr} (echo : Word) (hheld : s.hif.held = [])
    (htag : h.tag.toNat < (s.hif.fns.get h.fn.val).tagCount.toNat) (hopen : (s.hif.sessions.get (s.devRing h.fn h.ring.toNat)).isOpen = true)
    (hver : (s.hif.sessions.get (s.devRing h.fn h.ring.toNat)).version = 0x10)
    (hseq : h.seq = (s.hif.sessions.get (s.devRing h.fn h.ring.toNat)).base + (s.hif.sessions.get (s.devRing h.fn h.ring.toNat)).taken) :
    s.checkPacket h (nopPacket h.tag.toNat h.seq.toNat echo.toNat) =
      .next ({ s with hif.held := [{ h := h }] }.reply h { r0 := echo.toNat }) := by
  have hop : ¬ fld (nopPacket h.tag.toNat h.seq.toNat echo.toNat) 0 16 = 1 := by
    rw [nopPacket_opcode]
    decide
  have hversion : fld (nopPacket h.tag.toNat h.seq.toNat echo.toNat) 16 8 = (0x10 : Byte).toNat := nopPacket_version
  unfold State.checkPacket
  extract_lets op e want no used hif t
  have hused : (used || decide ((s.hif.fns.get h.fn.val).tagCount.toNat ≤ h.tag.toNat)) = false := by
    simp [used, hheld, htag]
  have ht : t = { s with hif.held := [{ h := h }] } := by
    simp only [t, hif, hheld, List.nil_append]
  rw [hused, if_neg Bool.false_ne_true, if_neg hop, hopen, Bool.not_true, if_neg Bool.false_ne_true, hversion, hver, if_neg (not_not.mpr rfl),
    if_neg (not_not.mpr hseq), ht]
  exact State.runPacket_nop _ h echo h.tag.isLt h.seq.isLt

/-! ### A command taken (R264) -/

theorem State.reply_raised (s : State) (h : Hdr) (r : Rep) (hquiet : s.saf.raised = []) : (s.reply h r).saf.raised = [] := by
  obtain ⟨hreply, -⟩ := State.reply_posts s h r
  rw [hreply]
  exact hquiet

/-- The state in which a NOP taken from ring `k` runs: HEAD and the session's count have advanced. -/
def State.takenFrom (s : State) (k : Nat) : State :=
  { s with hif.rings := s.hif.rings.set k { s.hif.rings.get k with head := (s.hif.rings.get k).head + 1 },
           hif.sessions := s.hif.sessions.upd k fun e => { e with taken := e.taken + 1 } }

theorem State.behindDma_nop (s : State) (h : Hdr) (tag seq echo : Nat) : s.behindDma h (fld (nopPacket tag seq echo) 0 16) = false := by
  rw [nopPacket_opcode]
  rfl

/-- On a ring without write-back and interrupt nothing more than HEAD is told the host. -/
theorem State.takenFrom_quiet {s : State} {k : Nat} (hwb : (s.hif.rings.get k).wb = 0) (hirq : (s.hif.rings.get k).irqEn = false) :
    ((s.takenFrom k).writeBack { s.hif.rings.get k with head := (s.hif.rings.get k).head + 1 } ((s.hif.rings.get k).head + 1)).ringIrq k =
      s.takenFrom k := by
  simp [State.writeBack, hwb, State.ringIrq, State.takenFrom, hirq]

theorem exec_commandTake_nop {s : State} {ring : BitVec 13} {tag : BitVec 12} {echo seq : Word} {k : Nat} (hk : k = s.devRing 0 ring.toNat)
    (hcan : s.canTake 0 ring = true) (hopen : (s.hif.sessions.get k).isOpen = true) (hver : (s.hif.sessions.get k).version = 0x10)
    (hheld : s.hif.held = []) (htag : tag.toNat < (s.hif.fns.get 0).tagCount.toNat) (herrs : s.errs.cells = [])
    (hrod : s.heldRod ((s.hif.rings.get k).entry (s.hif.rings.get k).head) 64 = none) (hwb : (s.hif.rings.get k).wb = 0)
    (hirq : (s.hif.rings.get k).irqEn = false) (hquiet : s.saf.raised = [])
    (hseq : seq = (s.hif.sessions.get k).base + ((s.hif.sessions.get k).taken + 1))
    (hpkt : s.rdN ((s.hif.rings.get k).entry (s.hif.rings.get k).head) 64 = nopPacket tag.toNat seq.toNat echo.toNat) :
    exec (.commandTake 0 ring) s = .next ({ s.takenFrom k with hif.held := [{ h := { fn := 0, ring := ring, tag := tag, seq := seq } }] }.reply
      { fn := 0, ring := ring, tag := tag, seq := seq } { r0 := echo.toNat }) := by
  have hprmTag : prm (nopPacket tag.toNat seq.toNat echo.toNat) 32 12 = tag := by
    rw [prm, nopPacket_tag tag.isLt]
    simp
  have hprmSeq : prm (nopPacket tag.toNat seq.toNat echo.toNat) 64 32 = seq := by
    rw [prm, nopPacket_seq tag.isLt seq.isLt]
    simp
  have hbytes : leNat (s.rd ((s.hif.rings.get k).entry (s.hif.rings.get k).head) 64) = nopPacket tag.toNat seq.toNat echo.toNat := hpkt
  have hfence : bit (nopPacket tag.toNat seq.toNat echo.toNat) 25 = false := nopPacket_fence
  change execCommandTake 0 ring s = _
  unfold execCommandTake
  rw [hcan, Bool.not_true, if_neg Bool.false_ne_true, ← hk, State.blockRead_clean s herrs _ _ hrod]
  dsimp only
  rw [hbytes, hprmTag, hprmSeq, hfence, Bool.false_and, Bool.false_or, State.behindDma_nop, if_neg Bool.false_ne_true]
  have hsess : (s.hif.sessions.upd k fun e => if e.isOpen = true then { e with taken := e.taken + 1 } else e) =
      s.hif.sessions.upd k fun e => { e with taken := e.taken + 1 } := by simp only [Tab.upd, hopen, if_true]
  rw [hsess]
  change (match ((s.takenFrom k).writeBack { s.hif.rings.get k with head := (s.hif.rings.get k).head + 1 }
    ((s.hif.rings.get k).head + 1)).ringIrq k |>.checkPacket _ _ with | .next s => Host.Outcome.next s.settle | o => o) = _
  rw [State.takenFrom_quiet hwb hirq]
  have hself : (s.takenFrom k).hif.sessions.get ((s.takenFrom k).devRing 0 ring.toNat) =
      { s.hif.sessions.get k with taken := (s.hif.sessions.get k).taken + 1 } := hk ▸ Tab.get_upd_self _ _ _
  have hcheck := State.checkPacket_nop (s := s.takenFrom k) (h := { fn := 0, ring := ring, tag := tag, seq := seq }) echo hheld htag
    ((congrArg Session.isOpen hself).trans hopen) ((congrArg Session.version hself).trans hver)
    (hseq.trans (by rw [hself]))
  rw [hcheck]
  exact congrArg Host.Outcome.next (State.settle_quiet _ (State.reply_raised _ _ _ hquiet))

/-! ### A reply (R268, R269, R274) -/

theorem State.postEntry_ring_ne (s : State) {i k : Nat} (hne : i ≠ k) (bs : List Byte) : (s.postEntry k bs).hif.rings.get i = s.hif.rings.get i := by
  have hirq (t : State) : (t.ringIrq k).hif.rings.get i = t.hif.rings.get i := by
    unfold State.ringIrq
    dsimp only
    split
    · split
      · rw [State.sendVector_rings, Tab.get_set_ne _ _ hne]
      · rw [Tab.get_set_ne _ _ hne]
    · rfl
  rw [State.postEntry, hirq, State.writeBack_rings, Tab.get_set_ne _ _ hne]
  rfl

/-- Where no CLOSE_SESSION waits, a reply without an extended result posts its entry, lets its command go, and may end a session that drains. -/
theorem State.reply_eq {s : State} {h : Hdr} {r : Rep} (hext : r.ext = none)
    (hclosing : (s.hif.sessions.get (s.devRing h.fn h.ring.toNat)).closing = none) :
    ∃ ss, s.reply h r = { s.postReply h r with hif.held := s.hif.held.filter (fun x => !(x.h == h)), hif.sessions := ss } := by
  obtain ⟨hsess, hheld, hfns⟩ := State.postReply_keepsSessions s h r
  have hdev : (s.postReply h r).devRing h.fn h.ring.toNat = s.devRing h.fn h.ring.toNat := by
    rw [State.devRing, State.devRing, hfns]
  have hnone : ((s.postReply h r).hif.sessions.get ((s.postReply h r).devRing h.fn h.ring.toNat)).closing = none := by
    rw [hdev, hsess, hclosing]
  rw [State.reply, hext]
  dsimp only
  rw [hheld, State.closeDrained]
  simp only [show (State.devRing { s.postReply h r with hif.held := s.hif.held.filter (fun x => !(x.h == h)) } h.fn h.ring.toNat) =
    (s.postReply h r).devRing h.fn h.ring.toNat from rfl, hnone]
  split
  · exact ⟨_, rfl⟩
  · exact ⟨_, rfl⟩

theorem State.postReply_eq {s : State} {h : Hdr} (htype : (s.hif.rings.get (s.statusRing h)).type = 2)
    (hpost : (s.hif.rings.get (s.statusRing h)).canPost = true) (r : Rep) : s.postReply h r = s.postEntry (s.statusRing h) (replyBytes s h r) := by
  simp [State.postReply, htype, hpost]

theorem length_leBytes (n x : Nat) : (leBytes n x).length = n := by
  induction n generalizing x with
  | zero => rfl
  | succ n ih => simp [leBytes, ih]

/-- What the taking of a command asks of its ring, its session and its status ring (R264, R274). -/
theorem State.canTake_ring {s : State} {fn : Fin 16} {ring : BitVec 13} (h : s.canTake fn ring = true) :
    (s.hif.rings.get (s.devRing fn ring.toNat)).type = 1 ∧ (s.hif.sessions.get (s.devRing fn ring.toNat)).closing = none ∧
      (s.hif.rings.get (s.devRing fn (s.hif.rings.get (s.devRing fn ring.toNat)).pair.toNat)).type = 2 := by
  simp only [State.canTake, Bool.and_eq_true, beq_iff_eq, Option.isNone_iff_eq_none] at h
  obtain ⟨⟨⟨⟨⟨⟨⟨⟨⟨⟨⟨-, -⟩, htype⟩, -⟩, -⟩, -⟩, hclosing⟩, -⟩, hstatus⟩, -⟩, -⟩, -⟩ := h
  exact ⟨htype, hclosing, hstatus⟩

/-- A reply leaves a ring that is not a status ring as it is. -/
theorem State.postReply_ring_ne {s : State} {h : Hdr} {k : Nat} (hk : (s.hif.rings.get k).type ≠ 2) (r : Rep) :
    (s.postReply h r).hif.rings.get k = s.hif.rings.get k := by
  unfold State.postReply
  dsimp only
  split
  · next hc =>
    refine State.postEntry_ring_ne s (fun e => hk ?_) _
    rw [Bool.and_eq_true, beq_iff_eq] at hc
    rw [e]
    exact hc.1
  · rfl

theorem State.reply_command_ring {s : State} {h : Hdr} {r : Rep} (hext : r.ext = none)
    (hclosing : (s.hif.sessions.get (s.devRing h.fn h.ring.toNat)).closing = none) {k : Nat} {g : Ring} (hg : s.hif.rings.get k = g)
    (htype : g.type = 1) :
    ((s.reply h r).hif.rings.get k).head = g.head ∧ (s.reply h r).hif.held = s.hif.held.filter (fun x => !(x.h == h)) := by
  obtain ⟨ss, hreply⟩ := State.reply_eq hext hclosing
  rw [hreply, ← hg]
  exact ⟨congrArg Ring.head (State.postReply_ring_ne (by rw [hg, htype]; decide) r), rfl⟩

/-- A reply on a status ring without write-back and interrupt: its entry is written, TAIL advances, and the command is let go. -/
theorem State.reply_plain {s : State} {h : Hdr} {r : Rep} (hext : r.ext = none) (htype : (s.hif.rings.get (s.statusRing h)).type = 2)
    (hpost : (s.hif.rings.get (s.statusRing h)).canPost = true) (hwb : (s.hif.rings.get (s.statusRing h)).wb = 0)
    (hirq : (s.hif.rings.get (s.statusRing h)).irqEn = false) (hclosing : (s.hif.sessions.get (s.devRing h.fn h.ring.toNat)).closing = none) :
    (s.reply h r).mem = s.mem.write ((s.hif.rings.get (s.statusRing h)).entry (s.hif.rings.get (s.statusRing h)).tail) (replyBytes s h r) ∧
      ((s.reply h r).hif.rings.get (s.statusRing h)).tail = (s.hif.rings.get (s.statusRing h)).tail + 1 ∧
      (s.reply h r).hif.held = s.hif.held.filter (fun x => !(x.h == h)) := by
  obtain ⟨ss, hreply⟩ := State.reply_eq hext hclosing
  rw [hreply, State.postReply_eq htype hpost, State.postEntry_plain hwb hirq]
  exact ⟨rfl, congrArg Ring.tail (Tab.get_set_self s.hif.rings _ _), rfl⟩

/-- What is posted to the host changes no block of the device. -/
theorem Posts.frame {s t : State} (h : Posts s t) :
    t.pln = s.pln ∧ t.tly = s.tly ∧ t.rods = s.rods ∧ t.tim = s.tim ∧ t.saf = s.saf ∧ t.sec = s.sec ∧ t.pwr = s.pwr ∧ t.trc = s.trc ∧
      t.memc = s.memc ∧ t.tyb = s.tyb ∧ t.sns = s.sns ∧ t.eth = s.eth ∧ t.can = s.can ∧ t.cle = s.cle ∧ t.pgk = s.pgk ∧ t.cry = s.cry ∧ t.jrn = s.jrn := by
  obtain ⟨h, -⟩ := h
  refine ⟨?_, ?_, ?_, ?_, ?_, ?_, ?_, ?_, ?_, ?_, ?_, ?_, ?_, ?_, ?_, ?_, ?_⟩ <;> rw [h]

/-- Settles O12: the NOP of a ring's packet runs as the command NOP, and a reply is the entry at its status ring's tail. -/
theorem commandTakeAndReply : Obligations.CommandTakeAndReply := by
  unfold Obligations.CommandTakeAndReply
  constructor
  · intro ring tag echo s k g e h hcan hopen hver hheld htag herrs hrod hwb hirq hquiet _ hpkt
    obtain ⟨htype, hclosing, -⟩ := State.canTake_ring hcan
    have hexec := exec_commandTake_nop (seq := e.base + (e.taken + 1)) rfl hcan hopen hver hheld htag herrs hrod hwb hirq hquiet rfl hpkt
    obtain ⟨hhead, hleft⟩ := State.reply_command_ring (s := { s.takenFrom k with hif.held := [{ h := h }] }) (h := h) (r := { r0 := echo.toNat }) rfl
      ((congrArg Session.closing (Tab.get_upd_self s.hif.sessions k _)).trans hclosing) (Tab.get_set_self s.hif.rings k _) htype
    refine ⟨_, hexec, hhead, hleft.trans ?_, rfl⟩
    simp
  · intro h r s k g hext htype hpost hwb hirq hclosing t
    have hlen : (replyBytes s h r).length = 32 := length_leBytes _ _
    obtain ⟨hmem, htail, hheld⟩ : t.mem = _ ∧ (t.hif.rings.get k).tail = _ ∧ t.hif.held = _ := State.reply_plain hext htype hpost hwb hirq hclosing
    refine ⟨?_, htail, fun x hx => ?_, fun a ha => ?_, Posts.frame (State.reply_posts s h r)⟩
    · rw [State.rd, hmem]
      exact (congrArg _ hlen.symm).trans (Memory.read_write s.mem _ _)
    · rw [hheld] at hx
      simpa using (List.mem_filter.mp hx).2
    · rw [hmem]
      exact Memory.get_write_out s.mem _ _ a (ha.imp_right fun h => hlen.symm ▸ h)

end Sys2Proof.Machine
end

section
/-! Intake commands: settles O34. -/

namespace Sys2Proof.Machine

open Sys2Proof.Claims

theorem all_not_of_forall {cs : List (Bool × Nat)} (h : ∀ c ∈ cs, c.1 = false) : cs.all (fun c => !c.1) = true := by
  rw [List.all_eq_true]
  intro c hc
  rw [h c hc, Bool.not_false]

section
variable {s : State} {h : Hdr}

theorem exec_portConfig (hpf : pf0 s h) {port phy lanes : Byte} {rate : BitVec 16} (hport : port.toNat ≤ 15)
    (hphy : phy = 0 ∧ (lanes = 1 ∨ lanes = 2 ∨ lanes = 4) ∧ within 80 4500 rate.toNat = true ∨
      phy = 1 ∧ within 1 3 lanes.toNat = true ∧ within 80 6000 rate.toNat = true)
    (hidle : (s.streamsOn fun q => camPort q.desc.toNat == port.toNat) = []) :
    exec (.portConfig h port phy lanes rate) s =
      .next ({ s with sns.ports := s.sns.ports.upd port.toNat fun q => { q with phy := phy == 1, lanes := lanes.setWidth 3, rate := rate } }.reply h {}) := by
  obtain ⟨hsup, hfn⟩ := hpf
  refine firmware_checked hsup h ?_ _ rfl
  rcases hphy with ⟨rfl, hlanes, hrate⟩ | ⟨rfl, hlanes, hrate⟩
  · rcases hlanes with rfl | rfl | rfl <;> simp [hfn, hport, hrate, hidle]
  · simp [hfn, hport, hlanes, hrate, hidle]

section
variable {p : Byte} {d : BitVec 2048}

theorem exec_streamConfig (hpf : pf0 s h) (hp : p.toNat ≤ 31) (hoff : (s.point p.toNat).enabled = false) (hfree : s.binding p.toNat = none)
    (hok : ∀ c ∈ s.cameraChecks d.toNat, c.1 = false) : exec (.streamConfig h p d) s =
      .next ((s.updPoint p.toNat fun q => { q.zeroCounts with configured := true, desc := d }).reply h {}) := by
  obtain ⟨hsup, hfn⟩ := hpf
  refine firmware_checked hsup h ?_ _ rfl
  rw [List.all_append, List.all_append, all_not_of_forall hok]
  simp [hfn, hp, hoff, hfree]

theorem exec_recordConfig (hpf : pf0 s h) (hp : within 32 63 p.toNat = true) (hoff : (s.point p.toNat).enabled = false)
    (hfree : s.binding p.toNat = none) (hok : ∀ c ∈ s.recordChecks d.toNat, c.1 = false) : exec (.recordConfig h p d) s =
      .next ((s.updPoint p.toNat fun q => { q.zeroCounts with configured := true, desc := d }).reply h {}) := by
  obtain ⟨hsup, hfn⟩ := hpf
  refine firmware_checked hsup h ?_ _ rfl
  rw [List.all_append, List.all_append, all_not_of_forall hok]
  simp [hfn, hp, hoff, hfree]

/-- A record point needs no camera port, and a camera's port has lanes (R293). -/
theorem cam_port_up {lanes : BitVec 3} {n : Nat} (h : 32 ≤ n ∨ lanes ≠ 0) : (decide (n < 32) && lanes == 0) = false := by
  rcases h with h | h
  · rw [decide_eq_false (not_lt.mpr h), Bool.false_and]
  · rw [beq_eq_false_iff_ne.mpr h, Bool.and_false]

/-- STREAM_ENABLE of a configured point whose port is up and whose rates fit (R293). -/
theorem exec_streamEnable (hpf : pf0 s h) (hp : p.toNat ≤ 63) (hconf : (s.point p.toNat).configured = true)
    (hport : (decide (p.toNat < 32) && (s.sns.ports.get (camPort (s.point p.toNat).desc.toNat)).lanes == 0) = false)
    (hrate : (decide (p.toNat < 32) && !(s.point p.toNat).enabled &&
      (s.rateOver (p.toNat :: s.streamsOn fun o => camPort o.desc.toNat == camPort (s.point p.toNat).desc.toNat) 18000 ||
        s.rateOver (p.toNat :: s.streamsOn fun _ => true) 288000)) = false) :
    exec (.streamEnable h p) s = .next ((if (s.point p.toNat).enabled then s
      else s.updPoint p.toNat fun q => { q with enabled := true, lastStart := none, embCnt := none, skips := 0, injDue := false }).reply h {}) := by
  obtain ⟨hsup, hfn⟩ := hpf
  change firmware h s (doStreamEnable h p s) = _
  rw [doStreamEnable]
  simp only [hport, hrate]
  rw [checks_pass (by simp [hfn, hp, hconf])]
  split <;> exact firmware_ok hsup h _ rfl

theorem exec_recordSubmit {a : BitVec 64} {n : Word} (hsup : s.saf.supHalted = false) (hp : within 32 63 p.toNat = true)
    (hown : h.fn = 0 ∨ s.pointPart p.toNat = h.fn.val) (haddr : s.snsAddr (s.pointPart p.toNat) a.toNat n.toNat = true)
    (hon : (s.point p.toNat).enabled = true)
    (hrate : ∀ t, (s.point p.toNat).lastSubmit = some t → fld (s.point p.toNat).desc.toNat 160 32 * 1000 ≤ (s.now - t).toNat)
    (hroom : (s.point p.toNat).queue.length < 16) :
    exec (.recordSubmit h p a n) s = .next ((s.updPoint p.toNat fun q =>
      { q with srcSeq := (s.point p.toNat).srcSeq + 1, lastSubmit := some s.now,
               queue := q.queue ++ [{ addr := a.toNat, bytes := n.toNat, seq := ((s.point p.toNat).srcSeq + 1).toNat }] }).reply h
      { r0 := ((s.point p.toNat).srcSeq + 1).toNat }) := by
  have hlast : (match (s.point p.toNat).lastSubmit with
      | some t => decide ((s.now - t).toNat < fld (s.point p.toNat).desc.toNat 160 32 * 1000) | none => false) = false := by
    split
    · next t ht => exact decide_eq_false (not_lt.mpr (hrate t ht))
    · rfl
  have hmine : (within 32 63 p.toNat && h.fn != 0 && s.pointPart p.toNat != h.fn.val) = false := by
    rcases hown with hown | hown <;> simp [hown]
  refine firmware_checked hsup h ?_ _ rfl
  rw [List.all_cons, hmine]
  simp only [List.all_cons, List.all_nil, hp, haddr, hon, not_le.mpr hroom, decide_false, Bool.not_true, Bool.not_false, Bool.and_self,
    Bool.and_true, Bool.true_and]
  exact congrArg not hlast

theorem exec_streamQuery {clear : Byte} (harea : area s h) (hp : p.toNat ≤ 63) (hown : h.fn = 0 ∨ s.pointPart p.toNat = h.fn.val)
    (hclear : clear.toNat ≤ 1) : exec (.streamQuery h p clear) s =
      .next ((if clear = 1 then s.updPoint p.toNat Point.zeroCounts else s).reply h { ext := some (leBytes 64 (s.pointEntry p.toNat)) }) := by
  refine firmware_checked_area harea ?_ _ _
  rcases hown with hown | hown <;> simp [hp, hown, hclear]

end
end

/-- Settles O34: each intake command whose checks pass has its effect. -/
theorem intakeCommandsComplete : Obligations.IntakeCommandsComplete := by
  unfold Obligations.IntakeCommandsComplete
  refine ⟨fun h port phy lanes rate s hpf => exec_portConfig hpf, fun h p d s hpf hoff hfree => ⟨fun hp => exec_streamConfig hpf hp hoff hfree,
      fun hp => exec_recordConfig hpf hp hoff hfree⟩, fun h p s hpf hp hconf => ⟨fun hon hport => ?_, fun hoff hrec => ?_, fun hoff hcam hport hr1 hr2 => ?_⟩,
    fun h p s hpf hp => firmware_checked hpf.1 h (by simp [hpf.2, hp]) _ rfl, fun h p a n s => exec_recordSubmit, fun h p clear s => exec_streamQuery⟩
  · rw [exec_streamEnable hpf hp hconf (cam_port_up hport) (by simp [hon]), if_pos hon]
  · rw [exec_streamEnable hpf hp hconf (by simp [hrec]) (by simp [hrec]), if_neg (by simp [hoff])]
  · rw [exec_streamEnable hpf hp hconf (cam_port_up (.inr hport)) (by simp [hr1, hr2]), if_neg (by simp [hoff])]

end Sys2Proof.Machine
end

section
/-! Commands of the control loop engine: settles O36 and O37. -/

namespace Sys2Proof.Machine

open Sys2Proof.Claims

/-! ### Commands on a loop (R320 to R342) -/

section
variable {s : State} {h : Hdr} {loop : Byte} (hsup : s.saf.supHalted = false) (hloop : loop.toNat ≤ 127) (hmay : s.cleMay h.fn loop.toNat = true)
include hsup hloop hmay

theorem exec_cleLoopConfig {d : BitVec 2048} {new : CleLoop} (hnew : new = { s.loopSt loop.toNat with configured := true, desc := d, evaled := false })
    (hok : new.recordOk loop.toNat = true) (hoff : (s.loopSt loop.toNat).enabled = false) (hfree : s.binding (64 + loop.toNat) = none) :
    exec (.cleLoopConfig h loop d) s = .next ((s.updLoop loop.toNat fun _ => new).forcePairs.reply h {}) := by
  change firmware h s (doCleLoopConfig h loop d s) = _
  unfold doCleLoopConfig
  dsimp only
  rw [← hnew]
  exact firmware_checked hsup h (by simp [hmay, hloop, hok, hoff, hfree]) _ rfl

theorem exec_cleCoefSet {set : Byte} {c : BitVec 512} (hset : set.toNat ≤ 7) (hok : coefOk c.toNat = true) :
    exec (.cleCoefSet h loop set c) s = .next ((s.updLoop loop.toNat fun l => { l with sets := l.sets.set set.toNat c }).reply h {}) :=
  firmware_checked hsup h (by simp [hmay, hloop, hset, hok]) _ rfl

theorem exec_cleLoopEnable (hconf : (s.loopSt loop.toNat).configured = true) (hoff : (s.loopSt loop.toNat).enabled = false)
    (hready : s.inputsReady (s.loopSt loop.toNat) = true)
    (hfree : ∀ c ∈ s.cle.loops.cells, c.2.enabled = true → loopsConflict (s.loopSt loop.toNat) c.2 = false)
    (hlat : s.latencyOk (s.loopSt loop.toNat) = true) :
    exec (.cleLoopEnable h loop) s = .next (((s.updLoop loop.toNat fun l => { l.fresh with
      enabled := true, stopped := false, live := false, evaled := false, evalSeq := 0, evals := 0, encPrev := {}, snap := 0 }).forcePairs.stopIfLost
        loop.toNat).reply h {}) := by
  have hnone : (s.cle.loops.cells.any fun c => c.2.enabled && loopsConflict (s.loopSt loop.toNat) c.2) = false := by
    rw [List.any_eq_false]
    intro c hc
    rw [Bool.and_eq_true, not_and, Bool.not_eq_true]
    exact hfree c hc
  refine firmware_checked hsup h ?_ _ rfl
  simp only [hmay, not_lt.mpr hloop, hconf, hoff, hready, hnone, hlat, List.all_cons, List.all_nil]
  rfl

theorem exec_cleLoopDisable : exec (.cleLoopDisable h loop) s = .next
    ((((s.updLoop loop.toNat fun l => { l with enabled := false, stopped := false, live := false }).endTests loop.toNat).forcePairs).reply h {}) :=
  firmware_checked hsup h (by simp [hmay, hloop]) _ rfl

theorem exec_cleLoopResume (hon : (s.loopSt loop.toNat).enabled = true) (hstop : (s.loopSt loop.toNat).stopped = true) :
    exec (.cleLoopResume h loop) s = .next
      (((s.updLoop loop.toNat fun l => { l.fresh with stopped := false, live := false }).stopIfLost loop.toNat).reply h {}) :=
  firmware_checked hsup h (by simp [hmay, hloop, hon, hstop]) _ rfl

theorem exec_cleMailboxWrite (sp a sc : Word) : exec (.cleMailboxWrite h loop sp a sc) s = .next ((s.mailbox loop.toNat sp a sc).reply h {}) :=
  firmware_checked hsup h (by simp [hmay, hloop]) _ rfl

theorem exec_cleInject {gen kind point : Byte} {len : Word} {hold : BitVec 16} {seed : Word} (amp f0 df : Word) (hgen : gen.toNat ≤ 3)
    (hkind : within 1 4 kind.toNat = true) (hpoint : point.toNat ≤ 2) (hlen : len ≠ 0)
    (hprbs : kind = 2 → hold ≠ 0 ∧ seed ≠ 0 ∧ seed.getLsbD 31 = false) (hidle : (s.cle.gens.get gen.toNat).running = false)
    (hon : (s.loopSt loop.toNat).enabled = true) :
    exec (.cleInject h gen kind loop point amp len hold f0 df seed) s = .next ({ s with cle.gens := s.cle.gens.set gen.toNat {
      running := true, kind := kind.toNat, loop := loop.toNat, point := point.toNat, amp := amp.toInt, left := len.toNat, hold := hold.toNat,
      inc := f0, df := if kind = 4 then 0 else df, lfsr := seed } }.reply h {}) := by
  have hseed : (decide (kind = 2) && (hold == 0 || seed == 0 || seed.getLsbD 31)) = false := by
    by_cases hk : kind = 2
    · obtain ⟨hhold, hseed, hbit⟩ := hprbs hk
      rw [beq_eq_false_iff_ne.mpr hhold, beq_eq_false_iff_ne.mpr hseed, hbit]
      simp
    · rw [decide_eq_false hk, Bool.false_and]
  refine firmware_checked hsup h ?_ _ rfl
  simp only [hmay, not_lt.mpr hgen, hkind, not_lt.mpr hloop, not_lt.mpr hpoint, beq_eq_false_iff_ne.mpr hlen, hseed, hidle, hon, List.all_cons, List.all_nil]
  rfl

theorem exec_cleCapture_loop {ch gen : Byte} {decim : BitVec 16} {count : Word} {dest : BitVec 64} (hch : ch.toNat ≤ 3) (hgen : gen.toNat ≤ 3)
    (hdecim : decim ≠ 0) (hcount : within 1 65536 count.toNat = true) (hline : lineAligned dest.toNat = true)
    (hap : inAperture dest.toNat (32 * count.toNat) = true) (hidle : (s.cle.caps.get ch.toNat).running = false) :
    exec (.cleCapture h ch loop 0 gen decim count dest) s = .next ({ s with cle.caps := s.cle.caps.set ch.toNat {
      running := true, loop := loop.toNat, gen := none, decim := decim.toNat, left := count.toNat, dest := dest.toNat, fn := h.fn.val } }.reply h {}) := by
  refine firmware_checked hsup h ?_ _ rfl
  simp only [hmay, not_lt.mpr hch, not_lt.mpr hloop, not_lt.mpr hgen, beq_eq_false_iff_ne.mpr hdecim, hcount, hline, hap, hidle, List.all_cons, List.all_nil]
  rfl

end

/-- Settles O36: each loop command whose checks pass has its effect. -/
theorem controlLoopCommandsComplete : Obligations.ControlLoopCommandsComplete := by
  unfold Obligations.ControlLoopCommandsComplete
  intro h loop s hsup hloop hmay
  refine ⟨fun d => exec_cleLoopConfig hsup hloop hmay rfl, fun set c => exec_cleCoefSet hsup hloop hmay, exec_cleLoopEnable hsup hloop hmay,
    exec_cleLoopDisable hsup hloop hmay, exec_cleLoopResume hsup hloop hmay, exec_cleMailboxWrite hsup hloop hmay,
    fun gen kind point amp len hold f0 df seed => exec_cleInject hsup hloop hmay amp f0 df,
    fun ch gen decim count dest => exec_cleCapture_loop hsup hloop hmay, fun hres => ?_⟩
  exact firmware_checked_area ⟨hsup, hres⟩ (by simp [hmay, hloop]) _ _

/-! ### Commands on inputs, pairs and evaluation (R328 to R338, R531) -/

section
variable {s : State} {h : Hdr} (hpf : pf0 s h)
include hpf

theorem exec_cleInputConfig_encoder {i : Byte} {x : BitVec 112} (hi : i.toNat < 32) (h0 : fld x.toNat 0 16 ≤ 255) (h1 : fld x.toNat 16 16 ≤ 2)
    (h2 : fld x.toNat 32 16 ≤ 1) (hfree : ∀ c ∈ s.cle.loops.cells, c.2.enabled = true → c.2.reads 0 i.toNat = false) :
    exec (.cleInputConfig h 0 i x) s = .next ({ s with cle.encs := s.cle.encs.upd i.toNat fun e =>
      { e with configured := true, filt := fld x.toNat 0 16, indexMode := fld x.toNat 16 16, dir := fld x.toNat 32 16 == 1, fault := false } }.reply h {}) := by
  obtain ⟨hsup, hfn⟩ := hpf
  have hused : (s.cle.loops.cells.any fun c => c.2.enabled && c.2.reads 0 i.toNat) = false := by
    rw [List.any_eq_false]
    intro c hc
    rw [Bool.and_eq_true, not_and, Bool.not_eq_true]
    exact hfree c hc
  refine firmware_checked hsup h ?_ _ rfl
  simp [hfn, hi, h0, h1, h2, hused]

theorem exec_clePwmConfig_edge {q : Byte} {period : Word} {dr df : BitVec 16} (hq : q.toNat ≤ 47) (hper : within 2 16777215 period.toNat = true)
    (hdr : dr.toNat ≤ 4095) (hdf : df.toNat ≤ 4095)
    (hfree : ∀ c ∈ s.cle.loops.cells, c.2.enabled = true → ¬ (c.2.outKind = 1 ∧ c.2.outIndex = q.toNat)) :
    exec (.clePwmConfig h q period 0 0 dr df 0 0 0 0 0) s = .next ((s.updPair q.toNat fun p => Pwm.follow { p with
      configured := true, period := period.toNat, centre := false, update := 0, dtRise := dr.toNat, dtFall := df.toNat, polA := false, polB := false,
      safeA := false, safeB := false, group := 0, forced := true }).reply h {}) := by
  obtain ⟨hsup, hfn⟩ := hpf
  have hlow : s.safeLow (0 : Byte).toNat = false := by simp [State.safeLow]
  have hdriven : (s.cle.loops.cells.any fun c => c.2.enabled && c.2.outKind == 1 && c.2.outIndex == q.toNat) = false := by
    rw [List.any_eq_false]
    intro c hc
    simpa using fun h1 h2 h3 => hfree c hc h1 ⟨h2, h3⟩
  change firmware h s (doClePwmConfig h q period 0 0 dr df 0 0 0 0 0 s) = _
  rw [doClePwmConfig]
  simp only [hlow, Bool.or_false]
  exact firmware_checked hsup h (by simp [hfn, hq, hper, hdr, hdf, hdriven]) _ rfl

theorem exec_clePwmRelease {q : Byte} (hq : q.toNat ≤ 47) (hconf : (s.cle.pwms.get q.toNat).configured = true) (hsafe : s.saf.safe = false)
    (hhigh : s.safeLow (s.cle.pwms.get q.toNat).group = false) :
    exec (.clePwmRelease h q) s = .next ((s.updPair q.toNat fun p => { p with latched := false }).reply h {}) := by
  obtain ⟨hsup, hfn⟩ := hpf
  exact firmware_checked hsup h (by simp [hfn, hq, hconf, hsafe, hhigh]) _ rfl

theorem exec_cleStart (hsafe : s.saf.safe = false) (hst : s.cle.state = 0) (hstart : s.cle.start = none) {mode pin : Byte} (hmode : mode.toNat ≤ 2)
    (hpin : pin.toNat ≤ 3) (at_ : BitVec 64) : exec (.cleStart h mode pin at_) s =
      if mode = 0 then .next (s.cleBegin (some h))
      else .next { (if mode = 1 then s.armLate at_ else s) with cle.start := some { h := some h, mode := mode.toNat, pin := pin.toNat, at_ := at_ } } := by
  obtain ⟨hsup, hfn⟩ := hpf
  change firmware h s (doCleStart h mode pin at_ s) = _
  rw [doCleStart, checks_pass (by simp [hfn, hmode, hpin, hsafe, hst, hstart])]
  split <;> exact firmware_later hsup h _

theorem exec_cleStop_running (hstart : s.cle.start = none) (hst : s.cle.state = 1 ∨ s.cle.state = 2) :
    exec (.cleStop h) s = .next { s with cle.state := 3, cle.stop := some (some h) } := by
  obtain ⟨hsup, hfn⟩ := hpf
  change firmware h s (doCleStop h s) = _
  simp only [doCleStop, hstart]
  refine firmware_checked_later hsup h ?_ _
  rcases hst with hst | hst <;> simp [hfn, hst]

end

/-- Settles O37: each command of PF0 on inputs, pairs and evaluation has its effect. -/
theorem controlEngineCommandsComplete : Obligations.ControlEngineCommandsComplete := by
  unfold Obligations.ControlEngineCommandsComplete
  intro h s hpf
  refine ⟨fun i x => exec_cleInputConfig_encoder hpf, fun q period dr df => exec_clePwmConfig_edge hpf, fun q => exec_clePwmRelease hpf,
    fun hsafe hst hstart pin at_ hpin => ⟨?_, ?_, fun hlate => ?_⟩, exec_cleStop_running hpf⟩
  · rw [exec_cleStart hpf hsafe hst hstart (by decide) hpin, if_pos rfl]
  · rw [exec_cleStart hpf hsafe hst hstart (by decide) hpin, if_neg (by decide), if_neg (by decide)]
    rfl
  · have hnow : s.armLate at_ = s := by simp [State.armLate, hlate]
    rw [exec_cleStart hpf hsafe hst hstart (by decide) hpin, if_neg (by decide), if_pos rfl, hnow]
    rfl

end Sys2Proof.Machine
end

section
/-! What happens to the control loop engine in time: settles O38. -/

namespace Sys2Proof.Machine

open Sys2Proof.Claims

/-! ### An evaluation (R324 to R327) -/

theorem State.staleness_unscheduled {s : State} {l : CleLoop} (h : srcKind (l.f 48 16) ≠ 6) : s.staleness l = ({ l with stale := false }, true, false) := by
  simp only [State.staleness, h, ne_eq, not_false_eq_true, if_true]

theorem State.stepGens_none {s : State} (h : s.cle.gens.cells = []) (n : Nat) : s.stepGens n = ((0, 0, 0), [], s) := by
  simp only [State.stepGens, Tab.keys_of_cells_nil h, List.foldl_nil]

theorem State.loopOutput_none {s : State} {l : CleLoop} (h : l.outKind = 0) (out : Int) (t : Nat) : s.loopOutput l out t = (s, false) := by
  simp only [State.loopOutput, h]

theorem State.watchEvent_unplanned {s : State} (h : s.pln.plan = none) (kind target : Nat) : s.watchEvent kind target = s := by
  simp only [State.watchEvent, h, Option.map_none, Option.getD_none, List.foldl_nil]

/-- What an evaluation without generators reads (R324). -/
def State.evalIn (s : State) (l : CleLoop) : EvalIn :=
  { fb := s.source l l.first false (l.f 32 16), sp := s.source l l.first true (l.f 48 16), sched := s.source l l.first false (l.f 64 16),
    ff := s.source l l.first false (l.f 80 16), gr := 0, ge := 0, gu := 0 }

/-- An evaluation of a due loop with no output, generator, capture or snapshot: what it keeps is the control law's outcome (R326). -/
theorem State.evaluate_plain {s u : State} {n : Nat} {l : CleLoop} (hdue : s.loopDue (s.loopSt n) = true)
    (hl : s.staleness (s.loopSt n) = (l, true, false)) (hu : u = s.updLoop n fun _ => l) (hstale : l.stale = false)
    (hout : l.outKind = 0) (hcaps : u.cle.caps.cells = []) (hgens : u.cle.gens.cells = []) (hplan : u.pln.plan = none)
    (hsnap : l.f 800 16 = 0) : ∃ f a b, s.evaluate n = (u.updLoop n f).trace 65 2 6 a b ∧
      ∀ l', (f l').out = (l.law l.first (u.evalIn l)).out ∧ (f l').i = (l.law l.first (u.evalIn l)).i ∧
        (f l').k = (l.law l.first (u.evalIn l)).k ∧ (f l').live = true ∧ (f l').first = false := by
  simp only [State.evaluate, hdue, hl, Bool.not_true, Bool.false_eq_true, if_false, ← hu, State.stepGens_none hgens, State.loopOutput_none hout, hstale,
    Bool.not_false, if_true, hsnap, bne_self_eq_false, Bool.false_and]
  rw [Tab.keys_of_cells_nil (by exact hcaps), List.foldl_nil, State.watchEvent_unplanned]
  · exact ⟨_, _, _, rfl, fun l' => ⟨rfl, rfl, rfl, rfl, rfl⟩⟩
  · obtain ⟨htrace, -⟩ := State.trace_records (u.updLoop n _) 65 2 6 _ _
    rw [htrace]
    exact hplan

/-- Clearing STALE of a loop changes nothing that a source reads. -/
theorem State.source_fresh (s : State) (n : Nat) (first setpoint : Bool) (c : Nat) :
    (s.updLoop n fun _ => { s.loopSt n with stale := false }).source { s.loopSt n with stale := false } first setpoint c =
      s.source (s.loopSt n) first setpoint c := by
  have hloop (i : Nat) : ((s.updLoop n fun _ => { s.loopSt n with stale := false }).loopSt i).evaled = (s.loopSt i).evaled ∧
      ((s.updLoop n fun _ => { s.loopSt n with stale := false }).loopSt i).out = (s.loopSt i).out := by
    unfold State.updLoop State.loopSt
    dsimp only
    rw [Tab.upd, Tab.get_set]
    split
    · next h => exact ⟨by rw [h], by rw [h]⟩
    · exact ⟨rfl, rfl⟩
  simp only [State.source, (hloop _).1, (hloop _).2]
  rfl

theorem State.evalIn_fresh (s : State) (n : Nat) :
    (s.updLoop n fun _ => { s.loopSt n with stale := false }).evalIn { s.loopSt n with stale := false } = s.evalIn (s.loopSt n) := by
  simp only [State.evalIn, State.source_fresh]
  rfl

/-- A record offered to a source changes the trace unit alone (R497). -/
theorem State.trace_eq (s : State) (src level type a b : Nat) : ∃ x, s.trace src level type a b = { s with trc := x } := by
  unfold State.trace
  dsimp only
  split
  · exact ⟨_, rfl⟩
  · exact ⟨s.trc, rfl⟩

theorem exec_loopEvaluation {s : State} {n : Fin 128} (hdue : s.loopDue (s.loopSt n.val) = true) (hset : srcKind ((s.loopSt n.val).f 48 16) ≠ 6)
    (hout : (s.loopSt n.val).outKind = 0) (hcaps : s.cle.caps.cells = []) (hgens : s.cle.gens.cells = []) (hplan : s.pln.plan = none)
    (hquiet : s.saf.raised = []) (hsnap : (s.loopSt n.val).f 800 16 = 0) :
    ∃ t, exec (.loopEvaluation n) s = .next t ∧
      (t.loopSt n.val).out = ((s.loopSt n.val).law (s.loopSt n.val).first (s.evalIn (s.loopSt n.val))).out ∧
      (t.loopSt n.val).i = ((s.loopSt n.val).law (s.loopSt n.val).first (s.evalIn (s.loopSt n.val))).i ∧
      (t.loopSt n.val).k = ((s.loopSt n.val).law (s.loopSt n.val).first (s.evalIn (s.loopSt n.val))).k ∧
      (t.loopSt n.val).live = true ∧ (t.loopSt n.val).first = false ∧ t.mem = s.mem := by
  obtain ⟨f, a, b, heval, hf⟩ := State.evaluate_plain hdue (State.staleness_unscheduled hset) rfl rfl hout hcaps hgens hplan hsnap
  rw [State.evalIn_fresh] at hf
  obtain ⟨x, hx⟩ := State.trace_eq ((s.updLoop n.val fun _ => { s.loopSt n.val with stale := false }).updLoop n.val f) 65 2 6 a b
  have hloop : (State.loopSt { (s.updLoop n.val fun _ => { s.loopSt n.val with stale := false }).updLoop n.val f with trc := x } n.val) =
      f { s.loopSt n.val with stale := false } := (Tab.get_upd_self _ _ _).trans (congrArg f (Tab.get_upd_self _ _ _))
  obtain ⟨ho, hi, hk, hlive, hfirst⟩ := hf { s.loopSt n.val with stale := false }
  refine ⟨_, congrArg Host.Outcome.next (State.settle_quiet _ ?_), ?_⟩
  · rw [heval, hx]
    exact hquiet
  · rw [heval, hx, hloop]
    exact ⟨ho, hi, hk, hlive, hfirst, rfl⟩

/-! ### Starts and periods (R318, R319, R531) -/

theorem exec_cleStartFire {s : State} {c : CleStart} (hc : s.cle.start = some c)
    (hdue : if c.mode = 2 then c.seen = true else atOrLater 64 s.now.toNat c.at_.toNat = true) : exec .cleStartFire s = .next (s.cleBegin c.h) := by
  have hyes : (if c.mode = 2 then c.seen else atOrLater 64 s.now.toNat c.at_.toNat) = true := by
    split at hdue
    · next h => rw [if_pos h, hdue]
    · next h => rw [if_neg h, hdue]
  change execCleStartFire s = _
  simp only [execCleStartFire, hc, hyes, if_true]

theorem Posts.cle {s t : State} (h : Posts s t) : t.cle = s.cle := by
  obtain ⟨h, -⟩ := h
  rw [h]

theorem State.cleBegin_cle (s : State) (h : Option Hdr) :
    (s.cleBegin h).cle.state = 1 ∧ (s.cleBegin h).cle.period = 0 ∧ (s.cleBegin h).cle.start = none := by
  unfold State.cleBegin
  dsimp only
  rw [(State.replyOpt_posts _ h _).cle]
  exact ⟨rfl, rfl, rfl⟩

theorem State.forcePairs_cle_state (s : State) : s.forcePairs.cle.state = s.cle.state := by
  have hall (qs : List Nat) : ∀ t : State, (qs.foldl (fun s q => if s.forceReason q then s.updPair q fun p => { p with forced := true } else s) t).cle.state =
      t.cle.state := by
    induction qs with
    | nil => exact fun _ => rfl
    | cons q qs ih =>
      intro t
      rw [List.foldl_cons, ih]
      split <;> rfl
  exact hall _ s

theorem State.cleHalt_state (s : State) : s.cleHalt.cle.state = 0 := by
  unfold State.cleHalt
  dsimp only
  rw [(State.replyOpt_posts _ _ _).cle, State.forcePairs_cle_state]

/-! ### Inputs (R328 to R331) -/

theorem exec_encoderUpdate_step {s : State} {e : Fin 32} {a b : Bool} (z : Bool) (hconf : (s.cle.encs.get e.val).configured = true)
    (hlegal : a = (s.cle.encs.get e.val).a ∨ b = (s.cle.encs.get e.val).b) (hquiet : s.saf.raised = []) :
    exec (.encoderUpdate e a b z) s = .next { s with cle.encs := s.cle.encs.set e.val ((s.cle.encs.get e.val).step a b z) } := by
  have hno : (a != (s.cle.encs.get e.val).a && b != (s.cle.encs.get e.val).b) = false := by
    rcases hlegal with hl | hl <;> simp [hl]
  change execEncoderUpdate e a b z s = _
  rw [execEncoderUpdate, State.encoderUpdate]
  simp only [hconf, hno, Bool.not_true, Bool.false_eq_true, if_false]
  exact congrArg Host.Outcome.next (State.settle_quiet _ hquiet)

/-- The sum of a decimation window (R330). -/
def sdSum (n : Nat) (bits : List Bool) : Int :=
  ((bits.take (3 * (n - 1) + 1)).zipIdx).foldl (fun a x => if x.1 then a + sincWeight n x.2 else a) (0 : Int)

section
variable {s : State} {c : Fin 32} {bits : List Bool} (hconf : (s.cle.sds.get c.val).configured = true) (hon : (s.cle.sds.get c.val).lost = false)
include hconf hon

theorem exec_sdDecimation_even (heven : (s.cle.sds.get c.val).osr % 2 = 0) : exec (.sdDecimation c bits) s =
    .next { s with cle.sds := s.cle.sds.set c.val { s.cle.sds.get c.val with out := BitVec.ofInt 32 (sdSum (s.cle.sds.get c.val).osr bits -
      ((s.cle.sds.get c.val).osr * (s.cle.sds.get c.val).osr * (s.cle.sds.get c.val).osr / 2 : Nat)) } } := by
  change execSdDecimation c bits s = _
  simp only [execSdDecimation, hconf, hon, Bool.not_true, Bool.or_self, Bool.false_eq_true, if_false, heven, if_true]
  rfl

theorem exec_sdDecimation_odd (hodd : (s.cle.sds.get c.val).osr % 2 = 1) : ∃ x : Nat, x ≤ 1 ∧ exec (.sdDecimation c bits) s =
    .next { s with free := s.free + 1, cle.sds := s.cle.sds.set c.val { s.cle.sds.get c.val with out := BitVec.ofInt 32 (sdSum (s.cle.sds.get c.val).osr bits -
      ((s.cle.sds.get c.val).osr * (s.cle.sds.get c.val).osr * (s.cle.sds.get c.val).osr / 2 + x : Nat)) } } := by
  refine ⟨(s.draw 1).1.toNat, Nat.le_of_lt_succ (s.draw 1).1.isLt, ?_⟩
  change execSdDecimation c bits s = _
  simp only [execSdDecimation, hconf, hon, Bool.not_true, Bool.or_self, Bool.false_eq_true, if_false, hodd, one_ne_zero]
  rfl

theorem exec_cleSdClock : exec (.cleSdClock c) s =
    .next ((({ s with cle.sds := s.cle.sds.set c.val { s.cle.sds.get c.val with lost := true } }).inputStop 1 c.val).raiseDev 0x0602).settle := by
  change execCleSdClock c s = _
  simp only [execCleSdClock, State.sdClock, hconf, hon, Bool.not_true, Bool.or_self, Bool.false_eq_true, if_false]

end

theorem exec_spiFrame_word {s : State} {p : Fin 8} (hconf : (s.cle.spis.get p.val).configured = true) (hrun : s.cle.state ≠ 0)
    (hwords : 1 ≤ (s.cle.spis.get p.val).words) (w : Word) : exec (.spiFrame p [w]) s = .next { s with cle.spis := s.cle.spis.set p.val {
      s.cle.spis.get p.val with vals := (s.cle.spis.get p.val).vals.set 0 (BitVec.ofInt 32 (sgn (s.cle.spis.get p.val).bits w.toNat)) } } := by
  have htake : [w].take (s.cle.spis.get p.val).words = [w] := List.take_of_length_le hwords
  have hgo : (!(s.cle.spis.get p.val).configured || decide (s.cle.state = 0)) = false := by
    rw [hconf, decide_eq_false hrun]
    rfl
  change execSpiFrame p [w] s = _
  unfold execSpiFrame
  dsimp only
  rw [if_neg (by simpa using hgo), htake]
  rfl

/-! ### SAFE_EN_N and load points (R336 to R338) -/

theorem Tab.look_mapV {α : Type} [Inhabited α] [DecidableEq α] {f : α → α} {k : Nat} (l : List (Nat × α)) (hk : Tab.look k l ≠ default)
    (hf : f (Tab.look k l) ≠ default) :
    Tab.look k ((l.map fun c => (c.1, f c.2)).filter fun c => decide (c.2 ≠ default)) = f (Tab.look k l) := by
  induction l with
  | nil => exact absurd rfl hk
  | cons c l ih =>
    obtain ⟨j, v⟩ := c
    by_cases hj : j = k
    · have hv : Tab.look k ((j, v) :: l) = v := if_pos hj
      rw [hv] at hf ⊢
      rw [List.map_cons, List.filter_cons_of_pos (by simpa using hf)]
      exact if_pos hj
    · have hskip (u : α) (t : List (Nat × α)) : Tab.look k ((j, u) :: t) = Tab.look k t := if_neg hj
      rw [hskip] at hk hf ⊢
      rw [List.map_cons, List.filter_cons]
      split
      · rw [hskip, ih hk hf]
      · exact ih hk hf

/-- An entry that a map does not bring back to the default stands mapped. -/
theorem Tab.get_mapV {α : Type} [Inhabited α] [DecidableEq α] (t : Tab α) {f : α → α} {k : Nat} (hk : t.get k ≠ default)
    (hf : f (t.get k) ≠ default) : (t.mapV f).get k = f (t.get k) := Tab.look_mapV t.cells hk hf

theorem exec_safeEnForce_low {i : Fin 2} {q : Nat} {s : State} (hconf : (s.cle.pwms.get q).configured = true)
    (hsel : (s.cle.pwms.get q).group &&& 2 ^ i.val ≠ 0) :
    ∃ t, exec (.safeEnForce i true) s = .next t ∧ (t.cle.pwms.get q).latched = true ∧ (t.cle.pwms.get q).forced = true := by
  have hyes : ((s.cle.pwms.get q).configured && (s.cle.pwms.get q).group &&& 2 ^ i.val != 0) = true := by simp [hconf, hsel]
  refine ⟨_, rfl, ?_⟩
  dsimp only
  rw [if_pos rfl, Tab.get_mapV, if_pos hyes]
  · exact ⟨rfl, rfl⟩
  · intro h
    rw [h] at hconf
    exact absurd hconf (by decide)
  · rw [if_pos hyes]
    intro h
    exact absurd (show true = false from congrArg Pwm.latched h) (by decide)

theorem exec_safeEnForce_high (i : Fin 2) (s : State) :
    ∃ t, exec (.safeEnForce i false) s = .next t ∧ t.cle.pwms = s.cle.pwms ∧ t.cle.safeIn.getLsbD i.val = false := by
  have hclear : ∀ (v : BitVec 2) (i : Fin 2), (BitVec.ofNat 2 (v.toNat &&& (3 - 2 ^ i.val))).getLsbD i.val = false := by decide
  exact ⟨_, rfl, rfl, hclear s.cle.safeIn i⟩

theorem exec_pwmLoadPoint_edge {q : Fin 48} {c : Nat} {s : State} (hconf : (s.cle.pwms.get q.val).configured = true)
    (hedge : (s.cle.pwms.get q.val).centre = false) (hupd : (s.cle.pwms.get q.val).update ≤ 2) (hshadow : (s.cle.pwms.get q.val).shadow = some c)
    (hforce : s.forceReason q.val = true) : exec (.pwmLoadPoint q false) s = .next (s.updPair q.val fun _ =>
      Pwm.follow { s.cle.pwms.get q.val with cmp := c, shadow := none, count := 0, down := false }) := by
  have hload : (true && ((s.cle.pwms.get q.val).update == 0 || (s.cle.pwms.get q.val).update == 2) ||
      (true && ((s.cle.pwms.get q.val).update == 1 || (s.cle.pwms.get q.val).update == 2))) = true := by
    interval_cases (s.cle.pwms.get q.val).update <;> rfl
  change execPwmLoadPoint q false s = _
  unfold execPwmLoadPoint
  simp only [hconf, hedge, hshadow, hforce, Bool.not_true, Bool.not_false, Bool.or_true, Bool.false_eq_true, if_false, if_true, hload,
    Bool.and_false]

theorem exec_cleMailboxPortWrite {n : Fin 64} {lp : Fin 128} {data : List Byte} {j pt : Nat} {s : State} (hjob : (s.rods.get n.val).job = some j)
    (hlen : data.length = 64) (hown : s.cleOwner lp.val = some pt) (hpart : (s.jobRec j).map JobRec.part = some pt) (hres : leNat data < 2 ^ 96)
    (hquiet : s.saf.raised = []) :
    exec (.cleMailboxPortWrite n lp data) s = .next (s.mailbox lp.val (BitVec.ofNat 32 (fld (leNat data) 0 32))
      (BitVec.ofNat 32 (fld (leNat data) 32 32)) (BitVec.ofNat 32 (fld (leNat data) 64 32))) := by
  have hzero : leNat data / 2 ^ 96 = 0 := Nat.div_eq_of_lt hres
  change execCleMailboxPortWrite n lp data s = _
  rw [execCleMailboxPortWrite, State.mailboxPort]
  simp only [hjob, hlen, hown, hpart, hzero, ne_eq, not_true_eq_false, Option.isNone_some, decide_false, Bool.or_self, Bool.false_eq_true, if_false]
  exact congrArg Host.Outcome.next (State.settle_quiet _ hquiet)

/-- Settles O38: starts, periods, evaluations, inputs, pairs and mailboxes of the engine in time. -/
theorem controlEventsComplete : Obligations.ControlEventsComplete := by
  unfold Obligations.ControlEventsComplete
  refine ⟨fun c s => exec_cleStartFire, fun h s => ⟨_, rfl, State.cleBegin_cle s h⟩, fun s hst => ?_, fun s hst => ⟨?_, State.cleHalt_state s⟩,
    fun n s => exec_loopEvaluation, fun e a b z s => exec_encoderUpdate_step z, fun c bits s => ?_, fun c s => exec_cleSdClock, fun c s => rfl,
    fun p w s hc hr hw => exec_spiFrame_word hc hr hw w, fun i q s => exec_safeEnForce_low, exec_safeEnForce_high, fun q c s => exec_pwmLoadPoint_edge,
    fun n lp data j pt s => exec_cleMailboxPortWrite⟩
  · change execClePeriodStart s = _
    rcases hst with hst | hst <;> simp [execClePeriodStart, hst]
  · change execClePeriodStart s = _
    simp [execClePeriodStart, hst]
  · exact fun hconf hon => ⟨exec_sdDecimation_even hconf hon, exec_sdDecimation_odd hconf hon⟩

end Sys2Proof.Machine
end

section
/-! Ethernet commands: settles O40. -/

namespace Sys2Proof.Machine

open Sys2Proof.Claims

section
variable {s : State} {h : Hdr} {mac : Byte} (hpf : pf0 s h) (hm : mac.toNat ≤ 7)
include hpf hm

theorem exec_ethPortConfig_enable {speed : Byte} {maxFrame : BitVec 16} (td rd : Word) {late : Word} (hspeed : speed.toNat ≤ 2)
    (hmax : within 60 9216 maxFrame.toNat = true) (hlate : late.toNat ≤ 1000000) (hoff : (s.mac mac.toNat).enabled = false) :
    exec (.ethPortConfig h mac speed 1 maxFrame td rd late) s = .next ((s.updMac mac.toNat fun q =>
      { q with enabled := true, speed := speed.setWidth 2, maxFrame := maxFrame.toNat, txDelay := td, rxDelay := rd,
               lateNs := late.toNat }).reply h {}) := by
  obtain ⟨hsup, hfn⟩ := hpf
  exact firmware_checked hsup h (by simp [hfn, hm, hspeed, hmax, hlate, hoff]) _ rfl

theorem exec_ethPortConfig_enabled {speed : Byte} {maxFrame : BitVec 16} (td rd : Word) {late : Word} (hspeed : speed.toNat ≤ 2)
    (hmax : within 60 9216 maxFrame.toNat = true) (hlate : late.toNat ≤ 1000000) (hon : (s.mac mac.toNat).enabled = true) :
    exec (.ethPortConfig h mac speed 1 maxFrame td rd late) s = .next (s.reply h { status := 0x7021 }) := by
  obtain ⟨hsup, hfn⟩ := hpf
  change firmware h s (doEthPortConfig h mac speed 1 maxFrame td rd late s) = _
  simp [doEthPortConfig, hfn, hm, hspeed, hmax, hlate, hon, checks, firmware_no hsup]

theorem exec_ethRxqConfig_ring {queue log2 : Byte} (gap : Word) {base wb : BitVec 64} (hq : queue.toNat ≤ 3) (hlog : within 2 16 log2.toNat = true)
    (hbase : lineAligned base.toNat = true) (hring : s.hostMem 0 base.toNat (2 ^ log2.toNat * (s.mac mac.toNat).recBytes) = true)
    (hwb : lineAligned wb.toNat = true) (hword : s.hostMem 0 wb.toNat 4 = true) (hfree : s.binding (208 + 4 * mac.toNat + queue.toNat) = none) :
    exec (.ethRxqConfig h mac queue 1 log2 gap base wb) s = .next ((s.updMac mac.toNat fun q => q.updQueue queue.toNat fun r =>
      { r with mode := 1, log2 := log2.toNat, minGap := gap.toNat, base := base.toNat, wb := wb.toNat, head := 0, tail := 0 }).reply h {}) := by
  obtain ⟨hsup, hfn⟩ := hpf
  exact firmware_checked hsup h (by simp [hfn, hm, hq, hlog, hbase, hring, hwb, hword, hfree]) _ rfl

theorem exec_ethFilterSet {index queue tests : Byte} (etype vid : BitVec 16) (da : BitVec 48) (hindex : index.toNat ≤ 15) (hq : queue.toNat ≤ 4)
    (htests : tests.toNat ≤ 7) : exec (.ethFilterSet h mac index queue tests etype vid da) s = .next ((s.updMac mac.toNat fun q =>
      { q with filters := q.filters.set index.toNat { used := true, queue := queue.setWidth 3, tests := tests.setWidth 3, etype := etype,
                                                      vid := vid.setWidth 12, da := da } }).reply h {}) := by
  obtain ⟨hsup, hfn⟩ := hpf
  exact firmware_checked hsup h (by simp [hfn, hm, hindex, hq, htests]) _ rfl

theorem exec_ethGclSet {len : BitVec 16} {cycle : Word} (bt : BitVec 64) {es : List (BitVec 64)} (hes : es.length = len.toNat)
    (hlen : within 1 256 len.toNat = true) (hcycle : within 1000 1000000000 cycle.toNat = true) (hlong : ∀ e ∈ es, 100 ≤ fld e.toNat 32 32)
    (hsum : (es.map fun e => fld e.toNat 32 32).sum = cycle.toNat) :
    exec (.ethGclSet h mac len cycle bt es) s = .next ((s.updMac mac.toNat fun q =>
      { q with pendGcl := some { entries := es.map fun e => (fld e.toNat 0 8, fld e.toNat 32 32), cycle := cycle.toNat,
                                 start := gclStart s.now.toNat bt.toNat cycle.toNat } }).reply h {}) := by
  obtain ⟨hsup, hfn⟩ := hpf
  have htake : es.take len.toNat = es := by rw [← hes, List.take_length]
  have hshort : ((es.map fun e => (fld e.toNat 0 8, fld e.toNat 32 32)).any fun e => decide (e.2 < 100)) = false := by
    simpa using hlong
  have htotal : (es.map fun e => (fld e.toNat 0 8, fld e.toNat 32 32)).foldl (fun a e => a + e.2) 0 = cycle.toNat := by
    rw [List.foldl_map, ← hsum, List.sum_eq_foldl, List.foldl_map]
  change firmware h s (doEthGclSet h mac len cycle bt es s) = _
  simp only [doEthGclSet, htake, hshort, htotal]
  exact firmware_checked hsup h (by simp [hfn, hm, hes, hlen, hcycle]) _ rfl

theorem exec_ethTxPost {cls : Byte} {len : BitVec 16} {addr : BitVec 64} (at_ : BitVec 64) (hcls : cls.toNat ≤ 7)
    (hlen : within 1 (s.mac mac.toNat).maxFrame len.toNat = true) (haddr : lineAligned addr.toNat = true)
    (hmem : s.hostMem 0 addr.toNat len.toNat = true) (hon : (s.mac mac.toNat).enabled = true)
    (hroom : ((s.mac mac.toNat).classes.get cls.toNat).length < 32) :
    exec (.ethTxPost h mac cls 0 len addr at_) s = .next (s.updMac mac.toNat fun q =>
      { q with classes := q.classes.upd cls.toNat (· ++ [{ frame := s.rd addr.toNat len.toNat, at_ := none, due := false, h := some h }]) }) := by
  obtain ⟨hsup, hfn⟩ := hpf
  exact firmware_checked_later hsup h (by simp [hfn, hm, hcls, hlen, haddr, hmem, hon, hroom]) _

theorem exec_ethLaunchSet {entry cls mode : Byte} {len : BitVec 16} {src : BitVec 64} (at_ : BitVec 64) (hentry : entry.toNat ≤ 63)
    (hcls : cls.toNat ≤ 7) (hmode : mode = 0 ∨ mode = 2) (hlen : within 1 256 len.toNat = true) (hsrc : lineAligned src.toNat = true)
    (hmem : s.hostMem 0 src.toNat len.toNat = true) (hfree : s.loopNames 3 mac.toNat entry.toNat true = false) :
    exec (.ethLaunchSet h mac entry cls mode len src at_) s = .next ((s.updMac mac.toNat fun q => q.updLaunch entry.toNat fun x =>
      { x with mode := mode.setWidth 2, cls := cls.toNat, frame := s.rd src.toNat len.toNat, at_ := none, due := false }).reply h {}) := by
  obtain ⟨hsup, hfn⟩ := hpf
  rcases hmode with rfl | rfl <;>
    exact firmware_checked hsup h (by simp [hfn, hm, hentry, hcls, hlen, hsrc, hmem, hfree]) _ rfl

end

/-- Settles O40: each Ethernet command whose checks pass has its effect. -/
theorem ethernetCommandsComplete : Obligations.EthernetCommandsComplete := by
  unfold Obligations.EthernetCommandsComplete
  intro h mac s hpf hm
  refine ⟨fun speed maxFrame td rd late hspeed hmax hlate => ⟨exec_ethPortConfig_enable hpf hm td rd hspeed hmax hlate,
      exec_ethPortConfig_enabled hpf hm td rd hspeed hmax hlate⟩, fun queue log2 gap base wb => exec_ethRxqConfig_ring hpf hm gap,
    fun index queue tests etype vid da => exec_ethFilterSet hpf hm etype vid da, fun len cycle bt es => exec_ethGclSet hpf hm bt,
    fun cls len addr at_ => exec_ethTxPost hpf hm at_, fun entry cls mode len src at_ => exec_ethLaunchSet hpf hm at_,
    fun entry hentry => ?_, fun hres => ?_⟩
  · exact firmware_checked hpf.1 h (by simp [hpf.2, hm, hentry]) _ rfl
  · exact firmware_checked_area ⟨hpf.1, hres⟩ (by simp [hpf.2, hm]) _ _

end Sys2Proof.Machine
end

section
/-! CAN FD: settles O42 and O43. -/

namespace Sys2Proof.Machine

open Sys2Proof.Claims

/-! ### A controller's update -/

theorem State.updCtl_congr {s : State} {c : Nat} {f g : CanCtl → CanCtl} (h : f (s.ctl c) = g (s.ctl c)) : s.updCtl c f = s.updCtl c g := by
  change { s with can.ctls := s.can.ctls.set c (f (s.ctl c)) } = { s with can.ctls := s.can.ctls.set c (g (s.ctl c)) }
  rw [h]

theorem State.updCtl_ctl (s : State) (c : Nat) (f : CanCtl → CanCtl) : (s.updCtl c f).ctl c = f (s.ctl c) := Tab.get_upd_self _ _ _

theorem CanCtl.updMb_get (q : CanCtl) (b : Nat) (f : CanMb → CanMb) : (q.updMb b f).mbs.get b = f (q.mbs.get b) := Tab.get_upd_self _ _ _

theorem State.canFail_idle {s : State} {c : Nat} (h : (s.ctl c).bus = none) : s.canFail c = s := by
  simp [State.canFail, h]

/-! ### Commands -/

section
variable {s : State} {h : Hdr} {ctrl : Byte} (hpf : pf0 s h) (hc : ctrl.toNat ≤ 15)
include hpf hc

theorem exec_canConfig {mode : Byte} {late : Word} (gap : Word) (hmode : mode.toNat ≤ 3) (hlate : late.toNat ≤ 10000000)
    (hbus : (s.ctl ctrl.toNat).bus = none) : exec (.canConfig h ctrl mode late gap) s =
      .next ((((if (s.ctl ctrl.toNat).mode.toNat = mode.toNat then s
        else s.updCtl ctrl.toNat fun q => { q with mode := mode.setWidth 2, synced := false }).updCtl ctrl.toNat fun q =>
          { q with lateNs := late.toNat, minGap := gap.toNat })).reply h {}) := by
  obtain ⟨hsup, hfn⟩ := hpf
  change firmware h s (doCanConfig h ctrl mode late gap s) = _
  simp only [doCanConfig, State.canFail_idle hbus]
  exact firmware_checked hsup h (by simp [hfn, hc, hmode, hlate]) _ rfl

theorem exec_canTiming {nb n1 n2 nj : BitVec 16} {db d1 d2 dj tdco en : Byte}
    (hok : timingOk nb.toNat n1.toNat n2.toNat nj.toNat db.toNat d1.toNat d2.toNat dj.toNat = true) (htdco : tdco.toNat ≤ 127) (hen : en.toNat ≤ 1)
    (hmode : (s.ctl ctrl.toNat).mode = 0) :
    exec (.canTiming h ctrl nb n1 n2 nj db d1 d2 dj tdco en) s = .next ((s.updCtl ctrl.toNat fun q => { q with
      nbt := BitVec.ofNat 32 (pack [(0, 8, nb.toNat - 1), (8, 8, n1.toNat - 1), (16, 7, n2.toNat - 1), (24, 7, nj.toNat - 1)]),
      dbt := BitVec.ofNat 32 (pack [(0, 5, db.toNat - 1), (8, 5, d1.toNat - 1), (16, 4, d2.toNat - 1), (24, 4, dj.toNat - 1), (31, 1, en.toNat)]),
      tdco := tdco.setWidth 7, tdcFail := false }).reply h {}) := by
  obtain ⟨hsup, hfn⟩ := hpf
  exact firmware_checked hsup h (by simp [hfn, hc, hok, htdco, hen, hmode]) _ rfl

theorem exec_canFilterSet {index target buf ide : Byte} (value mask : Word) (hindex : index.toNat ≤ 31) (htarget : target.toNat ≤ 4)
    (hbuf : buf.toNat ≤ 63) (hide : ide.toNat ≤ 1) : exec (.canFilterSet h ctrl index target buf ide value mask) s =
      .next ((s.updCtl ctrl.toNat fun q => { q with
        filters := q.filters.set index.toNat { target := target.toNat, buf := buf.toNat, ide := ide = 1, value := value, mask := mask } }).reply h {}) := by
  obtain ⟨hsup, hfn⟩ := hpf
  exact firmware_checked hsup h (by simp [hfn, hc, hindex, htarget, hbuf, hide]) _ rfl

theorem exec_canMbSet_transmit {buf oneShot : Byte} (at_ : BitVec 64) {src : BitVec 64} (hbuf : buf.toNat ≤ 63) (hone : oneShot.toNat ≤ 1)
    (hsrc : lineAligned src.toNat = true) (hmem : s.hostMem 0 src.toNat 96 = true) (himg : canImageOk (s.rdN src.toNat 96) = true)
    (hfree : s.loopNames 2 ctrl.toNat buf.toNat false = false) (hbus : (s.ctl ctrl.toNat).bus = none) (hlock : (s.ctl ctrl.toNat).lock = none)
    (hh : ((s.ctl ctrl.toNat).mbs.get buf.toNat).h = none) :
    exec (.canMbSet h ctrl buf 2 0 oneShot at_ src) s = .next ((s.updCtl ctrl.toNat fun q => { q with
      mbs := q.mbs.set buf.toNat { kind := 2, mode := 0, oneShot := oneShot = 1, img := txImage (s.rdN src.toNat 96), at_ := none },
      lock := none }).reply h {}) := by
  obtain ⟨hsup, hfn⟩ := hpf
  change firmware h s (doCanMbSet h ctrl buf 2 0 oneShot at_ src s) = _
  simp only [doCanMbSet, hh]
  rw [checks_pass (by simp [hfn, hc, hbuf, hone, hsrc, hmem, himg, hfree, hbus]), firmware_ok hsup h _ rfl]
  refine congrArg (fun u : State => (.next (u.reply h {}) : Out)) ?_
  exact State.updCtl_congr (by rw [hlock]; rfl)

theorem exec_canMbSend {buf : Byte} (hbuf : buf.toNat ≤ 63) (hkind : ((s.ctl ctrl.toNat).mbs.get buf.toNat).kind = 2)
    (hmode : ((s.ctl ctrl.toNat).mbs.get buf.toNat).mode = 0) (hpend : ((s.ctl ctrl.toNat).mbs.get buf.toNat).pend = false) :
    exec (.canMbSend h ctrl buf) s =
      .next (s.updCtl ctrl.toNat fun q => q.updMb buf.toNat fun m => { m with pend := true, h := some h }) := by
  obtain ⟨hsup, hfn⟩ := hpf
  exact firmware_checked_later hsup h (by simp [hfn, hc, hbuf, hkind, hmode, hpend]) _

theorem execCanMbAbort_idle {buf : Byte} (hbuf : buf.toNat ≤ 63) (hbus : (s.ctl ctrl.toNat).bus = none) :
    exec (.canMbAbort h ctrl buf) s = firmware h s
      (if ((s.ctl ctrl.toNat).mbs.get buf.toNat).pend || ((s.ctl ctrl.toNat).mbs.get buf.toNat).at_.isSome then
        .ok ((s.updCtl ctrl.toNat fun q => q.updMb buf.toNat fun m => { m with pend := false, at_ := none, h := none }).replyOpt
          ((s.ctl ctrl.toNat).mbs.get buf.toNat).h { status := 0x7045 }) { status := 0x7045 }
      else .ok s {}) := by
  change firmware h s (doCanMbAbort h ctrl buf s) = _
  rw [doCanMbAbort, checks_pass (by simp [hpf.2, hc, hbuf])]
  simp only [hbus, Option.any_none, Bool.false_eq_true, if_false]
  rfl

theorem exec_canRxfConfig {fifo depth : Byte} (hfifo : fifo.toNat ≤ 1) (hdepth : within 1 32 depth.toNat = true)
    (hlock : (s.ctl ctrl.toNat).lock = none) : exec (.canRxfConfig h ctrl fifo depth) s = .next ((s.updCtl ctrl.toNat fun q => { q with
      fifos := q.fifos.set fifo.toNat [], depths := q.depths.set fifo.toNat (depth.toNat - 1), lock := none }).reply h {}) := by
  obtain ⟨hsup, hfn⟩ := hpf
  change firmware h s (doCanRxfConfig h ctrl fifo depth s) = _
  rw [doCanRxfConfig, checks_pass (by simp [hfn, hc, hfifo, hdepth]), firmware_ok hsup h _ rfl]
  refine congrArg (fun u : State => (.next (u.reply h {}) : Out)) ?_
  exact State.updCtl_congr (by rw [hlock]; rfl)

end

/-- Settles O42: each CAN command whose checks pass has its effect. -/
theorem canCommandsComplete : Obligations.CanCommandsComplete := by
  unfold Obligations.CanCommandsComplete
  intro h ctrl s hpf hc
  have hsup := hpf.1
  have hfn := hpf.2
  refine ⟨fun mode late gap hmode hlate hbus => ⟨_, exec_canConfig hpf hc gap hmode hlate hbus, ?_⟩,
    fun nb n1 n2 nj db d1 d2 dj tdco en => exec_canTiming hpf hc, fun index target buf ide value mask => exec_canFilterSet hpf hc value mask,
    fun buf oneShot at_ src => exec_canMbSet_transmit hpf hc at_, fun buf => exec_canMbSend hpf hc,
    fun buf hbuf hbus => ⟨fun hpend hh => ?_, fun hpend hat => ?_⟩, fun fifo depth => exec_canRxfConfig hpf hc,
    fun herr => firmware_checked hsup h (by simp [hfn, hc, herr]) _ rfl,
    fun hres => firmware_checked_area ⟨hsup, hres⟩ (by simp [hfn, hc]) _ _⟩
  · split
    · next heq =>
      have hset : (s.ctl ctrl.toNat).mode = mode.setWidth 2 := BitVec.eq_of_toNat_eq (by rw [heq, BitVec.toNat_setWidth]; omega)
      simp [hset, (show BitVec.toNat mode < 4 by omega)]
    · next hne => simp [hne]
  · rw [execCanMbAbort_idle hpf hc hbuf hbus, hpend, hh, Bool.true_or, if_pos rfl]
    exact firmware_ok hsup h _ rfl
  · rw [execCanMbAbort_idle hpf hc hbuf hbus, hpend, hat, if_neg (by decide)]
    exact firmware_ok hsup h _ rfl

end Sys2Proof.Machine
end

section
/-! CAN events: settles O43. -/

namespace Sys2Proof.Machine

open Sys2Proof.Claims

/-! ### Windows (R374, R375) -/

section
variable {c : Fin 16} {s : State} {i : Nat} (hlock : (s.ctl c.val).lock = none)
include hlock

theorem exec_canMbWord0Read (hi : i < 66) : exec (.canMbWord0Read c i) s =
    .next { (s.updCtl c.val fun _ => { s.ctl c.val with lock := some i }) with hif.cpl := { data := leBytes 4 (fld ((s.ctl c.val).window i).toNat 0 32) } } := by
  change execCanMbWord0Read c i s = _
  simp [execCanMbWord0Read, not_le.mpr hi, hlock, CanCtl.unlock]

theorem exec_canMbWord23Read_buffer (hi : i < 64) : exec (.canMbWord23Read c i) s =
    .next { (s.updCtl c.val fun _ => (s.ctl c.val).updMb i fun m => { m with full := false }) with
      hif.cpl := { data := leBytes 4 (fld ((s.ctl c.val).window i).toNat 736 32) } } := by
  have hlock' : ((s.ctl c.val).updMb i fun m => { m with full := false }).lock = none := hlock
  change execCanMbWord23Read c i s = _
  simp [execCanMbWord23Read, not_le.mpr (by omega : i < 66), hi, hlock']

theorem exec_canMbWord23Read_fifo (hlo : 64 ≤ i) (hi : i < 66) : exec (.canMbWord23Read c i) s =
    .next { (s.updCtl c.val fun _ => { s.ctl c.val with fifos := (s.ctl c.val).fifos.upd (i - 64) List.tail }) with
      hif.cpl := { data := leBytes 4 (fld ((s.ctl c.val).window i).toNat 736 32) } } := by
  change execCanMbWord23Read c i s = _
  simp [execCanMbWord23Read, not_le.mpr hi, not_lt.mpr hlo, hlock]

end

/-! ### Counters (R382, R383) -/

section
variable {s : State} {c tec rc : Nat}

/-- Below every limit the counters just change. -/
theorem State.canCount_low (herr : (s.ctl c).err = 0) (htec : tec < 96) (hrc : rc < 96) :
    s.canCount c tec rc = (s.updCtl c fun q => { q with tec := min 511 tec, rec_ := min 255 rc }).updCtl c fun q => { q with err := 0 } := by
  simp [State.canCount, herr, not_le.mpr htec, not_le.mpr hrc, not_lt.mpr (by omega : tec ≤ 255), not_le.mpr (by omega : tec < 128),
    not_le.mpr (by omega : rc < 128)]

theorem State.canCount_low_ctl (herr : (s.ctl c).err = 0) (htec : tec < 96) (hrc : rc < 96) :
    (s.canCount c tec rc).ctl c = { s.ctl c with tec := tec, rec_ := rc } := by
  rw [State.canCount_low herr htec hrc, State.updCtl_ctl, State.updCtl_ctl, Nat.min_eq_right (by omega), Nat.min_eq_right (by omega), ← herr]

theorem State.canCount_low_mem (herr : (s.ctl c).err = 0) (htec : tec < 96) (hrc : rc < 96) : (s.canCount c tec rc).mem = s.mem := by
  rw [State.canCount_low herr htec hrc]
  rfl

theorem State.canCount_low_jrn (herr : (s.ctl c).err = 0) (htec : tec < 96) (hrc : rc < 96) : (s.canCount c tec rc).jrn = s.jrn := by
  rw [State.canCount_low herr htec hrc]
  rfl

theorem State.canCount_low_now (herr : (s.ctl c).err = 0) (htec : tec < 96) (hrc : rc < 96) : (s.canCount c tec rc).now = s.now := by
  rw [State.canCount_low herr htec hrc]
  rfl

theorem Posts.ctl {s t : State} (h : Posts s t) (c : Nat) : t.ctl c = s.ctl c := by
  obtain ⟨-, -, -, -, -, -, -, -, -, -, -, -, hcan, -⟩ := h.frame
  exact congrArg (fun x : Can => x.ctls.get c) hcan

/-- Past 255 the controller goes bus-off, from below the warning limits or beyond them. -/
theorem State.canCount_off_ctl (hbus : (s.ctl c).bus = none) (herr : (s.ctl c).err.toNat < 2) (hwas : 96 ≤ (s.ctl c).tec) (htec : 255 < tec)
    (hrc : (s.ctl c).rec_ = rc) : (s.canCount c tec rc).ctl c =
      { s.ctl c with tec := min 511 tec, rec_ := min 255 rc, err := 2, busOffs := satInc (s.ctl c).busOffs } := by
  have hne2 : (s.ctl c).err ≠ 2 := fun h => by simp [h] at herr
  have hne3 : (s.ctl c).err ≠ 3 := fun h => by simp [h] at herr
  have hev : ((decide ((s.ctl c).tec < 96) && decide (96 ≤ tec)) || (decide ((s.ctl c).rec_ < 96) && decide (96 ≤ rc))) = false := by
    rw [decide_eq_false (not_lt.mpr hwas), hrc]
    by_cases h : rc < 96 <;> simp [h]
  have hst : ((s.ctl c).err == 2 || (s.ctl c).err == 3) = false := by
    rw [beq_eq_false_iff_ne.mpr hne2, beq_eq_false_iff_ne.mpr hne3, Bool.or_false]
  unfold State.canCount
  simp only [hev, hst, Bool.false_eq_true, if_false, if_pos htec]
  rw [Posts.ctl (State.blockEvent_posts _ _ _), State.updCtl_ctl, State.canFail_idle (by rw [State.updCtl_ctl]; exact hbus), State.updCtl_ctl]

end

/-! ### Sending (R379 to R381) -/

section
variable {s : State} {c b : Nat} {stamp : BitVec 96}

/-- The image of a sent frame: the buffer's own with the time-stamp (R373). -/
def sentImage (x : Nat) (stamp : BitVec 96) : BitVec 768 :=
  BitVec.ofNat 768 (x % 2 ^ 96 + x / 2 ^ 256 * 2 ^ 256 +
    pack [(96, 16, fld stamp.toNat 0 16), (128, 32, fld stamp.toNat 16 32), (160, 48, fld stamp.toNat 48 48)])

/-- The controller after its frame is sent: the buffer is free and the frame is counted. -/
def CanCtl.afterSent (q : CanCtl) (b : Nat) (img : BitVec 768) : CanCtl :=
  { (q.updMb b fun m => { m with img := img, pend := false, at_ := none, h := none, abort := [], stopping := false }) with
    bus := none, txFrames := satInc q.txFrames }

/-- The state after a frame is sent, before any answer and before a launch that waits takes the buffer. -/
def State.canSettled (s : State) (c b : Nat) (stamp : BitVec 96) : State :=
  let u := s.updCtl c fun q => q.afterSent b (sentImage ((s.ctl c).mbs.get b).img.toNat stamp)
  u.canCount c ((u.ctl c).tec - 1) (u.ctl c).rec_

theorem State.canSent_eq (habort : ((s.ctl c).mbs.get b).abort = []) :
    s.canSent c b stamp = ((s.canSettled c b stamp).replyOpt ((s.ctl c).mbs.get b).h (timeRep stamp)).canNext c b := by
  rw [State.canSent]
  simp only [habort, List.foldl_nil]
  rfl

/-- While the counters are low, a sent frame only lowers the transmit error counter. -/
theorem State.canSettled_low (herr : (s.ctl c).err = 0) (htec : (s.ctl c).tec < 96) (hrc : (s.ctl c).rec_ < 96) :
    (s.canSettled c b stamp).mem = s.mem ∧ (s.canSettled c b stamp).jrn = s.jrn ∧ (s.canSettled c b stamp).now = s.now ∧
      (s.canSettled c b stamp).ctl c =
        { (s.ctl c).afterSent b (sentImage ((s.ctl c).mbs.get b).img.toNat stamp) with tec := (s.ctl c).tec - 1 } := by
  have htec' : (s.ctl c).tec - 1 < 96 := by omega
  unfold State.canSettled
  simp only [State.updCtl_ctl]
  refine ⟨State.canCount_low_mem ?_ htec' hrc, State.canCount_low_jrn ?_ htec' hrc, State.canCount_low_now ?_ htec' hrc,
    (State.canCount_low_ctl ?_ htec' hrc).trans ?_⟩
  case refine_5 => rw [State.updCtl_ctl]; rfl
  all_goals rw [State.updCtl_ctl]; exact herr

end

section
variable {c : Fin 16} {s : State}

theorem exec_canTxDone_unsent {b : Nat} {st : BitVec 96} {r : CanTx} (hbus : (s.ctl c.val).bus = some (b, st)) (hr : r ≠ .sent) :
    exec (.canTxDone c r none) s = .next (s.canFail c.val) := by
  change execCanTxDone c r none s = _
  cases r with
  | sent => exact absurd rfl hr
  | failed => simp [execCanTxDone, hbus]
  | lost => simp [execCanTxDone, hbus]

theorem exec_canTxDone_sent {b : Nat} {st : BitVec 96} (hbus : (s.ctl c.val).bus = some (b, st)) :
    exec (.canTxDone c .sent none) s = .next (s.canSent c.val b st) := by
  change execCanTxDone c .sent none s = _
  simp [execCanTxDone, hbus]

theorem State.canFail_kept {c b : Nat} {st : BitVec 96} (hbus : (s.ctl c).bus = some (b, st)) (hone : ((s.ctl c).mbs.get b).oneShot = false)
    (hstop : ((s.ctl c).mbs.get b).stopping = false) (hnext : ((s.ctl c).mbs.get b).next = none) :
    s.canFail c = if s.launchOver c ((s.ctl c).mbs.get b) then (s.updCtl c fun q => { q with bus := none }).withdraw c b
      else s.updCtl c fun q => { q with bus := none } := by
  have hover : (s.updCtl c fun q => { q with bus := none }).launchOver c ((s.ctl c).mbs.get b) = s.launchOver c ((s.ctl c).mbs.get b) := by
    unfold State.launchOver
    rw [State.updCtl_ctl]
    rfl
  unfold State.canFail
  simp only [hbus, hone, hstop, hnext, Bool.or_self, Option.isSome_none, Bool.false_eq_true, if_false, hover]

theorem State.canFail_next {c b : Nat} {st : BitVec 96} {x : BitVec 768 × BitVec 64} (hbus : (s.ctl c).bus = some (b, st))
    (hone : ((s.ctl c).mbs.get b).oneShot = false) (hstop : ((s.ctl c).mbs.get b).stopping = false) (hnext : ((s.ctl c).mbs.get b).next = some x)
    (hat : ((s.ctl c).mbs.get b).at_.isSome = true) :
    s.canFail c = ((s.updCtl c fun q => { q with bus := none }).updCtl c fun q => { q with launchLate := satInc q.launchLate }).canNext c b := by
  unfold State.canFail
  simp only [hbus, hone, hstop, hnext, hat, Bool.or_self, Option.isSome_some, Bool.false_eq_true, if_false, if_true]

theorem State.canNext_none {c b : Nat} (h : ((s.ctl c).mbs.get b).next = none) : s.canNext c b = s := by
  simp [State.canNext, h]

theorem State.canNext_some {c b : Nat} {x : BitVec 768 × BitVec 64} (h : ((s.ctl c).mbs.get b).next = some x) (hrun : s.jrn.r.running = false) :
    s.canNext c b = s.updCtl c fun q => q.updMb b fun m =>
      { m with img := x.1, next := none, pend := atOrLater 64 s.now.toNat x.2.toNat, at_ := some x.2 } := by
  simp [State.canNext, h, hrun]

/-- A frame sent for CAN_MB_SEND is answered with its time-stamp (R381). -/
theorem exec_canTxDone_answered {b : Nat} {st : BitVec 96} {h : Hdr} (hbus : (s.ctl c.val).bus = some (b, st))
    (hh : ((s.ctl c.val).mbs.get b).h = some h) (habort : ((s.ctl c.val).mbs.get b).abort = []) (hnext : ((s.ctl c.val).mbs.get b).next = none)
    (herr : (s.ctl c.val).err = 0) (htec : (s.ctl c.val).tec < 96) (hrc : (s.ctl c.val).rec_ < 96) :
    exec (.canTxDone c .sent none) s = .next ((s.canSettled c.val b st).reply h (timeRep st)) := by
  obtain ⟨-, -, -, hctl⟩ := State.canSettled_low (b := b) (stamp := st) herr htec hrc
  rw [exec_canTxDone_sent hbus, State.canSent_eq habort, hh]
  refine congrArg _ (State.canNext_none (s := (s.canSettled c.val b st).reply h (timeRep st)) ?_)
  rw [Posts.ctl (State.reply_posts _ h _), hctl]
  exact (congrArg CanMb.next (CanCtl.updMb_get _ _ _)).trans hnext

/-- A launch handed over meanwhile takes the buffer of the sent frame (R379). -/
theorem exec_canTxDone_handed {b : Nat} {st : BitVec 96} {x : BitVec 768 × BitVec 64} (hbus : (s.ctl c.val).bus = some (b, st))
    (hnext : ((s.ctl c.val).mbs.get b).next = some x) (hh : ((s.ctl c.val).mbs.get b).h = none) (habort : ((s.ctl c.val).mbs.get b).abort = [])
    (hrun : s.jrn.r.running = false) (herr : (s.ctl c.val).err = 0) (htec : (s.ctl c.val).tec < 96) (hrc : (s.ctl c.val).rec_ < 96) :
    exec (.canTxDone c .sent none) s = .next ((s.canSettled c.val b st).updCtl c.val fun q => q.updMb b fun m =>
      { m with img := x.1, next := none, pend := atOrLater 64 s.now.toNat x.2.toNat, at_ := some x.2 }) := by
  obtain ⟨-, hjrn, hnow, hctl⟩ := State.canSettled_low (b := b) (stamp := st) herr htec hrc
  have hnext' : (((s.canSettled c.val b st).ctl c.val).mbs.get b).next = some x := by
    rw [hctl]
    exact (congrArg CanMb.next (CanCtl.updMb_get _ _ _)).trans hnext
  rw [exec_canTxDone_sent hbus, State.canSent_eq habort, hh]
  refine congrArg _ ((State.canNext_some hnext' (by rw [hjrn]; exact hrun)).trans ?_)
  rw [hnow]

end

/-! ### Receiving (R376) -/

/-- A frame that a FIFO takes. -/
theorem CanCtl.storeFifo_room {q : CanCtl} {f : Nat} {img : BitVec 768} (h : (q.fifos.get f).length < q.depths.get f + 1) :
    q.storeFifo f img = { q with fifos := q.fifos.upd f (· ++ [img]) } := if_pos h

/-- The state once a frame received without an error is counted (R382). -/
def State.canHeard (s : State) (c : Nat) : State :=
  (s.updCtl c fun q => { q with rxFrames := satInc q.rxFrames }).canCount c (s.ctl c).tec ((s.ctl c).rec_ - 1)

theorem State.canHeard_low {s : State} {c : Nat} (herr : (s.ctl c).err = 0) (htec : (s.ctl c).tec < 96) (hrc : (s.ctl c).rec_ < 96) :
    (s.canHeard c).mem = s.mem ∧ (s.canHeard c).ctl c =
      { s.ctl c with rxFrames := satInc (s.ctl c).rxFrames, rec_ := (s.ctl c).rec_ - 1 } := by
  have hrc' : (s.ctl c).rec_ - 1 < 96 := by omega
  refine ⟨State.canCount_low_mem ?_ htec hrc', (State.canCount_low_ctl ?_ htec hrc').trans ?_⟩
  case refine_3 => rw [State.updCtl_ctl]
  all_goals rw [State.updCtl_ctl]; exact herr

theorem exec_canFrameReceive_fifo {c : Fin 16} {s : State} {f : CanFrame} (age : Nat) {g : CanFilter} (hmode : (s.ctl c.val).mode ≠ 0)
    (hsync : (s.ctl c.val).synced = true) (herr : (s.ctl c.val).err = 0) (hbus : (s.ctl c.val).bus = none) (htec : (s.ctl c.val).tec < 96)
    (hrc : (s.ctl c.val).rec_ < 96) (hrtr : f.rtr = false) (hmatch : (s.ctl c.val).match_ f = some g) (htarget : g.target = 2) :
    exec (.canFrameReceive c f age) s = .next (((s.canHeard c.val).updCtl c.val fun q => { q with rxSeq := q.rxSeq + 1 }).updCtl c.val fun q =>
      q.storeFifo 0 (canImage f false ((s.ctl c.val).rxSeq + 1).toNat (time96 ((((s.tim.time : Int) - age * 25 * 2 ^ 39) % (timeMod : Int)).toNat)))) := by
  obtain ⟨-, hctl⟩ := State.canHeard_low herr htec hrc
  have hmatch' : ((s.canHeard c.val).ctl c.val).match_ f = some g := by rw [hctl]; exact hmatch
  have hseq : ((s.canHeard c.val).ctl c.val).rxSeq = (s.ctl c.val).rxSeq := by rw [hctl]
  have hlow : (if 127 < (s.ctl c.val).rec_ then 127 else (s.ctl c.val).rec_ - 1) = (s.ctl c.val).rec_ - 1 := if_neg (by omega)
  unfold State.canHeard at hmatch' hseq ⊢
  change execCanFrameReceive c f age s = _
  simp only [execCanFrameReceive, decide_eq_false hmode, hsync, herr, State.canFail_idle hbus, ite_self, hrtr, State.updCtl_ctl, hlow, hmatch', htarget, hseq]
  rfl

/-! ### The obligation -/

theorem exec_canArbitration_offer {c : Fin 16} {s : State} {b : Nat} (hsync : (s.ctl c.val).synced = true)
    (hmode : (s.ctl c.val).mode = 1 ∨ (s.ctl c.val).mode = 3) (herr : (s.ctl c.val).err.toNat < 2) (hbus : (s.ctl c.val).bus = none)
    (hoffer : (s.ctl c.val).offer = some b) :
    exec (.canArbitration c) s = .next (s.updCtl c.val fun q => { q with bus := some (b, time96 s.tim.time) }) := by
  have hgo : ((s.ctl c.val).synced && ((s.ctl c.val).mode == 1 || (s.ctl c.val).mode == 3) && decide ((s.ctl c.val).err.toNat < 2) &&
      (s.ctl c.val).bus.isNone) = true := by
    rcases hmode with h | h <;> simp [hsync, h, herr, hbus]
  change execCanArbitration c s = _
  simp only [execCanArbitration, hgo, if_true, hoffer]

theorem exec_canArbitration_off {c : Fin 16} {s : State} (h : (s.ctl c.val).err = 2) : exec (.canArbitration c) s = .next s := by
  change execCanArbitration c s = _
  simp [execCanArbitration, h]

theorem exec_canLaunchWithdraw_late {c : Fin 16} {b : Fin 64} {s : State} {t : BitVec 64} (hat : ((s.ctl c.val).mbs.get b.val).at_ = some t)
    (hlate : atOrLater 64 s.now.toNat (t + BitVec.ofNat 64 (s.ctl c.val).lateNs).toNat = true) (hbus : (s.ctl c.val).bus = none) :
    exec (.canLaunchWithdraw c b) s = .next (s.withdraw c.val b.val) := by
  have hover : s.launchOver c.val ((s.ctl c.val).mbs.get b.val) = true := by
    rw [State.launchOver, hat]
    exact hlate
  change execCanLaunchWithdraw c b s = _
  simp [execCanLaunchWithdraw, hover, hbus]

theorem exec_canError_transmit {c : Fin 16} {s : State} (hmode : (s.ctl c.val).mode ≠ 0) (hbus : (s.ctl c.val).bus = none) :
    exec (.canError c .transmit) s = .next (s.canCount c.val ((s.ctl c.val).tec + 8) (s.ctl c.val).rec_) := by
  change execCanError c .transmit s = _
  rw [execCanError, if_neg hmode, State.canFail_idle hbus]

theorem exec_canError_receive {c : Fin 16} {s : State} (hmode : (s.ctl c.val).mode ≠ 0) :
    exec (.canError c .receive) s = .next (s.canCount c.val (s.ctl c.val).tec ((s.ctl c.val).rec_ + 1)) := if_neg hmode

/-- Settles O43: each CAN event has its effect, and a controller past 255 transmit errors goes bus-off. -/
theorem canEventsComplete : Obligations.CanEventsComplete := by
  unfold Obligations.CanEventsComplete
  refine ⟨fun c s => ⟨fun i hi hlock => exec_canMbWord0Read hlock hi, fun i hi hlock => exec_canMbWord23Read_buffer hlock hi,
    fun i hlo hi hlock => exec_canMbWord23Read_fifo hlock hlo hi, fun b => exec_canArbitration_offer,
    fun b st r hbus hone hstop hr => ⟨fun hnext hover => ?_, fun hnext hover => ?_, fun x hnext hat => ?_⟩,
    fun b st h hbus hkind hh habort hnext herr htec hrc => ?_, fun b st x hbus hnext hh habort hrun herr htec hrc => ?_,
    fun b t => exec_canLaunchWithdraw_late, fun hmode hbus herr htec hrc => ?_, fun hmode herr htec hrc => ?_,
    fun herr => if_pos herr, fun hmode => if_pos hmode, fun f age g hmode hsync herr hbus htec hrc hrtr hmatch htarget hroom => ?_⟩,
    fun c s hmode hbus herr htec => ?_⟩
  · rw [exec_canTxDone_unsent hbus hr, State.canFail_kept hbus hone hstop hnext, hover, if_neg Bool.false_ne_true]
  · rw [exec_canTxDone_unsent hbus hr, State.canFail_kept hbus hone hstop hnext, hover, if_pos rfl]
  · rw [exec_canTxDone_unsent hbus hr, State.canFail_next hbus hone hstop hnext hat]
  · obtain ⟨hmem, -, -, hctl⟩ := State.canSettled_low (b := b) (stamp := st) herr htec hrc
    refine ⟨_, exec_canTxDone_answered hbus hh habort hnext herr htec hrc, ?_⟩
    rw [hctl]
    exact ⟨rfl, rfl, rfl, congrArg CanMb.pend (CanCtl.updMb_get _ _ _), congrArg CanMb.h (CanCtl.updMb_get _ _ _), hmem⟩
  · obtain ⟨-, -, -, hctl⟩ := State.canSettled_low (b := b) (stamp := st) herr htec hrc
    refine ⟨_, exec_canTxDone_handed hbus hnext hh habort hrun herr htec hrc, ?_⟩
    rw [State.updCtl_ctl, CanCtl.updMb_get, hctl]
    exact ⟨rfl, rfl, rfl, rfl, rfl, rfl, rfl⟩
  · refine ⟨_, exec_canError_transmit hmode hbus, ?_⟩
    rw [State.canCount_low_ctl herr (by omega) (by omega)]
    exact ⟨rfl, rfl, herr, rfl⟩
  · refine ⟨_, exec_canError_receive hmode, ?_⟩
    rw [State.canCount_low_ctl herr (by omega) (by omega)]
    exact ⟨rfl, rfl, herr⟩
  · obtain ⟨hmem, hctl⟩ := State.canHeard_low herr htec hrc
    refine ⟨_, exec_canFrameReceive_fifo age hmode hsync herr hbus htec hrc hrtr hmatch htarget, ?_⟩
    rw [State.updCtl_ctl, State.updCtl_ctl, hctl, CanCtl.storeFifo_room]
    · exact ⟨rfl, rfl, rfl, hmem, Tab.get_upd_self _ _ _⟩
    · exact hroom
  · have hoff := State.canCount_off_ctl hbus herr (by omega) (by omega : 255 < (s.ctl c.val).tec + 8) rfl
    refine ⟨_, exec_canError_transmit hmode hbus, ?_, ?_, exec_canArbitration_off ?_⟩ <;> rw [hoff]

end Sys2Proof.Machine
end

section
/-! Ethernet events: settles O41. -/

namespace Sys2Proof.Machine

open Sys2Proof.Claims

/-! ### A MAC's update -/

theorem State.updMac_congr {s : State} {m : Nat} {f g : Mac → Mac} (h : f (s.mac m) = g (s.mac m)) : s.updMac m f = s.updMac m g := by
  change { s with eth.macs := s.eth.macs.set m (f (s.mac m)) } = { s with eth.macs := s.eth.macs.set m (g (s.mac m)) }
  rw [h]

theorem State.updMac_mac (s : State) (m : Nat) (f : Mac → Mac) : (s.updMac m f).mac m = f (s.mac m) := Tab.get_upd_self _ _ _

theorem Mac.updQueue_congr {q : Mac} {k : Nat} {f g : EthQueue → EthQueue} (h : f (q.queues.get k) = g (q.queues.get k)) : q.updQueue k f = q.updQueue k g := by
  change { q with queues := q.queues.set k (f (q.queues.get k)) } = { q with queues := q.queues.set k (g (q.queues.get k)) }
  rw [h]

theorem Mac.updQueue_get (q : Mac) (k : Nat) (f : EthQueue → EthQueue) : (q.updQueue k f).queues.get k = f (q.queues.get k) := Tab.get_upd_self _ _ _

/-! ### The frame check sequence (R355) -/

theorem crcBitR_lt {p c : Nat} (hp : p < 2 ^ 32) (hc : c < 2 ^ 32) : crcBitR p c < 2 ^ 32 := by
  unfold crcBitR
  split
  · exact Nat.xor_lt_two_pow (by omega) hp
  · omega

theorem crcByteR_lt {p c : Nat} (hp : p < 2 ^ 32) (hc : c < 2 ^ 32) (b : Byte) : crcByteR p c b < 2 ^ 32 := by
  have hx : c ^^^ b.toNat < 2 ^ 32 := Nat.xor_lt_two_pow hc (by have := b.isLt; omega)
  unfold crcByteR
  iterate 8 refine crcBitR_lt hp ?_
  exact hx

theorem foldl_crcByteR_lt {p : Nat} (hp : p < 2 ^ 32) (bs : List Byte) {c : Nat} (hc : c < 2 ^ 32) : bs.foldl (crcByteR p) c < 2 ^ 32 := by
  induction bs generalizing c with
  | nil => exact hc
  | cons b bs ih => exact ih (crcByteR_lt hp hc b)

theorem crc32_lt (bs : List Byte) : crc32 bs < 2 ^ 32 :=
  Nat.xor_lt_two_pow (foldl_crcByteR_lt (by decide) bs (by decide)) (by decide)

/-- The four bytes after a frame that carries its own check sequence spell that sequence. -/
theorem leNat_crc32 (f : List Byte) : leNat (leBytes 4 (crc32 f)) = crc32 f := by
  rw [leNat_leBytes]
  exact Nat.mod_eq_of_lt (crc32_lt f)

/-! ### Events of a MAC -/

section
variable {m : Fin 8} {s : State}

theorem exec_ethRxqHeadWrite_ok {k : Fin 4} {v : Word} (hlo : atOrLater 32 v.toNat ((s.mac m.val).queues.get k.val).head.toNat = true)
    (hhi : atOrLater 32 ((s.mac m.val).queues.get k.val).tail.toNat v.toNat = true) :
    exec (.ethRxqHeadWrite m k v) s = .next (s.updMac m.val fun x => x.updQueue k.val fun r => { r with head := v }) := by
  refine congrArg _ (State.updMac_congr (Mac.updQueue_congr ?_))
  rw [hlo, hhi]
  rfl

theorem exec_ethGateChange {g : Gcl} (hg : (s.mac m.val).gcl = some g) : exec (.ethGateChange m) s =
    .next (s.updMac m.val fun q => { q with entry := entryAt (g.pos s.now.toNat) g.entries 0 }) :=
  congrArg _ (State.updMac_congr (by rw [hg]))

theorem exec_ethGclSwitch {g : Gcl} (hg : (s.mac m.val).pendGcl = some g) (hnow : atOrLater 64 s.now.toNat g.start = true) :
    exec (.ethGclSwitch m) s = .next (s.updMac m.val fun q => { q with gcl := some g, pendGcl := none, entry := 0 }) :=
  congrArg _ (State.updMac_congr (by rw [hg]; exact if_pos hnow))

theorem exec_ethLaunchDiscard_late {e : Fin 64} {t : BitVec 64} {u : State}
    (hu : u = s.gateDiscards m.val ((s.mac m.val).launches.get e.val).cls 97) (hat : ((u.mac m.val).launches.get e.val).at_ = some t)
    (hlate : atOrLater 64 u.now.toNat (t + BitVec.ofNat 64 (u.mac m.val).lateNs).toNat = true) :
    exec (.ethLaunchDiscard (.launch m e)) s = .next (u.launchLate m.val e.val) := by
  change execEthLaunchDiscard (.launch m e) s = _
  rw [execEthLaunchDiscard]
  rw [← hu, hat]
  exact congrArg _ (if_pos hlate)

theorem State.gateDiscards_one {c : Nat} {x : Cand}
    (hx : (s.heads m.val c).find? (fun x => !(s.mac m.val).everFits c ((s.mac m.val).duration x.1)) = some x) (hpost : x.2 = .post none) :
    s.gateDiscards m.val c 1 = (s.takeFrame m.val c x.2).updMac m.val fun q => { q with gateDiscard := satInc q.gateDiscard } := by
  simp only [State.gateDiscards, hx, hpost]
  rfl

/-- With no operational list every frame fits, and none is discarded. -/
theorem State.gateDiscards_open (hg : (s.mac m.val).gcl = none) (c n : Nat) : s.gateDiscards m.val c n = s := by
  have hfit (x : Cand) : (!(s.mac m.val).everFits c ((s.mac m.val).duration x.1)) = false := by simp [Mac.everFits, hg]
  have hnone : (s.heads m.val c).find? (fun x => !(s.mac m.val).everFits c ((s.mac m.val).duration x.1)) = none :=
    List.find?_eq_none.mpr fun x _ => by rw [hfit]; exact Bool.false_ne_true
  cases n with
  | zero => rfl
  | succ n => simp only [State.gateDiscards, hnone]

theorem exec_ethTxStart_post {p : EthPost} {rest : List EthPost} (hon : (s.mac m.val).enabled = true) (htx : (s.mac m.val).tx = none)
    (hgcl : (s.mac m.val).gcl = none) (hlaunch : (s.mac m.val).launches.cells = []) (htun : s.tunnelPort m.val 7 = none)
    (hcls : (s.mac m.val).classes.get 7 = p :: rest) (hat : p.at_ = none) :
    exec (.ethTxStart m) s = .next ((s.updMac m.val fun q => { q with classes := q.classes.upd 7 List.tail }).updMac m.val fun q =>
      { q with tx := some { frame := padFrame p.frame, from_ := .post p.h, stamp := s.txStamp m.val } }) := by
  have hkeep : classOrder.foldl (fun s c => s.gateDiscards m.val c 97) s = s := by
    simp only [classOrder, List.foldl_cons, List.foldl_nil, State.gateDiscards_open hgcl]
  have hfirst : s.candidates m.val 7 = [(p.frame, TxFrom.post p.h)] := by
    simp [State.candidates, Mac.dueLaunches, hlaunch, htun, hcls, hat]
  have hopen (now c n : Nat) : (s.mac m.val).openFor now c n = true := by simp [Mac.openFor, hgcl]
  have hfind : (classOrder.flatMap fun c => (s.candidates m.val c).map fun x => (c, x)).find?
      (fun x => (s.mac m.val).openFor s.now.toNat x.1 ((s.mac m.val).duration x.2.1)) = some (7, p.frame, TxFrom.post p.h) := by
    simp [classOrder, hfirst, hopen]
  change execEthTxStart m s = _
  simp only [execEthTxStart, hon, htx, hkeep, hfind]
  rfl

theorem exec_ethTxDone_post {f : List Byte} {h : Hdr} {st : BitVec 96} (htx : (s.mac m.val).tx = some { frame := f, from_ := .post (some h), stamp := st }) :
    exec (.ethTxDone m) s = .next ((s.updMac m.val fun q =>
      { q with tx := none, txFrames := satInc q.txFrames, wire := q.wire ++ [f ++ leBytes 4 (crc32 f)] }).reply h (timeRep st)) := by
  change execEthTxDone m s = _
  simp only [execEthTxDone, htx]
  rfl

theorem exec_ethFrameReceive_badFcs {frame : List Byte} (hon : (s.mac m.val).enabled = true)
    (hbad : crc32 (frame.take (frame.length - 4)) ≠ leNat (frame.drop (frame.length - 4))) :
    exec (.ethFrameReceive m frame) s = .next (s.updMac m.val fun q => { q with rxFcs := satInc q.rxFcs }) := by
  change execEthFrameReceive m frame s = _
  simp [execEthFrameReceive, hon, hbad]

end

/-! ### Reception into a ring (R358) -/

theorem State.rxRing_room_mac {s : State} {m k : Nat} {f : List Byte} {st : BitVec 96}
    (hroom : (((s.mac m).queues.get k).tail - ((s.mac m).queues.get k).head).toNat < 2 ^ ((s.mac m).queues.get k).log2) :
    (s.rxRing m k f st).mac m = (s.mac m).updQueue k fun r => { r with tail := r.tail + 1 } := by
  rw [State.rxRing]
  simp only [if_neg (not_le.mpr hroom)]
  exact State.updMac_mac _ _ _

/-- With no filter set a frame goes to queue 0. -/
theorem find_filter_none {t : Tab EthFilter} (h : t.cells = []) (f : List Byte) : ((List.range 16).map t.get).find? (fun g => g.matches f) = none := by
  have hget (i : Nat) : t.get i = default := by rw [Tab.get, h, Tab.look]
  rw [List.find?_eq_none]
  simp only [List.mem_map, forall_exists_index, and_imp]
  rintro g i - rfl
  rw [hget]
  exact Bool.false_ne_true

theorem exec_ethFrameReceive_ring {m : Fin 8} {s : State} {f : List Byte} (hon : (s.mac m.val).enabled = true) (hlo : 60 ≤ f.length)
    (hhi : f.length ≤ (s.mac m.val).maxFrame) (hctl : etherType f ≠ 0x8808) (htun : etherType f ≠ 0x88B5) (hfil : (s.mac m.val).filters.cells = [])
    (hmode : ((s.mac m.val).queues.get 0).mode = 1) : exec (.ethFrameReceive m (f ++ leBytes 4 (crc32 f))) s =
      .next (((s.updMac m.val fun q => { q with rxFrames := satInc q.rxFrames }).updMac m.val fun q =>
        q.updQueue 0 fun r => { r with seq := r.seq + 1 }).rxRing m.val 0 f
          ((s.updMac m.val fun q => { q with rxFrames := satInc q.rxFrames }).rxStamp m.val (f.length + 4))) := by
  have hlen4 : (f ++ leBytes 4 (crc32 f)).length = f.length + 4 := by rw [List.length_append, length_leBytes]
  have htake : (f ++ leBytes 4 (crc32 f)).take f.length = f := List.take_left
  have hdrop : leNat ((f ++ leBytes 4 (crc32 f)).drop f.length) = crc32 f := by rw [List.drop_left, leNat_crc32]
  have hsize : (decide (f.length + 4 < 64) || decide ((s.mac m.val).maxFrame + 4 < f.length + 4)) = false := by
    rw [decide_eq_false (by omega), decide_eq_false (by omega), Bool.or_false]
  change execEthFrameReceive m (f ++ leBytes 4 (crc32 f)) s = _
  rw [execEthFrameReceive]
  have hshort : ¬ f.length + 4 < 4 := by omega
  simp only [hon, hlen4, Nat.add_sub_cancel, htake, hdrop, hsize, hshort, hctl, htun, find_filter_none hfil, hmode, ne_eq,
    not_true_eq_false, decide_false]
  rfl

/-- Settles O41: each Ethernet event has its effect. -/
theorem ethernetEventsComplete : Obligations.EthernetEventsComplete := by
  unfold Obligations.EthernetEventsComplete
  intro m s
  refine ⟨fun k v => exec_ethRxqHeadWrite_ok, fun hon up => congrArg _ (if_pos hon), fun g => exec_ethGateChange, fun g => exec_ethGclSwitch,
    fun e t => exec_ethLaunchDiscard_late rfl, fun c x => State.gateDiscards_one, fun p rest => exec_ethTxStart_post, fun f h st => exec_ethTxDone_post,
    fun frame => exec_ethFrameReceive_badFcs, ?_⟩
  intro f frame r k hon hlo hhi hctl htun hfil hmode hroom
  refine ⟨_, exec_ethFrameReceive_ring hon hlo hhi hctl htun hfil hmode, ?_⟩
  rw [State.rxRing_room_mac, State.updMac_mac, State.updMac_mac, Mac.updQueue_get, Mac.updQueue_get]
  · exact ⟨rfl, rfl, rfl, rfl⟩
  · rw [State.updMac_mac, State.updMac_mac, Mac.updQueue_get]
    exact hroom

end Sys2Proof.Machine
end

section
/-! Tyben commands: settles O44. -/

namespace Sys2Proof.Machine

open Sys2Proof.Claims

/-! ### Commands (R405) -/

section
variable {s : State} {h : Hdr} (hpf : pf0 s h)
include hpf

theorem exec_tybNodeSet {node : BitVec 16} (hnode : within 1 16383 node.toNat = true) (h0 : (s.port 0).state = .disabled)
    (h1 : (s.port 1).state = .disabled) :
    exec (.tybNodeSet h node) s = .next ({ s with tyb.node := node.setWidth 14 }.reply h {}) := by
  obtain ⟨hsup, hfn⟩ := hpf
  have hlo : 1 ≤ node.toNat ∧ node.toNat ≤ 16383 := by simpa [within] using hnode
  have hne : node ≠ 0 := fun e => by rw [e] at hlo; exact absurd hlo.1 (by decide)
  refine firmware_checked hsup h ?_ _ rfl
  simp only [hfn, h0, h1, beq_eq_false_iff_ne.mpr hne, not_le.mpr (by omega : node.toNat < 16384), List.all_cons, List.all_nil]
  rfl

section
variable {port en medium rate mac cls flits : Byte} (pm : BitVec 48) (hport : port.toNat ≤ 1) (hen : en.toNat ≤ 1) (hmedium : medium.toNat ≤ 1)
    (hrate : rate.toNat ≤ 2) (hmac : mac.toNat ≤ 7) (hcls : cls.toNat ≤ 7)
    (htun : medium = 1 → within 1 8 flits.toNat = true ∧ (s.mac mac.toNat).enabled = true ∧ 18 + 256 * flits.toNat ≤ (s.mac mac.toNat).maxFrame)
include hport hen hmedium hrate hmac hcls htun

omit hpf in
/-- What TYB_PORT_CONFIG checks of its parameters holds. -/
theorem tybPortConfig_params : (decide (1 < port.toNat) || decide (1 < en.toNat) || decide (1 < medium.toNat) || decide (2 < rate.toNat) ||
    decide (7 < mac.toNat) || decide (7 < cls.toNat) || (decide (medium = 1) && (flits == 0 || decide (8 < flits.toNat) ||
      !(s.eth.macs.get mac.toNat).enabled || decide ((s.eth.macs.get mac.toNat).maxFrame < 18 + 256 * flits.toNat)))) = false := by
  have htunnel : (decide (medium = 1) && (flits == 0 || decide (8 < flits.toNat) || !(s.eth.macs.get mac.toNat).enabled ||
      decide ((s.eth.macs.get mac.toNat).maxFrame < 18 + 256 * flits.toNat))) = false := by
    by_cases hm : medium = 1
    · obtain ⟨hflits, hon, hfit⟩ := htun hm
      have hrange : 1 ≤ flits.toNat ∧ flits.toNat ≤ 8 := by simpa [within] using hflits
      have hne : flits ≠ 0 := fun e => by rw [e] at hrange; exact absurd hrange.1 (by decide)
      change (s.eth.macs.get mac.toNat).enabled = true at hon
      change 18 + 256 * flits.toNat ≤ (s.eth.macs.get mac.toNat).maxFrame at hfit
      rw [beq_eq_false_iff_ne.mpr hne, decide_eq_false (not_lt.mpr hrange.2), hon, decide_eq_false (not_lt.mpr hfit)]
      simp
    · rw [decide_eq_false hm, Bool.false_and]
  rw [htunnel]
  simp [hport, hen, hmedium, hrate, hmac, hcls]

theorem exec_tybPortConfig_disabled (hst : (s.port port.toNat).state = .disabled) :
    exec (.tybPortConfig h port en medium rate mac cls flits pm) s = .next ((s.updPort port.toNat fun q =>
      { q with state := if en = 1 then .detect else .disabled, retry := false, tunnel := decide (medium = 1), maxRate := rate.setWidth 2, mac := mac.toNat,
               cls := cls.toNat, flits := flits.toNat, peerMac := pm, error := 0, cfgSent := false, cfgGot := false }).reply h {}) := by
  have hok := tybPortConfig_params hport hen hmedium hrate hmac hcls htun
  obtain ⟨hsup, hfn⟩ := hpf
  change firmware h s (doTybPortConfig h port en medium rate mac cls flits pm s) = _
  simp only [doTybPortConfig, hok, hst]
  rw [checks_pass (by simp [hfn]), if_neg (by simp)]
  exact firmware_ok hsup h _ rfl

theorem exec_tybPortConfig_down (hst : (s.port port.toNat).state ≠ .disabled) (hoff : en = 0) :
    exec (.tybPortConfig h port en medium rate mac cls flits pm) s = .next ((s.portDown port.toNat .disabled 0).reply h {}) := by
  have hok := tybPortConfig_params hport hen hmedium hrate hmac hcls htun
  obtain ⟨hsup, hfn⟩ := hpf
  change firmware h s (doTybPortConfig h port en medium rate mac cls flits pm s) = _
  simp only [doTybPortConfig, hok]
  rw [checks_pass (by simp [hfn, hoff]), if_pos (by simp [hoff, hst])]
  exact firmware_ok hsup h _ rfl

end

/-- What TYB_MSG_SEND checks of a node in range holds. -/
theorem tybMsgSend_params {node : BitVec 16} (hnode : within 1 16383 node.toNat = true) (hset : s.tyb.node ≠ 0) :
    [(h.fn != 0, 0x8001), (node == 0 || decide (16384 ≤ node.toNat), 0x8002), (s.tyb.node == 0, 0x8003)].all (fun c => !c.1) = true := by
  have hlo : 1 ≤ node.toNat ∧ node.toNat ≤ 16383 := by simpa [within] using hnode
  have hne : node ≠ 0 := fun e => by rw [e] at hlo; exact absurd hlo.1 (by decide)
  simp only [hpf.2, beq_eq_false_iff_ne.mpr hset, beq_eq_false_iff_ne.mpr hne, not_le.mpr (by omega : node.toNat < 16384), List.all_cons, List.all_nil]
  rfl

theorem exec_tybMsgSend_self {node : BitVec 16} (data : BitVec 224) (hnode : within 1 16383 node.toNat = true) (hset : s.tyb.node ≠ 0)
    (hself : node.toNat = s.tyb.node.toNat) {u : State}
    (hu : s.sendMsg node.toNat 8 (leBytes 28 data.toNat ++ List.replicate 4 0) (some h) = some u) :
    exec (.tybMsgSend h node data) s = .next (u.reply h {}) := by
  change firmware h s (doTybMsgSend h node data s) = _
  dsimp only [doTybMsgSend]
  rw [checks_pass (tybMsgSend_params hpf hnode hset), hu, decide_eq_true hself, Bool.or_true, Bool.true_or]
  exact (congrArg (firmware h s) (if_pos hself)).trans (firmware_ok hpf.1 h _ rfl)

theorem exec_tybMsgSend_routed {node : BitVec 16} (data : BitVec 224) (hnode : within 1 16383 node.toNat = true) (hset : s.tyb.node ≠ 0)
    (hother : node.toNat ≠ s.tyb.node.toNat) {r : Route} (hr : s.route node.toNat = some r) (hst : (s.port r.portNo).state = .active) {u : State}
    (hu : s.sendMsg node.toNat 8 (leBytes 28 data.toNat ++ List.replicate 4 0) (some h) = some u) :
    exec (.tybMsgSend h node data) s = .next u := by
  have hact : ((some r).any fun r => (s.port r.portNo).state == .active) = true := by simp [hst]
  change firmware h s (doTybMsgSend h node data s) = _
  dsimp only [doTybMsgSend]
  rw [checks_pass (tybMsgSend_params hpf hnode hset), hu, decide_eq_false hother, hr, hact]
  exact (congrArg (firmware h s) (if_neg hother)).trans (firmware_later hpf.1 h _)

theorem exec_tybOffsetMeasure {port : Byte} (hport : port.toNat ≤ 1) (hset : s.tyb.node ≠ 0) (hidle : s.tyb.offs = none)
    (hst : (s.port port.toNat).state = .active) (hnb : (s.port port.toNat).neighbour ≠ 0) :
    exec (.tybOffsetMeasure h port) s = .next (s.sendProbe (some h) port.toNat false) := by
  obtain ⟨hsup, hfn⟩ := hpf
  refine firmware_checked_later hsup h ?_ _
  simp only [hfn, not_lt.mpr hport, beq_eq_false_iff_ne.mpr hset, hidle, hst, beq_eq_false_iff_ne.mpr hnb, List.all_cons, List.all_nil]
  rfl

theorem exec_tybPartnerConfig {port en miss : Byte} {us : Word} (tol : Word) {peer : BitVec 16} {r : Route} (hport : port.toNat ≤ 1) (hen : en.toNat ≤ 1)
    (hmiss : within 2 255 miss.toNat = true) (hus : within 100 100000 us.toNat = true) (hpeer : within 1 16383 peer.toNat = true)
    (hr : s.route peer.toNat = some r) (hon : r.portNo = port.toNat) (hlen : r.len = 14) (hst : s.pln.state = .loaded) :
    exec (.tybPartnerConfig h port en miss us tol peer) s = .next ({ s with tyb.partner :=
      { enable := en == 1, port := port.toNat, hbMiss := miss.toNat, hbUs := us.toNat, tol := tol.toNat, peer := peer.toNat } }.reply h {}) := by
  obtain ⟨hsup, hfn⟩ := hpf
  exact firmware_checked hsup h (by simp [hfn, hport, hen, hmiss, hus, hpeer, hr, hon, hlen, hst]) _ rfl

end

/-- A message to this device itself goes straight into its inbox (R394). -/
theorem State.sendMsg_self {s : State} {dst type : Nat} {payload : List Byte} {reply : Option Hdr} (hset : s.tyb.node ≠ 0) (hself : dst = s.tyb.node.toNat) :
    s.sendMsg dst type payload reply = some (({ s with tyb.mseq := (s.tyb.mseq + 1) % 2 ^ 32 } : State).updPort 0 fun q => { q with inbox := q.inbox ++
      [{ dst := dst, src := s.tyb.node.toNat, type := type, hops := 63, mseq := s.tyb.mseq, payload := payload, stamp := s.now }] }) := by
  rw [State.sendMsg, if_neg hset]
  exact if_pos hself

/-- A message to another node is queued at its route's port (R395). -/
theorem State.sendMsg_routed {s : State} {dst type : Nat} {payload : List Byte} {reply : Option Hdr} {r : Route} (hset : s.tyb.node ≠ 0)
    (hother : dst ≠ s.tyb.node.toNat) (hr : s.route dst = some r) :
    s.sendMsg dst type payload reply = some (({ s with tyb.mseq := (s.tyb.mseq + 1) % 2 ^ 32 } : State).enqueue r.portNo
      (Msg.flits { dst := dst, src := s.tyb.node.toNat, type := type, hops := 63, mseq := s.tyb.mseq, payload := payload, stamp := s.now } reply)) := by
  rw [State.sendMsg, if_neg hset]
  simp only [if_neg hother, hr]

/-- Settles O44: each Tyben command whose checks pass has its effect. -/
theorem tybenCommandsComplete : Obligations.TybenCommandsComplete := by
  unfold Obligations.TybenCommandsComplete
  intro h s hpf
  have hsup := hpf.1
  have hfn := hpf.2
  refine ⟨fun node => exec_tybNodeSet hpf, fun port en medium rate mac cls flits pm hport hen hmedium hrate hmac hcls htun =>
      ⟨exec_tybPortConfig_disabled hpf pm hport hen hmedium hrate hmac hcls htun, exec_tybPortConfig_down hpf pm hport hen hmedium hrate hmac hcls htun⟩,
    ?_, ?_, ?_, ?_, fun slot part en hslot hpart hen => firmware_checked hsup h (by simp [hfn, hslot, hpart, hen]) _ rfl,
    fun port hport hres => firmware_checked_area ⟨hsup, hres⟩ (by simp [hfn, hport]) _ _⟩
  · intro index pre len port valid hindex hpre hlen hport hvalid r
    exact firmware_checked hsup h (by simp [hfn, hindex, hpre, hlen, hport, hvalid]) _ rfl
  · intro node data hnode hset m t
    exact ⟨fun hself => exec_tybMsgSend_self hpf data hnode hset hself (State.sendMsg_self hset hself),
      fun r hother hr hst => exec_tybMsgSend_routed hpf data hnode hset hother hr hst (State.sendMsg_routed hset hother hr)⟩
  · intro port hport hset hidle hst hnb m o
    rw [exec_tybOffsetMeasure hpf hport hset hidle hst hnb]
    exact congrArg _ (if_neg hset)
  · intro port en miss us tol peer r hport hen hmiss hus hpeer hr hon hlen hst p
    exact exec_tybPartnerConfig hpf tol hport hen hmiss hus hpeer hr hon hlen hst

end Sys2Proof.Machine
end

section
/-! Tyben messages: settles O46. -/

namespace Sys2Proof.Machine

open Sys2Proof.Claims

/-! ### The message that arrived first (R392 to R396) -/

section
variable {p : Fin 2} {s : State} {bs : List Byte} {n : Nat} {rep : Bool} {st : BitVec 64} {rest : List (List Byte × Nat × Bool × BitVec 64)}
    (harr : (s.port p.val).arrived = (bs, n, rep, st) :: rest)
include harr

/-- A header that names no node of this network, an unknown type or reserved bits (R392). -/
def badHeader (s : State) (x : Nat) : Bool :=
  decide (s.tyb.node = 0) || decide (fld x 0 14 = 0) || decide (fld x 16 14 = 0) || decide (fld x 32 8 = 0) || decide (10 < fld x 32 8) ||
    decide (fld x 14 2 ≠ 0) || decide (fld x 30 2 ≠ 0) || decide (fld x 46 18 ≠ 0) || decide (2 ^ 31 < fld x 64 32)

omit harr in
theorem badHeader_eq_false {x : Nat} : badHeader s x = false ↔ s.tyb.node ≠ 0 ∧ fld x 0 14 ≠ 0 ∧ fld x 16 14 ≠ 0 ∧ 1 ≤ fld x 32 8 ∧ fld x 32 8 ≤ 10 ∧
    fld x 14 2 = 0 ∧ fld x 30 2 = 0 ∧ fld x 46 18 = 0 ∧ fld x 64 32 ≤ 2 ^ 31 := by
  simp [badHeader, Nat.one_le_iff_ne_zero, and_assoc]

theorem exec_tybMsgRx : exec (.tybMsgRx p) s = .next (
    let x := leNat (bs.take 16)
    let t := s.updPort p.val fun q => { q with arrived := rest }
    let m : Msg := { dst := fld x 0 14, src := fld x 16 14, type := fld x 32 8, hops := fld x 40 6, mseq := fld x 96 32, payload := bs.drop 16, replayed := rep,
                     held := n, stamp := st }
    if badHeader s x then (t.rxDiscard p.val).freeFlits p.val (vcOf (fld x 32 8)) n
    else if fld x 0 14 = s.tyb.node.toNat then t.updPort p.val fun q => { q with inbox := q.inbox ++ [m] }
    else if fld x 40 6 ≤ 1 then ({ t with tyb.hopsExpired := satInc s.tyb.hopsExpired }).freeFlits p.val (vcOf (fld x 32 8)) n
    else (s.route (fld x 0 14)).elim (({ t with tyb.noRoute := satInc s.tyb.noRoute } : State).freeFlits p.val (vcOf (fld x 32 8)) n) fun r =>
      t.enqueue r.portNo (({ m with hops := fld x 40 6 - 1 }.flits none).map fun (f : Flit) => { f with from_ := if n = 0 then none else some p.val })) := by
  change execTybMsgRx p s = _
  rw [execTybMsgRx, State.msgRx]
  simp only [harr]
  refine congrArg _ (if_congr Iff.rfl rfl (if_congr Iff.rfl rfl (if_congr Iff.rfl rfl ?_)))
  have hroute : (s.updPort p.val fun q => { q with arrived := rest }).route (fld (leNat (bs.take 16)) 0 14) = s.route (fld (leNat (bs.take 16)) 0 14) := rfl
  rw [hroute]
  cases s.route (fld (leNat (bs.take 16)) 0 14) <;> rfl

end

/-! ### Tally requests and responses (R279, R281, R398) -/

section
variable {p : Fin 2} {s t : State} {m : Msg}

/-- A well-formed request for a tally in the open range is admitted, read or waits; it is neither discarded nor refused. -/
theorem exec_tallyReqRx_read (ht : s.takeMsg p.val 1 = some (m, t)) (hlen : m.payload.length = 16) (hg : fld (leNat m.payload) 16 16 < 16384)
    (hopen : t.remoteOpen (fld (leNat m.payload) 16 16) = true) (hop : fld (leNat m.payload) 0 8 = 2) :
    exec (.tallyReqRx p) s = .next (t.sendOr m.src 4 (tallyResp (fld (leNat m.payload) 96 32) 0 0 (t.tallyNext (fld (leNat m.payload) 16 16)).toNat)) := by
  change execTallyReqRx p s = _
  rw [execTallyReqRx]
  simp only [ht, hlen, hop, hopen, not_le.mpr hg]
  rfl

/-- The change that a remote ADD or SET asks for at a port in tick `now` (R279). -/
def remoteOp (m : Msg) (p now : Nat) : TallyOp :=
  { tally := fld (leNat m.payload) 16 16, isSet := fld (leNat m.payload) 0 8 == 1, value := BitVec.ofNat 32 (fld (leNat m.payload) 32 32), due := now + 1,
    src := 1 + p, resp := some (m.src, fld (leNat m.payload) 96 32) }

theorem exec_tallyReqRx_change (ht : s.takeMsg p.val 1 = some (m, t)) (hlen : m.payload.length = 16) (hg : fld (leNat m.payload) 16 16 < 16384)
    (hopen : t.remoteOpen (fld (leNat m.payload) 16 16) = true) (hop : fld (leNat m.payload) 0 8 = 0 ∨ fld (leNat m.payload) 0 8 = 1)
    (hrun : t.jrn.r.running = false) (hjrn : t.jrn.j.isOpen = false) :
    exec (.tallyReqRx p) s = .next (if (t.port p.val).lastReq = some t.tick then s
      else { t with tly.ops := t.tly.ops ++ [remoteOp m p.val t.tick] }.updPort p.val fun q => { q with lastReq := some t.tick }) := by
  change execTallyReqRx p s = _
  rw [execTallyReqRx]
  rcases hop with hop | hop
  all_goals
    simp only [ht, hlen, hop, hopen, not_le.mpr hg, hrun]
    by_cases hlast : (t.port p.val).lastReq = some t.tick
    · simp only [hlast]
      rfl
    · simp only [if_neg hlast, State.journal, State.journalAt_closed, State.updPort_jrn, hjrn, remoteOp, hop]
      rfl

theorem exec_tallyRespRx_final {i : Nat} {c : RemoteCmd} (ht : s.takeMsg p.val 4 = some (m, t))
    (hi : findIdx (fun c => c.reqId == fld (leNat m.payload) 0 32 && c.node == m.src) t.tly.remote 0 = some i) (hc : t.tly.remote[i]? = some c)
    (hkind : fld (leNat m.payload) 48 8 = 0) (hst : fld (leNat m.payload) 32 16 = 0) :
    exec (.tallyRespRx p) s = .next ({ t with tly.remote := dropAt i t.tly.remote }.reply c.h { r0 := if 2 ≤ c.op then fld (leNat m.payload) 64 32 else 0 }) := by
  change execTallyRespRx p s = _
  rw [execTallyRespRx]
  simp only [ht, hi, hc, hkind, hst]
  rfl

/-! ### The offset measurement (R399) -/

/-- The extended result of a measurement: offset, delay and the difference of the plan starts, and the four stamps. -/
def offsetAnswer (x stamp start : Nat) : List Byte :=
  let w := fun i => fld x (64 * i) 64
  let (off, del) := offsetOf (w 0) (w 1) (w 2) stamp
  (([off, del, sgn 64 (w 3) - off - sgn 64 start].map (wrap 64)) ++ [w 0, w 1, w 2, stamp]).flatMap (leBytes 8)

theorem exec_offsetReplyRx_done {o : OffsetRun} (ht : s.takeMsg p.val 10 = some (m, t)) (ho : t.tyb.offs = some o) (hport : o.port = p.val)
    (ht1 : fld (leNat m.payload) (64 * 0) 64 = o.t1.toNat) (hrep : m.replayed = false) (hspoil : o.spoiled = false) :
    exec (.offsetReplyRx p) s = .next ({ t with tyb.offs := none }.replyOpt o.h
      { ext := some (offsetAnswer (leNat m.payload) m.stamp.toNat t.planStart.toNat) }) := by
  have hmine : (decide (o.port ≠ p.val) || decide (fld (leNat m.payload) (64 * 0) 64 ≠ o.t1.toNat)) = false := by
    rw [decide_eq_false (not_not.mpr hport), decide_eq_false (not_not.mpr ht1), Bool.or_false]
  change execOffsetReplyRx p s = _
  rw [execOffsetReplyRx]
  simp only [ht, ho, hmine, hrep, hspoil, Bool.or_false, Bool.false_eq_true, if_false]
  rfl

end

/-- Settles O46: messages are delivered, forwarded or dropped, and each kind has its effect. -/
theorem tybenMessagesComplete : Obligations.TybenMessagesComplete := by
  unfold Obligations.TybenMessagesComplete
  intro p s
  refine ⟨?_, ?_, ?_, ?_, ?_, ?_⟩
  · intro bs n rep st rest harr x vc t good m
    have hgood : good ↔ badHeader s x = false := badHeader_eq_false.symm
    rw [exec_tybMsgRx harr]
    refine ⟨fun hbad => ?_, fun hok hself => ?_, fun hok hother hhops => ?_, fun hok hother hhops hr => ?_, fun r hok hother hhops hr => ?_⟩
    · exact congrArg _ (if_pos (by rwa [hgood, Bool.not_eq_false] at hbad))
    all_goals
      have hhead : ¬ badHeader s x = true := by rw [hgood.mp hok]; exact Bool.false_ne_true
    · exact congrArg _ ((if_neg hhead).trans (if_pos hself))
    · exact congrArg _ ((if_neg hhead).trans ((if_neg hother).trans (if_pos hhops)))
    · exact congrArg _ ((if_neg hhead).trans ((if_neg hother).trans ((if_neg (not_le.mpr hhops)).trans (by rw [hr]; rfl))))
    · exact congrArg _ ((if_neg hhead).trans ((if_neg hother).trans ((if_neg (not_le.mpr hhops)).trans (by rw [hr]; rfl))))
  · intro m t ht hlen x g hg hopen
    refine ⟨?_, exec_tallyReqRx_read ht hlen hg hopen⟩
    intro hop hrun hjrn o
    rw [exec_tallyReqRx_change ht hlen hg hopen hop hrun hjrn]
    exact ⟨fun hlast => congrArg _ (if_pos hlast), fun hlast => congrArg _ (if_neg hlast)⟩
  · intro m t i c ht x hi hc hkind hst
    exact exec_tallyRespRx_final ht hi hc hkind hst
  · intro m t ht
    change execHostMsgRx p s = _
    simp only [execHostMsgRx, ht]
  · intro m t ht
    change execOffsetProbeRx p s = _
    simp only [execOffsetProbeRx, ht]
  · intro m t o ht ho w hport ht1 hrep hspoil off del
    exact exec_offsetReplyRx_done ht ho hport ht1 hrep hspoil

end Sys2Proof.Machine
end

section
/-! Tyben ports and flits: settles O45. -/

namespace Sys2Proof.Machine

open Sys2Proof.Claims

/-! ### A port's update -/

theorem State.updPort_port (s : State) (p : Nat) (f : TybPort → TybPort) : (s.updPort p f).port p = f (s.port p) := Tab.get_upd_self _ _ _

theorem State.updPort_congr {s : State} {p : Nat} {f g : TybPort → TybPort} (h : f (s.port p) = g (s.port p)) : s.updPort p f = s.updPort p g := by
  change { s with tyb.ports := s.tyb.ports.set p (f (s.port p)) } = { s with tyb.ports := s.tyb.ports.set p (g (s.port p)) }
  rw [h]

/-- What sending and acknowledging flits leaves of a port: its state, and all it has received. -/
structure Received (q q' : TybPort) : Prop where
  state : q'.state = q.state
  expect : q'.expect = q.expect
  gap : q'.gap = q.gap
  arrived : q'.arrived = q.arrived
  part : q'.part = q.part
  neighbour : q'.neighbour = q.neighbour
  cfgGot : q'.cfgGot = q.cfgGot
  inbox : q'.inbox = q.inbox

theorem Received.refl (q : TybPort) : Received q q := ⟨rfl, rfl, rfl, rfl, rfl, rfl, rfl, rfl⟩

theorem Received.trans {a b c : TybPort} (h : Received a b) (h' : Received b c) : Received a c :=
  ⟨h'.state.trans h.state, h'.expect.trans h.expect, h'.gap.trans h.gap, h'.arrived.trans h.arrived, h'.part.trans h.part,
    h'.neighbour.trans h.neighbour, h'.cfgGot.trans h.cfgGot, h'.inbox.trans h.inbox⟩

/-- An update of one port that leaves what it received leaves what every port received. -/
theorem State.updPort_received {s : State} {p : Nat} {f : TybPort → TybPort} (h : Received (s.port p) (f (s.port p))) (k : Nat) :
    Received (s.port k) ((s.updPort p f).port k) := by
  by_cases hk : k = p
  · rw [hk, State.updPort_port]
    exact h
  · rw [show (s.updPort p f).port k = s.port k from Tab.get_upd_ne _ _ hk]
    exact .refl _

/-! ### Sending flits -/

/-- Sending touches the ports and the measurement in hand only. -/
structure Sends (s t : State) : Prop where
  rest : t = { s with tyb.ports := t.tyb.ports, tyb.offs := t.tyb.offs }
  ports : ∀ k, Received (s.port k) (t.port k)

theorem Sends.refl (s : State) : Sends s s := ⟨rfl, fun _ => .refl _⟩

theorem Sends.trans {a b c : State} (h : Sends a b) (h' : Sends b c) : Sends a c :=
  ⟨by have e := h'.rest; rw [h.rest] at e; exact e, fun k => (h.ports k).trans (h'.ports k)⟩

theorem State.updPort_sends {s : State} {p : Nat} {f : TybPort → TybPort} (h : Received (s.port p) (f (s.port p))) : Sends s (s.updPort p f) :=
  ⟨rfl, State.updPort_received h⟩

theorem TybPort.sendOne_received {q q' : TybPort} {node : Nat} {now : BitVec 64} {f : Flit} (h : q.sendOne node now = some (q', f)) : Received q q' := by
  unfold TybPort.sendOne at h
  split at h
  · split at h
    · exact absurd h (by simp)
    · split at h
      · exact absurd h (by simp)
      · cases h
        exact ⟨rfl, rfl, rfl, rfl, rfl, rfl, rfl, rfl⟩
  · exact absurd h (by simp)

theorem State.flitGone_sends (s : State) (f : Flit) : Sends s (s.flitGone f) := by
  unfold State.flitGone
  split <;> split
  · exact (State.updPort_sends ⟨rfl, rfl, rfl, rfl, rfl, rfl, rfl, rfl⟩).trans ⟨rfl, fun _ => .refl _⟩
  · exact State.updPort_sends ⟨rfl, rfl, rfl, rfl, rfl, rfl, rfl, rfl⟩
  · exact ⟨rfl, fun _ => .refl _⟩
  · exact .refl _

theorem State.pump_sends (s : State) (p n : Nat) : Sends s (s.pump p n) := by
  induction n generalizing s with
  | zero => exact .refl _
  | succ n ih =>
    unfold State.pump
    split
    · next q f h => exact ((State.updPort_sends (TybPort.sendOne_received h)).trans (State.flitGone_sends _ _)).trans (ih _)
    · exact .refl _

theorem State.sendAll_sends (s : State) (p : Nat) : Sends s (s.sendAll p) := State.pump_sends s p _

theorem State.sendAll_idle {s : State} {p : Nat} (h : (s.port p).txq = []) : s.sendAll p = s := by
  rw [State.sendAll, h]
  rfl

theorem State.enqueue_sends (s : State) (p : Nat) (fs : List Flit) : Sends s (s.enqueue p fs) :=
  (State.updPort_sends ⟨rfl, rfl, rfl, rfl, rfl, rfl, rfl, rfl⟩).trans (State.sendAll_sends _ p)

theorem TybPort.resend_received (q : TybPort) (fs : List Flit) : Received q (q.resend fs) := by
  induction fs generalizing q with
  | nil => exact .refl _
  | cons f fs ih =>
    exact Received.trans (b := { q.emit (q.flitBytes 1 f.vc f.som true f.fseq f.payload) with replays := satInc q.replays })
      ⟨rfl, rfl, rfl, rfl, rfl, rfl, rfl, rfl⟩ (ih _)

theorem State.spoil_sends (s : State) (fs : List Flit) : Sends s (s.spoil fs) := by
  unfold State.spoil
  split
  · exact ⟨rfl, fun _ => .refl _⟩
  · exact .refl _

/-! ### Acknowledgements (R389, R390) -/

theorem foldl_reply_port (fs : List Flit) (s : State) (k : Nat) :
    (fs.foldl (fun s f => match f.reply with | some h => s.reply h {} | none => s) s).port k = s.port k := by
  induction fs generalizing s with
  | nil => rfl
  | cons f fs ih =>
    rw [List.foldl_cons, ih]
    cases f.reply with
    | none => rfl
    | some h =>
      obtain ⟨-, -, -, -, -, -, -, -, -, htyb, -⟩ := (State.reply_posts s h {}).frame
      exact congrArg (fun x : Tyb => x.ports.get k) htyb

theorem State.flitBack_received (s : State) (p x k : Nat) : Received (s.port k) ((s.flitBack p x).port k) := by
  unfold State.flitBack
  extract_lets q ack done left s1 s2 s3
  have h1 : Received (s.port k) (s1.port k) := State.updPort_received ⟨rfl, rfl, rfl, rfl, rfl, rfl, rfl, rfl⟩ k
  have h2 : Received (s.port k) (s2.port k) := by rw [show s2.port k = s1.port k from foldl_reply_port done s1 k]; exact h1
  refine h2.trans (Received.trans ?_ ((State.sendAll_sends s3 p).ports k))
  change Received _ (State.port (ite _ _ _) k)
  split
  · exact (State.updPort_received (Received.trans (b := { s2.port p with naks := (s2.port p).naks + 1 })
      ⟨rfl, rfl, rfl, rfl, rfl, rfl, rfl, rfl⟩ (TybPort.resend_received _ _)) k).trans ((State.spoil_sends _ _).ports k)
  · exact .refl _

/-- With nothing to acknowledge and nothing to send, a flit that asks for no resend only gives its credits. -/
theorem State.flitBack_idle {s : State} {p x : Nat} (hreplay : (s.port p).replay = []) (htxq : (s.port p).txq = []) (hnak : bit x 32 = false) :
    s.flitBack p x = s.updPort p fun q => { q with replay := [], credit := q.credit.upd (fld x 33 2) (· + fld x 35 13) } := by
  unfold State.flitBack
  simp only [hreplay, List.filter_nil, List.foldl_nil, hnak, Bool.false_eq_true, if_false, List.isEmpty_nil, if_true]
  exact State.sendAll_idle (by rw [State.updPort_port]; exact htxq)

/-! ### A port's way to ACTIVE and back (R386, R387) -/

theorem TybPort.accept_expect (q : TybPort) (x now : Nat) : (q.accept x now).expect = (q.expect + 1) % 4096 ∧ (q.accept x now).gap = false := by
  unfold TybPort.accept
  extract_lets v payload q1 q2 cur
  have h2 : ∃ o, q2 = { q1 with owed := o } := by
    dsimp only [q2]
    split <;> exact ⟨_, rfl⟩
  obtain ⟨o, h2⟩ := h2
  have hq2 : q2.expect = (q.expect + 1) % 4096 ∧ q2.gap = false := by rw [h2]; exact ⟨rfl, rfl⟩
  clear_value cur q2
  cases cur with
  | none => exact hq2
  | some y =>
    obtain ⟨bs, n, rep, st⟩ := y
    dsimp only
    split
    · exact hq2
    · split <;> exact hq2

section
variable {p : Fin 2} {s : State}

theorem exec_tybPeerDetect (hst : (s.port p.val).state = .detect) (htun : (s.port p.val).tunnel = false) (hretry : (s.port p.val).retry = false) :
    exec (.tybPeerDetect p) s = .next (s.updPort p.val fun q => { q with state := .train }) := by
  refine congrArg _ (if_pos ?_)
  simp [hst, htun, hretry]

theorem exec_tybTrainDone_lock {r w : BitVec 2} (hst : (s.port p.val).state = .train) (hr : r ≤ (s.port p.val).maxRate) :
    exec (.tybTrainDone p (some (r, w))) s =
      .next (s.updPort p.val fun q => { q with state := .config, rate := r, width := w, error := 0, cfgSent := false, cfgGot := false }) :=
  (if_neg (not_not.mpr hst)).trans (if_neg (BitVec.not_lt.mpr hr))

theorem exec_tybTrainDone_none (hst : (s.port p.val).state = .train) :
    exec (.tybTrainDone p none) s = .next (s.updPort p.val fun q => { q with state := .detect, error := 3, retry := true }) :=
  if_neg (not_not.mpr hst)

/-- The state after a CONFIG flit went out. -/
def State.configSent (s : State) (p : Nat) : State :=
  s.updPort p fun q => { q.emit (q.flitBytes 2 0 false false 0 (s.configPayload p)) with cfgSent := true }

theorem exec_tybConfigFlitSend (hst : (s.port p.val).state = .config) :
    exec (.tybConfigFlitSend p) s = .next ((s.configSent p.val).configDone p.val) := if_neg (not_not.mpr hst)

theorem State.configDone_waits {s : State} {p : Nat} (h : (s.port p).cfgSent = false ∨ (s.port p).cfgGot = false) : s.configDone p = s := by
  refine if_neg ?_
  rcases h with h | h <;> simp [h]

/-- Once both sides have sent a CONFIG flit the port is ACTIVE and expects flit 0 (R387). -/
theorem State.configDone_active {s : State} {p : Nat} (hst : (s.port p).state = .config) (hsent : (s.port p).cfgSent = true) (hgot : (s.port p).cfgGot = true) :
    ((s.configDone p).port p).state = .active ∧ ((s.configDone p).port p).expect = 0 := by
  have hdone : s.configDone p = ((s.updPort p fun q => { q with
      state := .active, error := 0, nextSeq := 0, expect := 0, replay := [], nak := false, gap := false, naks := 0 }).sendAll p).blockEvent 0x8008 :=
    if_pos (by simp [hst, hsent, hgot])
  obtain ⟨-, -, -, -, -, -, -, -, -, htyb, -⟩ := (State.blockEvent_posts ((s.updPort p fun q => { q with
      state := .active, error := 0, nextSeq := 0, expect := 0, replay := [], nak := false, gap := false, naks := 0 }).sendAll p) 0x8008 none).frame
  have hsend := (State.sendAll_sends (s.updPort p fun q => { q with
      state := .active, error := 0, nextSeq := 0, expect := 0, replay := [], nak := false, gap := false, naks := 0 }) p).ports p
  rw [State.updPort_port] at hsend
  rw [hdone, State.port, htyb]
  exact ⟨hsend.state, hsend.expect⟩

/-- The port after a good CONFIG flit (R387). -/
def TybPort.configured (q : TybPort) (x : Nat) : TybPort :=
  { q with cfgGot := true, neighbour := BitVec.ofNat 14 (fld x 64 16),
           credit := (List.range 4).foldl (fun c v => c.set v (fld x (64 + 8 * (4 + 2 * v)) 16)) ({} : Tab Nat) }

theorem exec_tybConfigFlitRx {f : List Byte} (hst : (s.port p.val).state = .config) (hok : flitOk f = true) {x : Nat} (hx : x = leNat (f.take 252))
    (htype : fld x 0 4 = 2) (hz1 : fld x 48 16 = 0) (hz2 : fld x 160 (8 * 232) = 0) (hz3 : fld x 78 2 = 0) (hver : fld x 80 8 = ifaceVersion)
    (hnode : fld x 64 16 ≠ s.tyb.node.toNat) :
    exec (.tybConfigFlitRx p f) s = .next ((s.updPort p.val fun q => q.configured x).configDone p.val) := by
  change (Host.Outcome.next (s.configRx p.val f) : Out) = _
  rw [State.configRx]
  simp only [hst, hok, ← hx]
  simp [htype, hz1, hz2, hz3, hver, hnode]
  rfl

theorem exec_tybFlitRx_bad {f : List Byte} (hst : (s.port p.val).state = .active) (hbad : flitOk f = false) (hgap : (s.port p.val).gap = false) :
    exec (.tybFlitRx p f) s = .next (s.updPort p.val fun q => { q with crcErrors := satInc q.crcErrors, nak := true, gap := true }) := by
  refine congrArg _ ((if_neg (not_not.mpr hst)).trans ((if_pos (by rw [hbad]; rfl)).trans (State.updPort_congr ?_)))
  exact if_neg (by rw [hgap]; exact Bool.false_ne_true)

/-- A good flit at an ACTIVE port: what it returns is taken, and a DATA flit is accepted only as the one expected. -/
theorem exec_tybFlitRx_good {f : List Byte} (hst : (s.port p.val).state = .active) (hok : flitOk f = true) {x : Nat} (hx : x = leNat (f.take 252)) :
    exec (.tybFlitRx p f) s = .next (if fld x 0 4 ≠ 1 then s.flitBack p.val x
      else if fld x 8 12 = ((s.flitBack p.val x).port p.val).expect then (s.flitBack p.val x).updPort p.val fun q => q.accept x s.now.toNat
      else if 0 < wdiff 12 (fld x 8 12) ((s.flitBack p.val x).port p.val).expect then (s.flitBack p.val x).updPort p.val TybPort.nakOnce
      else (s.flitBack p.val x).updPort p.val fun q => { q with ackDue := true }) := by
  rw [hx]
  exact congrArg _ ((if_neg (not_not.mpr hst)).trans (if_neg (by rw [hok]; exact Bool.false_ne_true)))

theorem exec_tybRetrainEntry_silence (hst : (s.port p.val).state = .active) : exec (.tybRetrainEntry p .silence) s =
    .next (s.updPort p.val fun q => { q with state := .retrain, retrains := satInc q.retrains, naks := 0 }) :=
  if_pos (by simp [hst])

theorem exec_tybRetrainDone_idle {r w : BitVec 2} (hst : (s.port p.val).state = .retrain) (htun : (s.port p.val).tunnel = false)
    (hreplay : (s.port p.val).replay = []) (htxq : (s.port p.val).txq = []) : exec (.tybRetrainDone p r w) s =
      .next ((s.updPort p.val fun q => { q with rate := r, width := w }).updPort p.val fun q => { q with state := .active }) := by
  have hrates : (s.updPort p.val fun q => if q.tunnel then q else { q with rate := r, width := w }) = s.updPort p.val fun q => { q with rate := r, width := w } :=
    State.updPort_congr (if_neg (by rw [htun]; exact Bool.false_ne_true))
  refine (if_pos hst).trans (congrArg _ ?_)
  rw [hrates, State.retrained]
  have hnone : ((s.updPort p.val fun q => { q with rate := r, width := w }).port p.val).replay = [] := by rw [State.updPort_port]; exact hreplay
  simp only [hnone]
  exact State.sendAll_idle (by rw [State.updPort_port, State.updPort_port]; exact htxq)

theorem exec_tybRetrainTimeout (hst : (s.port p.val).state = .retrain) : exec (.tybRetrainTimeout p) s =
    .next ((s.updPort p.val fun q => { q with state := .detect, error := 4 }).linkLost p.val) := by
  refine (if_pos hst).trans (congrArg _ ?_)
  simp only [State.portDown, hst, if_true]

end

/-- A number one behind another in 12 bits is not ahead of it. -/
theorem wdiff_behind (e : Nat) : ¬ 0 < wdiff 12 ((e + 4095) % 4096) e := by
  have hwrap : wrap 12 ((((e + 4095) % 4096 : Nat) : Int) - e) = 4095 := by
    unfold wrap
    omega
  rw [wdiff, hwrap]
  decide

/-- Settles O45: a port's way to ACTIVE and back, and a flit received again changes no message. -/
theorem tybenPortsComplete : Obligations.TybenPortsComplete := by
  unfold Obligations.TybenPortsComplete
  refine ⟨fun p s => ⟨exec_tybPeerDetect, fun r w => exec_tybTrainDone_lock, exec_tybTrainDone_none, rfl, fun hst hgot => ?_, fun hst hgot => ?_, ?_,
    fun f => exec_tybFlitRx_bad, ?_, exec_tybRetrainEntry_silence, fun r w => exec_tybRetrainDone_idle, exec_tybRetrainTimeout⟩, ?_⟩
  · rw [exec_tybConfigFlitSend hst, State.configDone_waits (.inr (by rw [State.configSent, State.updPort_port]; exact hgot))]
    rfl
  · refine ⟨_, exec_tybConfigFlitSend hst, State.configDone_active ?_ ?_ ?_⟩ <;> rw [State.configSent, State.updPort_port]
    · exact hst
    · exact hgot
  · intro f hst hsent hok x htype hz1 hz2 hz3 hver hnode
    refine ⟨_, exec_tybConfigFlitRx hst hok rfl htype hz1 hz2 hz3 hver hnode, ?_⟩
    rw [State.configDone_waits (.inl (by rw [State.updPort_port]; exact hsent)), State.updPort_port]
    exact ⟨rfl, rfl, hst⟩
  · intro f hst hok hreplay htxq x htype hseq hnak
    have hexp : fld x 8 12 = ((s.flitBack p.val x).port p.val).expect := by rw [(State.flitBack_received s p.val x p.val).expect]; exact hseq
    refine ⟨_, (exec_tybFlitRx_good hst hok rfl).trans (congrArg _ ((if_neg (not_not.mpr htype)).trans (if_pos hexp))), ?_⟩
    rw [State.updPort_port, (TybPort.accept_expect _ _ _).1, (TybPort.accept_expect _ _ _).2, ← hexp, hseq, State.flitBack_idle hreplay htxq hnak]
    exact ⟨rfl, rfl, rfl, rfl⟩
  · intro p f s q x hst hok hlt hseq
    have hback := State.flitBack_received s p.val x p.val
    have hne : fld x 8 12 ≠ ((s.flitBack p.val x).port p.val).expect := by
      rw [hback.expect, hseq]
      change (q.expect + 4095) % 4096 ≠ q.expect
      omega
    have hold : ¬ 0 < wdiff 12 (fld x 8 12) ((s.flitBack p.val x).port p.val).expect := by rw [hback.expect, hseq]; exact wdiff_behind _
    refine ⟨_, exec_tybFlitRx_good hst hok rfl, ?_⟩
    rw [if_neg hne, if_neg hold]
    split
    · exact ⟨hback.expect, hback.arrived, hback.part⟩
    · rw [State.updPort_port]
      exact ⟨hback.expect, hback.arrived, hback.part⟩

end Sys2Proof.Machine
end

section
/-! The partner protocol: settles O47. -/

namespace Sys2Proof.Machine

open Sys2Proof.Claims

/-- Sending a message leaves the partner, the safety state and memory. -/
structure SendsOnly (s t : State) : Prop where
  partner : t.tyb.partner = s.tyb.partner
  saf : t.saf = s.saf
  mem : t.mem = s.mem

theorem Sends.only {s t : State} (h : Sends s t) : SendsOnly s t := by
  constructor <;> rw [h.rest]

theorem State.sendVia_only (s : State) (p dst type : Nat) (payload : List Byte) (probe : Bool) : SendsOnly s (s.sendVia p dst type payload probe) := by
  unfold State.sendVia
  split
  · exact ⟨rfl, rfl, rfl⟩
  · obtain ⟨hpartner, hsaf, hmem⟩ := (State.enqueue_sends _ _ _).only
    exact ⟨hpartner, hsaf, hmem⟩

theorem State.sendWitness_only (s : State) : SendsOnly s s.sendWitness := by
  unfold State.sendWitness
  split
  · split
    · exact State.sendVia_only _ _ _ _ _ _
    · exact ⟨rfl, rfl, rfl⟩
  · exact ⟨rfl, rfl, rfl⟩

/-- A message delivered leaves its port's inbox, and nothing but that port changes. -/
theorem State.takeMsg_rest {s t : State} {p type : Nat} {m : Msg} (h : s.takeMsg p type = some (m, t)) : ∃ ports, t = { s with tyb.ports := ports } := by
  unfold State.takeMsg at h
  split at h
  · exact absurd h (by simp)
  · rw [Option.map_eq_some_iff] at h
    obtain ⟨x, -, hx⟩ := h
    cases hx
    exact ⟨_, rfl⟩

/-! ### Heartbeats (R401, R402) -/

section
variable {s : State} (hrun : s.partnerRuns = true)
include hrun

/-- HEARTBEAT_SEND advances the number and restarts the summary's fault count, with a witness at every 64th. -/
theorem exec_heartbeatSend : ∃ t, exec .heartbeatSend s = .next t ∧ t.tyb.partner.seq = s.tyb.partner.seq + 1 ∧ t.saf.summary = 0 ∧ t.mem = s.mem := by
  let body := leBytes 4 s.tyb.partner.seq.toNat ++ leBytes 8 s.pln.frameCount.toNat ++ leBytes 4 s.plnStatus ++ leBytes 4 s.faultSummary ++
    leBytes 8 s.now.toNat ++ leBytes 8 s.tyb.partner.lastSend.toNat ++ leBytes 8 s.tyb.partner.lastRecv.toNat
  let u : State := { s.toPartner 5 body with saf.summary := 0, tyb.partner := { s.tyb.partner with seq := s.tyb.partner.seq + 1 } }
  have hmem : u.mem = s.mem := (State.sendVia_only s _ _ 5 body false).mem
  refine ⟨if s.tyb.partner.seq.toNat % 64 = 0 then u.sendWitness else u, if_neg (by simp [hrun]), ?_⟩
  split
  · obtain ⟨hpartner, hsaf, hmem'⟩ := State.sendWitness_only u
    rw [hpartner, hsaf, hmem']
    exact ⟨rfl, rfl, hmem⟩
  · exact ⟨rfl, rfl, hmem⟩

section
variable {p : Fin 2} {m : Msg} {t : State} (hport : s.tyb.partner.port = p.val) (hpeer : s.tyb.partner.peer = m.src)
include hport hpeer

/-- A message of the partner's own passes what the receiver checks. -/
theorem partner_accepts {type : Nat} (ht : s.takeMsg p.val type = some (m, t)) :
    (!t.partnerRuns || decide (t.tyb.partner.port ≠ p.val) || decide (t.tyb.partner.peer ≠ m.src)) = false := by
  obtain ⟨ports, rfl⟩ := State.takeMsg_rest ht
  change (!s.partnerRuns || decide (s.tyb.partner.port ≠ p.val) || decide (s.tyb.partner.peer ≠ m.src)) = false
  simp [hrun, hport, hpeer]

/-- A heartbeat in a resent flit brings the partner up and gives no stamps. -/
theorem exec_heartbeatRx_resent (hraised : s.saf.raised = []) (ht : s.takeMsg p.val 5 = some (m, t)) (hrep : m.replayed = true) :
    ∃ u, exec (.heartbeatRx p) s = .next u ∧ u.tyb.partner.up = true ∧ u.tyb.partner.lostSeen = false ∧
      u.tyb.hbRxSeq = BitVec.ofNat 32 (fld (leNat m.payload) 0 32) ∧ u.tyb.partner.lastRecv = m.stamp := by
  have hok := partner_accepts hrun hport hpeer ht
  obtain ⟨ports, rfl⟩ := State.takeMsg_rest ht
  let u : State := { s with
    tyb.ports := ports
    tyb.hbRxSeq := BitVec.ofNat 32 (fld (leNat m.payload) 0 32)
    tyb.partner := { s.tyb.partner with up := true, lostSeen := false, lastSend := BitVec.ofNat 64 (fld (leNat m.payload) 160 64), lastRecv := m.stamp } }
  have hposts : Posts u (if s.tyb.partner.up then u else u.blockEvent 0x8009) := by
    split
    · exact Posts.rfl' u
    · exact State.blockEvent_posts u _ _
  obtain ⟨-, -, -, -, hsaf, -, -, -, -, htyb, -⟩ := hposts.frame
  refine ⟨if s.tyb.partner.up then u else u.blockEvent 0x8009, ?_, ?_⟩
  · change execHeartbeatRx p s = _
    rw [execHeartbeatRx]
    simp only [ht, hok, hrep, Bool.true_or, if_true, Bool.false_eq_true, if_false]
    exact congrArg _ (State.settle_quiet _ (by rw [hsaf]; exact hraised))
  · rw [htyb]
    exact ⟨rfl, rfl, rfl, rfl⟩

/-! ### Signatures and witnesses (R403, R404) -/

theorem exec_signatureRx (ht : s.takeMsg p.val 6 = some (m, t)) (hslot : fld (leNat m.payload) 0 32 < 16)
    (hon : (s.tyb.sigs.get (fld (leNat m.payload) 0 32)).enable = true) :
    exec (.signatureRx p) s = .next (t.signature (fld (leNat m.payload) 0 32) false (BitVec.ofNat 32 (fld (leNat m.payload) 32 32))
      (BitVec.ofNat 448 (fld (leNat m.payload) 96 448))).settle := by
  have hok := partner_accepts hrun hport hpeer ht
  have hon' : (t.tyb.sigs.get (fld (leNat m.payload) 0 32)).enable = true := by
    obtain ⟨ports, rfl⟩ := State.takeMsg_rest ht
    exact hon
  change execSignatureRx p s = _
  rw [execSignatureRx]
  simp only [ht, hok, hon', not_le.mpr hslot]
  rfl

theorem exec_witnessRx_newer (ht : s.takeMsg p.val 7 = some (m, t))
    (hnew : fld s.tyb.witness.toNat 384 64 + fld s.tyb.witness.toNat 448 32 * 2 ^ 64 <
      fld (leNat (m.payload.take 60)) 384 64 + fld (leNat (m.payload.take 60)) 448 32 * 2 ^ 64) :
    exec (.witnessRx p) s = .next { t with tyb.witness := BitVec.ofNat 480 (leNat (m.payload.take 60)) } := by
  have hok := partner_accepts hrun hport hpeer ht
  have hold : t.tyb.witness = s.tyb.witness := by
    obtain ⟨ports, rfl⟩ := State.takeMsg_rest ht
    rfl
  have hne : leNat (m.payload.take 60) ≠ s.tyb.witness.toNat := fun e => by rw [e] at hnew; exact lt_irrefl _ hnew
  change execWitnessRx p s = _
  rw [execWitnessRx]
  simp only [ht, hok, hold, hne, hnew, decide_true, Bool.or_true, if_false, if_true, Bool.false_eq_true]

end

theorem exec_tybSigWrite {n : Fin 64} {slot : BitVec 4} {data : List Byte} {j : Nat} (hj : (s.rod n.val).job = some j) (hlen : data.length = 64)
    (hpart : (s.jobRec j).map JobRec.part = some (s.tyb.sigs.get slot.toNat).part) (hz : fld (leNat data) 32 32 = 0)
    (hon : (s.tyb.sigs.get slot.toNat).enable = true) :
    exec (.tybSigWrite n slot data) s = .next ((s.toPartner 6 (leBytes 4 slot.toNat ++ data)).signature slot.toNat true
      (BitVec.ofNat 32 (fld (leNat data) 0 32)) (BitVec.ofNat 448 (fld (leNat data) 64 448))).settle := by
  change execTybSigWrite n slot data s = _
  rw [execTybSigWrite]
  simp only [hj, State.tybSigWrite, hlen, hpart, hz, hon, hrun, ne_eq, not_true_eq_false, decide_false, Bool.not_true, Bool.or_self, Bool.false_eq_true, if_false, if_true]

end

/-- Settles O47: heartbeats, losses, signatures and witnesses have their effect while the protocol runs. -/
theorem partnerProtocolCompletes : Obligations.PartnerProtocolCompletes := by
  unfold Obligations.PartnerProtocolCompletes
  intro s hrun hraised
  refine ⟨exec_heartbeatSend hrun, fun p m t ht hport hpeer => exec_heartbeatRx_resent hrun hport hpeer hraised ht, fun hseen => ?_,
    fun n slot data j => exec_tybSigWrite hrun, fun p m t ht hport hpeer => exec_signatureRx hrun hport hpeer ht, ?_⟩
  · exact if_neg (by simp [hrun, hseen])
  · intro p m t ht hport hpeer w hnew
    exact exec_witnessRx_newer hrun hport hpeer ht hnew

end Sys2Proof.Machine
end

section
/-! The ledger's records and commands: settles O53. -/

namespace Sys2Proof.Machine

open Sys2Proof.Claims

/-! ### What an event record leaves of the host link -/

/-- The link itself stays as it is. -/
def KeepsLink (s t : State) : Prop := t.hif.linkUp = s.hif.linkUp ∧ t.hif.rate = s.hif.rate ∧ t.hif.width = s.hif.width

theorem KeepsLink.refl (s : State) : KeepsLink s s := ⟨rfl, rfl, rfl⟩

theorem KeepsLink.trans {s t u : State} (h : KeepsLink s t) (k : KeepsLink t u) : KeepsLink s u := by
  obtain ⟨h1, h2, h3⟩ := h
  obtain ⟨k1, k2, k3⟩ := k
  exact ⟨k1.trans h1, k2.trans h2, k3.trans h3⟩

theorem KeepsLink.of_hif {s t : State} (h : t.hif = s.hif) : KeepsLink s t := by
  unfold KeepsLink
  rw [h]
  exact ⟨rfl, rfl, rfl⟩

theorem State.sendVector_keepsLink (s : State) (v : Nat) : KeepsLink s (s.sendVector v) := by
  unfold State.sendVector
  dsimp only
  split <;> exact .refl s

theorem State.postEntry_keepsLink (s : State) (k : Nat) (bs : List Byte) : KeepsLink s (s.postEntry k bs) := by
  have hwb (t : State) (r : Ring) (i : Word) : KeepsLink t (t.writeBack r i) := by
    unfold State.writeBack
    split <;> exact .refl t
  have hirq (t : State) : KeepsLink t (t.ringIrq k) := by
    unfold State.ringIrq
    dsimp only
    split
    · split
      · exact State.sendVector_keepsLink _ _
      · exact .refl t
    · exact .refl t
  unfold State.postEntry
  refine .trans (.trans ?_ (hwb _ _ _)) (hirq _)
  exact .refl s

theorem State.postEvent_keepsLink (s : State) (k kind part code payload : Nat) : KeepsLink s (s.postEvent k kind part code payload) :=
  (State.postEntry_keepsLink s k _).trans (.refl _)

theorem State.event_keepsLink (s : State) (f : Fin 16) (kind part code payload : Nat) : KeepsLink s (s.event f kind part code payload) := by
  have hflush : KeepsLink s (s.flushLost f) := by
    unfold State.flushLost
    dsimp only
    split
    · split
      · exact .refl s
      · exact (State.postEvent_keepsLink s _ _ _ _ _).trans (.refl _)
    · exact .refl s
  unfold State.event
  dsimp only
  refine hflush.trans ?_
  split
  · exact State.postEvent_keepsLink _ _ _ _ _ _
  · exact .refl _

theorem State.blockEvent_keepsLink (s : State) (code : Nat) (payload : Option Nat) : KeepsLink s (s.blockEvent code payload) := by
  cases payload with
  | some x => exact State.event_keepsLink s 0 7 0 code x
  | none => exact KeepsLink.trans (.refl s) (State.event_keepsLink (s.draw 256).2 _ _ _ _ _)

/-! ### Records (R468 to R470) -/

/-- What a record of the ledger changes: the queue and the chain, and what its event and its witness message post. -/
structure Logs (s t : State) : Prop where
  rest : t = { s with mem := t.mem, errs := t.errs, hif := t.hif, free := t.free, sec := t.sec, tyb := t.tyb }
  sec : t.sec = { s.sec with head := t.sec.head, headSeq := t.sec.headSeq, queue := t.sec.queue, lostNow := t.sec.lostNow, lostOpen := t.sec.lostOpen }
  link : KeepsLink s t

theorem Logs.refl (s : State) : Logs s s := ⟨rfl, rfl, .refl s⟩

theorem Logs.trans {s t u : State} (h : Logs s t) (k : Logs t u) : Logs s u where
  rest := by have e := k.rest; rw [h.rest] at e; exact e
  sec := by have e := k.sec; rw [h.sec] at e; exact e
  link := h.link.trans k.link

theorem State.sendVia_hif (s : State) (p dst type : Nat) (payload : List Byte) (probe : Bool) :
    s.sendVia p dst type payload probe = { s with tyb := (s.sendVia p dst type payload probe).tyb } := by
  unfold State.sendVia
  split
  · rfl
  · have e := (State.enqueue_sends ({ s with tyb.mseq := (s.tyb.mseq + 1) % 2 ^ 32 } : State) p (Msg.flits
      { dst := dst, src := s.tyb.node.toNat, type := type, hops := 63, mseq := s.tyb.mseq, payload := payload, stamp := s.now } none probe)).rest
    rw [e]

theorem State.sendWitness_rest (s : State) : s.sendWitness = { s with tyb := s.sendWitness.tyb } := by
  unfold State.sendWitness
  split
  · split
    · exact State.sendVia_hif _ _ _ _ _ _
    · rfl
  · rfl

theorem State.sendWitness_logs (s : State) : Logs s s.sendWitness := by
  have e := State.sendWitness_rest s
  exact ⟨by rw [e], by rw [e], .of_hif (by rw [e])⟩

theorem State.blockEvent_logs (s : State) (code : Nat) (payload : Option Nat) : Logs s (s.blockEvent code payload) := by
  obtain ⟨e, -⟩ := State.blockEvent_posts s code payload
  exact ⟨by rw [e], by rw [e], State.blockEvent_keepsLink s code payload⟩

/-- The chain ends in a record of some hash and number. -/
def State.chainHead (s : State) (hash : List Byte) (seq : Nat) : State := { s with sec.head := some hash, sec.headSeq := BitVec.ofNat 64 seq }

theorem State.numberRec_state (s : State) (r : LedgerRec) (seq : Nat) (prev : List Byte) : (s.numberRec r seq prev).2 =
    ((s.chainHead (sha384 (recordBody r.type s.sec.epoch.toNat seq r.time.toNat prev r.payload.toNat)) seq).blockEvent 0xA00F).sendWitness := rfl

theorem State.numberRec_logs (s : State) (r : LedgerRec) (seq : Nat) (prev : List Byte) : Logs s (s.numberRec r seq prev).2 := by
  have hhead (hash : List Byte) : Logs s (s.chainHead hash seq) := ⟨rfl, rfl, .refl s⟩
  rw [State.numberRec_state]
  exact ((hhead _).trans (State.blockEvent_logs _ _ _)).trans (State.sendWitness_logs _)

/-- A record that takes its number is the newest of the chain, and no other record moves. -/
theorem State.numberRec_sec (s : State) (r : LedgerRec) (seq : Nat) (prev : List Byte) : (s.numberRec r seq prev).2.sec =
    { s.sec with head := some (sha384 (recordBody r.type s.sec.epoch.toNat seq r.time.toNat prev r.payload.toNat)), headSeq := BitVec.ofNat 64 seq } := by
  rw [State.numberRec_state, State.sendWitness_rest]
  obtain ⟨-, -, -, -, -, hsec, -⟩ := (State.blockEvent_posts
    (s.chainHead (sha384 (recordBody r.type s.sec.epoch.toNat seq r.time.toNat prev r.payload.toNat)) seq) 0xA00F none).frame
  exact hsec

theorem State.numberRec_rec (s : State) (r : LedgerRec) (seq : Nat) (prev : List Byte) :
    (s.numberRec r seq prev).1.type = r.type ∧ (s.numberRec r seq prev).1.payload = r.payload ∧ (s.numberRec r seq prev).1.seq = seq ∧
      (s.numberRec r seq prev).1.bytes.isSome = true := ⟨rfl, rfl, rfl, rfl⟩

/-- The record that raises a type and payload now, before it has a number. -/
def State.freshRec (s : State) (type payload : Nat) : LedgerRec :=
  { type := type, time := s.now, payload := BitVec.ofNat 1024 payload, bytes := none, seq := 0 }

/-- A record goes to the end of the queue. -/
def pushRec (x : LedgerRec × State) : State := { x.2 with sec.queue := x.2.sec.queue ++ [x.1] }

theorem State.enqueueRec_eq (s : State) (type payload : Nat) : s.enqueueRec type payload =
    pushRec (if s.sec.ledgerOpen then s.numberNext (s.freshRec type payload) else (s.freshRec type payload, s)) := rfl

theorem State.enqueueRec_open {s : State} (hopen : s.sec.ledgerOpen = true) (type payload : Nat) :
    s.enqueueRec type payload = pushRec (s.numberNext (s.freshRec type payload)) := by
  rw [State.enqueueRec_eq, if_pos hopen]

theorem State.enqueueRec_closed {s : State} (hopen : s.sec.ledgerOpen = false) (type payload : Nat) :
    s.enqueueRec type payload = pushRec (s.freshRec type payload, s) := by
  rw [State.enqueueRec_eq, if_neg (by rw [hopen]; exact Bool.false_ne_true)]

theorem pushRec_sec (x : LedgerRec × State) : (pushRec x).sec = { x.2.sec with queue := x.2.sec.queue ++ [x.1] } := rfl

theorem pushRec_logs (x : LedgerRec × State) : Logs x.2 (pushRec x) := ⟨rfl, rfl, .refl _⟩

/-- One record joins the queue. -/
theorem State.enqueueRec_length (s : State) (type payload : Nat) : (s.enqueueRec type payload).sec.queue.length = s.sec.queue.length + 1 := by
  have hpush (x : LedgerRec × State) (hx : x.2.sec.queue = s.sec.queue) : (pushRec x).sec.queue.length = s.sec.queue.length + 1 := by
    rw [pushRec_sec, List.length_append, List.length_singleton, hx]
  cases hopen : s.sec.ledgerOpen with
  | false => rw [State.enqueueRec_closed hopen, hpush _ rfl]
  | true => rw [State.enqueueRec_open hopen, hpush _ (by rw [State.numberNext, State.numberRec_sec])]

theorem State.enqueueRec_logs (s : State) (type payload : Nat) : Logs s (s.enqueueRec type payload) := by
  cases hopen : s.sec.ledgerOpen with
  | false =>
    rw [State.enqueueRec_closed hopen]
    exact pushRec_logs (s.freshRec type payload, s)
  | true =>
    rw [State.enqueueRec_open hopen]
    exact (State.numberRec_logs s _ _ _).trans (pushRec_logs _)

theorem State.raiseRec_logs (s : State) (type payload : Nat) : Logs s (s.raiseRec type payload) := by
  unfold State.raiseRec
  split
  · exact State.enqueueRec_logs s type payload
  · exact ⟨rfl, rfl, .refl s⟩

theorem State.otpEvent_logs (s : State) (ev which value : Nat) : Logs s (s.otpEvent ev which value) := State.raiseRec_logs s _ _

/-! ### Numbering the queue (R469) -/

/-- One step of numbering: a record goes to the end of the queue, numbered unless it is already. -/
def State.numberOne (s : State) (r : LedgerRec) : State :=
  if r.bytes.isSome then { s with sec.queue := s.sec.queue ++ [r] }
  else pushRec (s.numberNext r)

theorem State.numberAll_eq (s : State) : s.numberAll = s.sec.queue.foldl State.numberOne { s with sec.queue := [] } := rfl

theorem State.numberOne_logs (s : State) (r : LedgerRec) : Logs s (s.numberOne r) := by
  unfold State.numberOne
  split
  · exact ⟨rfl, rfl, .refl s⟩
  · exact (State.numberRec_logs s _ _ _).trans (pushRec_logs _)

theorem State.numberOne_queue (s : State) (r : LedgerRec) : ∃ r' : LedgerRec, r'.bytes.isSome = true ∧ (s.numberOne r).sec.queue = s.sec.queue ++ [r'] := by
  unfold State.numberOne
  split
  · next h => exact ⟨r, h, rfl⟩
  · refine ⟨(s.numberNext r).1, rfl, ?_⟩
    rw [pushRec_sec, State.numberNext, State.numberRec_sec]

theorem foldl_numberOne (q : List LedgerRec) (s : State) : Logs s (q.foldl State.numberOne s) ∧
    (q.foldl State.numberOne s).sec.queue.length = s.sec.queue.length + q.length ∧
      ((∀ r ∈ s.sec.queue, r.bytes.isSome = true) → ∀ r ∈ (q.foldl State.numberOne s).sec.queue, r.bytes.isSome = true) := by
  induction q generalizing s with
  | nil => exact ⟨.refl s, rfl, id⟩
  | cons r q ih =>
    obtain ⟨hlogs, hlen, hall⟩ := ih (s.numberOne r)
    obtain ⟨r', hr', hqueue⟩ := State.numberOne_queue s r
    refine ⟨(State.numberOne_logs s r).trans hlogs, ?_, fun hs => hall fun x hx => ?_⟩
    · rw [List.foldl_cons, hlen, hqueue, List.length_append, List.length_singleton, List.length_cons, Nat.add_assoc, Nat.add_comm 1]
    · rw [hqueue, List.mem_append, List.mem_singleton] at hx
      rcases hx with hx | rfl
      · exact hs x hx
      · exact hr'

/-- Every record of the queue has its number, and none is added or lost. -/
theorem State.numberAll_spec (s : State) : Logs s s.numberAll ∧ s.numberAll.sec.queue.length = s.sec.queue.length ∧
    ∀ r ∈ s.numberAll.sec.queue, r.bytes.isSome = true := by
  rw [State.numberAll_eq]
  obtain ⟨hlogs, hlen, hall⟩ := foldl_numberOne s.sec.queue { s with sec.queue := [] }
  refine ⟨Logs.trans (t := { s with sec.queue := [] }) ⟨rfl, rfl, .refl s⟩ hlogs, ?_, hall fun r hr => absurd hr List.not_mem_nil⟩
  rw [hlen]
  exact Nat.zero_add _

/-! ### Commands (R469, R470) -/

section
variable {s : State} {h : Hdr} (hpf : pf0 s h)
include hpf

/-- The ledger opened at a record, before the waiting records are numbered. -/
def State.chainOpened (s : State) (r : List Byte) : State :=
  { s with sec.ledgerOpen := true, sec.head := some (sha384 (r.take 208)), sec.headSeq := BitVec.ofNat 64 (fld (leNat r) 64 64),
           sec.epoch := BitVec.ofNat 32 (s.sec.counter 3), sec.lostOpen := 0, sec.fetched := none }

theorem exec_ledgerOpen {r : List Byte} (hlen : r.length = 256) (hok : recordBad (leNat r) = false) (hclosed : s.sec.ledgerOpen = false)
    (hseal : r.drop 208 = s.sec.seal (r.take 208)) (hepoch : fld (leNat r) 32 32 = s.sec.counter 3) :
    exec (.ledgerOpen h r) s = .next ((s.chainOpened r).numberAll.reply h {}) := by
  obtain ⟨hsup, hfn⟩ := hpf
  have htake : r.take 256 = r := List.take_of_length_le (by omega)
  have htail : (r.drop 208).take 48 = r.drop 208 := List.take_of_length_le (by rw [List.length_drop]; omega)
  change firmware h s (doLedgerOpen h r s) = _
  simp only [doLedgerOpen, htake, htail]
  exact firmware_checked hsup h (by simp [hfn, hok, hclosed, hseal, hepoch]) _ rfl

theorem exec_ledgerFetch {r : LedgerRec} {rest : List LedgerRec} {b : List Byte} (hres : s.hasResult h = true) (hqueue : s.sec.queue = r :: rest)
    (hb : r.bytes = some b) (hnone : s.sec.fetched = none) :
    exec (.ledgerFetch h) s = .next ({ s with sec.fetched := some r.seq }.reply h { ext := some b }) := by
  change firmware h s (doLedgerFetch h s) = _
  simp only [doLedgerFetch, hpf.2, hqueue, List.find?_cons, hb, Option.isSome_some, hnone, Option.getD_none, Option.getD_some, Nat.max_zero, if_true]
  exact firmware_area ⟨hpf.1, hres⟩ _ _

theorem exec_ledgerFetch_empty (hqueue : s.sec.queue = []) : exec (.ledgerFetch h) s = .next (s.reply h { status := 0xA00E }) := by
  change firmware h s (doLedgerFetch h s) = _
  simp only [doLedgerFetch, hpf.2, hqueue, List.find?_nil, if_true]
  exact firmware_no hpf.1 h _ _

theorem exec_ledgerAck {q : BitVec 64} {n : Nat} (hn : s.sec.fetched = some n) (hq : q.toNat ≤ n) (hlost : s.sec.lostNow = 0) :
    exec (.ledgerAck h q) s =
      .next ({ s with sec.queue := s.sec.queue.filter fun r => r.bytes.isNone || decide (q.toNat < r.seq) }.reply h {}) := by
  obtain ⟨hsup, hfn⟩ := hpf
  have hflush : ({ s with sec.queue := s.sec.queue.filter fun r => r.bytes.isNone || decide (q.toNat < r.seq) } : State).flushRecs =
      { s with sec.queue := s.sec.queue.filter fun r => r.bytes.isNone || decide (q.toNat < r.seq) } := if_neg fun e => e.1 hlost
  change firmware h s (doLedgerAck h q s) = _
  rw [doLedgerAck, checks_pass (by simp [hfn, hn, hq]), hflush, firmware_ok hsup h _ rfl]

theorem exec_ledgerNote {d : List Byte} (hlen : d.length = 64) (hopen : s.sec.ledgerOpen = true) (hroom : s.sec.queue.length < 64) :
    exec (.ledgerNote h d) s = .next ((s.enqueueRec 7 (leNat d)).reply h {}) := by
  obtain ⟨hsup, hfn⟩ := hpf
  have htake : d.take 64 = d := List.take_of_length_le (by omega)
  have hraise : s.raiseRec 7 (leNat d) = s.enqueueRec 7 (leNat d) := if_pos hroom
  change firmware h s (doLedgerNote h d s) = _
  simp only [doLedgerNote, htake, hraise]
  exact firmware_checked hsup h (by simp [hfn, hopen]) _ rfl

end

/-- Settles O53: each ledger command whose checks pass has its effect. -/
theorem ledgerCommandsComplete : Obligations.LedgerCommandsComplete := by
  unfold Obligations.LedgerCommandsComplete
  intro h s hpf
  refine ⟨fun r hlen hok hclosed hseal hepoch => ?_, fun r rest b => exec_ledgerFetch hpf, exec_ledgerFetch_empty hpf, fun q n => exec_ledgerAck hpf,
    fun d hlen hopen hroom => ?_⟩
  · obtain ⟨hlogs, hcount, hall⟩ := State.numberAll_spec (s.chainOpened r)
    refine ⟨_, exec_ledgerOpen hpf hlen hok hclosed hseal hepoch, ?_, hcount, hall, ?_⟩ <;> rw [hlogs.sec] <;> rfl
  · refine ⟨_, exec_ledgerNote hpf hlen hopen hroom, ?_⟩
    rw [State.enqueueRec_open hopen, pushRec_sec, State.numberNext, State.numberRec_sec]
    exact ⟨rfl, _, rfl, rfl, rfl, rfl⟩

end Sys2Proof.Machine
end

section
/-! OTP programming: settles O50. -/

namespace Sys2Proof.Machine

open Sys2Proof.Claims

/-! ### Commands that program (R452, R455, R456, R460 to R463, R469) -/

section
variable {s : State} {h : Hdr} (hpf : pf0 s h) (hhold : s.pwr.hold = 0) (hjob : s.sec.job = none)
include hpf hhold hjob

theorem exec_otpCommit {x : BitVec 1024} {i : Nat} (hok : settingsBad x.toNat = false) (hroom : s.sec.noSlots = false) (hi : s.sec.nextSlot = some i) :
    exec (.otpCommit h x) s = firmware h s
      (s.program h 1 i 0 (slotRows (settingsSlot i) (leBytes 128 x.toNat)) (slotCommit (settingsSlot i) (leBytes 128 x.toNat))) := by
  change firmware h s (doOtpCommit h x s) = _
  rw [doOtpCommit, checks_pass (by simp [hpf.2, hok, State.otpRefused, hhold, hjob, hroom, hi]), hi]
  rfl

omit hhold hjob in
theorem exec_svnAdvance_reached {k v : Byte} (hk : k.toNat ≤ 2) (hv : v.toNat ≤ s.sec.counter k.toNat) :
    exec (.svnAdvance h k v) s = .next (s.reply h {}) := by
  change firmware h s (doSvnAdvance h k v s) = _
  rw [doSvnAdvance]
  exact (congrArg (firmware h s) (if_pos ⟨hpf.2, hk, hv⟩)).trans (firmware_ok hpf.1 h s rfl)

theorem exec_svnAdvance {k v : Byte} {x : Nat} (hk : k.toNat ≤ 2) (hv : s.sec.counter k.toNat < v.toNat) (hx : s.svnOf k.toNat = some x)
    (hle : v.toNat ≤ x) : exec (.svnAdvance h k v) s = firmware h s (s.program h 2 k.toNat v.toNat (s.sec.pulses k.toNat v.toNat) []) := by
  change firmware h s (doSvnAdvance h k v s) = _
  rw [doSvnAdvance]
  refine (congrArg (firmware h s) (if_neg fun e => not_lt.mpr e.2.2 hv)).trans ?_
  rw [checks_pass (by simp [hpf.2, hk, hx, hle, State.otpRefused, hhold, hjob])]

/-- The provisioning slot that is taken is the lowest that is not consumed. -/
theorem exec_ownerProvision {d : List Byte} {i : Nat} (hlen : d.length = 148) (hlife : s.sec.lifecycle = .shipped)
    (hi : (List.range 2).find? (fun i => !s.sec.consumed (provSlot i)) = some i) :
    exec (.ownerProvision h d) s = firmware h s (s.program h 3 i 0 (slotRows (provSlot i) d) (slotCommit (provSlot i) d)) := by
  have hpad : padTo 148 d = d := by rw [padTo, hlen, Nat.sub_self, List.replicate_zero, List.append_nil, List.take_of_length_le (by omega)]
  change firmware h s (doOwnerProvision h d s) = _
  rw [doOwnerProvision, checks_pass (by simp [hpf.2, hlife, State.otpRefused, hhold, hjob, hi]), hi, hpad]
  rfl

theorem exec_ownerKeyRevoke {j : Byte} (hj : j.toNat ≤ 1) (hother : s.sec.revoked (1 - j.toNat) = false) : exec (.ownerKeyRevoke h j) s =
    firmware h s (({ s with sec.keys := s.sec.keys.set j.toNat none } : State).program h 4 j.toNat 0 (s.sec.markPulses 104 j.toNat) []) := by
  change firmware h s (doOwnerKeyRevoke h j s) = _
  rw [doOwnerKeyRevoke, checks_pass (by simp [hpf.2, hj, hother, State.otpRefused, hhold, hjob])]

theorem exec_lcRetire (hlife : s.sec.lifecycle = .owned ∨ s.sec.lifecycle = .shipped) :
    exec (.lcRetire h) s = firmware h s (s.program h 5 0 0 (s.sec.markPulses 77 1) []) := by
  have hnot : (s.sec.lifecycle != .owned && s.sec.lifecycle != .shipped) = false := by
    rcases hlife with e | e <;> rw [e] <;> rfl
  change firmware h s (doLcRetire h s) = _
  rw [doLcRetire, hnot, checks_pass (by simp [hpf.2, State.otpRefused, hhold, hjob])]

theorem exec_ledgerNew (hclosed : s.sec.ledgerOpen = false) (hroom : s.sec.counter 3 < 64) :
    exec (.ledgerNew h) s = firmware h s (s.program h 6 3 (s.sec.counter 3 + 1) (s.sec.pulses 3 (s.sec.counter 3 + 1)) []) := by
  change firmware h s (doLedgerNew h s) = _
  rw [doLedgerNew, checks_pass (by simp [hpf.2, hclosed, State.otpRefused, hhold, hjob]; omega)]

end

/-! ### The end of programming (R462, R463) -/

/-- Nothing is programmed and no programming begins or ends. -/
def KeepsOtp (s t : State) : Prop := t.sec.job = s.sec.job ∧ t.sec.otp = s.sec.otp

theorem KeepsOtp.trans {s t u : State} (h : KeepsOtp s t) (k : KeepsOtp t u) : KeepsOtp s u := ⟨k.1.trans h.1, k.2.trans h.2⟩

theorem Logs.keepsOtp {s t : State} (h : Logs s t) : KeepsOtp s t := by
  unfold KeepsOtp
  rw [h.sec]
  exact ⟨rfl, rfl⟩

/-- The ledger as a new chain begins, before its GENESIS record. -/
def State.chainBegun (s : State) : State :=
  { s with sec.epoch := BitVec.ofNat 32 (s.sec.counter 3), sec.ledgerOpen := true, sec.lostOpen := 0, sec.fetched := none }

/-- The GENESIS record of a new chain (R469). -/
def State.genesis (s : State) (old : Nat) : LedgerRec :=
  { type := 1, time := s.now, payload := BitVec.ofNat 1024 (if old = 0 then 0xFFFFFFFF else old), bytes := none, seq := 0 }

/-- A record goes to the front of the queue. -/
def frontRec (x : LedgerRec × State) : State := { x.2 with sec.queue := x.1 :: x.2.sec.queue }

theorem State.openChain_eq (s : State) (old : Nat) : s.openChain old = (frontRec (s.chainBegun.numberRec (s.chainBegun.genesis old) 0 [])).numberAll := rfl

theorem State.openChain_keepsOtp (s : State) (old : Nat) : KeepsOtp s (s.openChain old) := by
  have hbegun : KeepsOtp s s.chainBegun := ⟨rfl, rfl⟩
  have hfront (x : LedgerRec × State) : KeepsOtp x.2 (frontRec x) := ⟨rfl, rfl⟩
  rw [State.openChain_eq]
  exact ((hbegun.trans (State.numberRec_logs _ _ _ _).keepsOtp).trans (hfront _)).trans (State.numberAll_spec _).1.keepsOtp

theorem State.otpDone_keepsOtp (s : State) (j : OtpJob) : KeepsOtp s (s.otpDone j) := by
  have hevent (t : State) (ev which value : Nat) : KeepsOtp t (t.otpEvent ev which value) := (State.otpEvent_logs t ev which value).keepsOtp
  unfold State.otpDone
  split
  · have hgen : KeepsOtp s { s with sec.pendingGen := BitVec.ofNat 3 j.which } := ⟨rfl, rfl⟩
    dsimp only
    split
    · exact (hgen.trans (hevent _ _ _ _)).trans (hevent _ _ _ _)
    · exact hgen.trans (hevent _ _ _ _)
  · exact hevent _ _ _ _
  · exact hevent _ _ _ _
  · exact hevent _ _ _ _
  · exact hevent _ _ _ _
  · exact (hevent _ _ _ _).trans (State.openChain_keepsOtp _ _)

theorem foldl_burn (l : List (Nat × Word)) (s : State) : (l.foldl State.burn s).sec.job = s.sec.job ∧
    (l.foldl State.burn s).sec.otp = l.foldl (fun (o : Tab Word) p => o.upd p.1 (· ||| p.2)) s.sec.otp := by
  induction l generalizing s with
  | nil => exact ⟨rfl, rfl⟩
  | cons p l ih =>
    obtain ⟨hjob, hotp⟩ := ih (s.burn p)
    exact ⟨hjob, hotp⟩

/-- One row of a programming in which a row fails its verify: bits are lost, and the margin with them. -/
def State.burnFailing (b : BitVec 10 × Word) (s : State) (p : Nat × Word) : State :=
  if p.1 = b.1.toNat then { s.burn (p.1, p.2 &&& ~~~b.2) with sec.weak := s.sec.weak.set p.1 true } else s.burn p

/-- Programming some rows, one of which fails, leaves every other row. -/
theorem foldl_burnFailing (b : BitVec 10 × Word) (l : List (Nat × Word)) (s : State) : (l.foldl (State.burnFailing b) s).sec.job = s.sec.job ∧
    ∀ r, (∀ p ∈ l, p.1 ≠ r) → (l.foldl (State.burnFailing b) s).sec.otp.get r = s.sec.otp.get r := by
  induction l generalizing s with
  | nil => exact ⟨rfl, fun _ _ => rfl⟩
  | cons p l ih =>
    obtain ⟨hjob, hotp⟩ := ih (s.burnFailing b p)
    have hone : (s.burnFailing b p).sec.job = s.sec.job ∧ ∀ r, p.1 ≠ r → (s.burnFailing b p).sec.otp.get r = s.sec.otp.get r := by
      unfold State.burnFailing
      split <;> exact ⟨rfl, fun r hr => Tab.get_upd_ne _ _ hr.symm⟩
    exact ⟨hjob.trans hone.1, fun r hr => (hotp r fun p' hp' => hr p' (List.mem_cons_of_mem _ hp')).trans (hone.2 r (hr p List.mem_cons_self))⟩

section
variable {j : OtpJob} {s : State} (hj : s.sec.job = some j)
include hj

theorem exec_otpProgramDone_verified (hsusp : s.sec.suspended = false) : exec (.otpProgramDone none) s =
    .next ((((j.rows ++ j.commit).foldl State.burn { s with sec.job := none }).otpDone j).replyOpt j.h {}) := by
  change execOtpProgramDone none s = _
  rw [execOtpProgramDone]
  simp only [hj, hsusp]
  rfl

theorem exec_otpProgramDone_failed (hsusp : s.sec.suspended = false) {r : BitVec 10} (lost : Word) {x : Word} (hr : (r.toNat, x) ∈ j.rows) :
    exec (.otpProgramDone (some (r, lost))) s =
      .next (((j.rows.foldl (State.burnFailing (r, lost)) { s with sec.job := none }).otpEvent 10 j.which 0).replyOpt j.h { status := 0xA009 }) := by
  have hdata : (j.rows.any fun p => p.1 == r.toNat) = true := List.any_eq_true.mpr ⟨_, hr, by simp⟩
  have hany : ((j.rows ++ j.commit).any fun p => p.1 == r.toNat) = true := by rw [List.any_append, hdata, Bool.true_or]
  change execOtpProgramDone (some (r, lost)) s = _
  rw [execOtpProgramDone]
  simp only [hj, hsusp, hdata, hany]
  rfl

theorem exec_otpSuspendTimeout (hsusp : s.sec.suspended = true) :
    exec .otpSuspendTimeout s = .next (s.abandonOtp.replyOpt j.h { status := 0xA007 }) := by
  change execOtpSuspendTimeout s = _
  rw [execOtpSuspendTimeout]
  simp only [hj, hsusp, if_true]

theorem State.abandonOtp_idle : s.abandonOtp.sec.job = none ∧ s.abandonOtp.sec.suspended = false := by
  constructor <;> simp only [State.abandonOtp, hj]

end

theorem exec_otpHoldExpiry {r : Fin 4} {s : State} (h : s.pwr.below &&& railBit r = 0) : exec (.otpHoldExpiry r) s =
    .next { s with pwr.hold := s.pwr.hold &&& ~~~railBit r, sec.suspended := s.sec.suspended && (s.pwr.hold &&& ~~~railBit r) != 0 } :=
  if_neg (by rw [h]; decide)

/-- Settles O50: OTP commands begin to program their rows, and programming ends or stops as its rules say. -/
theorem otpCompletes : Obligations.OtpCompletes := by
  unfold Obligations.OtpCompletes
  refine ⟨fun h s hpf hhold hjob => ?_, fun j s hj hsusp => ?_, fun j r lost x s hj hsusp hr => ?_, fun j s hj hsusp => ?_, fun r s hbelow => ?_⟩
  · intro prog
    have hprog (t : State) (kind which value : Nat) (rows commit : List (Nat × Word)) :
        firmware h s (t.program h kind which value rows commit) = .next (prog t kind which value rows commit) := firmware_later hpf.1 h _
    refine ⟨fun x i hok hroom hi => (exec_otpCommit hpf hhold hjob hok hroom hi).trans (hprog ..), fun k v => exec_svnAdvance_reached hpf,
      fun k v x hk hv hx hle => (exec_svnAdvance hpf hhold hjob hk hv hx hle).trans (hprog ..), fun d i hlen hlife hi hfree hprev => ?_,
      fun j hj hother => (exec_ownerKeyRevoke hpf hhold hjob hj hother).trans (hprog ..),
      fun hlife => (exec_lcRetire hpf hhold hjob hlife).trans (hprog ..),
      fun hclosed hroom => (exec_ledgerNew hpf hhold hjob hclosed hroom).trans (hprog ..), fun a n hres hlo hhi hend => ?_⟩
    · refine (exec_ownerProvision hpf hhold hjob hlen hlife ?_).trans (hprog ..)
      rcases hi with rfl | rfl
      · simp [List.range_succ, hfree]
      · simp [List.range_succ, hfree, hprev rfl]
    · exact ⟨_, length_leBytes 8 _, firmware_checked_area ⟨hpf.1, hres⟩ (by simp [hpf.2, within, hlo, hhi, hend]) _ _⟩
  · obtain ⟨hjob, hotp⟩ := State.otpDone_keepsOtp ((j.rows ++ j.commit).foldl State.burn { s with sec.job := none }) j
    obtain ⟨hjob', hotp'⟩ := foldl_burn (j.rows ++ j.commit) { s with sec.job := none }
    exact ⟨_, exec_otpProgramDone_verified hj hsusp, hjob.trans hjob', hotp.trans hotp'⟩
  · obtain ⟨hjob, hotp⟩ := (State.otpEvent_logs (j.rows.foldl (State.burnFailing (r, lost)) { s with sec.job := none }) 10 j.which 0).keepsOtp
    obtain ⟨hjob', hotp'⟩ := foldl_burnFailing (r, lost) j.rows { s with sec.job := none }
    refine ⟨_, exec_otpProgramDone_failed hj hsusp lost hr, hjob.trans hjob', fun c _ hc => ?_⟩
    rw [hotp]
    exact hotp' c.1 hc
  · exact ⟨_, exec_otpSuspendTimeout hj hsusp, State.abandonOtp_idle hj⟩
  · refine ⟨_, exec_otpHoldExpiry hbelow, rfl, fun hzero => ?_, rfl⟩
    have hz : s.pwr.hold &&& ~~~railBit r = 0 := hzero
    change (s.sec.suspended && (s.pwr.hold &&& ~~~railBit r) != 0) = false
    rw [hz]
    exact Bool.and_false _

end Sys2Proof.Machine
end

section
/-! Keys, override, attestation and debug: settles O52. -/

namespace Sys2Proof.Machine

open Sys2Proof.Claims

/-! ### Keys, override, attestation and debug (R456, R461, R464 to R466) -/

section
variable {s : State} {h : Hdr} (hpf : pf0 s h)
include hpf

theorem firmware_authFail : firmware h s (authFail s) = .next ((s.securityRec 0xA004).reply h { status := 0xA004 }) := firmware_ok hpf.1 h _ rfl

theorem exec_ownerKeyLoad {j : Byte} (k : List Byte) (hj : j.toNat ≤ 1) (hkey : s.sec.revoked j.toNat = false) :
    exec (.ownerKeyLoad h j k) s = .next (if s.sec.prov.isSome = true ∧ sha384 k = s.sec.keyHash j.toNat then
        { s with sec.keys := s.sec.keys.set j.toNat (some (BitVec.ofNat 768 (leNat k))) }.reply h {}
      else (s.securityRec 0xA004).reply h { status := 0xA004 }) := by
  change firmware h s (doOwnerKeyLoad h j k s) = _
  rw [doOwnerKeyLoad, checks_pass (by simp [hpf.2, hj, hkey])]
  by_cases hok : s.sec.prov.isSome = true ∧ sha384 k = s.sec.keyHash j.toNat
  · obtain ⟨i, hi⟩ := Option.isSome_iff_exists.mp hok.1
    rw [if_pos hok, if_neg (by simp [hi, hok.2])]
    exact firmware_ok hpf.1 h _ rfl
  · have hbad : (s.sec.prov.isNone || sha384 k != s.sec.keyHash j.toNat) = true := by
      cases hp : s.sec.prov with
      | none => rfl
      | some i => simpa [hp] using hok
    rw [if_neg hok, if_pos hbad]
    exact firmware_authFail hpf

/-- The state of an override that is applied, before its record and memory initialisation. -/
def State.overridden (s : State) (x : Nat) : State :=
  { s with sec.overrideOn := some (settingsOf (fld x 64 1024)), sec.overrideSvn := fld x 8 6, sec.settings := settingsOf (fld x 64 1024),
           pwr.plan := (settingsOf (fld x 64 1024)).powerPlan, tim.jumpLimit := s.settledLimit (settingsOf (fld x 64 1024)).jumpLimit }

theorem exec_settingsOverride_shipped {x : BitVec 2048} (hfmt : fld x.toNat 0 8 = 0x10) (hz1 : fld x.toNat 14 2 = 0) (hz2 : fld x.toNat 17 15 = 0)
    (hlen : x.toNat < 2 ^ 1856) (hok : settingsBad (fld x.toNat 64 1024) = false) (hboot : s.sec.boot = .awaitSettings)
    (hallow : s.sec.settings.overrideAllow = true) (hlife : s.sec.lifecycle = .shipped) : exec (.settingsOverride h x) s =
      .next ((((s.overridden x.toNat).otpEvent 9 (fld x.toNat 16 1) 0).beginMemInit).reply h {}) := by
  have hhigh : x.toNat / 2 ^ 1856 = 0 := Nat.div_eq_of_lt hlen
  have howned : (s.sec.lifecycle == .owned) = false := by rw [hlife]; rfl
  change firmware h s (doSettingsOverride h x s) = _
  dsimp only [doSettingsOverride]
  rw [checks_pass (by rw [hfmt, hz1, hz2, hhigh]; simp [hpf.2, hok, hboot, hallow, hlife]), howned]
  exact firmware_ok hpf.1 h _ rfl

theorem exec_attest (x : BitVec 384) {a : BitVec 64} (hline : a.toNat % 64 = 0) (hap : inAperture a.toNat 352 = true) (hlife : s.sec.lifecycle = .owned) :
    exec (.attest h x a) s = .next ((s.wr a.toNat (s.report x ++ ecdsaSign s.sec.fleetKey (sha384 (s.report x)))).reply h {}) :=
  firmware_checked hpf.1 h (by simp [hpf.2, lineAligned, hline, hap, hlife]) _ rfl

theorem exec_debugChallenge {c : List Byte} (hres : s.hasResult h = true) (hc : s.sec.challenge = some c) :
    exec (.debugChallenge h) s = .next (s.reply h { ext := some c }) := by
  have hopen : s.sec.ledgerOpen = true := by
    by_contra hno
    rw [Sec.challenge, if_neg hno] at hc
    exact absurd hc (by simp)
  change firmware h s (doDebugChallenge h s) = _
  rw [doDebugChallenge, hc, checks_pass (by simp [hpf.2, hopen])]
  exact firmware_area ⟨hpf.1, hres⟩ _ _

theorem exec_debugUnlock {tok : List Byte} (hkey : leNat ((tok.drop 52).take 1) ≤ 1) (hz : ∀ b ∈ (tok.drop 53).take 11, b = 0)
    (hlife : s.sec.lifecycle = .owned) (hpolicy : s.sec.settings.debugPolicy = 1) :
    exec (.debugUnlock h tok) s = .next (if s.sec.challenge = some (tok.take 48) ∧ leNat ((tok.drop 48).take 4) = s.sec.fleetId ∧
        s.sec.ownerOk (leNat ((tok.drop 52).take 1)) (tok.take 64) ((tok.drop 64).take 96) = true then
      ({ s with sec.debugOpen := true }.securityRec 0).reply h {} else (s.securityRec 0xA004).reply h { status := 0xA004 }) := by
  have hzero : ((tok.drop 53).take 11).any (· != 0) = false := by
    rw [List.any_eq_false]
    intro b hb
    simp [hz b hb]
  change firmware h s (doDebugUnlock h tok s) = _
  rw [doDebugUnlock, hzero, checks_pass (by simp [hpf.2, hkey, hlife, hpolicy])]
  by_cases hok : s.sec.challenge = some (tok.take 48) ∧ leNat ((tok.drop 48).take 4) = s.sec.fleetId ∧
      s.sec.ownerOk (leNat ((tok.drop 52).take 1)) (tok.take 64) ((tok.drop 64).take 96) = true
  · rw [if_pos hok, if_neg (by simp [hok.1, hok.2.1, hok.2.2])]
    exact firmware_ok hpf.1 h _ rfl
  · rw [if_neg hok, if_pos (by simpa [imp_iff_not_or, or_assoc] using hok)]
    exact firmware_authFail hpf

end

/-- What beginning memory initialisation leaves (R426, R457). -/
theorem State.beginMemInit_spec (s : State) : Logs { s with sec.boot := .memInit, memc.state := 1 } s.beginMemInit := State.raiseRec_logs _ _ _

/-- Settles O52: each security command has its effect. -/
theorem securityCommandsComplete : Obligations.SecurityCommandsComplete := by
  unfold Obligations.SecurityCommandsComplete
  intro h s hpf
  refine ⟨fun j k => exec_ownerKeyLoad hpf k, fun x hfmt hz1 hz2 hlen hok hboot hallow hlife => ?_, fun x a => exec_attest hpf x,
    fun c => exec_debugChallenge hpf, fun tok hlen hkey hz hlife => exec_debugUnlock hpf hkey hz hlife, rfl, rfl, fun hclosed => ?_, rfl⟩
  · have hevent := State.otpEvent_logs (s.overridden x.toNat) 9 (fld x.toNat 16 1) 0
    have hbegin := State.beginMemInit_spec ((s.overridden x.toNat).otpEvent 9 (fld x.toNat 16 1) 0)
    refine ⟨_, exec_settingsOverride_shipped hpf hfmt hz1 hz2 hlen hok hboot hallow hlife, ?_⟩
    rw [hbegin.sec, hbegin.rest]
    dsimp only
    rw [hevent.sec, hevent.rest]
    exact ⟨rfl, rfl, rfl, rfl, rfl⟩
  · exact if_neg (by rw [hclosed]; exact Bool.false_ne_true)

end Sys2Proof.Machine
end

section
/-! The boot flow: settles O54. -/

namespace Sys2Proof.Machine

open Sys2Proof.Claims

/-! ### The boot ROM (R454, R457, R463) -/

theorem Logs.foldl {α : Type} {f : State → α → State} (hf : ∀ s x, Logs s (f s x)) (l : List α) (s : State) : Logs s (l.foldl f s) := by
  induction l generalizing s with
  | nil => exact .refl s
  | cons x l ih => exact (hf s x).trans (ih _)

/-- What the ROM finds is recorded, and one mark of it is kept. -/
theorem State.romEvents_logs (s : State) : ∃ b, Logs { s with sec.marginal := b } s.romEvents := by
  have hmark (t : State) (b : Bool) (h : Logs s t) : Logs { s with sec.marginal := b } { t with sec.marginal := b } :=
    ⟨by rw [h.rest], by rw [h.sec], h.link⟩
  unfold State.romEvents
  extract_lets c spoilt weak s1 s2
  have h1 : Logs s s1 := Logs.foldl (fun t i => State.otpEvent_logs t _ _ _) _ _
  have h2 : Logs s1 s2 := Logs.foldl (fun t i => (State.otpEvent_logs t _ _ _).trans (State.blockEvent_logs _ _ _)) _ _
  exact ⟨_, hmark s2 _ (h1.trans h2)⟩

/-- The OTP as the ROM reads it, with the marks that its reads show. -/
def State.romRead (s : State) (marks : List (BitVec 10 × Fin 4)) : State :=
  { s with
    sec.otpBad := marks.foldl (fun (t : Tab Nat) m => if m.2 = 1 ∨ m.2 = 2 then t.set m.1.toNat m.2.val else t) {},
    sec.weak := marks.foldl (fun (t : Tab Bool) m => if m.2 = 3 then t.set m.1.toNat true else t) {} }

/-- What the ROM fixes from the OTP, and the link that has come up. -/
def State.romFixed (u : State) (l : UcieLink) : State :=
  { u with
    sec.lifecycle := u.sec.lifeNow, sec.settings := u.sec.active, sec.boot := .bootWait, sec.activeGen := BitVec.ofNat 3 (u.sec.lastValid.getD 7),
    sec.pendingGen := 7, sec.epoch := BitVec.ofNat 32 (u.sec.counter 3), pwr.plan := u.sec.active.powerPlan,
    tim.jumpLimit := u.settledLimit u.sec.active.jumpLimit, hif.linkUp := true, hif.rate := l.rate, hif.width := l.narrow, hif.repaired := l.repaired }

section
variable {s : State} {marks : List (BitVec 10 × Fin 4)} {l : UcieLink} (hboot : s.sec.boot = .rom) (hlife : (s.romRead marks).sec.lifeNow ≠ .test)
include hboot hlife

theorem exec_bootRom_no_link (hrate : 5 < l.rate.toNat) : exec (.bootRom marks l) s = .next s := by
  change execBootRom marks l s = _
  rw [execBootRom, if_neg (not_not.mpr hboot)]
  refine (if_neg hlife).trans ?_
  simp only [State.trained, if_pos hrate]

theorem exec_bootRom_cold (hrate : l.rate.toNat ≤ 5) (hcold : s.pwr.warm = false) :
    exec (.bootRom marks l) s = .next ((s.romRead marks).romFixed l).romEvents := by
  have hwarm : ((s.romRead marks).romFixed l).romEvents.pwr.warm = false := by
    obtain ⟨b, hb⟩ := State.romEvents_logs ((s.romRead marks).romFixed l)
    rw [hb.rest]
    exact hcold
  change execBootRom marks l s = _
  rw [execBootRom, if_neg (not_not.mpr hboot)]
  refine (if_neg hlife).trans ?_
  simp only [State.trained, if_neg (not_lt.mpr hrate)]
  exact congrArg _ (if_neg (by exact hwarm ▸ Bool.false_ne_true))

omit hboot hlife in
theorem State.romFixed_jumpLimit (hcold : s.pwr.warm = false) : ((s.romRead marks).romFixed l).tim.jumpLimit = (s.romRead marks).sec.active.jumpLimit := by
  have hcold' : (s.romRead marks).pwr.warm = false := hcold
  change (s.romRead marks).settledLimit _ = _
  rw [State.settledLimit, hcold', Bool.false_and, if_neg Bool.false_ne_true]

end

/-! ### The firmware image (R458) -/

/-- The firmware of an image that passed, before what follows its start. -/
def State.started (s : State) : State :=
  { s with
    sec.result := 1, sec.fwMeasure := BitVec.ofNat 384 (leNat (s.sec.measure (fld (leNat (s.sec.image 0 256)) 64 32))),
    sec.fwVersion := BitVec.ofNat 32 (fld (leNat (s.sec.image 0 256)) 96 32), sec.fwSvn := fld (leNat (s.sec.image 0 256)) 40 6, pgk.ready := true }

theorem State.verifyImage_pass {s : State} (h : s.sec.verify = 1) (next : State → State) : s.verifyImage next = next s.started := if_pos h

theorem State.verifyImage_fail {s : State} (h : s.sec.verify ≠ 1) (next : State → State) : s.verifyImage next =
    { s with sec.result := BitVec.ofNat 4 s.sec.verify, sec.failures := if s.sec.failures = 0xFF then 0xFF else s.sec.failures + 1, sec.boot := .bootWait } :=
  if_neg h

theorem exec_secBootWindowWrite {s : State} {off : BitVec 19} {d : List Byte} (hboot : s.sec.boot = .bootWait) (hlen : d.length ≤ 0x80000 - off.toNat) :
    exec (.secBootWindowWrite 0 off d) s =
      .next { s with sec.window := d.zipIdx.foldl (fun (t : Tab Byte) x => t.set (off.toNat + x.2) x.1) s.sec.window } := by
  have htake : d.take (0x80000 - off.toNat) = d := List.take_of_length_le hlen
  change execSecBootWindowWrite 0 off d s = _
  rw [execSecBootWindowWrite, if_pos ⟨rfl, hboot⟩, htake]

theorem bit_toNat {n : Nat} (w : BitVec n) (i : Nat) : bit w.toNat i = w.getLsbD i := by
  rw [BitVec.getLsbD, Nat.testBit_eq_decide_div_mod_eq, bit]
  rfl

theorem exec_secBootGo {s : State} {w : Word} (hboot : s.sec.boot = .bootWait) (hw : w.getLsbD 0 = true) :
    exec (.secBootGo 0 w) s = .next (s.verifyImage fun s => { s with sec.boot := .awaitSettings }) := by
  have hbit : bit w.toNat 0 = true := (bit_toNat w 0).trans hw
  exact if_pos ⟨rfl, hboot, hbit⟩

/-! ### READY and wear (R436, R457, R472) -/

theorem exec_bootReady {s : State} (hboot : s.sec.boot = .memInit) (hmem : s.memc.state = 2 ∨ s.memc.state = 3) :
    exec .bootReady s = .next { s with sec.boot := .ready, saf.pins := s.saf.safe, sns.ready := true }.wearBase := if_pos ⟨hboot, hmem⟩

/-- A WEAR record closes an hour: one record joins the queue, and the sums become the base of the next hour. -/
theorem exec_wearRecord {s : State} (age : BitVec 384) (temps : BitVec 128) (hboot : s.sec.boot = .ready) (hroom : s.sec.queue.length < 64) :
    ∃ payload, exec (.wearRecord age temps) s = .next (({ s with sec.wear.hour := s.sec.wear.hour + 1 } : State).enqueueRec 4 payload).wearBase :=
  ⟨_, (if_neg (not_not.mpr hboot)).trans (congrArg (fun u : State => (.next u.wearBase : Out)) (if_pos hroom))⟩

/-- Settles O54: the boot flow from the ROM to READY, and the hourly record. -/
theorem bootCompletes : Obligations.BootCompletes := by
  unfold Obligations.BootCompletes
  intro s
  refine ⟨?_, fun off d => exec_secBootWindowWrite, fun w hboot hw => ⟨_, exec_secBootGo hboot hw, ?_⟩, fun hboot => ?_, fun hboot hmem => ?_,
    fun age temps hboot hroom => ?_⟩
  · intro marks l u hboot hlife hcold
    refine ⟨exec_bootRom_no_link hboot hlife, fun hrate => ⟨_, exec_bootRom_cold hboot hlife hrate hcold, ?_⟩⟩
    obtain ⟨b, hlogs⟩ := State.romEvents_logs ((s.romRead marks).romFixed l)
    obtain ⟨hup, hr, hw⟩ := hlogs.link
    refine ⟨?_, ?_, ?_, ?_, ?_, hup, hr, hw, ?_⟩
    case refine_5 => rw [hlogs.rest]; exact State.romFixed_jumpLimit (l := l) hcold
    case refine_4 => rw [hlogs.rest]; rfl
    all_goals rw [hlogs.sec]; rfl
  · by_cases hpass : s.sec.verify = 1
    · rw [State.verifyImage_pass hpass, hpass]
      exact ⟨rfl, fun _ => ⟨rfl, rfl, rfl, rfl⟩, fun hne => absurd rfl hne⟩
    · rw [State.verifyImage_fail hpass]
      exact ⟨rfl, fun heq => absurd heq hpass, fun _ => ⟨rfl, rfl, fun hmax => if_neg hmax⟩⟩
  · have hbegin := State.beginMemInit_spec s
    refine ⟨_, congrArg Host.Outcome.next (if_pos hboot), ?_, ?_, ?_⟩
    · rw [hbegin.sec]
    · rw [hbegin.rest]
    · rw [hbegin.sec]
  · exact ⟨_, exec_bootReady hboot hmem, rfl, rfl, rfl, rfl⟩
  · obtain ⟨payload, hexec⟩ := exec_wearRecord age temps hboot hroom
    have hlogs := State.enqueueRec_logs ({ s with sec.wear.hour := s.sec.wear.hour + 1 } : State) 4 payload
    refine ⟨_, hexec, ?_, State.enqueueRec_length _ 4 payload, ?_, ?_⟩
    · change (State.enqueueRec _ 4 payload).sec.wear.hour = _
      rw [hlogs.sec]
    · change (State.enqueueRec _ 4 payload).wearSums.1 = _
      unfold State.wearSums
      rw [hlogs.rest]
    · change (State.enqueueRec _ 4 payload).wearSums.2.1 = _
      unfold State.wearSums
      rw [hlogs.rest]

end Sys2Proof.Machine
end

section
/-! Resets: settles O55. -/

namespace Sys2Proof.Machine

open Sys2Proof.Claims

variable {s : State}

theorem State.abandonOtp_none (h : s.sec.job = none) : s.abandonOtp = s := by
  unfold State.abandonOtp
  rw [h]

/-- With no programming under way a reset of power-on scope cuts nothing. -/
theorem State.powerOn_idle (h : s.sec.job = none) (cause rail : Nat) :
    s.powerOn cause rail = { s.resetBase with pwr.cause := BitVec.ofNat 3 cause, pwr.rail := BitVec.ofNat 2 rail } := by
  rw [State.powerOn, State.abandonOtp_none h]

theorem State.warmCause_first (h : s.pwr.memOnce = false) (cause : Nat) : s.warmCause cause = s.powerOn 0 0 :=
  if_neg (by rw [h]; exact Bool.false_ne_true)

theorem State.warmCause_again (h : s.pwr.memOnce = true) (cause : Nat) : s.warmCause cause = s.warm cause := if_pos h

/-- A warm reset keeps memory outside the scratchpads (Table 5). -/
theorem State.warm_mem_get (h : s.sec.job = none) (cause : Nat) (a : Nat) : (s.warm cause).mem.get a = if inSpads a 1 then 0 else s.mem.get a := by
  have hmem : (s.warm cause).mem = ⟨s.mem.cells.filter fun c => !inSpads c.1 1⟩ := by rw [State.warm, State.abandonOtp_none h]
  rw [hmem, Tab.get_filter (p := fun a => !inSpads a 1)]
  cases inSpads a 1 <;> rfl

theorem exec_pwrResetReq (w : Word) (hw : w.toNat % 256 = 0x5A) (s : State) : exec (.pwrResetReq 0 w) s = exec (.warmReset .request) s :=
  congrArg Host.Outcome.next (if_pos ⟨rfl, hw⟩)

theorem exec_pwrResetReq_ignored (fn : Fin 16) (w : Word) (h : fn ≠ 0 ∨ w.toNat % 256 ≠ 0x5A) (s : State) : exec (.pwrResetReq fn w) s = .next s :=
  congrArg Host.Outcome.next (if_neg (not_and_or.mpr h))

/-- Settles O55: what resets of power-on and of warm scope leave and keep. -/
theorem resetsComplete : Obligations.ResetsComplete := by
  unfold Obligations.ResetsComplete
  intro s hjob
  refine ⟨congrArg _ (State.powerOn_idle hjob 0 0), fun r => ⟨congrArg _ (State.powerOn_idle hjob 1 r.val), congrArg _ (State.powerOn_idle hjob 0 0)⟩,
    congrArg _ (State.powerOn_idle hjob 5 0), fun c honce => congrArg _ ((State.warmCause_first honce _).trans (State.powerOn_idle hjob 0 0)), ?_,
    fun w hw => exec_pwrResetReq w hw s, fun fn w h => exec_pwrResetReq_ignored fn w h s⟩
  intro c honce
  refine ⟨s.warm (PwrCause.code c), congrArg Host.Outcome.next (State.warmCause_again honce _), rfl, ?_, ?_, ?_, ?_, ?_, rfl, rfl, rfl, rfl, rfl, rfl, ?_, ?_, rfl, rfl,
    State.warm_mem_get hjob _⟩
  all_goals rw [State.warm, State.abandonOtp_none hjob]
  exact fun hmax => if_neg hmax

end Sys2Proof.Machine
end

section
/-! Power plans, the guard, temperatures and supplies: settles O56. -/

namespace Sys2Proof.Machine

open Sys2Proof.Claims

variable {s : State}

/-! ### Power plans and supply detectors (R479, R483) -/

/-- A running maximum passes a bound exactly when one of its numbers does. -/
theorem lt_foldl_max {c : Nat} (l : List Nat) (b : Nat) : c < l.foldl max b ↔ c < b ∨ ∃ x ∈ l, c < x := by
  induction l generalizing b with
  | nil => simp
  | cons x l ih => rw [List.foldl_cons, ih, lt_max_iff, or_assoc]; simp

theorem exec_pwrPlanWrite_fits {w : Word} {pl : Plan} (hplan : s.pln.plan = some pl) (hcap : ∀ e ∈ pl.wins, e.power ≤ powerCap (w.toNat % 4))
    (hmin : pl.powerMin ≤ w.toNat % 4) : exec (.pwrPlanWrite 0 w) s = .next { s with pwr.plan := w.setWidth 2 } := by
  have hpow : ¬ powerCap (w.toNat % 4) < (pl.wins.map WinEnt.power).foldl max 0 := by
    rw [lt_foldl_max]
    rintro (hzero | ⟨_, hx, hlt⟩)
    · exact absurd hzero (Nat.not_lt_zero _)
    · obtain ⟨e, he, rfl⟩ := List.mem_map.mp hx
      exact absurd hlt (not_lt.mpr (hcap e he))
  have hwidth : BitVec.ofNat 2 (w.toNat % 4) = w.setWidth 2 := by
    apply BitVec.eq_of_toNat_eq
    rw [BitVec.toNat_ofNat, BitVec.toNat_setWidth, Nat.mod_mod]
  change execPwrPlanWrite 0 w s = _
  simp [execPwrPlanWrite, hplan, hpow, not_lt.mpr hmin, hwidth]

theorem exec_pwrPlanWrite_rejected {w : Word} {pl : Plan} {e : WinEnt} (hplan : s.pln.plan = some pl) (he : e ∈ pl.wins) (hcap : powerCap (w.toNat % 4) < e.power) :
    exec (.pwrPlanWrite 0 w) s = .next { s with pwr.planReject := true } := by
  have hpow : powerCap (w.toNat % 4) < (pl.wins.map WinEnt.power).foldl max 0 :=
    (lt_foldl_max _ _).mpr (.inr ⟨_, List.mem_map_of_mem he, hcap⟩)
  change execPwrPlanWrite 0 w s = _
  simp [execPwrPlanWrite, hplan, hpow]

theorem exec_pwrThermWarnWrite_in {w : Word} (hlo : 85 ≤ w.toNat % 256) (hhi : w.toNat % 256 ≤ 125) :
    exec (.pwrThermWarnWrite 0 w) s = .next { s with pwr.warnAt := w.setWidth 8 } := by
  have hwidth : BitVec.ofNat 8 (w.toNat % 256) = w.setWidth 8 := by
    apply BitVec.eq_of_toNat_eq
    rw [BitVec.toNat_ofNat, BitVec.toNat_setWidth, Nat.mod_mod]
  change execPwrThermWarnWrite 0 w s = _
  simp [execPwrThermWarnWrite, within, hlo, hhi, hwidth]

theorem exec_pwrThermWarnWrite_out {w : Word} (h : w.toNat % 256 < 85 ∨ 125 < w.toNat % 256) :
    exec (.pwrThermWarnWrite 0 w) s = .next { s with pwr.cfgReject := true } := by
  have hout : within 85 125 (w.toNat % 256) = false := by
    rw [within, Bool.and_eq_false_iff, decide_eq_false_iff_not, decide_eq_false_iff_not]
    omega
  change execPwrThermWarnWrite 0 w s = _
  simp [execPwrThermWarnWrite, hout]

/-- The detectors that a clear selects restart from their level; the others stay. -/
theorem clearRails_spec (w : Nat) (rails : List Nat) (s : State) : ∃ m : Tab (BitVec 16),
    rails.foldl (fun (s : State) r => if bit w r then { s with pwr.supMin := s.pwr.supMin.set r (s.pwr.level.get r) } else s) s = { s with pwr.supMin := m } ∧
    ∀ r, m.get r = if r ∈ rails ∧ bit w r = true then s.pwr.level.get r else s.pwr.supMin.get r := by
  induction rails generalizing s with
  | nil => exact ⟨_, rfl, fun r => by simp⟩
  | cons a rails ih =>
    rw [List.foldl_cons]
    by_cases ha : bit w a = true
    · rw [if_pos ha]
      obtain ⟨m, hfold, hget⟩ := ih { s with pwr.supMin := s.pwr.supMin.set a (s.pwr.level.get a) }
      refine ⟨m, hfold, fun r => ?_⟩
      rw [hget]
      by_cases hr : r = a
      · subst hr; simp [ha]
      · simp [hr]
    · rw [if_neg ha]
      obtain ⟨m, hfold, hget⟩ := ih s
      refine ⟨m, hfold, fun r => ?_⟩
      rw [hget]
      by_cases hr : r = a
      · subst hr; simp [ha]
      · simp [hr]

theorem exec_pwrSupClear (w : Word) (s : State) : ∃ t, exec (.pwrSupClear 0 w) s = .next t ∧ t = { s with pwr.supMin := t.pwr.supMin } ∧
    ∀ r < 4, t.pwr.supMin.get r = if w.getLsbD r then s.pwr.level.get r else s.pwr.supMin.get r := by
  obtain ⟨m, hfold, hget⟩ := clearRails_spec w.toNat (List.range 4) s
  refine ⟨{ s with pwr.supMin := m }, congrArg Host.Outcome.next hfold, rfl, fun r hr => ?_⟩
  change m.get r = _
  rw [hget, bit_toNat]
  simp [hr]

/-! ### The current guard (R480) -/

theorem State.guardDomain_below {i avg : Nat} (hlim : avg ≤ s.guardLimit i) (htrip : s.pwr.tripped.get i = false) : s.guardDomain i avg = s := by
  simp [State.guardDomain, htrip, not_lt.mpr hlim]

/-- The die as a whole trips and raises its fault of the device. -/
theorem State.guardDomain_die {avg : Nat} (hlim : powerCap s.pwr.plan.toNat * 105000 < avg) (htrip : s.pwr.tripped.get 16 = false) : s.guardDomain 16 avg =
    ({ s with pwr.tripped := s.pwr.tripped.set 16 true, pwr.trips := s.pwr.trips.upd 16 satInc, pwr.guardTrip := true } : State).raiseDev 0x1104 := by
  have hlim' : s.guardLimit 16 < avg := hlim
  simp [State.guardDomain, htrip, hlim']

theorem foldl_eq_self {α β : Type} {f : β → α → β} {b : β} (l : List α) (h : ∀ a ∈ l, f b a = b) : l.foldl f b = b := by
  induction l with
  | nil => rfl
  | cons a l ih =>
    rw [List.foldl_cons, h a List.mem_cons_self]
    exact ih fun x hx => h x (List.mem_cons_of_mem _ hx)

/-- With the sixteen islands below their limit a sample is the die's. -/
theorem guardIslands_below {avg : List Word} (hlen : avg.length = 16) (htrip : ∀ i < 17, s.pwr.tripped.get i = false) (havg : ∀ x ∈ avg, x.toNat ≤ 3600000) (top : Word) :
    (avg ++ [top]).zipIdx.foldl (fun (s : State) x => if x.2 < 17 then s.guardDomain x.2 x.1.toNat else s) s = s.guardDomain 16 top.toNat := by
  have hislands : avg.zipIdx.foldl (fun (s : State) x => if x.2 < 17 then s.guardDomain x.2 x.1.toNat else s) s = s := by
    refine foldl_eq_self _ fun x hx => ?_
    have hidx : x.2 < 16 := hlen ▸ by simpa using List.snd_lt_of_mem_zipIdx hx
    have hlim : s.guardLimit x.2 = 3600000 := if_pos hidx
    rw [if_pos (by omega), State.guardDomain_below (hlim ▸ havg _ (List.fst_mem_of_mem_zipIdx hx)) (htrip _ (by omega))]
  rw [List.zipIdx_append, List.foldl_append, hislands, hlen]
  rfl

section
variable {avg : List Word} {top : Word} (hlen : avg.length = 16) (hraised : s.saf.raised = []) (htrip : ∀ i < 17, s.pwr.tripped.get i = false)
  (havg : ∀ x ∈ avg, x.toNat ≤ 3600000)
include hlen

theorem sampleTop : (((avg ++ [top])[16]?).getD 0) = top := by
  rw [List.getElem?_append_right (by omega), hlen]
  rfl

include htrip havg

theorem exec_guardSample : exec (.guardSample (avg ++ [top])) s = .next ({ s.guardDomain 16 top.toNat with
    pwr.powerNow := BitVec.ofNat 32 (top.toNat / 10000), pwr.powerPeak := BitVec.ofNat 32 (max (top.toNat / 10000) (s.guardDomain 16 top.toNat).pwr.powerPeak.toNat) }).settle := by
  change execGuardSample (avg ++ [top]) s = _
  rw [execGuardSample, guardIslands_below hlen htrip havg, sampleTop hlen]

include hraised

theorem exec_guardSample_below (htop : top.toNat ≤ powerCap s.pwr.plan.toNat * 105000) : exec (.guardSample (avg ++ [top])) s = .next { s with
    pwr.powerNow := BitVec.ofNat 32 (top.toNat / 10000), pwr.powerPeak := BitVec.ofNat 32 (max (top.toNat / 10000) s.pwr.powerPeak.toNat) } := by
  have hdie : s.guardDomain 16 top.toNat = s := State.guardDomain_below htop (htrip 16 (by decide))
  rw [exec_guardSample hlen htrip havg, hdie]
  exact congrArg _ (State.settle_quiet _ hraised)

theorem exec_guardSample_trips (htop : powerCap s.pwr.plan.toNat * 105000 < top.toNat) : ∃ t : State, exec (.guardSample (avg ++ [top])) s = .next t.settle ∧
    t.pwr.tripped.get 16 = true ∧ t.pwr.guardTrip = true ∧ t.saf.raised = [{ code := 0x1104 }] := by
  refine ⟨_, exec_guardSample hlen htrip havg, ?_⟩
  rw [State.guardDomain_die htop (htrip 16 (by decide))]
  exact ⟨Tab.get_set_self _ _ _, rfl, congrArg (· ++ [_]) hraised⟩

end

/-! ### Temperature (R481) -/

/-- A reading of the sensors as it is recorded, before any fault of it: the hottest is `hot`, of sensor `n`. -/
def State.warmed (s : State) (temps : List (BitVec 16)) (hot : Int) (n : Nat) : State :=
  { s with
    pwr.thermNow := BitVec.ofNat 32 (wrap 16 hot + n * 2 ^ 16),
    pwr.thermMax := if !s.pwr.thermSeen || decide (sgn 16 (s.pwr.thermMax.toNat % 2 ^ 16) < hot) then BitVec.ofNat 32 (wrap 16 hot + n * 2 ^ 16) else s.pwr.thermMax,
    pwr.thermSeen := true, pwr.cold := temps.any fun t => decide (t.toInt < -160),
    pwr.thermWarn := s.pwr.thermWarn || (s.pwr.warnArmed && decide (4 * (s.pwr.warnAt.toNat : Int) ≤ hot)),
    pwr.thermCrit := s.pwr.thermCrit || (s.pwr.critArmed && decide (520 ≤ hot)),
    pwr.warnArmed := if s.pwr.warnArmed && decide (4 * (s.pwr.warnAt.toNat : Int) ≤ hot) then false
      else s.pwr.warnArmed || decide (hot ≤ 4 * (s.pwr.warnAt.toNat : Int) - 20),
    pwr.critArmed := decide (hot < 520) }

/-- A warning's fault, where one is due. -/
def State.raiseWarn (s : State) (due : Bool) : State := if due then s.raiseDev 0x1106 else s

theorem State.raiseWarn_pwr (due : Bool) : (s.raiseWarn due).pwr = s.pwr := by
  cases due <;> rfl

section
variable {temps : List (BitVec 16)} {hot : Int} {n : Nat} (hne : temps ≠ []) (hhot : hottest temps = (hot, n))
include hne hhot

theorem exec_thermSample : exec (.thermSample temps) s =
    .next (if s.pwr.critArmed && decide (520 ≤ hot) then
        ((s.warmed temps hot n).raiseWarn (s.pwr.warnArmed && decide (4 * (s.pwr.warnAt.toNat : Int) ≤ hot))).raiseDev 0x1107
      else (s.warmed temps hot n).raiseWarn (s.pwr.warnArmed && decide (4 * (s.pwr.warnAt.toNat : Int) ≤ hot))).settle := by
  change execThermSample temps s = _
  rw [execThermSample, if_neg hne, hhot]
  rfl

theorem exec_thermSample_calm (hraised : s.saf.raised = []) (hwarn : hot < 4 * (s.pwr.warnAt.toNat : Int)) (hcrit : hot < 520) :
    exec (.thermSample temps) s = .next (s.warmed temps hot n) := by
  have hnowarn : (s.pwr.warnArmed && decide (4 * (s.pwr.warnAt.toNat : Int) ≤ hot)) = false := by
    rw [decide_eq_false (not_le.mpr hwarn), Bool.and_false]
  have hnocrit : (s.pwr.critArmed && decide (520 ≤ hot)) = false := by
    rw [decide_eq_false (not_le.mpr hcrit), Bool.and_false]
  rw [exec_thermSample hne hhot, hnowarn, hnocrit]
  exact congrArg _ (State.settle_quiet _ hraised)

theorem exec_thermSample_crit (hcrit : 520 ≤ hot) (harmed : s.pwr.critArmed = true) : exec (.thermSample temps) s =
    .next (((s.warmed temps hot n).raiseWarn (s.pwr.warnArmed && decide (4 * (s.pwr.warnAt.toNat : Int) ≤ hot))).raiseDev 0x1107).settle := by
  have hdue : (s.pwr.critArmed && decide (520 ≤ hot)) = true := by
    rw [harmed, decide_eq_true hcrit, Bool.and_true]
  rw [exec_thermSample hne hhot, if_pos hdue]

end

theorem State.warmed_warnArmed {temps : List (BitVec 16)} {hot : Int} {n : Nat} (hwarn : hot < 4 * (s.pwr.warnAt.toNat : Int)) :
    (s.warmed temps hot n).pwr.warnArmed = (s.pwr.warnArmed || decide (hot ≤ 4 * (s.pwr.warnAt.toNat : Int) - 20)) :=
  if_neg (by rw [decide_eq_false (not_le.mpr hwarn), Bool.and_false]; exact Bool.false_ne_true)

/-! ### Supplies (R484, R485) -/

/-- A rail that falls below its warning level for the first time. -/
def State.railWarned (s : State) (r : Fin 4) : State :=
  { s with
    pwr.below := s.pwr.below ||| railBit r, pwr.warn := s.pwr.warn ||| railBit r, pwr.hold := s.pwr.hold ||| railBit r, pwr.supplyWarn := true,
    pwr.warnTime := if s.pwr.supplyWarn then s.pwr.warnTime else s.now, pwr.warnCount := satInc s.pwr.warnCount, sec.suspended := s.sec.job.isSome }

theorem exec_supplyWarn {r : Fin 4} (low : BitVec 16) (h : s.pwr.below &&& railBit r = 0) :
    exec (.supplyWarn r low) s = .next ((s.sawLevel r low low).railWarned r) := by
  have hnew : ¬ ((s.sawLevel r low low).pwr.below &&& railBit r != 0) = true := by
    rw [bne_iff_ne, not_not]
    exact h
  exact if_neg hnew

theorem exec_supplyUnderSpec {r : Fin 4} (low : BitVec 16) (h : s.pwr.underHeld &&& railBit r = 0) : exec (.supplyUnderSpec r low) s =
    .next (({ s.sawLevel r low low with
      pwr.under := s.pwr.under ||| railBit r, pwr.underSpec := true, pwr.underHeld := s.pwr.underHeld ||| railBit r } : State).raiseDev 0x1105).settle := by
  have hnew : ¬ ((s.sawLevel r low low).pwr.underHeld &&& railBit r != 0) = true := by
    rw [bne_iff_ne, not_not]
    exact h
  exact congrArg (fun u : State => (.next u.settle : Out)) (if_neg hnew)

/-- Settles O56: power plans, the guard, temperatures and supplies. -/
theorem powerCompletes : Obligations.PowerCompletes := by
  unfold Obligations.PowerCompletes
  refine ⟨fun w pl s => exec_pwrPlanWrite_fits, fun w pl e s => exec_pwrPlanWrite_rejected,
    fun w s => ⟨exec_pwrThermWarnWrite_in, exec_pwrThermWarnWrite_out, fun fn hfn => ⟨if_pos hfn, if_pos hfn, if_pos hfn⟩⟩, ?_, ?_, ?_, ?_, ?_, ?_⟩
  · intro w s
    obtain ⟨t, hexec, hrest, hget⟩ := exec_pwrSupClear w s
    exact ⟨t, hexec, hrest, fun r hr => ⟨fun hsel _ => (hget r hr).trans (if_pos hsel), fun hsel => (hget r hr).trans (if_neg (hsel ▸ Bool.false_ne_true))⟩⟩
  · intro avg top s hlen hraised htrip havg
    exact ⟨exec_guardSample_below hlen hraised htrip havg, exec_guardSample_trips hlen hraised htrip havg⟩
  · intro temps hot n s hne hhot hraised
    refine ⟨fun hwarn hcrit => ⟨_, exec_thermSample_calm hne hhot hraised hwarn hcrit, rfl, decide_eq_true hcrit, State.warmed_warnArmed hwarn, rfl⟩,
      fun hcrit harmed => ⟨_, exec_thermSample_crit hne hhot hcrit harmed, ?_, ?_, List.mem_append_right _ (List.mem_singleton_self _)⟩⟩
    · change (State.raiseWarn _ _).pwr.thermCrit = true
      rw [State.raiseWarn_pwr]
      change (s.pwr.thermCrit || (s.pwr.critArmed && decide (520 ≤ hot))) = true
      rw [harmed, decide_eq_true hcrit, Bool.and_true, Bool.or_true]
    · change (State.raiseWarn _ _).pwr.critArmed = false
      rw [State.raiseWarn_pwr]
      exact decide_eq_false (not_lt.mpr hcrit)
  · intro r low s h
    exact ⟨_, exec_supplyWarn low h, rfl, rfl, rfl, rfl, rfl, rfl, fun hfirst => if_neg (ne_true_of_eq_false hfirst)⟩
  · intro r low s h
    exact ⟨_, exec_supplyUnderSpec low h, rfl, rfl, rfl⟩
  · intro r low level s
    exact ⟨_, rfl, rfl, rfl, rfl, rfl⟩

end Sys2Proof.Machine
end

section
/-! The safety commands and mechanisms: settles O49. -/

namespace Sys2Proof.Machine

open Sys2Proof.Claims

variable {s : State}

/-! ### Commands (R431, R444, R448) -/

/-- A reaction that was set is read back. -/
theorem State.reactionOf_set {code cls r : Nat} (dev : Bool) : ({ s with saf.reacts := s.saf.reacts.set (8 * code + cls) (r + 1) } : State).reactionOf code cls dev = r := by
  simp [State.reactionOf]

section
variable {h : Hdr} (hpf : pf0 s h)
include hpf

theorem exec_safReactSet {code : BitVec 16} {cls r : Byte} (hcls : classOk code.toNat cls.toNat = true)
    (hr : if classDev code.toNat cls.toNat then r = 0 ∨ r = 3 else 1 ≤ r.toNat ∧ r.toNat ≤ 3) (hmin : classDefault code.toNat cls.toNat ≤ r.toNat)
    (hfix : fixedFault code.toNat = false) (hpln : s.pln.state = .none ∨ s.pln.state = .loaded) :
    exec (.safReactSet h code cls r) s = .next (({ s with saf.reacts := s.saf.reacts.set (8 * code.toNat + cls.toNat) (r.toNat + 1) } : State).reply h {}) := by
  obtain ⟨hsup, hfn⟩ := hpf
  have hrange : (if classDev code.toNat cls.toNat then r.toNat != 0 && r.toNat != 3 else !within 1 3 r.toNat) = false := by
    split at hr
    · rcases hr with rfl | rfl <;> simp [*]
    · simp [*, within]
  have hstate : (s.pln.state != .none && s.pln.state != .loaded) = false := by
    rcases hpln with hp | hp <;> simp [hp]
  exact firmware_checked hsup h (by simp [hfn, hcls, hrange, not_lt.mpr hmin, hfix, hstate]) _ rfl

theorem exec_safReactQuery {code : BitVec 16} {cls : Byte} (hcls : classOk code.toNat cls.toNat = true) :
    exec (.safReactQuery h code cls) s = .next 
      (s.reply h { r0 := s.reactionOf code.toNat cls.toNat (classDev code.toNat cls.toNat), r1 := classDefault code.toNat cls.toNat, r2 := b2n (fixedFault code.toNat) }) :=
  firmware_checked hpf.1 h (by simp [hpf.2, hcls]) _ rfl

theorem exec_safGoldenSet {i : Byte} (x : BitVec 64) {pl : Plan} (hplan : s.pln.plan = some pl) (hg : ∃ g ∈ pl.goldens, g.index = i.toNat) (hpln : s.pln.state = .loaded) :
    exec (.safGoldenSet h i x) s = .next (({ s with saf.goldens := s.saf.goldens.upd i.toNat fun g => { g with expect := some x } } : State).reply h {}) := by
  have hany : (((s.pln.plan.map Plan.goldens).getD []).any fun g => g.index == i.toNat) = true := by
    obtain ⟨g, hmem, hidx⟩ := hg
    rw [hplan]
    exact List.any_eq_true.mpr ⟨g, hmem, beq_iff_eq.mpr hidx⟩
  exact firmware_checked hpf.1 h (by rw [hany]; simp [hpf.2, hpln]) _ rfl

theorem exec_safFaultInject_dev {code : BitVec 16} (job : BitVec 16) (hcan : canDev code.toNat = true) :
    exec (.safFaultInject h code 1 job) s = .next ((s.raise { code := code.toNat, injected := true }).settle.reply h {}) :=
  firmware_checked hpf.1 h (by simp [hpf.2, hcan]) _ rfl

theorem exec_safFaultInject_job {code job : BitVec 16} (hcan : canJob code.toNat = true) (hjob : (s.jobRec job.toNat).isSome = true) (hrun : (s.jobRun job.toNat).state = .running) :
    exec (.safFaultInject h code 0 job) s = .next ((s.raise { code := code.toNat, job := some job.toNat, injected := true }).settle.reply h {}) :=
  firmware_checked hpf.1 h (by simp [hpf.2, hcan, hjob, hrun]) _ rfl

theorem exec_safQuery (hres : s.hasResult h = true) : exec (.safQuery h) s =
    .next (s.reply h { ext := some ((List.range 15).flatMap (fun i => leBytes 4 (s.safReg (4 * i))) ++ leBytes 4 s.faultSummary) }) :=
  firmware_checked_area ⟨hpf.1, hres⟩ (by simp [hpf.2]) _ _

end

/-! ### Pins, comparators and watchdogs (R436, R437, R442) -/

theorem exec_safCtlRelease {v : Word} (hsafe : s.saf.safe = false) (hv : v.getLsbD 0 = true) : exec (.safCtlRelease .firmware v) s = .next { s with saf.pins := false } := by
  change execSafCtlRelease .firmware v s = _
  rw [execSafCtlRelease, hsafe, hv]
  rfl

theorem exec_safCtlRelease_ignored {w : Writer} (v : Word) (h : w ≠ .firmware ∨ s.saf.safe = true) : exec (.safCtlRelease w v) s = .next s := by
  refine if_neg ?_
  rcases h with hw | hsafe
  · simp [hw]
  · simp [hsafe]

/-- The plan's only watchdog is the one an index names. -/
theorem find_watchdog {i : Byte} {pl : Plan} {e : WdgEnt} (hplan : s.pln.plan = some pl) (honly : pl.watchdogs = [e]) (hidx : e.index = i.toNat) :
    (((s.pln.plan.map Plan.watchdogs).getD []).find? fun e => e.index == i.toNat) = some e := by
  have hhit : (e.index == i.toNat) = true := beq_iff_eq.mpr hidx
  rw [hplan, Option.map_some, Option.getD_some, honly, List.find?_cons, hhit]

section
variable {i : Byte} {pl : Plan} {e : WdgEnt} (hplan : s.pln.plan = some pl) (honly : pl.watchdogs = [e]) (hidx : e.index = i.toNat) (hlate : e.late ≠ 0)
  (hrun : s.pln.state = .running)
include hplan honly hidx hlate hrun

/-- A watchdog of a point or loop whose last event lies too far back trips. -/
theorem exec_wdgLate_event (n : Word) (hkind : e.kind = 2 ∨ e.kind = 3) (hstate : (s.saf.wdgs.get i.toNat).state = 2)
    (htook : e.late ≤ s.tick - (s.saf.wdgs.get i.toNat).last) : exec (.wdgLate i n none) s =
      .next (({ s with saf.wdgs := s.saf.wdgs.upd e.index fun r => { r with state := 1 } } : State).wdgTrip e true (s.tick - (s.saf.wdgs.get i.toNat).last)).settle := by
  have hne : e.kind ≠ 4 := by rintro h; simp [h] at hkind
  change execWdgLate i n none s = _
  simp only [execWdgLate, find_watchdog hplan honly hidx]
  simp [hrun, hlate, hne, hkind, hidx, hstate, not_lt.mpr htook]

/-- A watchdog of a pipe whose command runs too long trips. -/
theorem exec_wdgLate_command {n : Word} (j : Option (BitVec 10)) (hkind : e.kind = 4) (htook : e.late ≤ n.toNat) :
    exec (.wdgLate i n j) s = .next (s.wdgTrip e true n.toNat (j.map BitVec.toNat)).settle := by
  change execWdgLate i n j s = _
  simp only [execWdgLate, find_watchdog hplan honly hidx]
  simp [hrun, hlate, hkind, not_lt.mpr htook]

end

/-- A trip is seen at its watchdog, whose state stays. -/
theorem State.wdgTrip_wdgs (s : State) {e : WdgEnt} {k : Nat} (hidx : e.index = k) (took : Nat) (job : Option Nat) :
    ((s.wdgTrip e true took job).saf.wdgs.get k).lateSeen = true ∧ ((s.wdgTrip e true took job).saf.wdgs.get k).state = (s.saf.wdgs.get k).state := by
  subst hidx
  constructor <;> simp [State.wdgTrip, State.raise]

/-- The state of a watchdog's entry once it has tripped. -/
theorem State.wdgTrip_event_state (s : State) {e : WdgEnt} {k : Nat} (hidx : e.index = k) (took : Nat) :
    ((({ s with saf.wdgs := s.saf.wdgs.upd e.index fun r => { r with state := 1 } } : State).wdgTrip e true took).saf.wdgs.get k).state = 1 := by
  rw [(State.wdgTrip_wdgs _ hidx _ _).2, hidx]
  exact congrArg WdgRun.state (Tab.get_upd_self _ _ _)

/-- Settles O49: safety commands and mechanisms complete with their effect. -/
theorem safetyCompletes : Obligations.SafetyCompletes := by
  unfold Obligations.SafetyCompletes
  refine ⟨fun h s hpf => ⟨?_, fun code cls => exec_safReactQuery hpf, fun i x pl => exec_safGoldenSet hpf x, fun code job => exec_safFaultInject_dev hpf job,
    fun code job => exec_safFaultInject_job hpf, exec_safQuery hpf⟩,
    fun s => ⟨fun v => exec_safCtlRelease, fun w v => exec_safCtlRelease_ignored v, fun d hrun => if_neg (ne_true_of_eq_false hrun), rfl, ?_, ?_⟩⟩
  · intro code cls r hcls hr hmin hfix hpln
    exact ⟨_, exec_safReactSet hpf hcls hr hmin hfix hpln, State.reactionOf_set _, rfl, fun k hk => Tab.get_set_ne _ _ hk⟩
  · intro i n pl e hplan honly hidx hlate hrun hkind hstate htook
    exact ⟨_, exec_wdgLate_event hplan honly hidx hlate hrun n hkind hstate htook, State.wdgTrip_event_state s hidx _, (State.wdgTrip_wdgs _ hidx _ _).1, rfl⟩
  · intro i n j pl e hplan honly hidx hlate hrun hkind htook
    exact ⟨_, exec_wdgLate_command hplan honly hidx hlate hrun j hkind htook, (State.wdgTrip_wdgs _ hidx _ _).1, rfl⟩

end Sys2Proof.Machine
end

section
/-! The memory controllers: settles O48. -/

namespace Sys2Proof.Machine

open Sys2Proof.Claims

variable {s : State}

/-! ### Service without a running plan (R416, R417, R419) -/

/-- A whole-line read of unprotected memory, not yet opened, is the only access that waits, in the queue of its island. -/
structure LoneRead (island : Nat) (q : MemReq) (s : State) : Prop where
  queues : s.memc.queues = ⟨[(queueKey island q.part q.port, [q])]⟩
  here : queueKey island q.part q.port / 512 = island
  read : q.wr = none
  line : q.len = 64
  fresh : q.left = 0
  plain : s.protectedAt q.addr = false

/-- The line that a read brings the host. -/
def State.answered (s : State) (q : MemReq) : State :=
  { s with hif.cpl.data := padTo q.at_ s.hif.cpl.data ++ s.rd q.addr 64 ++ s.hif.cpl.data.drop (q.at_ + 64) }

section
variable {island : Nat} {q : MemReq} (hq : LoneRead island q s)
include hq

theorem LoneRead.allQueues : s.allQueues island = [q] := by
  simp [State.allQueues, hq.queues, hq.here]

/-- Nothing of the access has been opened, so that it neither holds its channel nor goes on. -/
theorem LoneRead.serveSlot (pos : Nat) (mine : Nat → Bool) : s.serveSlot pos mine [q] = s.serveQueue pos mine [q] [] := by
  have hkeep : ({ q with left := q.left - 1 } : MemReq) = q := by rw [hq.fresh, Nat.zero_sub, ← hq.fresh]
  have hcont : s.continueQueue [q] = (s, [q]) := by
    simp only [State.continueQueue, hkeep, if_neg (show q.left ≠ 1 by rw [hq.fresh]; exact Nat.zero_ne_one)]
  simp [State.serveSlot, hcont, hq.fresh]

theorem LoneRead.accessSlots : s.accessSlots q = 1 := by
  simp [State.accessSlots, hq.read, hq.plain]

/-- At its position the read takes one slot. -/
theorem LoneRead.served {pos : Nat} {mine : Nat → Bool} (hcross : q.arrival + 8 ≤ s.tick) (hpos : bankOf q.addr = pos) (hmine : mine 0 = true) :
    s.serveQueue pos mine [q] [] = (s.serve q, []) := by
  simp [State.serveQueue, hq.accessSlots, hq.fresh, hcross, hpos, hmine]

/-- Before it has crossed the read waits. -/
theorem LoneRead.waits {pos : Nat} {mine : Nat → Bool} (hcross : s.tick < q.arrival + 8) : s.serveQueue pos mine [q] [] = (s, [q]) := by
  simp [State.serveQueue, hq.fresh, not_le.mpr hcross]

/-- Served, the read leaves no queue. -/
theorem LoneRead.keepQueues_served {t : State} (ht : t.memc.queues = s.memc.queues) : t.keepQueues island [] = { t with memc.queues := {} } := by
  simp [State.keepQueues, ht, hq.queues, hq.here]

/-- Waiting, the read stays in its queue. -/
theorem LoneRead.keepQueues_waiting : s.keepQueues island [q] = s := by
  have hsame : (Tab.mk (s.memc.queues.cells.filterMap fun c =>
      if c.1 / 512 = island then
        let l := [q].filter fun q => queueKey island q.part q.port == c.1
        if l = [] then none else some (c.1, l)
      else some c)) = s.memc.queues := by
    rw [hq.queues]
    simp [hq.here]
  rw [State.keepQueues, hsame]

/-- A read for PF0 goes back to the host. -/
theorem LoneRead.serve (hfn : q.fn = some 0) (herrs : s.errs.cells = []) : s.serve q = s.answered q := by
  have hlen : (s.rd q.addr 64).length = 64 := Memory.read_length _ _ _
  simp [State.serve, State.answered, hq.read, State.errIn_clean s herrs, State.noteRead_clean s herrs, hfn, hq.line, hlen]

end

/-- A data slot while the plan is loaded serves the island's queues together. -/
theorem exec_memDataSlot_loaded {island : Fin 4} {j : Nat} (hmem : s.memc.state = 2) (hplan : s.plannable j = true) (hpln : s.pln.state = .loaded) :
    exec (.memDataSlot island j) s =
      .next ((s.serveSlot (j % 16) (fun n => s.plannable (j + n)) (s.allQueues island.val)).1.keepQueues island.val
        (s.serveSlot (j % 16) (fun n => s.plannable (j + n)) (s.allQueues island.val)).2).settle := by
  have hno : ¬ (s.memc.state ≠ 2 || !s.plannable j) = true := by simp [hmem, hplan]
  change execMemDataSlot island j s = _
  rw [execMemDataSlot]
  refine (if_neg hno).trans ?_
  rw [hpln]

section
variable {island : Fin 4} {j : Nat} {q : MemReq} (hq : LoneRead island.val q s) (hmem : s.memc.state = 2) (hplan : s.plannable j = true) (hpln : s.pln.state = .loaded)
  (hraised : s.saf.raised = [])
include hq hmem hplan hpln hraised

theorem exec_memDataSlot_served (hpos : bankOf q.addr = j % 16) (hfn : q.fn = some 0) (herrs : s.errs.cells = []) (hcross : q.arrival + 8 ≤ s.tick) :
    exec (.memDataSlot island j) s = .next { s with
      memc.queues := {}, hif.cpl.data := padTo q.at_ s.hif.cpl.data ++ s.rd q.addr 64 ++ s.hif.cpl.data.drop (q.at_ + 64) } := by
  rw [exec_memDataSlot_loaded hmem hplan hpln, hq.allQueues, hq.serveSlot, hq.served hcross hpos hplan, hq.serve hfn herrs]
  exact (congrArg (fun u : State => (.next u.settle : Out)) (hq.keepQueues_served (t := s.answered q) rfl)).trans (congrArg _ (State.settle_quiet _ hraised))

theorem exec_memDataSlot_waits (hcross : s.tick < q.arrival + 8) : exec (.memDataSlot island j) s = .next s := by
  rw [exec_memDataSlot_loaded hmem hplan hpln, hq.allQueues, hq.serveSlot, hq.waits hcross]
  dsimp only
  rw [hq.keepQueues_waiting, State.settle_quiet _ hraised]

end

/-! ### Refresh and scrubbing (R413, R420, R424) -/

theorem exec_memRefresh (c : Fin 32) (temp : Byte) {high : Bool} (n : Word) (hmem : s.memc.state = 2) (hhigh : high = false ∨ (s.memc.train.get c.val).high = true)
    (hraised : s.saf.raised = []) :
    exec (.memRefresh c temp high n false) s = .next { s with
      memc.train := s.memc.train.upd c.val fun t => { t with hottest := if t.hottest.toNat < temp.toNat then temp else t.hottest, high := high },
      memc.wrCe := s.memc.wrCe.upd c.val fun x => BitVec.ofNat 32 (min 0xFFFFFFFF (x.toNat + n.toNat)) } := by
  have hno : ¬ (high && !(s.memc.train.get c.val).high) = true := by
    rcases hhigh with h | h <;> simp [h]
  change execMemRefresh c temp high n false s = _
  rw [execMemRefresh, if_neg (not_not.mpr hmem)]
  dsimp only
  rw [if_neg hno, if_neg Bool.false_ne_true]
  exact congrArg _ (State.settle_quiet _ hraised)

/-- The passes counted once the bank of `key` has stepped. -/
def State.passesAfter (s : State) (key : Nat) : Word :=
  if (s.memc.scrub.get key + 1) % s.scrubLines == 0 && (List.range 512).all fun i => i == key || decide (s.memc.scrub.get key + 1 ≤ s.memc.scrub.get i)
  then satInc s.memc.passes else s.memc.passes

/-- Where memory has no error mark the scrubber only goes on to the bank's next line. -/
theorem exec_memScrub {c : Fin 32} {b : Fin 16} (hmem : s.memc.state = 2) (hlines : s.scrubLines ≠ 0) (herrs : s.errs.cells = []) (hraised : s.saf.raised = []) :
    exec (.memScrub c b) s = .next { s with
      memc.scrub := s.memc.scrub.set (16 * c.val + b.val) (s.memc.scrub.get (16 * c.val + b.val) + 1), memc.passes := s.passesAfter (16 * c.val + b.val) } := by
  have hno : ¬ (s.memc.state ≠ 2 || s.scrubLines = 0) = true := by simp [hmem, hlines]
  change execMemScrub c b s = _
  rw [execMemScrub]
  refine (if_neg hno).trans ?_
  dsimp only
  simp only [State.errIn_clean s herrs]
  rw [if_neg (by decide), if_neg (by decide)]
  exact congrArg _ (State.settle_quiet _ hraised)

/-! ### Initialisation (R426, R427) -/

/-- The training of the first `m` channels at step `n`. -/
def Tab.trained (t : Tab Train) (m n : Nat) (bad : Nat → Bool) : Tab Train :=
  (List.range m).foldl (fun (t : Tab Train) c => t.upd c fun q => { q with step := BitVec.ofNat 3 n, failed := bad c }) t

theorem Tab.trained_get (t : Tab Train) (m n : Nat) (bad : Nat → Bool) {c : Nat} (hc : c < m) :
    ((t.trained m n bad).get c).step = BitVec.ofNat 3 n ∧ ((t.trained m n bad).get c).failed = bad c := by
  induction m with
  | zero => exact absurd hc (Nat.not_lt_zero c)
  | succ m ih =>
    rw [Tab.trained, List.range_succ, List.foldl_append, List.foldl_cons, List.foldl_nil, ← Tab.trained]
    by_cases hm : c = m
    · subst hm
      rw [Tab.get_upd_self]
      exact ⟨rfl, rfl⟩
    · rw [Tab.get_upd_ne _ _ hm]
      exact ih (by omega)

/-- The devices fit the settings in force. -/
structure Fits (dev : MemDev) (s : State) : Prop where
  boot : s.sec.boot = .memInit
  notReady : s.memc.state ≠ 2
  notFailed : s.memc.state ≠ 3
  cold : s.pwr.warm = false
  lp5x : dev.lp5x = s.sec.settings.lp5x
  density : dev.density = s.sec.settings.density
  rate : s.sec.settings.memRate = true → dev.lp5x = true

/-- The settings in force taken over by the controllers. -/
def State.memSet (s : State) : State :=
  { s with memc.rate := s.sec.settings.memRate, memc.density := s.sec.settings.density, memc.ranks := s.sec.settings.twoRanks, memc.lp5x := s.sec.settings.lp5x }

section
variable {dev : MemDev} (hfits : Fits dev s)
include hfits

theorem Fits.notWrong : (dev.lp5x != s.sec.settings.lp5x || dev.density != s.sec.settings.density || (s.sec.settings.memRate && !dev.lp5x)) = false := by
  obtain ⟨-, -, -, -, hlp, hdens, hrate⟩ := hfits
  have hok : (s.sec.settings.memRate && !dev.lp5x) = false := by
    cases h : s.sec.settings.memRate
    · rfl
    · rw [hrate h]; rfl
  rw [hok, hlp, hdens]
  simp

theorem exec_memInitSequence_ok : exec (.memInitSequence dev none) s = .next { s.memSet with
    memc.train := s.memc.train.trained 32 6 fun _ => false, memc.state := 2, memc.size := memSize s.sec.settings.density s.sec.settings.twoRanks, pwr.memOnce := true } := by
  have hgo : ¬ (s.sec.boot ≠ .memInit ∨ s.memc.state = 2 ∨ s.memc.state = 3) :=
    not_or.mpr ⟨not_not.mpr hfits.boot, not_or.mpr ⟨hfits.notReady, hfits.notFailed⟩⟩
  change execMemInitSequence dev none s = _
  rw [execMemInitSequence, if_neg hgo]
  refine (if_neg (by simp [hfits.cold])).trans ((if_neg ?_).trans rfl)
  rw [hfits.notWrong]
  exact Bool.false_ne_true

theorem exec_memInitSequence_fail (c : Fin 32) (st : Fin 7) : exec (.memInitSequence dev (some (c, st))) s = .next (({ s.memSet with
    memc.train := s.memc.train.trained 32 st.val fun k => k == c.val, memc.state := 3, memc.size := 0 } : State).raiseDev 0x1004).settle := by
  have hgo : ¬ (s.sec.boot ≠ .memInit ∨ s.memc.state = 2 ∨ s.memc.state = 3) :=
    not_or.mpr ⟨not_not.mpr hfits.boot, not_or.mpr ⟨hfits.notReady, hfits.notFailed⟩⟩
  change execMemInitSequence dev (some (c, st)) s = _
  rw [execMemInitSequence, if_neg hgo]
  refine (if_neg (by simp [hfits.cold])).trans ((if_neg ?_).trans rfl)
  rw [hfits.notWrong]
  exact Bool.false_ne_true

end

/-- Settles O48: the memory controllers serve, refresh, scrub and initialise. -/
theorem memoryCompletes : Obligations.MemoryCompletes := by
  unfold Obligations.MemoryCompletes
  refine ⟨?_, fun q rest s => ⟨fun h => if_pos h, fun h => if_neg (by omega)⟩, fun c temp high n s hmem => exec_memRefresh c temp n hmem, ?_, ?_⟩
  · intro island j q s hmem hplan hpln hqueue hhere hpos hread hfn hlen hline hfresh hprot herrs hraised
    have hq : LoneRead island.val q s := ⟨hqueue, hhere, hread, hlen, hfresh, hprot⟩
    exact ⟨exec_memDataSlot_served hq hmem hplan hpln hraised hpos hfn herrs, exec_memDataSlot_waits hq hmem hplan hpln hraised⟩
  · intro c b s hmem hlines herrs hraised
    exact ⟨_, exec_memScrub hmem hlines herrs hraised, Tab.get_set_self _ _ _, fun k hk => Tab.get_set_ne _ _ hk, rfl, rfl, rfl⟩
  · intro dev s hboot hready hfailed hcold hlp hdens hrate
    have hfits : Fits dev s := ⟨hboot, hready, hfailed, hcold, hlp, hdens, hrate⟩
    exact ⟨⟨_, exec_memInitSequence_ok hfits, rfl, rfl, rfl, fun c hc => s.memc.train.trained_get 32 6 (fun _ => false) hc, rfl, rfl⟩,
      fun c st => ⟨_, exec_memInitSequence_fail hfits c st, rfl, rfl, (s.memc.train.trained_get 32 st.val (fun k => k == c.val) c.isLt).2.trans (beq_self_eq_true _), rfl⟩⟩

end Sys2Proof.Machine
end

section
/-! Trace at work and the reads that latch: settles O58. -/

namespace Sys2Proof.Machine

open Sys2Proof.Claims

variable {s : State}

/-! ### The buffer of mode 2 (R497, R498, R499) -/

theorem State.traceDrain_ring (hmode : s.trc.mode ≠ 1) (n : Nat) : s.traceDrain n = s := by
  cases n with
  | zero => rfl
  | succ n => exact if_neg fun h => hmode h.1

theorem State.traceBufGap_ring (hmode : s.trc.mode ≠ 1) : s.traceBufGap = s := if_neg fun h => hmode h.1

theorem State.traceOff_running (hstop : s.trc.stopping = none) : s.traceOff = s := by
  unfold State.traceOff
  rw [hstop]

/-- In mode 2 nothing leaves the history. -/
theorem State.traceSettled (hmode : s.trc.mode = 2) (hstop : s.trc.stopping = none) : ((s.traceDrain 65536).traceBufGap.traceDrain 1).traceOff = s := by
  have hne : s.trc.mode ≠ 1 := by rw [hmode]; decide
  rw [State.traceDrain_ring hne, State.traceBufGap_ring hne, State.traceDrain_ring hne, State.traceOff_running hstop]

/-- Before a trigger a record only joins a history that has room. -/
theorem State.traceKeep_armed (r : TraceRec) (hmode : s.trc.mode = 2) (hstate : s.trc.state = .armed) (hroom : s.trc.hist.length < 65535) :
    s.traceKeep r = { s with trc.hist := s.trc.hist ++ [r] } := by
  have hfull : decide (histMax ≤ s.trc.hist.length) = false := decide_eq_false (not_le.mpr hroom)
  simp [State.traceKeep, hfull, hmode, hstate]

theorem Trc.nextSource_one {t : Trc} {k : Nat} {q : TraceSrc} {r : TraceRec} (hsrc : t.srcs = ⟨[(k, q)]⟩) (hfifo : q.fifo = [r]) : t.nextSource = some k := by
  simp [Trc.nextSource, hsrc, hfifo]

theorem Trc.nextSource_empty {t : Trc} (h : ∀ c ∈ t.srcs.cells, c.2.fifo = []) : t.nextSource = none := by
  have hheads : t.srcs.cells.filterMap (fun c => c.2.fifo.head?.map fun r => (c.1, r.stamp)) = [] := by
    rw [List.filterMap_eq_nil_iff]
    intro c hc
    rw [h c hc]
    rfl
  simp only [Trc.nextSource, hheads]

/-- A table's only entry, written again, is the entry or nothing. -/
theorem Tab.mem_put_only {α : Type} [Inhabited α] [DecidableEq α] {k : Nat} {u v : α} {c : Nat × α} (hc : c ∈ Tab.put k v [(k, u)]) : c = (k, v) := by
  by_cases hv : v = default
  · simp [Tab.put, hv] at hc
  · simpa [Tab.put, hv] using hc

/-- The source `k` without its only record, which stands in the history. -/
def State.moved (s : State) (k : Nat) (r : TraceRec) : State :=
  { s with trc.srcs := s.trc.srcs.upd k fun q => { q with fifo := [] }, trc.hist := s.trc.hist ++ [r] }

section
variable {k : Nat} {q : TraceSrc} {r : TraceRec} (hsrc : s.trc.srcs = ⟨[(k, q)]⟩) (hfifo : q.fifo = [r])
include hsrc hfifo

theorem State.traceMove_one (hmode : s.trc.mode = 2) (hstate : s.trc.state = .armed) (hroom : s.trc.hist.length < 65535) : s.traceMove = s.moved k r := by
  have hget : (s.trc.srcs.get k).fifo = [r] := by simp [hsrc, Tab.get, Tab.look, hfifo]
  unfold State.traceMove
  rw [Trc.nextSource_one hsrc hfifo]
  dsimp only
  rw [hget]
  exact State.traceKeep_armed r hmode hstate hroom

omit hfifo in
theorem State.traceMove_moved : (s.moved k r).traceMove = s.moved k r := by
  have hempty : (s.moved k r).trc.nextSource = none := by
    refine Trc.nextSource_empty fun c hc => ?_
    have hc' : c ∈ Tab.put k { s.trc.srcs.get k with fifo := [] } s.trc.srcs.cells := hc
    rw [hsrc] at hc'
    rw [Tab.mem_put_only hc']
  unfold State.traceMove
  rw [hempty]

theorem exec_traceMerge_one (hmode : s.trc.mode = 2) (hstate : s.trc.state = .armed) (hstop : s.trc.stopping = none) (hroom : s.trc.hist.length < 65535) :
    exec .traceMerge s = .next (s.moved k r) := by
  have htaking : s.trc.taking = true := by simp [Trc.taking, hstate]
  have htaking' : (s.moved k r).trc.taking = true := htaking
  change execTraceMerge s = _
  simp only [execTraceMerge, if_pos htaking, State.traceMove_one hsrc hfifo hmode hstate hroom, if_pos htaking', State.traceMove_moved hsrc]
  exact congrArg _ (State.traceSettled hmode hstop)

end

/-- Every source flushes what it owes. -/
theorem look_flush (k : Nat) (l : List (Nat × TraceSrc)) : Tab.look k (l.map fun (c : Nat × TraceSrc) => (c.1, c.2.flush c.1)) = (Tab.look k l).flush k := by
  induction l with
  | nil => rfl
  | cons c l ih =>
    by_cases hc : c.1 = k
    · simp [Tab.look, hc]
    · simp [Tab.look, hc, ih]

theorem State.traceBufGap_srcs (s : State) : s.traceBufGap.trc.srcs = s.trc.srcs := by
  unfold State.traceBufGap
  dsimp only
  split <;> rfl

/-! ### Latching reads and the read index (R499, R508, R510, R511) -/

theorem State.dbgReach_pf0 (hopen : s.sec.debugIsOpen = true) : s.dbgReach 0 = true := by
  rw [State.dbgReach, hopen]
  rfl

theorem State.dbgReach_closed {fn : Fin 16} (h : fn ≠ 0 ∨ s.sec.debugIsOpen = false) : (!s.dbgReach fn) = true := by
  rcases h with hfn | hclosed
  · simp [State.dbgReach, hfn]
  · simp [State.dbgReach, hclosed]

section
variable (hopen : s.sec.debugIsOpen = true)
include hopen

theorem exec_dbgTraceRptrWrite {w : Word} (hmode : s.trc.mode = 2) (hstop : s.trc.stopping = none) (hlo : 0 ≤ wdiff 32 w.toNat s.trc.r.toNat)
    (hhi : 0 ≤ wdiff 32 s.trc.w.toNat w.toNat) : exec (.dbgTraceRptrWrite 0 w) s = .next { s with trc.r := w } := by
  change execDbgTraceRptrWrite 0 w s = _
  rw [execDbgTraceRptrWrite, State.dbgReach_pf0 hopen]
  refine (if_neg Bool.false_ne_true).trans ((if_pos ⟨hlo, hhi⟩).trans ?_)
  exact congrArg _ (State.traceSettled hmode hstop)

theorem exec_dbgTraceRptrWrite_bad {w : Word} (h : wdiff 32 w.toNat s.trc.r.toNat < 0 ∨ wdiff 32 s.trc.w.toNat w.toNat < 0) :
    exec (.dbgTraceRptrWrite 0 w) s = .next { s with trc.rptrBad := true } := by
  change execDbgTraceRptrWrite 0 w s = _
  rw [execDbgTraceRptrWrite, State.dbgReach_pf0 hopen]
  exact (if_neg Bool.false_ne_true).trans (if_neg (by omega))

theorem exec_cntLoRead (n : Fin 64) (b : Fin 3) (k : Fin 32) : exec (.cntLoRead 0 n b k) s =
    .next ((s.updRod n.val fun r => { r with cnt.hiLatch := BitVec.ofNat 32 ((((s.rod n.val).cnt.bank b.val).get k.val).toNat / 2 ^ 32), cnt.boundary := r.cnt.atBoundary }).answerRead
      ((((s.rod n.val).cnt.bank b.val).get k.val).toNat % 2 ^ 32)) := by
  change execCntLoRead 0 n b k s = _
  rw [execCntLoRead, State.dbgReach_pf0 hopen]
  exact if_neg Bool.false_ne_true

theorem exec_dbgStampLoRead : exec (.dbgStampLoRead 0) s = .next { s with
    trc.stampHi := BitVec.ofNat 16 (s.trc.stamp.toNat / 2 ^ 32), hif.cpl := { data := leBytes 4 (s.trc.stamp.toNat % 2 ^ 32) } } := by
  change execDbgStampLoRead 0 s = _
  rw [execDbgStampLoRead, State.dbgReach_pf0 hopen]
  exact if_neg Bool.false_ne_true

end

/-- Settles O58: trace at work, and the reads that latch. -/
theorem traceEventsComplete : Obligations.TraceEventsComplete := by
  unfold Obligations.TraceEventsComplete
  intro s
  refine ⟨?_, ⟨_, rfl, ?_⟩, rfl, fun w hopen => exec_dbgTraceRptrWrite hopen, fun w hopen => exec_dbgTraceRptrWrite_bad hopen, ?_, exec_dbgStampLoRead, ?_⟩
  · intro k q r hsrc hfifo hmode hstate hstop hroom
    exact ⟨_, exec_traceMerge_one hsrc hfifo hmode hstate hstop hroom, rfl, congrArg TraceSrc.fifo (Tab.get_upd_self s.trc.srcs k _), rfl⟩
  · intro k
    rw [State.traceBufGap_srcs]
    exact look_flush k _
  · intro n b k hopen
    exact ⟨_, exec_cntLoRead hopen n b k, rfl, fun _ => congrArg (fun r : Rod => r.cnt.hiLatch) (State.updRod_rod_self s n.val _)⟩
  · intro fn h
    have hclosed := State.dbgReach_closed h
    exact ⟨fun n b k => if_pos hclosed, if_pos hclosed, fun w => if_pos hclosed⟩

end Sys2Proof.Machine
end

section
/-! Journal and replay: settles O33. -/

namespace Sys2Proof.Machine

open Sys2Proof.Claims

variable {s : State}

/-! ### Commands (R242, R246, R251) -/

theorem State.journalEnd_open (h : s.jrn.j.closing = false) : s.journalEnd = s := if_neg (ne_true_of_eq_false h)

section
variable {h : Hdr} (hpf : pf0 s h)
include hpf

section
variable {ring : BitVec 16} {base bytes : BitVec 64} (hring : s.isJournalRing ring.toNat = true) (harea : areaOk base.toNat bytes.toNat = true)
  (hpln : s.pln.state = .loaded)
include hring harea hpln

theorem exec_journalOpen (harmed : s.jrn.r.armed = false) (hclosing : s.jrn.j.closing = false) : exec (.journalOpen h ring base bytes) s =
    .next (({ s with jrn.j := { isOpen := true, ring := s.devRing 0 ring.toNat, base := base.toNat, bytes := bytes.toNat } } : State).reply h {}) := by
  change firmware h s (doJournalOpen h ring base bytes s) = _
  rw [doJournalOpen, State.journalEnd_open hclosing]
  exact firmware_checked hpf.1 h (by simp [hpf.2, hring, harea, hpln, harmed]) _ rfl

theorem exec_replayOpen (hopen : s.jrn.j.isOpen = false ∨ s.jrn.j.closing = true) : exec (.replayOpen h ring base bytes) s =
    .next (({ s with jrn.r := { armed := true, ring := s.devRing 0 ring.toNat, base := base.toNat, bytes := bytes.toNat } } : State).reply h {}) := by
  have hfree : (s.jrn.j.isOpen && !s.jrn.j.closing) = false := by
    rcases hopen with ho | hc
    · rw [ho]; rfl
    · rw [hc]; exact Bool.and_false _
  exact firmware_checked hpf.1 h (by simp [hpf.2, hring, harea, hpln, hfree]) _ rfl

end

theorem exec_journalClose (hopen : s.jrn.j.isOpen = true) (hclosing : s.jrn.j.closing = false) :
    exec (.journalClose h) s = .next (({ s with jrn.j.closing := true } : State).reply h {}) :=
  firmware_checked hpf.1 h (by simp [hpf.2, hopen, hclosing]) _ rfl

theorem exec_replayClose (harmed : s.jrn.r.armed = true) (hpln : s.pln.state ≠ .running) :
    exec (.replayClose h) s = .next (({ s with jrn.r := {} } : State).reply h {}) :=
  firmware_checked hpf.1 h (by simp [hpf.2, harmed, hpln]) _ rfl

theorem exec_crossingQuery_none {kind inst : Byte} (hinst : crossInstances kind.toNat ≤ inst.toNat) :
    exec (.crossingQuery h kind inst) s = .next (s.reply h { status := 0x0046 }) := by
  have hfn : (h.fn != 0) = false := by simp [hpf.2]
  change firmware h s (doCrossingQuery h kind inst s) = _
  rw [doCrossingQuery, hfn, checks_cons_false]
  exact firmware_refused hpf.1 h (decide_eq_true hinst) _ _ _

/-- The smallest margin seen, with one more seen. -/
def CrossMon.least (c : CrossMon) (x : Word) : Nat := if c.seen then min c.margin x.toNat else x.toNat

theorem exec_crossingQuery {kind inst : Byte} (hinst : inst.toNat < crossInstances kind.toNat) : exec (.crossingQuery h kind inst) s =
    .next (({ s with
      free := s.free + 1,
      jrn.cross := s.jrn.cross.set (kind.toNat * 256 + inst.toNat) { s.jrn.cross.get (kind.toNat * 256 + inst.toNat) with
        seen := true, margin := (s.jrn.cross.get (kind.toNat * 256 + inst.toNat)).least (s.draw 32).1 } } : State).reply h
      { r0 := (s.jrn.cross.get (kind.toNat * 256 + inst.toNat)).least (s.draw 32).1, r1 := (s.jrn.cross.get (kind.toNat * 256 + inst.toNat)).late.toNat }) :=
  firmware_checked hpf.1 h (by simp [hpf.2, not_le.mpr hinst]) _ rfl

end

theorem CrossMon.least_le {c : CrossMon} (hseen : c.seen = true) (x : Word) : c.least x ≤ c.margin := by
  rw [CrossMon.least, if_pos hseen]
  exact min_le_left _ _

/-! ### The GAP record (R245) -/

/-- The GAP record stands in the ring, and no loss is left to cover. -/
def State.gapWritten (s : State) : State :=
  { s.journalPost 0x08 0 0 (s.jrn.j.lost + s.jrn.j.lostFirst * 2 ^ 32 + s.jrn.j.lostLast * 2 ^ 96) [] false with
    jrn.j.lost := 0, jrn.j.lostFirst := 0, jrn.j.lostLast := 0, jrn.j.lostBytes := 0 }

theorem exec_journalGapRecord (hopen : s.jrn.j.isOpen = true) (hlost : s.jrn.j.lost ≠ 0) (hroom : s.journalRoom (min s.jrn.j.lostBytes s.jrn.j.bytes) = true) :
    exec .journalGapRecord s = .next (s.gapWritten.event 0 0x05 0 0x0047 s.jrn.j.jseq.toNat) := by
  have hdue : (s.jrn.j.isOpen && s.jrn.j.lost != 0 && s.journalRoom (min s.jrn.j.lostBytes s.jrn.j.bytes)) = true := by
    simp [hopen, hlost, hroom]
  exact congrArg Host.Outcome.next (if_pos hdue)

theorem State.event_jrn (s : State) (f : Fin 16) (kind part code payload : Nat) : (s.event f kind part code payload).jrn = s.jrn := by
  obtain ⟨-, -, -, -, -, -, -, -, -, -, -, -, -, -, -, -, hjrn⟩ := (State.event_posts s f kind part code payload).frame
  exact hjrn

/-! ### Replay (R246, R247, R249) -/

section
variable {t : State} {a : Ahead} {rest : List Ahead} (hrun : s.jrn.r.running = true)
include hrun

theorem exec_replayAdmit_bad (hread : s.readAhead = (true, t)) : exec .replayAdmit s = .next (t.replayStop 0x0044).settle := by
  change execReplayAdmit s = _
  simp only [execReplayAdmit, hrun, hread]
  rfl

variable (hread : s.readAhead = (false, t)) (hahead : t.jrn.r.ahead = a :: rest)
include hread hahead

/-- The earliest record read ahead waits, stops the replay, or is applied. -/
theorem exec_replayAdmit : exec .replayAdmit s =
    if t.tickOf a.rec_ < 0 then .next t
    else if fld a.rec_ 0 8 = 8 then .next (t.replayStop 0x0045).settle
    else if fld a.rec_ 0 8 = 9 then .next (t.replayStop 0).settle
    else if 0 < t.tickOf a.rec_ then .next (t.replayStop 0x0043).settle
    else .next (({ t with jrn.r.ahead := rest } : State).replayApply a).settle := by
  change execReplayAdmit s = _
  simp only [execReplayAdmit, hrun, hread, hahead]
  rfl

theorem exec_replayAdmit_to_come (hpast : t.tickOf a.rec_ < 0) : exec .replayAdmit s = .next t := by
  rw [exec_replayAdmit hrun hread hahead, if_pos hpast]

theorem exec_replayAdmit_end (hnow : 0 ≤ t.tickOf a.rec_) (hkind : fld a.rec_ 0 8 = 9) : exec .replayAdmit s = .next (t.replayStop 0).settle := by
  rw [exec_replayAdmit hrun hread hahead, if_neg (not_lt.mpr hnow), if_neg (by omega), if_pos hkind]

theorem exec_replayAdmit_gap (hnow : 0 ≤ t.tickOf a.rec_) (hkind : fld a.rec_ 0 8 = 8) : exec .replayAdmit s = .next (t.replayStop 0x0045).settle := by
  rw [exec_replayAdmit hrun hread hahead, if_neg (not_lt.mpr hnow), if_pos hkind]

theorem exec_replayAdmit_late (h8 : fld a.rec_ 0 8 ≠ 8) (h9 : fld a.rec_ 0 8 ≠ 9) (hlate : 0 < t.tickOf a.rec_) :
    exec .replayAdmit s = .next (t.replayStop 0x0043).settle := by
  rw [exec_replayAdmit hrun hread hahead, if_neg (by omega), if_neg h8, if_neg h9, if_pos hlate]

theorem exec_replayAdmit_now (h8 : fld a.rec_ 0 8 ≠ 8) (h9 : fld a.rec_ 0 8 ≠ 9) (hnow : t.tickOf a.rec_ = 0) :
    exec .replayAdmit s = .next (({ t with jrn.r.ahead := rest } : State).replayApply a).settle := by
  rw [exec_replayAdmit hrun hread hahead, if_neg (by omega), if_neg h8, if_neg h9, if_neg (by omega)]

end

/-- A record without a payload that passes its checks is read ahead. -/
theorem State.readAhead_plain {x : Nat} (hroom : s.jrn.r.ahead.length < 64) (hhead : s.replayHead = some x) (h2 : fld x 0 8 ≠ 2) (h7 : fld x 0 8 ≠ 7)
    (hres : recordReserved x = false) (hkind : within 2 9 (fld x 0 8) = true) (hseq : fld x 32 32 = s.jrn.r.jseq.toNat) (hcrc : fld x 160 32 = 0) :
    s.readAhead = (false, { s.replayTake with jrn.r.ahead := s.jrn.r.ahead ++ [{ rec_ := x, data := [], slot := none }] }) := by
  have hdata : (fld x 0 8 == 2 || (fld x 0 8 == 7 && fld x 352 8 != 1)) = false := by simp [h2, h7]
  have hok : s.aheadBad x false [] = false := by simp [State.aheadBad, hres, hkind, hseq, hcrc, h7]
  unfold State.readAhead
  rw [if_pos hroom, hhead]
  simp only [hdata, if_neg Bool.false_ne_true, hok, if_neg h2]

theorem State.replayApply_job {a : Ahead} (hkind : fld a.rec_ 0 8 = 5) :
    s.replayApply a = s.updJob (fld a.rec_ 256 16) fun q => { q with requested := true, requestedAt := s.tick } := by
  unfold State.replayApply
  simp only [hkind]

theorem State.replayApply_tally {a : Ahead} (hkind : fld a.rec_ 0 8 = 4) : (s.replayApply a).tly.ops =
    s.tly.ops ++ [{ tally := fld a.rec_ 256 14, isSet := fld a.rec_ 270 2 == 1, value := BitVec.ofNat 32 (fld a.rec_ 288 32), due := s.tick + 1 }] := by
  unfold State.replayApply
  simp only [hkind]

theorem State.replayApply_marker {a : Ahead} (hkind : fld a.rec_ 0 8 = 3) : ((s.replayApply a).point (fld a.rec_ 8 8)).arrivals =
    (s.point (fld a.rec_ 8 8)).arrivals ++ [{ slot := none, seq := fld a.rec_ 128 32, reason := fld a.rec_ 256 16, at_ := s.tick }] := by
  have happly : s.replayApply a = s.updPoint (fld a.rec_ 8 8) fun q =>
      { q with absent := satInc q.absent, arrivals := q.arrivals ++ [{ slot := none, seq := fld a.rec_ 128 32, reason := fld a.rec_ 256 16, at_ := s.tick }] } := by
    unfold State.replayApply
    simp only [hkind]
  rw [happly]
  exact congrArg Point.arrivals (Tab.get_upd_self _ _ _)

/-- Settles O33: journal and replay commands, gap records and replayed records. -/
theorem journalCompletes : Obligations.JournalCompletes := by
  unfold Obligations.JournalCompletes
  refine ⟨⟨fun h ring base bytes s hpf hring harea hpln => ⟨exec_journalOpen hpf hring harea hpln, exec_replayOpen hpf hring harea hpln⟩,
      fun h s hpf => exec_journalClose hpf, fun s hclosing => if_pos hclosing, fun h s hpf => exec_replayClose hpf, ?_⟩,
    fun kind inst j s => rfl, ?_, ?_, fun s t hrun hread => exec_replayAdmit_bad hrun hread,
    fun x s hroom hhead h2 h7 hres hkind hseq hcrc => State.readAhead_plain hroom hhead h2 h7 hres hkind hseq hcrc,
    fun a s => ⟨State.replayApply_job, State.replayApply_tally, State.replayApply_marker⟩⟩
  · intro h kind inst s hpf
    exact ⟨exec_crossingQuery_none hpf, fun hinst => ⟨_, fun hseen => CrossMon.least_le hseen _, exec_crossingQuery hpf hinst⟩⟩
  · intro s hopen hlost hroom
    refine ⟨_, exec_journalGapRecord hopen hlost hroom, ?_, ?_⟩ <;> rw [State.event_jrn]
    · rfl
    · rfl
  · intro s t a rest hrun hread hahead
    exact ⟨exec_replayAdmit_to_come hrun hread hahead, exec_replayAdmit_end hrun hread hahead, exec_replayAdmit_gap hrun hread hahead,
      exec_replayAdmit_late hrun hread hahead, exec_replayAdmit_now hrun hread hahead⟩

end Sys2Proof.Machine
end

section
/-! Rods in pairs: settles O28. -/

namespace Sys2Proof.Machine

open Sys2Proof.Claims

/-! ### Tables of two parts -/

section
variable {α : Type} [Inhabited α]

theorem Tab.look_absent {k : Nat} {l : List (Nat × α)} (h : ∀ c ∈ l, c.1 ≠ k) : Tab.look k l = default := by
  induction l with
  | nil => rfl
  | cons c l ih =>
    obtain ⟨hc, hl⟩ := List.forall_mem_cons.mp h
    exact (if_neg hc).trans (ih hl)

theorem Tab.look_append_right {k : Nat} {l l' : List (Nat × α)} (h : ∀ c ∈ l, c.1 ≠ k) : Tab.look k (l ++ l') = Tab.look k l' := by
  induction l with
  | nil => rfl
  | cons c l ih =>
    obtain ⟨hc, hl⟩ := List.forall_mem_cons.mp h
    exact (if_neg hc).trans (ih hl)

theorem Tab.look_append_left {k : Nat} {l l' : List (Nat × α)} (h : ∀ c ∈ l', c.1 ≠ k) : Tab.look k (l ++ l') = Tab.look k l := by
  induction l with
  | nil => exact Tab.look_absent h
  | cons c l ih =>
    by_cases hc : c.1 = k
    · exact (if_pos hc).trans (if_pos hc).symm
    · exact ((if_neg hc).trans ih).trans (if_neg hc).symm

/-- Entries moved up by `d` are found `d` higher. -/
theorem Tab.look_shift (d k : Nat) (l : List (Nat × α)) : Tab.look (k + d) (l.map fun c => (c.1 + d, c.2)) = Tab.look k l := by
  induction l with
  | nil => rfl
  | cons c l ih =>
    by_cases hc : c.1 = k
    · exact (if_pos (by rw [hc])).trans (if_pos hc).symm
    · exact ((if_neg (by omega)).trans ih).trans (if_neg hc).symm

end

variable {s : State}

/-! ### Scratchpads (R86, R87) -/

theorem spadAddr_follower (k o : Nat) : spadAddr (2 * k + 1) o = spadAddr (2 * k) o + spadSize := by
  unfold spadAddr
  ring

theorem spadAddr_offset (n o : Nat) : spadAddr n o = spadAddr n 0 + o := by
  unfold spadAddr
  ring

/-- A scratchpad made zero reads as zero, and nothing else changes. -/
theorem State.zeroSpad_get (s : State) (n a : Nat) :
    (s.zeroSpad n).mem.get a = if spadAddr n 0 ≤ a ∧ a < spadAddr n 0 + spadSize then 0 else s.mem.get a := by
  have hget := Tab.get_filter s.mem.cells (fun a => !(decide (spadAddr n 0 ≤ a) && decide (a < spadAddr n 0 + spadSize))) a
  refine hget.trans ?_
  by_cases h : spadAddr n 0 ≤ a ∧ a < spadAddr n 0 + spadSize
  · simp [h]; rfl
  · rw [if_neg h]
    refine if_pos ?_
    rw [Bool.not_eq_true', Bool.and_eq_false_iff, decide_eq_false_iff_not, decide_eq_false_iff_not]
    omega

section
variable (s) (k : Nat)

theorem State.copySpad_cells : (s.copySpad k).mem.cells =
    (s.zeroSpad (2 * k + 1)).mem.cells.filter (fun x => decide (x.1 < spadAddr (2 * k) 0 + spadSize)) ++
      (((s.zeroSpad (2 * k + 1)).mem.cells.filter fun x => decide (spadAddr (2 * k) 0 ≤ x.1) && decide (x.1 < spadAddr (2 * k) 0 + spadSize)).map
        fun x => (x.1 + spadSize, x.2)) ++
      (s.zeroSpad (2 * k + 1)).mem.cells.filter fun x => decide (spadAddr (2 * k) 0 + spadSize + spadSize ≤ x.1) := rfl

/-- Below the follower's scratchpad a copy changes nothing. -/
theorem State.copySpad_get_below {a : Nat} (ha : a < spadAddr (2 * k) 0 + spadSize) : (s.copySpad k).mem.get a = (s.zeroSpad (2 * k + 1)).mem.get a := by
  have h2 : ∀ c ∈ (((s.zeroSpad (2 * k + 1)).mem.cells.filter fun x => decide (spadAddr (2 * k) 0 ≤ x.1) && decide (x.1 < spadAddr (2 * k) 0 + spadSize)).map
      fun x => (x.1 + spadSize, x.2)), c.1 ≠ a := by
    intro c hc
    obtain ⟨x, hx, rfl⟩ := List.mem_map.mp hc
    have := (List.mem_filter.mp hx).2
    simp only [Bool.and_eq_true, decide_eq_true_eq] at this
    dsimp only
    omega
  have h3 : ∀ c ∈ (s.zeroSpad (2 * k + 1)).mem.cells.filter fun x => decide (spadAddr (2 * k) 0 + spadSize + spadSize ≤ x.1), c.1 ≠ a := by
    intro c hc
    have := of_decide_eq_true (List.mem_filter.mp hc).2
    omega
  unfold Tab.get
  rw [State.copySpad_cells, Tab.look_append_left h3, Tab.look_append_left h2]
  exact (Tab.get_filter _ (fun a => decide (a < spadAddr (2 * k) 0 + spadSize)) a).trans (if_pos (decide_eq_true ha))

/-- Above the follower's scratchpad a copy changes nothing. -/
theorem State.copySpad_get_above {a : Nat} (ha : spadAddr (2 * k) 0 + spadSize + spadSize ≤ a) :
    (s.copySpad k).mem.get a = (s.zeroSpad (2 * k + 1)).mem.get a := by
  have h1 : ∀ c ∈ (s.zeroSpad (2 * k + 1)).mem.cells.filter (fun x => decide (x.1 < spadAddr (2 * k) 0 + spadSize)) ++
      (((s.zeroSpad (2 * k + 1)).mem.cells.filter fun x => decide (spadAddr (2 * k) 0 ≤ x.1) && decide (x.1 < spadAddr (2 * k) 0 + spadSize)).map
        fun x => (x.1 + spadSize, x.2)), c.1 ≠ a := by
    intro c hc
    rcases List.mem_append.mp hc with hc | hc
    · have := of_decide_eq_true (List.mem_filter.mp hc).2
      omega
    · obtain ⟨x, hx, rfl⟩ := List.mem_map.mp hc
      have := (List.mem_filter.mp hx).2
      simp only [Bool.and_eq_true, decide_eq_true_eq] at this
      dsimp only
      omega
  unfold Tab.get
  rw [State.copySpad_cells, Tab.look_append_right h1]
  exact (Tab.get_filter _ (fun a => decide (spadAddr (2 * k) 0 + spadSize + spadSize ≤ a)) a).trans (if_pos (decide_eq_true ha))

/-- The follower's scratchpad holds the leader's bytes. -/
theorem State.copySpad_get_follower {a : Nat} (hlo : spadAddr (2 * k) 0 ≤ a) (hhi : a < spadAddr (2 * k) 0 + spadSize) :
    (s.copySpad k).mem.get (a + spadSize) = (s.zeroSpad (2 * k + 1)).mem.get a := by
  have h1 : ∀ c ∈ (s.zeroSpad (2 * k + 1)).mem.cells.filter fun x => decide (x.1 < spadAddr (2 * k) 0 + spadSize), c.1 ≠ a + spadSize := by
    intro c hc
    have := of_decide_eq_true (List.mem_filter.mp hc).2
    omega
  have h3 : ∀ c ∈ (s.zeroSpad (2 * k + 1)).mem.cells.filter fun x => decide (spadAddr (2 * k) 0 + spadSize + spadSize ≤ x.1), c.1 ≠ a + spadSize := by
    intro c hc
    have := of_decide_eq_true (List.mem_filter.mp hc).2
    omega
  unfold Tab.get
  rw [State.copySpad_cells, Tab.look_append_left h3, Tab.look_append_right h1, Tab.look_shift]
  exact (Tab.get_filter _ (fun a => decide (spadAddr (2 * k) 0 ≤ a) && decide (a < spadAddr (2 * k) 0 + spadSize)) a).trans
    (if_pos (by simp [hlo, hhi]))

/-- The lock hand-over's copy (R86). -/
theorem State.copySpad_mem : (∀ o, o < spadSize → (s.copySpad k).mem.get (spadAddr (2 * k + 1) o) = s.mem.get (spadAddr (2 * k) o)) ∧
    ∀ a, (a < spadAddr (2 * k + 1) 0 ∨ spadAddr (2 * k + 1) 0 + spadSize ≤ a) → (s.copySpad k).mem.get a = s.mem.get a := by
  constructor
  · intro o ho
    have hoff := spadAddr_offset (2 * k) o
    rw [spadAddr_follower, State.copySpad_get_follower s k (by omega) (by omega), State.zeroSpad_get, spadAddr_follower, if_neg (by omega)]
  · intro a ha
    rw [spadAddr_follower] at ha
    have hzero : (s.zeroSpad (2 * k + 1)).mem.get a = s.mem.get a := by
      rw [State.zeroSpad_get, spadAddr_follower, if_neg (by omega)]
    rcases ha with ha | ha
    · rw [State.copySpad_get_below s k ha, hzero]
    · rw [State.copySpad_get_above s k ha, hzero]

end

/-! ### Hand-overs begin (R85, R86, R90) -/

/-- Nothing but rods differs. -/
def RodsOnly (s t : State) : Prop := t = { s with rods := t.rods }

theorem RodsOnly.rfl' (s : State) : RodsOnly s s := rfl

theorem RodsOnly.trans {s t u : State} (h : RodsOnly s t) (k : RodsOnly t u) : RodsOnly s u := by
  unfold RodsOnly at *
  rw [k, h]

theorem State.updRod_rodsOnly (s : State) (n : Nat) (f : Rod → Rod) : RodsOnly s (s.updRod n f) := rfl

theorem State.beginHandover_rodsOnly (s : State) (k st : Nat) : RodsOnly s (s.beginHandover k st) := by
  unfold State.beginHandover
  dsimp only
  split <;> exact rfl

theorem State.pairNext_rodsOnly (s : State) (k : Nat) : RodsOnly s (s.pairNext k) := by
  unfold State.pairNext
  dsimp only
  split
  · exact .rfl' s
  split
  · exact (State.updRod_rodsOnly s _ _).trans (State.beginHandover_rodsOnly _ k 1)
  split
  · exact State.beginHandover_rodsOnly s k 1
  split
  · exact State.beginHandover_rodsOnly s k 3
  · exact .rfl' s

/-- What a hand-over that begins does to the two rods. -/
theorem State.beginHandover_rods (s : State) (k st : Nat) :
    ((s.beginHandover k st).rod (2 * k)).pairState = BitVec.ofNat 2 st ∧ ((s.beginHandover k st).rod (2 * k)).req = (s.rod (2 * k)).req ∧
      ((s.beginHandover k st).rod (2 * k)).lockFailed = (s.rod (2 * k)).lockFailed ∧ ((s.beginHandover k st).rod (2 * k + 1)).state = 2 := by
  have hne : 2 * k ≠ 2 * k + 1 := by omega
  unfold State.beginHandover
  dsimp only
  split <;> simp [State.updRod_rod_ne _ _ hne, State.updRod_rod_ne _ _ hne.symm]

theorem State.pairFree_updRod (s : State) (k n : Nat) {f : Rod → Rod} (hf : ∀ r, (f r).job = r.job) : (s.updRod n f).pairFree k = s.pairFree k := by
  have hjob (m : Nat) : ((s.updRod n f).rod m).job = (s.rod m).job := by
    by_cases hm : m = n
    · subst hm
      rw [State.updRod_rod_self, hf]
    · rw [State.updRod_rod_ne _ _ hm]
  unfold State.pairFree
  rw [hjob, hjob]
  rfl

section
variable {k : Nat}

theorem State.pairNext_busy (h : s.pairFree k = false) : s.pairNext k = s := by
  unfold State.pairNext
  rw [h]
  rfl

/-- A lock hand-over is under way, or begins again. -/
theorem State.pairNext_locking (h : (s.rod (2 * k)).pairState = 1) : ((s.pairNext k).rod (2 * k)).pairState = 1 := by
  unfold State.pairNext
  dsimp only
  split
  · exact h
  split
  · exact (State.beginHandover_rods _ k 1).1
  split
  · exact (State.beginHandover_rods _ k 1).1
  split
  next hreq => simp [h] at hreq
  next => exact h

theorem State.pairNext_splitting (h : (s.rod (2 * k)).pairState = 3) (hagain : (s.rod (2 * k)).again = false) : s.pairNext k = s := by
  simp [State.pairNext, h, hagain]

/-- A lock that was asked for begins. -/
theorem State.pairNext_lock (hfree : s.pairFree k = true) (hreq : (s.rod (2 * k)).req = 1) (hstate : (s.rod (2 * k)).pairState = 0) :
    ((s.pairNext k).rod (2 * k)).pairState = 1 ∧ ((s.pairNext k).rod (2 * k)).req = 1 ∧ ((s.pairNext k).rod (2 * k + 1)).state = 2 := by
  unfold State.pairNext
  simp only [hfree, hreq, hstate]
  cases hagain : (s.rod (2 * k)).again
  · obtain ⟨hpair, hkeep, -, hfollower⟩ := State.beginHandover_rods s k 1
    exact ⟨hpair, hkeep.trans hreq, hfollower⟩
  · obtain ⟨hpair, hkeep, -, hfollower⟩ := State.beginHandover_rods (s.updRod (2 * k) fun r => { r with again := false }) k 1
    exact ⟨hpair, hkeep.trans ((congrArg Rod.req (State.updRod_rod_self s _ _)).trans hreq), hfollower⟩

/-- A split that was asked for begins. -/
theorem State.pairNext_split (hfree : s.pairFree k = true) (hreq : (s.rod (2 * k)).req = 2) (hstate : (s.rod (2 * k)).pairState = 2)
    (hagain : (s.rod (2 * k)).again = false) :
    ((s.pairNext k).rod (2 * k)).pairState = 3 ∧ ((s.pairNext k).rod (2 * k)).req = 2 ∧ ((s.pairNext k).rod (2 * k + 1)).state = 2 := by
  unfold State.pairNext
  simp only [hfree, hreq, hstate, hagain]
  obtain ⟨hpair, hkeep, -, hfollower⟩ := State.beginHandover_rods s k 3
  exact ⟨hpair, hkeep.trans hreq, hfollower⟩

end

/-- The request that the firmware makes of a leader. -/
def State.asked (s : State) (n : Nat) (q : BitVec 2) : State := s.updRod n fun r => { r with req := q }

theorem State.asked_pairFree (s : State) (n k : Nat) (q : BitVec 2) : (s.asked n q).pairFree k = s.pairFree k := State.pairFree_updRod s k n fun _ => rfl

theorem State.asked_rod (s : State) (n : Nat) (q : BitVec 2) : (s.asked n q).rod n = { s.rod n with req := q } := State.updRod_rod_self s n _

section
variable {n : Fin 64} {v : Word} (heven : n.val % 2 = 0)
include heven

/-- The firmware's request stands in the leader's register, and the pair looks at it. -/
theorem exec_rodPairCtlWrite {q : Nat} (hq : v.toNat % 4 = q)
    (hask : q = 1 ∧ (s.rod n.val).pairState = 0 ∨ q = 2 ∧ (s.rod n.val).pairState = 2) :
    exec (.rodPairCtlWrite .firmware n v) s = .next ((s.asked n.val (BitVec.ofNat 2 q)).pairNext (n.val / 2)) := by
  change execRodPairCtlWrite .firmware n v s = _
  unfold execRodPairCtlWrite
  rcases hask with ⟨rfl, hstate⟩ | ⟨rfl, hstate⟩ <;> simp [State.asked, heven, hq, hstate]

/-- With a job on either rod the request waits. -/
theorem exec_rodPairCtlWrite_waits {q : Nat} (hq : v.toNat % 4 = q) (hask : q = 1 ∧ (s.rod n.val).pairState = 0 ∨ q = 2 ∧ (s.rod n.val).pairState = 2)
    (hbusy : s.pairFree (n.val / 2) = false) :
    exec (.rodPairCtlWrite .firmware n v) s = .next (s.asked n.val (BitVec.ofNat 2 q)) := by
  rw [exec_rodPairCtlWrite heven hq hask, State.pairNext_busy]
  rw [State.asked_pairFree, hbusy]

end

/-- A request that begins its hand-over at once: of a lock, of a split. -/
theorem State.asked_lock {k : Nat} (hfree : s.pairFree k = true) (hstate : (s.rod (2 * k)).pairState = 0) :
    (((s.asked (2 * k) 1).pairNext k).rod (2 * k)).pairState = 1 ∧ (((s.asked (2 * k) 1).pairNext k).rod (2 * k)).req = 1 ∧
      (((s.asked (2 * k) 1).pairNext k).rod (2 * k + 1)).state = 2 ∧ ((s.asked (2 * k) 1).pairNext k).mem = s.mem := by
  have hrod := State.asked_rod s (2 * k) 1
  obtain ⟨hpair, hreq, hfollower⟩ := State.pairNext_lock ((State.asked_pairFree s (2 * k) k 1).trans hfree) (by rw [hrod]) (by rw [hrod]; exact hstate)
  exact ⟨hpair, hreq, hfollower, by rw [State.pairNext_rodsOnly _ k]; rfl⟩

theorem State.asked_split {k : Nat} (hfree : s.pairFree k = true) (hstate : (s.rod (2 * k)).pairState = 2) (hagain : (s.rod (2 * k)).again = false) :
    (((s.asked (2 * k) 2).pairNext k).rod (2 * k)).pairState = 3 ∧ (((s.asked (2 * k) 2).pairNext k).rod (2 * k)).req = 2 ∧
      (((s.asked (2 * k) 2).pairNext k).rod (2 * k + 1)).state = 2 ∧ ((s.asked (2 * k) 2).pairNext k).mem = s.mem := by
  have hrod := State.asked_rod s (2 * k) 2
  obtain ⟨hpair, hreq, hfollower⟩ := State.pairNext_split ((State.asked_pairFree s (2 * k) k 2).trans hfree) (by rw [hrod]) (by rw [hrod]; exact hstate)
    (by rw [hrod]; exact hagain)
  exact ⟨hpair, hreq, hfollower, by rw [State.pairNext_rodsOnly _ k]; rfl⟩

/-! ### Hand-overs end (R86, R87, R89) -/

/-- The pair locks. -/
def State.locked (s : State) (k : Nat) : State :=
  ((s.copySpad k).updRod (2 * k) fun r => { r with pairState := 2, req := 0, state := 0, locked := true }).updRod (2 * k + 1) fun r =>
    { r with state := 0, locked := true }

theorem State.locked_rods (s : State) (k : Nat) : ((s.locked k).rod (2 * k)).pairState = 2 ∧ ((s.locked k).rod (2 * k)).locked = true ∧
    ((s.locked k).rod (2 * k + 1)).locked = true := by
  have hne : 2 * k ≠ 2 * k + 1 := by omega
  unfold State.locked
  simp [State.updRod_rod_ne _ _ hne]

/-- The lock fails and the pair splits. -/
def State.lockFailed (s : State) (k : Nat) : State :=
  (s.updRod (2 * k) fun r => { r with lockFailed := true, fault := r.fault ||| 1, req := 0, state := 0 }).beginHandover k 3

theorem State.lockFailed_rodsOnly (s : State) (k : Nat) : RodsOnly s (s.lockFailed k) := (State.updRod_rodsOnly s _ _).trans (State.beginHandover_rodsOnly _ k 3)

theorem State.lockFailed_rods (s : State) (k : Nat) : ((s.lockFailed k).rod (2 * k)).pairState = 3 ∧ ((s.lockFailed k).rod (2 * k)).lockFailed = true := by
  obtain ⟨hpair, -, hfailed, -⟩ := State.beginHandover_rods (s.updRod (2 * k) fun r => { r with lockFailed := true, fault := r.fault ||| 1, req := 0, state := 0 }) k 3
  exact ⟨hpair, hfailed.trans (congrArg Rod.lockFailed (State.updRod_rod_self s _ _))⟩

/-- The fault of the job that was to run locked, where there is one. -/
def State.lockRaises (s : State) (k : Nat) : List Raise := (s.lockJob k).toList.map fun j => { code := 0x0103, job := some j, rod := some (2 * k) }

def State.lockFault (s : State) (k : Nat) : State :=
  match s.lockJob k with
  | some j => s.raiseJob 0x0103 j (some (2 * k))
  | none => s

theorem State.lockFault_rest (s : State) (k : Nat) : s.lockFault k = { s with saf.raised := s.saf.raised ++ s.lockRaises k } := by
  unfold State.lockFault State.lockRaises
  cases s.lockJob k with
  | none => simp
  | some j => rfl

section
variable {p : Fin 32}

theorem exec_lockHandover (hstate : (s.rod (2 * p.val)).pairState = 1) (herrs : s.errs.cells = []) :
    exec (.lockHandover p) s = .next ((s.pairNext p.val).locked p.val) := by
  have herrs' : (s.pairNext p.val).errs.cells = [] := by rw [State.pairNext_rodsOnly s p.val]; exact herrs
  change execLockHandover p s = _
  unfold execLockHandover
  dsimp only
  rw [if_neg (not_not.mpr (State.pairNext_locking hstate)), State.errIn_clean _ herrs', if_neg (by decide), State.noteRead_clean _ herrs']
  rfl

theorem exec_lockHandover_fails (hstate : (s.rod (2 * p.val)).pairState = 1) (herr : s.errIn (spadAddr (2 * p.val) 0) spadSize = 2) :
    exec (.lockHandover p) s = .next (((s.pairNext p.val).lockFailed p.val).lockFault p.val).settle := by
  have herr' : (s.pairNext p.val).errIn (spadAddr (2 * p.val) 0) spadSize = 2 := by rw [State.pairNext_rodsOnly s p.val]; exact herr
  change execLockHandover p s = _
  unfold execLockHandover
  dsimp only
  rw [if_neg (not_not.mpr (State.pairNext_locking hstate)), if_pos herr']
  rfl

theorem exec_splitHandover (hstate : (s.rod (2 * p.val)).pairState = 3) (hagain : (s.rod (2 * p.val)).again = false) : exec (.splitHandover p) s =
    .next (((s.zeroSpad (2 * p.val + 1)).updRod (2 * p.val) fun r => { r with pairState := 0, req := 0 }).updRod (2 * p.val + 1) fun r =>
      { r with state := 0, acc := {}, lanes := {} }) := by
  change execSplitHandover p s = _
  unfold execSplitHandover
  dsimp only
  rw [State.pairNext_splitting hstate hagain]
  exact if_neg (not_not.mpr hstate)

end

/-- Settles O28: pair hand-overs, CE_CLEAR and scrubbing. -/
theorem pairCommandsComplete : Obligations.PairCommandsComplete := by
  unfold Obligations.PairCommandsComplete
  refine ⟨?_, ?_, ?_, ?_, fun n s => rfl, fun b n s hb => if_neg hb, ?_⟩
  · intro n v s heven
    have hpair : 2 * (n.val / 2) = n.val := by omega
    refine ⟨fun hv hstate => exec_rodPairCtlWrite_waits heven hv (.inl ⟨rfl, hstate⟩), fun hv hstate => exec_rodPairCtlWrite_waits heven hv (.inr ⟨rfl, hstate⟩), ?_, ?_⟩
    · intro hv hstate hfree
      refine ⟨_, exec_rodPairCtlWrite heven hv (.inl ⟨rfl, hstate⟩), ?_⟩
      have hasked := State.asked_lock hfree (by rw [hpair]; exact hstate)
      rwa [hpair] at hasked
    · intro hv hstate hagain hfree
      refine ⟨_, exec_rodPairCtlWrite heven hv (.inr ⟨rfl, hstate⟩), ?_⟩
      have hasked := State.asked_split hfree (by rw [hpair]; exact hstate) (by rw [hpair]; exact hagain)
      rwa [hpair] at hasked
  · intro p s hstate herrs
    have hmem : (s.pairNext p.val).mem = s.mem := by rw [State.pairNext_rodsOnly s p.val]
    obtain ⟨hpair, hleader, hfollower⟩ := State.locked_rods (s.pairNext p.val) p.val
    obtain ⟨hcopy, hrest⟩ := State.copySpad_mem (s.pairNext p.val) p.val
    rw [hmem] at hcopy hrest
    exact ⟨_, exec_lockHandover hstate herrs, hpair, hleader, hfollower, hcopy, hrest⟩
  · intro p s hstate herr
    refine ⟨_, exec_lockHandover_fails hstate herr, ?_⟩
    obtain ⟨hpair, hfailed⟩ := State.lockFailed_rods (s.pairNext p.val) p.val
    have hrest : RodsOnly s ((s.pairNext p.val).lockFailed p.val) := (State.pairNext_rodsOnly s p.val).trans (State.lockFailed_rodsOnly _ _)
    refine ⟨?_, ?_, ?_, ?_⟩
    · rw [State.lockFault_rest]
      exact hpair
    · rw [State.lockFault_rest]
      exact hfailed
    · rw [State.lockFault_rest, hrest]
    · rw [State.lockFault_rest, hrest]
      rfl
  · intro p s hstate hagain
    have hne : 2 * p.val ≠ 2 * p.val + 1 := by omega
    refine ⟨_, exec_splitHandover hstate hagain, rfl, fun o ho => ?_, fun a ha => ?_, ?_⟩
    · have hoff := spadAddr_offset (2 * p.val + 1) o
      exact (State.zeroSpad_get s _ _).trans (if_pos (by omega))
    · exact (State.zeroSpad_get s _ _).trans (if_neg (by omega))
    · rw [State.updRod_rod_ne _ _ hne, State.updRod_rod_self]
      exact ⟨rfl, rfl⟩
  · intro n s
    refine ⟨_, rfl, rfl, rfl, fun c => ?_⟩
    rw [List.mem_filter, Bool.not_eq_true', ← Bool.not_eq_true, Bool.and_eq_true, Bool.and_eq_true, beq_iff_eq, decide_eq_true_eq, decide_eq_true_eq, and_assoc]

end Sys2Proof.Machine
end

section
/-! The page keeper's sequences: settles O29. -/

namespace Sys2Proof.Machine

open Sys2Proof.Claims

variable {s : State}

/-! ### A command in a free keeper (R171, R178) -/

/-- The command `op` of a host ring as it reaches the keeper. -/
def hostCmd (s : State) (h : Hdr) (op : Nat) (x : BitVec 384) : KvCmd := { from_ := .host (some h), op := op, params := x, came := s.tick }

/-- The queue of a free keeper has taken a command and handed it over. -/
def State.handed (s : State) (p : Nat) (c : KvCmd) : State := { s with pgk.queues := (s.pgk.queues.upd p c.joins).set p [] }

/-- A run in progress is the keeper's. -/
def State.keepRun (p : Nat) (a : KvRun × State) : State := { a.2 with pgk.runs := a.2.pgk.runs.set p (some a.1) }

/-- A command that answers at once. -/
def kvFin (c : KvCmd) (a : Rep × State) : KvRun × State := ({ cmd := c, res := some (a.1.status, a.1.detail, a.1.r0, a.1.r1), ext := a.1.ext }, a.2)

theorem State.kvPost_free {p op : Nat} {h : Hdr} (x : BitVec 384) (hrun : s.pgk.runs.get p = none) (hqueue : s.pgk.queues.get p = []) (hserves : s.engineServes 23 p none = true) :
    s.kvPost p { from_ := .host (some h), op := op, params := x } =
      State.keepRun p ((s.handed p (hostCmd s h op x)).kvExec p { cmd := hostCmd s h op x }) := by
  have hgo : ¬ (!({ s with pgk.queues := s.pgk.queues.upd p (hostCmd s h op x).joins } : State).engineServes 23 p none) = true := by
    change ¬ (!s.engineServes 23 p none) = true
    rw [hserves]
    exact Bool.false_ne_true
  have hjoin : (s.pgk.queues.upd p (hostCmd s h op x).joins).get p = [hostCmd s h op x] := by
    rw [Tab.get_upd_self, hqueue]
    rfl
  unfold State.kvPost
  rw [hqueue]
  refine (if_neg hgo).trans ?_
  change (match s.pgk.runs.get p, (s.pgk.queues.upd p (hostCmd s h op x).joins).get p with | none, c :: rest => _ | _, _ => _) = _
  rw [hrun, hjoin]
  rfl

section
variable {h : Hdr} (x : BitVec 384) (hfree : keeperFree s h.fn.val)
include hfree

theorem keeper_runs (op : Nat) : firmware h s (doKv h op x s) =
    .next (State.keepRun h.fn.val ((s.handed h.fn.val (hostCmd s h op x)).kvExec h.fn.val { cmd := hostCmd s h op x })) := by
  obtain ⟨hsup, hrun, hqueue, hserves⟩ := hfree
  rw [doKv, firmware_later hsup, State.kvPost_free x hrun hqueue hserves]

/-- A command that answers at once has run to its result. -/
theorem keeper_fin {op : Nat} {a : Rep × State} (hexec : (s.handed h.fn.val (hostCmd s h op x)).kvExec h.fn.val { cmd := hostCmd s h op x } = kvFin (hostCmd s h op x) a)
    (htick : a.2.tick = s.tick) : firmware h s (doKv h op x s) = .next (State.keepRun h.fn.val (kvFin (hostCmd s h op x) a)) ∧
      kvRan (State.keepRun h.fn.val (kvFin (hostCmd s h op x) a)) h op x (a.1.status, a.1.detail, a.1.r0, a.1.r1) a.1.ext := by
  refine ⟨by rw [keeper_runs x hfree op, hexec], (kvFin (hostCmd s h op x) a).1, Tab.get_set_self _ _ _, ?_, rfl, rfl, rfl⟩
  change hostCmd s h op x = { from_ := .host (some h), op := op, params := x, came := a.2.tick }
  rw [htick]
  rfl

end

theorem refusal_pass {cs : List (Bool × Nat)} (hcs : cs.all (fun c => !c.1) = true) : refusal cs = none := by
  have hnone : cs.find? (·.1) = none := by
    rw [List.find?_eq_none]
    intro c hc
    simpa using List.all_eq_true.mp hcs c hc
  rw [refusal, hnone]
  rfl

/-! ### What memory accesses of the keeper leave -/

/-- A read in which nothing of memory changes. -/
def Reads (s t : State) : Prop := t = { s with free := t.free, rods := t.rods, saf := t.saf, memc := t.memc }

/-- Reads and writes: memory, its marks and what an error does are all that changes. -/
def Accesses (s t : State) : Prop := t = { s with mem := t.mem, errs := t.errs, free := t.free, rods := t.rods, saf := t.saf, memc := t.memc }

theorem Reads.rfl' (s : State) : Reads s s := rfl

theorem Reads.trans {s t u : State} (h : Reads s t) (k : Reads t u) : Reads s u := by
  unfold Reads at *
  rw [k, h]

theorem Reads.accesses {s t : State} (h : Reads s t) : Accesses s t := by
  unfold Reads Accesses at *
  rw [h]

theorem Accesses.rfl' (s : State) : Accesses s s := rfl

theorem Accesses.trans {s t u : State} (h : Accesses s t) (k : Accesses t u) : Accesses s u := by
  unfold Accesses at *
  rw [k, h]

theorem State.wr_accesses (s : State) (a : Nat) (bs : List Byte) : Accesses s (s.wr a bs) := rfl

theorem Reads.foldl {α : Type} {f : State → α → State} (hf : ∀ s x, Reads s (f s x)) (l : List α) (s : State) : Reads s (l.foldl f s) := by
  induction l generalizing s with
  | nil => exact .rfl' s
  | cons x l ih => exact (hf s x).trans (ih _)

theorem Accesses.foldl {α : Type} {f : State → α → State} (hf : ∀ s x, Accesses s (f s x)) (l : List α) (s : State) : Accesses s (l.foldl f s) := by
  induction l generalizing s with
  | nil => exact .rfl' s
  | cons x l ih => exact (hf s x).trans (ih _)

theorem State.noteRead_reads (s : State) (a n : Nat) : Reads s (s.noteRead a n) := by
  refine Reads.foldl (fun t c => ?_) _ s
  dsimp only
  split
  · rfl
  split <;> rfl

theorem State.handoverAccess_reads (s : State) (n : Nat) (job : Option Nat) : Reads s (s.handoverAccess n job) := by
  cases job <;> rfl

theorem State.blockRead_reads (s : State) (a n : Nat) (job : Option Nat) : Reads s (s.blockRead a n job).2 := by
  unfold State.blockRead
  dsimp only
  split
  · exact State.noteRead_reads s a n
  · have hdraw : Reads s (s.draw (8 * n)).2 := rfl
    dsimp only
    split
    · exact hdraw.trans (State.handoverAccess_reads _ _ _)
    · split <;> rfl
    · split <;> rfl

theorem State.writeToken_accesses (s : State) (k : KvPool) (g row src : Nat) (job : Option Nat) : Accesses s (s.writeToken k g row src job) :=
  Accesses.foldl (fun t _ => (State.blockRead_reads t _ _ job).accesses.trans (State.wr_accesses _ _ _)) _ s

theorem State.copyRows_accesses (s : State) (k : KvPool) (src dst rows : Nat) (job : Option Nat) : Accesses s (s.copyRows k src dst rows job) :=
  Accesses.foldl (fun t _ => (State.blockRead_reads t _ _ job).accesses.trans (State.wr_accesses _ _ _)) _ s

/-! ### The keeper's tables -/

/-- Only the page table, the pages and the pools change. -/
def PagesOnly (s t : State) : Prop := t = { s with pgk.table := t.pgk.table, pgk.pages := t.pgk.pages, pgk.pools := t.pgk.pools }

theorem PagesOnly.rfl' (s : State) : PagesOnly s s := rfl

theorem PagesOnly.trans {s t u : State} (h : PagesOnly s t) (k : PagesOnly t u) : PagesOnly s u := by
  unfold PagesOnly at *
  rw [k, h]

theorem PagesOnly.foldl {α : Type} {f : State → α → State} (hf : ∀ s x, PagesOnly s (f s x)) (l : List α) (s : State) : PagesOnly s (l.foldl f s) := by
  induction l generalizing s with
  | nil => exact .rfl' s
  | cons x l ih => exact (hf s x).trans (ih _)

theorem State.setEntry_pagesOnly (s : State) (k : KvPool) (n b : Nat) (g : Option Nat) : PagesOnly s (s.setEntry k n b g) := rfl

theorem State.decRef_pagesOnly (s : State) (part g : Nat) : PagesOnly s (s.decRef part g) := by
  unfold State.decRef
  dsimp only
  split <;> rfl

theorem State.unpin_pagesOnly (s : State) (part g : Nat) : PagesOnly s (s.unpin part g) := by
  unfold State.unpin
  dsimp only
  split <;> rfl

theorem State.takePage_pagesOnly {k : KvPool} {g : Nat} {t : State} (h : s.takePage k = some (g, t)) : PagesOnly s t := by
  unfold State.takePage at h
  dsimp only at h
  split at h
  · obtain ⟨-, rfl⟩ := Prod.mk.inj (Option.some.inj h)
    rfl
  split at h
  · exact absurd h nofun
  · obtain ⟨-, rfl⟩ := Prod.mk.inj (Option.some.inj h)
    rfl

theorem PagesOnly.seqs {s t : State} (h : PagesOnly s t) : t.pgk.seqs = s.pgk.seqs := by rw [h]

theorem PagesOnly.seq {s t : State} (h : PagesOnly s t) (n : Nat) : t.seq n = s.seq n := congrArg (fun q : Tab KvSeq => q.get n) h.seqs

theorem PagesOnly.mem {s t : State} (h : PagesOnly s t) : t.mem = s.mem := by rw [h]

theorem PagesOnly.tick {s t : State} (h : PagesOnly s t) : t.tick = s.tick := by rw [h]

theorem Accesses.tick {s t : State} (h : Accesses s t) : t.tick = s.tick := by rw [h]

/-! ### OPEN, FORK and CLOSE (R163, R166, R168) -/

theorem State.kvOpen_ok {p x : Nat} {k : KvPool} (hpool : s.pool p = some k) (hseq : k.hasSeq (par x 0 12) = true)
    (hlen : lenOk k (par x 2 8) (par x 4 32) (par x 8 32) = true) (hclosed : (s.seq (par x 0 12)).isOpen = false)
    (hresv : s.poolResv p + resvOf (par x 2 8 == 1) (par x 4 32) ≤ k.pageCount) :
    s.kvOpen p x = ({ r0 := ((s.seq (par x 0 12)).gen + 1).toNat }, s.openSeq p (par x 0 12) (par x 2 8) (par x 4 32) (par x 8 32) 0) := by
  have hgen : ((s.openSeq p (par x 0 12) (par x 2 8) (par x 4 32) (par x 8 32) 0).seq (par x 0 12)).gen = (s.seq (par x 0 12)).gen + 1 :=
    congrArg KvSeq.gen (Tab.get_upd_self _ _ _)
  unfold State.kvOpen
  rw [hpool]
  dsimp only
  rw [refusal_pass (by simp [hseq, hlen, hclosed, not_lt.mpr hresv])]
  dsimp only
  rw [hgen]

theorem State.openSeq_seqs (s : State) (p n policy maxLen base : Nat) : (s.openSeq p n policy maxLen base 0).pgk.seqs = s.pgk.seqs.set n
    { isOpen := true, sliding := policy == 1, part := p, gen := (s.seq n).gen + 1, len := 0, tokBase := base, qposLast := BitVec.ofInt 32 ((base : Int) - 1),
      maxLen := maxLen, resv := resvOf (policy == 1) maxLen } := by
  have hlast : (base : Int) + ((0 : Nat) : Int) - 1 = (base : Int) - 1 := by simp
  unfold State.openSeq
  rw [hlast]
  rfl

/-- A page that a fork shares gains a reference. -/
def State.share (k : KvPool) (n : Nat) (s : State) (e : Nat × Option Nat) : State :=
  match e.2 with
  | some g => ({ s with pgk.pages := s.pgk.pages.upd g fun c => { c with refs := c.refs + 1 } } : State).setEntry k n e.1 (some g)
  | none => s

theorem State.share_pagesOnly (k : KvPool) (n : Nat) (s : State) (e : Nat × Option Nat) : PagesOnly s (State.share k n s e) := by
  unfold State.share
  split <;> rfl

/-- Each leading block of the sequence counts as a reference of its page. -/
theorem State.share_refs (k : KvPool) (n g : Nat) (es : List (Nat × Option Nat)) (s : State) :
    ((es.foldl (State.share k n) s).pgk.pages.get g).refs = (s.pgk.pages.get g).refs + (es.filter fun e => e.2 == some g).length := by
  induction es generalizing s with
  | nil => rfl
  | cons e es ih =>
    rw [List.foldl_cons, ih]
    obtain ⟨b, page⟩ := e
    cases page with
    | none => rfl
    | some g' =>
      by_cases hg : g' = g
      · subst hg
        have hself : ((State.share k n s (b, some g')).pgk.pages.get g').refs = (s.pgk.pages.get g').refs + 1 :=
          congrArg PageCnt.refs (Tab.get_upd_self s.pgk.pages g' _)
        rw [hself, List.filter_cons_of_pos (by simp), List.length_cons]
        omega
      · have hother : (State.share k n s (b, some g')).pgk.pages.get g = s.pgk.pages.get g := Tab.get_upd_ne s.pgk.pages _ (Ne.symm hg)
        rw [hother, List.filter_cons_of_neg (by simpa using hg)]

/-- The pages of the first blocks of a sequence. -/
def State.prefixPages (s : State) (k : KvPool) (m pre : Nat) : List (Nat × Option Nat) := (List.range (cdiv pre 64)).map fun b => (b, s.pageOf k m b)

section
variable {p x : Nat} {k : KvPool} (hpool : s.pool p = some k) (hseq : k.hasSeq (par x 0 12) = true)
include hpool hseq

theorem State.kvFork_ok (hsrc : k.hasSeq (par x 8 12) = true) (hlen : lenOk k (par x 2 8) (par x 4 32) (s.seq (par x 8 12)).tokBase = true) (hpre : par x 12 32 ≤ par x 4 32)
    (hclosed : (s.seq (par x 0 12)).isOpen = false) (hopen : (s.seq (par x 8 12)).isOpen = true) (hgen : (s.seq (par x 8 12)).gen.toNat = par x 10 16)
    (hheld : par x 12 32 ≤ (s.seq (par x 8 12)).len) (hfirst : (s.seq (par x 8 12)).first = 0)
    (hresv : s.poolResv p + resvOf (par x 2 8 == 1) (par x 4 32) ≤ k.pageCount) :
    s.kvFork p x = ({ r0 := ((s.seq (par x 0 12)).gen + 1).toNat },
      (s.prefixPages k (par x 8 12) (par x 12 32)).foldl (State.share k (par x 0 12))
        (s.openSeq p (par x 0 12) (par x 2 8) (par x 4 32) (s.seq (par x 8 12)).tokBase (par x 12 32))) := by
  have hfold (t : State) (es : List (Nat × Option Nat)) (n : Nat) : (es.foldl (State.share k n) t).seq n = t.seq n := by
    unfold State.seq
    rw [PagesOnly.foldl (State.share_pagesOnly k n) es t]
  have hnew : ((s.openSeq p (par x 0 12) (par x 2 8) (par x 4 32) (s.seq (par x 8 12)).tokBase (par x 12 32)).seq (par x 0 12)).gen = (s.seq (par x 0 12)).gen + 1 :=
    congrArg KvSeq.gen (Tab.get_upd_self _ _ _)
  unfold State.kvFork
  rw [hpool]
  dsimp only
  rw [refusal_pass (by simp [hseq, hsrc, hlen, not_lt.mpr hpre, hclosed, hopen, hgen, not_lt.mpr hheld, hfirst, not_lt.mpr hresv])]
  dsimp only
  refine Prod.ext ?_ rfl
  change ({ r0 := (((s.prefixPages k (par x 8 12) (par x 12 32)).foldl (State.share k (par x 0 12))
    (s.openSeq p (par x 0 12) (par x 2 8) (par x 4 32) (s.seq (par x 8 12)).tokBase (par x 12 32))).seq (par x 0 12)).gen.toNat } : Rep) = _
  rw [hfold, hnew]

/-- A page that a close gives back. -/
def State.giveBack (k : KvPool) (n p first : Nat) (a : Nat × State) (i : Nat) : Nat × State :=
  match a.2.pageOf k n (first + i) with
  | some g => (if (a.2.pgk.pages.get g).refs ≤ 1 then a.1 + 1 else a.1, ((a.2.setEntry k n (first + i) none).nextSlot p).decRef p g)
  | none => a

omit hpool hseq in
theorem State.giveBack_pagesOnly (k : KvPool) (n p first : Nat) (is : List Nat) (a : Nat × State) : PagesOnly a.2 (is.foldl (State.giveBack k n p first) a).2 := by
  induction is generalizing a with
  | nil => exact .rfl' a.2
  | cons i is ih =>
    have hone : PagesOnly a.2 (State.giveBack k n p first a i).2 := by
      unfold State.giveBack
      split
      · exact PagesOnly.trans (t := (a.2.setEntry k n (first + i) none).nextSlot p) rfl (State.decRef_pagesOnly _ _ _)
      · exact .rfl' a.2
    exact hone.trans (ih _)

theorem State.kvClose_ok (hopen : (s.seq (par x 0 12)).isOpen = true) (hgen : (s.seq (par x 0 12)).gen.toNat = par x 2 16) :
    ∃ (c : Nat) (u : State), s.kvClose p x = ({ r0 := c }, u.updSeq (par x 0 12) fun q => { q with isOpen := false, resv := 0 }) ∧ PagesOnly s u := by
  refine ⟨((List.range ((s.seq (par x 0 12)).blocks - (s.seq (par x 0 12)).first)).foldl (State.giveBack k (par x 0 12) p (s.seq (par x 0 12)).first) (0, s)).1,
    ((List.range ((s.seq (par x 0 12)).blocks - (s.seq (par x 0 12)).first)).foldl (State.giveBack k (par x 0 12) p (s.seq (par x 0 12)).first) (0, s)).2, ?_,
    State.giveBack_pagesOnly k (par x 0 12) p (s.seq (par x 0 12)).first _ (0, s)⟩
  unfold State.kvClose
  rw [hpool]
  dsimp only
  rw [refusal_pass (by simp [State.seqChecks, hseq, hopen, hgen])]
  rfl

theorem State.kvSeqQuery_ok (hopen : (s.seq (par x 0 12)).isOpen = true) : s.kvSeqQuery p x = { ext := some (s.seq (par x 0 12)).bytes } := by
  unfold State.kvSeqQuery
  rw [hpool]
  dsimp only
  rw [refusal_pass (by simp [hseq, hopen])]

end

theorem State.kvPoolQuery_ok {x : Nat} {k : KvPool} (hpart : par x 0 8 ≤ 15) (hpool : s.pool (par x 0 8) = some k) : s.kvPoolQuery x =
    { ext := some ([s.poolFree k, s.poolResv (par x 0 8), s.poolUnowned k, (s.pgk.pools.get (par x 0 8)).waits.toNat].flatMap (leBytes 4)) } := by
  unfold State.kvPoolQuery
  dsimp only
  rw [if_neg (not_lt.mpr hpart), hpool]

/-! ### Appends (R163, R164, R165) -/

/-- Block `b` of a sequence on its own copy `g'` of page `g`. -/
def State.copied (s : State) (k : KvPool) (n b g g' rows : Nat) (job : Option Nat) : State :=
  ((((s.pin g).copyRows k g g' rows job).setEntry k n b (some g')).decRef k.part g).unpin k.part g

theorem State.copied_tick (s : State) (k : KvPool) (n b g g' rows : Nat) (job : Option Nat) : (s.copied k n b g g' rows job).tick = s.tick :=
  (State.unpin_pagesOnly _ _ _).tick.trans ((State.decRef_pagesOnly _ _ _).tick.trans (State.copyRows_accesses (s.pin g) k g g' rows job).tick)

/-- The pages taken and the run's state, whatever page is found: no time passes. -/
def Timeless (s : State) (a : Nat × Option Nat × Option (Nat × State) × State) : Prop :=
  a.2.2.2.tick = s.tick ∧ ∀ e, a.2.2.1 = some e → e.2.tick = s.tick

theorem Timeless.found {s t : State} (c : Nat) (gone : Option Nat) (g : Nat) {u : State} (ht : t.tick = s.tick) (hu : u.tick = s.tick) :
    Timeless s (c, gone, some (g, t), u) := ⟨hu, fun _ he => Option.some.inj he ▸ ht⟩

theorem Timeless.missing {s : State} (gone : Option Nat) {u : State} (hu : u.tick = s.tick) : Timeless s (0, gone, none, u) := ⟨hu, fun _ he => absurd he.symm (Option.some_ne_none _)⟩

theorem State.pageFor_held (s : State) (k : KvPool) (n b : Nat) (job : Option Nat) (hb : b < (s.seq n).blocks) : Timeless s (s.pageFor k n b job) := by
  unfold State.pageFor
  dsimp only
  rw [if_pos hb]
  split
  · exact .missing none rfl
  split
  · exact .found 0 none _ rfl rfl
  split
  · exact .missing none rfl
  · next htake => exact .found 1 none _ ((State.copied_tick ..).trans (State.takePage_pagesOnly htake).tick) rfl

/-- A sliding sequence without the block that leaves its window. -/
def State.slidOff (s : State) (k : KvPool) (n b : Nat) (old : Option Nat) : State :=
  match old with
  | some g => (s.setEntry k n b none).decRef k.part g
  | none => s

theorem State.slidOff_tick (s : State) (k : KvPool) (n b : Nat) (old : Option Nat) : (s.slidOff k n b old).tick = s.tick := by
  cases old with
  | none => rfl
  | some g => exact (State.decRef_pagesOnly _ _ _).tick

/-- The block that leaves a sliding sequence's window for block `b`. -/
def State.leaving (s : State) (k : KvPool) (n b : Nat) : Option Nat :=
  if (s.seq n).sliding && decide ((s.seq n).span ≤ b) then s.pageOf k n (b - (s.seq n).span) else none

/-- A page from the free list for the next block, with the block that leaves the window for it. -/
def State.freshPage (s : State) (k : KvPool) (n b : Nat) (old : Option Nat) : Nat × Option Nat × Option (Nat × State) × State :=
  match (s.slidOff k n (b - (s.seq n).span) old).takePage k with
  | none => (0, if old.isSome then some (b - (s.seq n).span) else none, none, s.slidOff k n (b - (s.seq n).span) old)
  | some (g, t) => (1, if old.isSome then some (b - (s.seq n).span) else none, some (g, t.setEntry k n b (some g)), s.slidOff k n (b - (s.seq n).span) old)

theorem State.pageFor_fresh (s : State) (k : KvPool) (n b : Nat) (job : Option Nat) (hb : ¬ b < (s.seq n).blocks) :
    s.pageFor k n b job = s.freshPage k n b (s.leaving k n b) := by
  unfold State.pageFor
  dsimp only
  rw [if_neg hb]
  rfl

theorem State.freshPage_timeless (s : State) (k : KvPool) (n b : Nat) (old : Option Nat) : Timeless s (s.freshPage k n b old) := by
  have hslid := State.slidOff_tick s k n (b - (s.seq n).span) old
  unfold State.freshPage
  split
  · exact .missing _ hslid
  · next htake => exact .found 1 _ _ ((State.takePage_pagesOnly htake).tick.trans hslid) hslid

theorem State.pageFor_timeless (s : State) (k : KvPool) (n b : Nat) (job : Option Nat) : Timeless s (s.pageFor k n b job) := by
  by_cases hb : b < (s.seq n).blocks
  · exact State.pageFor_held s k n b job hb
  · rw [State.pageFor_fresh s k n b job hb]
    exact State.freshPage_timeless s k n b _

theorem State.appendRun_keeps (k : KvPool) (n at_ src stride : Nat) (job : Option Nat) (todo : Nat) (r : KvRun) (s : State) :
    (s.appendRun k n at_ src stride job todo r).2.tick = s.tick ∧ (s.appendRun k n at_ src stride job todo r).1.cmd = r.cmd ∧
      (s.appendRun k n at_ src stride job todo r).1.ext = r.ext := by
  induction todo generalizing s r with
  | zero => exact ⟨rfl, rfl, rfl⟩
  | succ todo ih =>
    rw [State.appendRun]
    dsimp only
    split
    · exact ih _ s
    · have htime := State.pageFor_timeless s k n ((at_ + r.at_) / 64) job
      generalize s.pageFor k n ((at_ + r.at_) / 64) job = a at htime
      obtain ⟨c, gone, got, s0⟩ := a
      obtain ⟨htick, hfound⟩ := htime
      cases got with
      | none =>
        dsimp only
        split
        · exact ⟨htick, rfl, rfl⟩
        · exact ⟨htick, rfl, rfl⟩
      | some e =>
        exact ⟨(ih _ _).1.trans ((State.writeToken_accesses _ _ _ _ _ _).tick.trans (hfound e rfl)), (ih _ _).2.1, (ih _ _).2.2⟩

/-- The end of an append: its result, unless it waits for a page. -/
def appendEnd (n : Nat) (limit : Bool) (a : KvRun × State) : KvRun × State :=
  if a.1.waiting then a
  else
    let e : Nat × State := match a.1.dropped with
      | some b => (b, a.2)
      | none => if limit then ((a.2.draw 32).1.toNat, (a.2.draw 32).2) else (0, a.2)
    ({ a.1 with res := some (if limit || a.1.dropped.isSome then 0x4005 else 0, e.1, (e.2.seq n).len, a.1.taken), started := true }, e.2)

/-- Whatever its result, an append leaves the sequences, the pages and memory as its tokens did. -/
theorem appendEnd_state (n : Nat) (limit : Bool) (a : KvRun × State) : ∃ free, (appendEnd n limit a).2 = { a.2 with free := free } := by
  unfold appendEnd
  split
  · exact ⟨_, rfl⟩
  · dsimp only
    split
    · exact ⟨_, rfl⟩
    split <;> exact ⟨_, rfl⟩

theorem appendEnd_waiting {n : Nat} {limit : Bool} {a : KvRun × State} (h : a.1.waiting = true) : appendEnd n limit a = a := if_pos h

/-- The result of an append that has a block to name, or none to name. -/
theorem appendEnd_done {n : Nat} {limit : Bool} {a : KvRun × State} (hwait : a.1.waiting = false) (hdrop : limit = true → a.1.dropped ≠ none) :
    (appendEnd n limit a).1 = { a.1 with
      res := some (if a.1.dropped.isSome then 0x4005 else 0, a.1.dropped.getD 0, (a.2.seq n).len, a.1.taken), started := true } := by
  rw [appendEnd, if_neg (ne_true_of_eq_false hwait)]
  cases hd : a.1.dropped with
  | some b => simp
  | none =>
    have hlimit : limit = false := Bool.eq_false_iff.mpr fun hl => hdrop hl hd
    simp [hlimit]

theorem appendEnd_unnamed {n : Nat} {limit : Bool} {a : KvRun × State} (hlimit : limit = true) (hwait : a.1.waiting = false) (hdrop : a.1.dropped = none) :
    (appendEnd n limit a).1 = { a.1 with res := some (0x4005, (Config.free 32 a.2.free).toNat, (a.2.seq n).len, a.1.taken), started := true } := by
  rw [appendEnd, if_neg (ne_true_of_eq_false hwait), hdrop, hlimit]
  rfl

/-- The parameters of an append pass its checks. -/
structure AppendOk (s : State) (k : KvPool) (p x : Nat) : Prop where
  seq : k.hasSeq (par x 0 12) = true
  count : within 1 64 (par x 8 16) = true
  source : ∀ j < par x 8 16, s.partAll p (par x 16 64 + j * par x 24 32) (k.planes * k.planeRow) = true
  wide : k.planes * k.planeRow ≤ par x 24 32
  stride : par x 24 32 % 64 = 0
  isOpen : (s.seq (par x 0 12)).isOpen = true
  gen : (s.seq (par x 0 12)).gen.toNat = par x 2 16
  own : (s.seq (par x 0 12)).guest = false
  reached : par x 4 32 ≤ (s.seq (par x 0 12)).len
  alive : (s.seq (par x 0 12)).exhausted = false
  fits : (s.seq (par x 0 12)).sliding = true ∨ par x 4 32 + par x 8 16 ≤ (s.seq (par x 0 12)).maxLen

/-- An append goes past MAX_LEN (R165). -/
def State.pastMax (s : State) (x : Nat) : Bool :=
  decide ((s.seq (par x 0 12)).maxLen < par x 4 32 + par x 8 16) && decide ((s.seq (par x 0 12)).len < par x 4 32 + par x 8 16)

theorem State.kvAppend_ok {p : Nat} {k : KvPool} {c : KvCmd} (hpool : s.pool p = some k) (hok : AppendOk s k p c.params.toNat) :
    s.kvAppend p { cmd := c } = appendEnd (par c.params.toNat 0 12) (s.pastMax c.params.toNat)
      (s.appendRun k (par c.params.toNat 0 12) (par c.params.toNat 4 32) (par c.params.toNat 16 64) (par c.params.toNat 24 32) c.from_.jobOf (par c.params.toNat 8 16)
        { cmd := c, started := true, limit := s.pastMax c.params.toNat }) := by
  have hsource : (List.range (par c.params.toNat 8 16)).all (fun j => s.partAll p (par c.params.toNat 16 64 + j * par c.params.toNat 24 32) (k.planes * k.planeRow)) = true :=
    List.all_eq_true.mpr fun j hj => hok.source j (List.mem_range.mp hj)
  have hgrow : ¬ (!(s.seq (par c.params.toNat 0 12)).sliding && s.pastMax c.params.toNat) = true := by
    rcases hok.fits with hs | hm
    · simp [hs]
    · simp [State.pastMax, not_lt.mpr hm]
  unfold State.kvAppend
  dsimp only
  rw [hpool]
  dsimp only
  rw [if_neg Bool.false_ne_true, refusal_pass (by
    simp [State.seqChecks, hok.seq, hok.count, hsource, not_lt.mpr hok.wide, hok.stride, hok.isOpen, hok.gen, hok.own, not_lt.mpr hok.reached, hok.alive])]
  exact (if_neg hgrow).trans rfl

theorem exec_kvAppend {h : Hdr} {x : BitVec 384} {k : KvPool} (hfree : keeperFree s h.fn.val) (hpool : s.pool h.fn.val = some k) (hok : AppendOk s k h.fn.val x.toNat) :
    exec (.kvAppend h x) s = .next (State.keepRun h.fn.val (appendEnd (par x.toNat 0 12) (s.pastMax x.toNat)
      ((s.handed h.fn.val (hostCmd s h 0x4003 x)).appendRun k (par x.toNat 0 12) (par x.toNat 4 32) (par x.toNat 16 64) (par x.toNat 24 32) none (par x.toNat 8 16)
        { cmd := hostCmd s h 0x4003 x, started := true, limit := s.pastMax x.toNat }))) := by
  obtain ⟨hseq, hcount, hsource, hwide, hstride, hopen, hgen, hown, hreached, halive, hfits⟩ := hok
  exact (keeper_runs x hfree 0x4003).trans (congrArg (fun a => Host.Outcome.next (State.keepRun h.fn.val a))
    (State.kvAppend_ok (s := s.handed h.fn.val (hostCmd s h 0x4003 x)) (c := hostCmd s h 0x4003 x) hpool
      ⟨hseq, hcount, hsource, hwide, hstride, hopen, hgen, hown, hreached, halive, hfits⟩))

/-- An append that has ended stands in the keeper with its result. -/
theorem kvRan_appendEnd {h : Hdr} {op n : Nat} {x : BitVec 384} {limit : Bool} {a : KvRun × State} {res : Nat × Nat × Nat × Nat}
    (hend : (appendEnd n limit a).1 = { a.1 with res := some res, started := true }) (hcmd : a.1.cmd = hostCmd s h op x) (hext : a.1.ext = none)
    (hwait : a.1.waiting = false) (htick : (appendEnd n limit a).2.tick = s.tick) : kvRan (State.keepRun h.fn.val (appendEnd n limit a)) h op x res none := by
  refine ⟨(appendEnd n limit a).1, Tab.get_set_self _ _ _, ?_, by rw [hend], by rw [hend]; exact hext, by rw [hend]; exact hwait⟩
  change (appendEnd n limit a).1.cmd = { from_ := .host (some h), op := op, params := x, came := (appendEnd n limit a).2.tick }
  rw [hend, htick]
  exact hcmd

/-- Settles O29: the sequence commands of a free keeper complete with their effect. -/
theorem keeperSequencesComplete : Obligations.KeeperSequencesComplete := by
  unfold Obligations.KeeperSequencesComplete
  intro h x k s p n mine hfree hpool
  refine ⟨?_, ?_, ?_, ?_, ?_, ?_⟩
  · intro policy maxLen base hseq hlen hclosed hresv
    obtain ⟨hexec, hran⟩ := keeper_fin x hfree (op := 0x4001)
      (congrArg (kvFin _) (State.kvOpen_ok (s := s.handed p (hostCmd s h 0x4001 x)) (x := x.toNat) hpool hseq hlen hclosed hresv)) rfl
    exact ⟨_, hexec, hran, State.openSeq_seqs s p n policy maxLen base, rfl⟩
  · intro policy maxLen m pre q hseq hsrc hlen hpre hclosed hopen hgen hheld hfirst hresv
    have hfold (t : State) (es : List (Nat × Option Nat)) := PagesOnly.foldl (State.share_pagesOnly k n) es t
    obtain ⟨hexec, hran⟩ := keeper_fin x hfree (op := 0x4002)
      (congrArg (kvFin _) (State.kvFork_ok (s := s.handed p (hostCmd s h 0x4002 x)) (x := x.toNat) hpool hseq hsrc hlen hpre hclosed hopen hgen hheld hfirst hresv))
      (hfold _ _).tick
    refine ⟨_, hexec, hran, ?_, fun g => ?_, ?_⟩
    · exact (congrArg KvSeq.len (PagesOnly.seq (hfold _ _) n)).trans (congrArg KvSeq.len (Tab.get_upd_self s.pgk.seqs n _))
    · refine (State.share_refs k n g _ _).trans ?_
      rw [State.prefixPages, List.filter_map, List.length_map]
      rfl
    · exact (hfold ((s.handed p (hostCmd s h 0x4002 x)).openSeq p n policy maxLen q.tokBase pre) ((s.handed p (hostCmd s h 0x4002 x)).prefixPages k m pre)).mem
  · intro hseq hopen hgen
    obtain ⟨c, u, hclose, hu⟩ := State.kvClose_ok (s := s.handed p (hostCmd s h 0x4004 x)) (x := x.toNat) hpool hseq hopen hgen
    obtain ⟨hexec, hran⟩ := keeper_fin x hfree (op := 0x4004) (congrArg (kvFin _) hclose) hu.tick
    refine ⟨_, c, hexec, hran, ?_, ?_⟩
    · exact congrArg (fun q : Tab KvSeq => q.upd n fun q => { q with isOpen := false, resv := 0 }) hu.seqs
    · exact hu.mem
  · intro hseq hopen
    obtain ⟨hexec, hran⟩ := keeper_fin x hfree (op := 0x4005)
      (congrArg (fun r => kvFin _ (r, s.handed p (hostCmd s h 0x4005 x))) (State.kvSeqQuery_ok (s := s.handed p (hostCmd s h 0x4005 x)) (x := x.toNat) hpool hseq hopen)) rfl
    exact ⟨_, hexec, hran, rfl⟩
  · intro k' hpart hpool'
    obtain ⟨hexec, hran⟩ := keeper_fin x hfree (op := 0x4006)
      (congrArg (fun r => kvFin _ (r, s.handed p (hostCmd s h 0x4006 x))) (State.kvPoolQuery_ok (s := s.handed p (hostCmd s h 0x4006 x)) (x := x.toNat) hpart hpool')) rfl
    exact ⟨_, hexec, hran, rfl⟩
  · intro at_ count src stride q hseq hcount hsource hwide hstride hopen hgen hown hreached halive hfits c u limit r
    have hok : AppendOk s k p x.toNat := ⟨hseq, hcount, hsource, hwide, hstride, hopen, hgen, hown, hreached, halive, hfits⟩
    obtain ⟨htick, hcmd, hext⟩ := State.appendRun_keeps k n at_ src stride none count { cmd := c, started := true, limit := limit } u
    obtain ⟨free, hstate⟩ := appendEnd_state n limit r
    have hlast : (appendEnd n limit r).2.tick = s.tick := (congrArg State.tick hstate).trans htick
    have hseqs : (appendEnd n limit r).2.pgk.seqs = r.2.pgk.seqs := by rw [hstate]
    have hpages : (appendEnd n limit r).2.pgk.pages = r.2.pgk.pages := by rw [hstate]
    have hmem : (appendEnd n limit r).2.mem = r.2.mem := by rw [hstate]
    refine ⟨State.keepRun p (appendEnd n limit r), exec_kvAppend hfree hpool hok, hseqs, hpages, hmem, fun hwait => ?_, fun hwait hdrop => ?_,
      fun hwait hlimit hdrop => ?_⟩
    · exact (Tab.get_set_self _ _ _).trans (congrArg (fun a : KvRun × State => some a.1) (appendEnd_waiting hwait))
    · exact kvRan_appendEnd (appendEnd_done hwait hdrop) hcmd hext hwait hlast
    · exact kvRan_appendEnd (appendEnd_unnamed hlimit hwait hdrop) hcmd hext hwait hlast

end Sys2Proof.Machine
end

section
/-! The page keeper's other events: settles O31. -/

namespace Sys2Proof.Machine

open Sys2Proof.Claims

variable {s : State}

/-! ### Commands from jobs, and completions (R163, R178) -/

/-- A whole line from a job of the port's partition posts its command. -/
theorem State.jobPort_posts {n port j : Nat} {data : List Byte} {r : JobRec} (hjob : (s.rods.get n).job = some j) (hrec : s.jobRec j = some r) (hpart : r.part = port)
    (hlen : data.length = 64) : s.jobPort n port data = s.kvPost port
      { from_ := .job j (BitVec.ofNat 12 (fld (leNat data) 32 12)) (BitVec.ofNat 32 (fld (leNat data) 64 32)) (par (leNat data / 2 ^ 128) 32 64) (par (leNat data / 2 ^ 128) 40 16),
        op := fld (leNat data) 0 16, params := BitVec.ofNat 384 (leNat data / 2 ^ 128), bad := (portRefusal (leNat data)).map fun r => (r.status, r.detail) } := by
  have hok : ¬ (data.length ≠ 64 || (s.jobRec j).map JobRec.part ≠ some port) = true := by simp [hlen, hrec, hpart]
  unfold State.jobPort
  rw [hjob]
  exact if_neg hok

/-- A host command below the carry commands completes: its reply goes out and the keeper is free. -/
theorem State.kvDone_host {p : Nat} {r : KvRun} {h : Hdr} {st d a b : Nat} (hrun : s.pgk.runs.get p = some r) (hfrom : r.cmd.from_ = .host (some h)) (hop : r.cmd.op < 0x4020)
    (hres : r.res = some (st, d, a, b)) (hext : r.ext = none) (hqueue : s.pgk.queues.get p = []) : s.kvDone p =
      { s.reply h { status := st, detail := d, r0 := a, r1 := b } with pgk.runs := s.pgk.runs.set p none } := by
  obtain ⟨-, -, -, -, -, -, -, -, -, -, -, -, -, -, hpgk, -, -⟩ := (State.reply_posts s h { status := st, detail := d, r0 := a, r1 := b }).frame
  obtain ⟨c, at_, taken, dropped, started, limit, waiting, res, ext⟩ := r
  obtain ⟨from_, op, params, bad, came⟩ := c
  subst hfrom hres hext
  have hcarry : decide (0x4020 ≤ op) = false := decide_eq_false (not_le.mpr hop)
  unfold State.kvDone
  rw [hrun]
  dsimp only [State.kvReply, State.replyOpt]
  rw [hcarry, Bool.false_and, if_neg Bool.false_ne_true, if_pos rfl, hpgk, hqueue]
  rfl

/-! ### One token of an append (R163, R164) -/

section
variable {k : KvPool} {n src stride : Nat} {job : Option Nat} {r : KvRun}

/-- The block of the last token is in a page of the sequence's own. -/
theorem State.pageFor_own {g b : Nat} (hb : b < (s.seq n).blocks) (hpage : s.pageOf k n b = some g) (hown : (s.pgk.pages.get g).refs ≤ 1) :
    s.pageFor k n b job = (0, none, some (g, s), s) := by
  unfold State.pageFor
  dsimp only
  rw [if_pos hb, hpage]
  exact if_pos hown

/-- With nothing on the free list no page is found for a further block. -/
theorem State.pageFor_none {b : Nat} (hb : ¬ b < (s.seq n).blocks) (hslide : (s.seq n).sliding = false) (hnext : (s.pgk.pools.get k.part).next = k.pageCount)
    (hback : (s.pgk.pools.get k.part).back = []) : s.pageFor k n b job = (0, none, none, s) := by
  have hstay : s.leaving k n b = none := by simp [State.leaving, hslide]
  have htake : s.takePage k = none := by simp [State.takePage, hnext, hback]
  rw [State.pageFor_fresh s k n b job hb, hstay, State.freshPage]
  change (match s.takePage k with | none => _ | some (g, t) => _) = _
  rw [htake]
  rfl

/-- Only the entry as it is counts for a change of it. -/
theorem State.updSeq_congr {f f' : KvSeq → KvSeq} (h : f (s.seq n) = f' (s.seq n)) : s.updSeq n f = s.updSeq n f' := by
  unfold State.updSeq Tab.upd
  rw [show f (s.pgk.seqs.get n) = f' (s.pgk.seqs.get n) from h]

theorem State.writeToken_seq (s : State) (k : KvPool) (g row src : Nat) (job : Option Nat) (n : Nat) : (s.writeToken k g row src job).seq n = s.seq n := by
  unfold State.seq
  rw [State.writeToken_accesses s k g row src job]

theorem State.appendRun_own {g : Nat} (hmid : (s.seq n).len % 64 ≠ 0) (hpage : s.pageOf k n ((s.seq n).len / 64) = some g)
    (hown : (s.pgk.pages.get g).refs ≤ 1) (hat : r.at_ = 0) : s.appendRun k n (s.seq n).len src stride job 1 r =
      ({ r with at_ := 1, waiting := false }, (s.writeToken k g ((s.seq n).len % 64) src job).updSeq n fun q =>
        { q with len := q.len + 1, qposLast := BitVec.ofInt 32 (q.tokBase + q.len : Int) }) := by
  have hb : (s.seq n).len / 64 < (s.seq n).blocks := by
    unfold KvSeq.blocks cdiv
    omega
  have hskip : ¬ (decide ((s.seq n).len / 64 < (s.seq n).first) && decide ((s.seq n).len < (s.seq n).len)) = true := by simp
  obtain ⟨c, at_, taken, dropped, started, limit, waiting, res, ext⟩ := r
  obtain rfl : at_ = 0 := hat
  rw [State.appendRun]
  refine (if_neg hskip).trans ?_
  rw [Nat.add_zero, State.pageFor_own hb hpage hown]
  dsimp only
  rw [State.appendRun, Nat.zero_mul]
  refine Prod.ext ?_ (State.updSeq_congr ?_)
  · cases dropped <;> rfl
  · rw [State.writeToken_seq]
    exact if_pos le_rfl

theorem State.appendRun_waits (hslide : (s.seq n).sliding = false) (hfull : (s.seq n).len % 64 = 0) (hnext : (s.pgk.pools.get k.part).next = k.pageCount)
    (hback : (s.pgk.pools.get k.part).back = []) (hat : r.at_ = 0) (hwait : r.waiting = true) : s.appendRun k n (s.seq n).len src stride job 1 r = (r, s) := by
  have hb : ¬ (s.seq n).len / 64 < (s.seq n).blocks := by
    unfold KvSeq.blocks cdiv
    omega
  have hskip : ¬ (decide ((s.seq n).len / 64 < (s.seq n).first) && decide ((s.seq n).len < (s.seq n).len)) = true := by simp
  obtain ⟨c, at_, taken, dropped, started, limit, waiting, res, ext⟩ := r
  obtain rfl : at_ = 0 := hat
  obtain rfl : waiting = true := hwait
  rw [State.appendRun]
  refine (if_neg hskip).trans ?_
  rw [Nat.add_zero, State.pageFor_none hb hslide hnext hback]
  cases dropped <;> rfl

end

/-- Settles O31: posted commands, completions, appended tokens and table errors of the page keeper. -/
theorem keeperEventsComplete : Obligations.KeeperEventsComplete := by
  unfold Obligations.KeeperEventsComplete
  refine ⟨⟨?_, ?_, ?_, fun s => rfl⟩, fun k n src stride g job r s => ⟨fun hmid _ => State.appendRun_own hmid, State.appendRun_waits⟩⟩
  · intro n port data j r s hjob hrec hpart hlen
    exact congrArg (fun u : State => (.next u.settle : Out)) (State.jobPort_posts hjob hrec hpart hlen)
  · intro p r h st d a b s hrun hfrom hop hres hext hqueue hraised
    obtain ⟨-, -, -, -, hsaf, -⟩ := (State.reply_posts s h { status := st, detail := d, r0 := a, r1 := b }).frame
    change Host.Outcome.next (s.kvDone p.val).settle = _
    rw [State.kvDone_host hrun hfrom hop hres hext hqueue]
    exact congrArg _ (State.settle_quiet _ ((congrArg Saf.raised hsaf).trans hraised))
  · intro p r s hrun hwait
    change execPageTakeResume p s = _
    unfold execPageTakeResume
    rw [hrun]
    exact if_pos hwait

end Sys2Proof.Machine
end

section
/-! Rings of devices in the page keeper: settles O30. -/

namespace Sys2Proof.Machine

open Sys2Proof.Claims

variable {s : State}

/-! ### What sending a shard leaves -/

/-- The tick, memory, the sequences and the rings stay. -/
structure RingKept (s t : State) : Prop where
  tick : t.tick = s.tick
  mem : t.mem = s.mem
  seqs : t.pgk.seqs = s.pgk.seqs
  rings : t.pgk.rings = s.pgk.rings

theorem RingKept.refl (s : State) : RingKept s s := ⟨rfl, rfl, rfl, rfl⟩

theorem RingKept.trans {s t u : State} (h : RingKept s t) (k : RingKept t u) : RingKept s u :=
  ⟨k.tick.trans h.tick, k.mem.trans h.mem, k.seqs.trans h.seqs, k.rings.trans h.rings⟩

theorem PagesOnly.ringKept {s t : State} (h : PagesOnly s t) : RingKept s t := by
  constructor <;> rw [h]

theorem Reads.ringKept {s t : State} (h : Reads s t) : RingKept s t := by
  constructor <;> rw [h]

theorem State.sendVia_ringKept (s : State) (p dst type : Nat) (payload : List Byte) (probe : Bool) : RingKept s (s.sendVia p dst type payload probe) := by
  unfold State.sendVia
  split
  · exact .refl s
  · have hrest := (State.enqueue_sends ({ s with tyb.mseq := (s.tyb.mseq + 1) % 2 ^ 32 } : State) p
      (Msg.flits { dst := dst, src := s.tyb.node.toNat, type := type, hops := 63, mseq := s.tyb.mseq, payload := payload, stamp := s.now } none probe)).rest
    constructor <;> exact hrest ▸ rfl

/-- The image of some pages, read in order. -/
def State.image (k : KvPool) (job : Option Nat) (a : List Byte × State) (g : Nat) : List Byte × State :=
  (a.1 ++ (a.2.blockRead (k.pageAddr g) k.pageBytes job).1, (a.2.blockRead (k.pageAddr g) k.pageBytes job).2)

theorem State.image_reads (k : KvPool) (job : Option Nat) (pages : List Nat) (a : List Byte × State) : Reads a.2 (pages.foldl (State.image k job) a).2 := by
  induction pages generalizing a with
  | nil => exact .rfl' a.2
  | cons g pages ih => exact (State.blockRead_reads a.2 _ _ job).trans (ih _)

theorem State.pin_pagesOnly (s : State) (g : Nat) : PagesOnly s (s.pin g) := rfl

/-- The pages of a shard, pinned and read. -/
def State.readShard (s : State) (k : KvPool) (n : Nat) : List Byte × State :=
  (s.heldPages k n).foldl (State.image k none) ([], (s.heldPages k n).foldl (fun s y => s.pin y) s)

theorem State.readShard_kept (s : State) (k : KvPool) (n : Nat) : RingKept s (s.readShard k n).2 :=
  (PagesOnly.foldl State.pin_pagesOnly (s.heldPages k n) s).ringKept.trans
    (State.image_reads k none (s.heldPages k n) ([], (s.heldPages k n).foldl (fun s y => s.pin y) s)).ringKept

/-- The shard of sequence `n` on its way east in step `t` (R173). -/
def State.shardSent (s : State) (k : KvPool) (g t n : Nat) : State :=
  (s.readShard k n).2.sendVia (s.ring g).east (s.ring g).eastNode 2
    (ringHeader 1 g t (((s.ring g).pos + (s.ring g).n + 1 - t) % (s.ring g).n) (s.readShard k n).2.tyb.node.toNat (s.seq n).tokBase (s.seq n).len k.pageBytes ++ (s.readShard k n).1)

theorem State.shardSent_kept (s : State) (k : KvPool) (g t n : Nat) : RingKept s (s.shardSent k g t n) :=
  (State.readShard_kept s k n).trans (State.sendVia_ringKept _ _ _ _ _ _)

/-- Partial records on their way, east or west (R177). -/
def State.partialSent (s : State) (k : KvPool) (g t dir src lines : Nat) : State :=
  (s.blockRead src (64 * lines) none).2.sendVia (if dir = 0 then (s.ring g).east else (s.ring g).west) (if dir = 0 then (s.ring g).eastNode else (s.ring g).westNode) 3
    (ringHeader 2 g t 0 (s.blockRead src (64 * lines) none).2.tyb.node.toNat 0 lines k.pageBytes ++ (s.blockRead src (64 * lines) none).1)

theorem State.partialSent_kept (s : State) (k : KvPool) (g t dir src lines : Nat) : RingKept s (s.partialSent k g t dir src lines) :=
  (State.blockRead_reads s _ _ none).ringKept.trans (State.sendVia_ringKept _ _ _ _ _ _)

/-! ### Commands (R172, R173, R177) -/

/-- The parameters of a ring context pass their checks. -/
structure RingOk (s : State) (k : KvPool) (p : Nat) (c : RingCtx) : Prop where
  size : within 2 64 c.n = true
  pos : c.pos < c.n
  east : within 1 16383 c.eastNode = true
  west : within 1 16383 c.westNode = true
  home : k.hasSeq c.home = true
  guest0 : k.hasSeq c.guest0 = true
  guest1 : k.hasSeq c.guest1 = true
  arrive : s.tallyOwner c.arrive = some p
  sent : s.tallyOwner c.sent = some p
  base : c.recvBase % 64 = 0
  stride : c.recvStride % 64 = 0
  area : s.partAll p c.recvBase (max 64 (64 * c.recvStride)) = true
  homeOpen : (s.seq c.home).isOpen = true
  apart : c.guest0 ≠ c.guest1
  free0 : s.guestOk c c.guest0 = true
  free1 : s.guestOk c c.guest1 = true

theorem RingOk.handed {s : State} {k : KvPool} {p : Nat} {c : RingCtx} (h : RingOk s k p c) (cmd : KvCmd) : RingOk (s.handed p cmd) k p c where
  size := h.size
  pos := h.pos
  east := h.east
  west := h.west
  home := h.home
  guest0 := h.guest0
  guest1 := h.guest1
  arrive := h.arrive
  sent := h.sent
  base := h.base
  stride := h.stride
  area := h.area
  homeOpen := h.homeOpen
  apart := h.apart
  free0 := h.free0
  free1 := h.free1

/-- Step `t` of ring `g` may begin (R173). -/
structure StepOk (s : State) (p g t : Nat) : Prop where
  isOpen : (s.ring g).state = 1
  part : (s.ring g).part = p
  idle : (s.ring g).sending = none
  step : t = nextStep (s.ring g).n (s.ring g).lastSent
  here : t = 1 ∨ (s.ring g).lastArrived = t - 1 ∨ (s.ring g).lastArrived = t
  shardOpen : (s.seq ((s.ring g).shardSeq t)).isOpen = true
  up : s.portUp (s.ring g).east = true

theorem StepOk.handed {s : State} {p g t : Nat} (h : StepOk s p g t) (cmd : KvCmd) : StepOk (s.handed p cmd) p g t where
  isOpen := h.isOpen
  part := h.part
  idle := h.idle
  step := h.step
  here := h.here
  shardOpen := h.shardOpen
  up := h.up

/-- Partial records may be sent on ring `g` (R177). -/
structure PartialOk (s : State) (p g t dir src lines : Nat) : Prop where
  step : t ≤ 63
  side : dir ≤ 1
  area : s.partAll p src (64 * lines) = true
  some_ : lines ≠ 0
  isOpen : (s.ring g).state = 1
  part : (s.ring g).part = p
  up : s.portUp (if dir = 0 then (s.ring g).east else (s.ring g).west) = true

theorem PartialOk.handed {s : State} {p g t dir src lines : Nat} (h : PartialOk s p g t dir src lines) (cmd : KvCmd) : PartialOk (s.handed p cmd) p g t dir src lines where
  step := h.step
  side := h.side
  area := h.area
  some_ := h.some_
  isOpen := h.isOpen
  part := h.part
  up := h.up

/-- A ring's guests are bound. -/
def State.boundGuests (s : State) (c : RingCtx) : State := (s.updSeq c.guest0 fun q => { q with guest := true }).updSeq c.guest1 fun q => { q with guest := true }

theorem State.boundGuests_guest (s : State) {c : RingCtx} (h : c.guest0 ≠ c.guest1) : ((s.boundGuests c).seq c.guest0).guest = true ∧ ((s.boundGuests c).seq c.guest1).guest = true := by
  constructor
  · refine (congrArg KvSeq.guest (Tab.get_upd_ne _ _ h)).trans ?_
    exact congrArg KvSeq.guest (Tab.get_upd_self _ _ _)
  · exact congrArg KvSeq.guest (Tab.get_upd_self _ _ _)

section
variable {p x : Nat} {k : KvPool} (hpool : s.pool p = some k) (hg : par x 0 8 ≤ 15)
include hpool hg

theorem State.kvRingOpen_ok (hok : RingOk s k p (ringOf p x)) (hidle : (s.ring (par x 0 8)).state = 0) :
    s.kvRingOpen p x = ({}, (s.boundGuests (ringOf p x)).updRing (par x 0 8) fun _ => ringOf p x) := by
  have hg' : ¬ 15 < par x 0 8 := not_lt.mpr hg
  unfold State.kvRingOpen
  rw [hpool]
  dsimp only
  rw [refusal_pass (by
    simp [hg', hok.size, not_le.mpr hok.pos, hok.east, hok.west, hok.home, hok.guest0, hok.guest1, hok.arrive, hok.sent, hok.base, hok.stride, hok.area, hidle,
      hok.homeOpen, hok.apart, hok.free0, hok.free1])]
  rfl

theorem State.kvRingOpen_effect (hok : RingOk s k p (ringOf p x)) (hidle : (s.ring (par x 0 8)).state = 0) :
    ∃ u : State, s.kvRingOpen p x = ({}, u) ∧ u.tick = s.tick ∧ u.mem = s.mem ∧ u.ring (par x 0 8) = ringOf p x ∧ (u.seq (ringOf p x).guest0).guest = true ∧
      (u.seq (ringOf p x).guest1).guest = true := by
  obtain ⟨hbound0, hbound1⟩ := State.boundGuests_guest s hok.apart
  refine ⟨_, State.kvRingOpen_ok hpool hg hok hidle, ?_, ?_, Tab.get_upd_self _ _ _, hbound0, hbound1⟩
  · rw [State.updRing_tick, State.boundGuests, State.updSeq_tick, State.updSeq_tick]
  · rw [State.updRing_mem, State.boundGuests, State.updSeq_mem, State.updSeq_mem]

theorem State.kvRingStep_ok (hok : StepOk s p (par x 0 8) (par x 1 8)) :
    s.kvRingStep p x none = ({}, (s.shardSent k (par x 0 8) (par x 1 8) ((s.ring (par x 0 8)).shardSeq (par x 1 8))).updRing (par x 0 8) fun c => { c with
      sending := some (par x 1 8, (s.ring (par x 0 8)).shardSeq (par x 1 8), s.heldPages k ((s.ring (par x 0 8)).shardSeq (par x 1 8))) }) := by
  have hg' : ¬ 15 < par x 0 8 := not_lt.mpr hg
  obtain ⟨hstate, hpart, hidle, hstep, hhave, hopen, hup⟩ := hok
  have hhave' : (par x 1 8 != 1 && !((s.ring (par x 0 8)).lastArrived == par x 1 8 - 1 || (s.ring (par x 0 8)).lastArrived == par x 1 8)) = false := by
    rcases hhave with h | h | h <;> simp [h]
  unfold State.kvRingStep
  rw [hpool]
  dsimp only
  rw [refusal_pass (by simp only [hhave']; simp [hg', hstate, hpart, hidle, ← hstep, hopen]), hup]
  rfl

theorem State.kvRingStep_effect (hok : StepOk s p (par x 0 8) (par x 1 8)) : ∃ u : State, s.kvRingStep p x none = ({}, u) ∧ u.tick = s.tick ∧ u.mem = s.mem ∧
    u.pgk.seqs = s.pgk.seqs ∧ (u.ring (par x 0 8)).sending =
      some (par x 1 8, (s.ring (par x 0 8)).shardSeq (par x 1 8), s.heldPages k ((s.ring (par x 0 8)).shardSeq (par x 1 8))) := by
  have hkept := State.shardSent_kept s k (par x 0 8) (par x 1 8) ((s.ring (par x 0 8)).shardSeq (par x 1 8))
  exact ⟨_, State.kvRingStep_ok hpool hg hok, (State.updRing_tick _ _ _).trans hkept.tick, (State.updRing_mem _ _ _).trans hkept.mem,
    (State.updRing_pgk_seqs _ _ _).trans hkept.seqs, congrArg RingCtx.sending (Tab.get_upd_self _ _ _)⟩

theorem State.kvPartialSend_ok (hok : PartialOk s p (par x 0 8) (par x 1 8) (par x 2 8) (par x 8 64) (par x 16 32)) :
    ∃ u : State, s.kvPartialSend p x none = ({}, u) ∧ RingKept s u := by
  refine ⟨_, ?_, State.partialSent_kept s k (par x 0 8) (par x 1 8) (par x 2 8) (par x 8 64) (par x 16 32)⟩
  obtain ⟨hstep, hdir, harea, hlines, hstate, hpart, hup⟩ := hok
  have hg' : ¬ 15 < par x 0 8 := not_lt.mpr hg
  unfold State.kvPartialSend
  rw [hpool]
  dsimp only
  rw [refusal_pass (by simp [hg', not_lt.mpr hstep, not_lt.mpr hdir, harea, hlines, hstate, hpart])]
  dsimp only
  by_cases hd : par x 2 8 = 0
  · rw [if_pos hd] at hup
    rw [State.partialSent, if_pos hd, if_pos hd, if_pos hd, hup]
    rfl
  · rw [if_neg hd] at hup
    rw [State.partialSent, if_neg hd, if_neg hd, if_neg hd, hup]
    rfl

end

/-- Pages no longer pinned by a send, in ascending order. -/
def State.unpinned (s : State) (p : Nat) (pages : List Nat) : State := (pages.insertionSort (· ≤ ·)).foldl (fun s y => s.unpin p y) s

theorem State.unpinned_pagesOnly (s : State) (p : Nat) (pages : List Nat) : PagesOnly s (s.unpinned p pages) :=
  PagesOnly.foldl (fun t y => State.unpin_pagesOnly t p y) _ s

/-- A ring's context is closed: its pins end and its guests are free. -/
def State.ringClosed (s : State) (p g : Nat) : State :=
  ((s.unpinned p (((s.ring g).sending.map fun y => y.2.2).getD [])).updSeq (s.ring g).guest0 fun q => { q with guest := false }).updSeq (s.ring g).guest1
    fun q => { q with guest := false }

theorem State.ringClosed_kept (s : State) (p g : Nat) :
    (s.ringClosed p g).tick = s.tick ∧ (s.ringClosed p g).mem = s.mem ∧ (s.ringClosed p g).pgk.rings = s.pgk.rings := by
  have hkept := (State.unpinned_pagesOnly s p (((s.ring g).sending.map fun y => y.2.2).getD [])).ringKept
  simp [State.ringClosed, hkept.tick, hkept.mem, hkept.rings]

theorem State.kvRingClose_ok {p x : Nat} (hg : par x 0 8 ≤ 15) (hstate : (s.ring (par x 0 8)).state ≠ 0) (hpart : (s.ring (par x 0 8)).part = p) :
    s.kvRingClose p x = ({}, (s.ringClosed p (par x 0 8)).updRing (par x 0 8) fun _ => {}) := by
  have hg' : ¬ 15 < par x 0 8 := not_lt.mpr hg
  have hstate' : ((s.ring (par x 0 8)).state == 0) = false := beq_eq_false_iff_ne.mpr hstate
  unfold State.kvRingClose
  dsimp only
  rw [refusal_pass (by simp only [hstate']; simp [hg', hpart])]
  rfl

theorem State.kvRingClose_effect {p x : Nat} (hg : par x 0 8 ≤ 15) (hstate : (s.ring (par x 0 8)).state ≠ 0) (hpart : (s.ring (par x 0 8)).part = p) :
    ∃ u : State, s.kvRingClose p x = ({}, u) ∧ u.tick = s.tick ∧ u.mem = s.mem ∧ u.pgk.rings = s.pgk.rings.set (par x 0 8) {} := by
  obtain ⟨htick, hmem, hrings⟩ := State.ringClosed_kept s p (par x 0 8)
  exact ⟨_, State.kvRingClose_ok hg hstate hpart, (State.updRing_tick _ _ _).trans htick, (State.updRing_mem _ _ _).trans hmem,
    (State.updRing_pgk_rings _ _ _).trans (congrArg (fun r : Tab RingCtx => r.set (par x 0 8) {}) hrings)⟩

/-! ### Sends that end, and what arrives (R174, R175, R235) -/

/-- The send of step `m` has ended: its pages are released, and its guest holds no shard to send on. -/
def State.sendEnded (s : State) (g m n : Nat) (pages : List Nat) : State :=
  (s.unpinned (s.ring g).part pages).updRing g fun c =>
    { c with sending := none, lastSent := m, unsent0 := c.unsent0 && n != c.guest0, unsent1 := c.unsent1 && n != c.guest1 }

theorem exec_ringSendDone {g : Fin 16} {m n : Nat} {pages : List Nat} (hsend : (s.ring g.val).sending = some (m, n, pages))
    (hgone : (s.port (s.ring g.val).east).txq.all (fun f => f.vc != 1) = true) :
    exec (.ringSendDone g) s = .next ((s.sendEnded g.val m n pages).signalTally (s.ring g.val).sent 1) := by
  have hidle : ¬ ((s.port (s.ring g.val).east).txq.any fun f => f.vc == 1) = true := by
    rw [List.any_eq_true]
    rintro ⟨f, hf, hvc⟩
    exact bne_iff_ne.mp (List.all_eq_true.mp hgone f hf) (beq_iff_eq.mp hvc)
  change execRingSendDone g s = _
  unfold execRingSendDone
  dsimp only
  rw [hsend]
  dsimp only
  exact if_neg hidle

/-- The port whose inbox holds the first message of a type for a ring. -/
theorem findRing {type g i : Nat} {p : Fin 2} {m : Msg} (hfirst : p = 1 → s.ringMsg type g 0 = none) (hmsg : s.ringMsg type g p.val = some (i, m)) :
    [0, 1].findSome? (fun p => (s.ringMsg type g p).map fun x => (p, x)) = some (p.val, i, m) := by
  match p with
  | 0 => simp [show s.ringMsg type g 0 = some (i, m) from hmsg]
  | 1 => simp [hfirst rfl, show s.ringMsg type g 1 = some (i, m) from hmsg]

/-- With no journal open an arrival leaves no record. -/
theorem State.journalRing_closed {t : State} (h : t.jrn.j.isOpen = false) (p kind : Nat) (m : Msg) : t.journalRing p kind m = t :=
  State.journalAt_closed t h _ _ _ _ _ _

section
variable {g : Fin 16} {p : Fin 2} {i : Nat} {m : Msg} (hreplay : s.jrn.r.running = false) (hjournal : s.jrn.j.isOpen = false) (hstate : (s.ring g.val).state = 1)
  (hland : s.landingAt g.val = false)
include hreplay hjournal hstate hland

theorem exec_ringArrival {u : State} (hfirst : p = 1 → s.ringMsg 2 g.val 0 = none) (hmsg : s.ringMsg 2 g.val p.val = some (i, m)) (hwest : (s.ring g.val).west = p.val)
    (hshard : (s.dropMsg p.val i m).shardIn g.val m.payload = some u) (hopen : (u.ring g.val).state = 1) :
    exec (.ringArrival g) s = .next ((s.dropMsg p.val i m).admitRing g.val 2 m.payload) := by
  change execRingArrival g s = _
  unfold execRingArrival
  rw [findRing hfirst hmsg]
  dsimp only
  rw [if_neg (ne_true_of_eq_false hland), if_neg (by simp [hreplay, hstate]), if_neg (not_not.mpr hwest), hshard]
  dsimp only
  rw [if_pos hopen]
  exact congrArg _ (State.journalRing_closed (by exact hjournal) _ _ _)

theorem exec_partialArrival (hfirst : p = 1 → s.ringMsg 3 g.val 0 = none) (hmsg : s.ringMsg 3 g.val p.val = some (i, m))
    (hopen : (((s.dropMsg p.val i m).partialIn g.val m.payload).ring g.val).state = 1) :
    exec (.partialArrival g) s = .next ((s.dropMsg p.val i m).admitRing g.val 3 m.payload) := by
  have hgo : ¬ ((s.dropMsg p.val i m).jrn.r.running || ((s.dropMsg p.val i m).ring g.val).state ≠ 1) = true := by
    change ¬ (s.jrn.r.running || (s.ring g.val).state ≠ 1) = true
    simp [hreplay, hstate]
  change execPartialArrival g s = _
  unfold execPartialArrival
  rw [findRing hfirst hmsg]
  dsimp only
  rw [if_neg (ne_true_of_eq_false hland), if_neg hgo, if_pos hopen]
  exact congrArg _ (State.journalRing_closed (by exact hjournal) _ _ _)

end

section
variable {x : Landing} (hstate : (s.ring x.ring).state = 1)
include hstate

theorem State.landOne_shard {u : State} (hkind : x.kind = 2) (hshard : s.shardIn x.ring x.payload = some u) :
    s.landOne x = { u with pgk.landing := u.pgk.landing.filter fun y => y.ring != x.ring } := by
  unfold State.landOne
  dsimp only
  rw [if_neg (not_not.mpr hstate), if_neg (by omega), hshard]

theorem State.landOne_partial (hkind : x.kind = 3) : s.landOne x = { s.partialIn x.ring x.payload with
    pgk.landing := (s.partialIn x.ring x.payload).pgk.landing.filter fun y => y.ring != x.ring } := by
  unfold State.landOne
  dsimp only
  rw [if_neg (not_not.mpr hstate), if_pos hkind]

end

/-- An admitted message takes effect in the tick after its admission. -/
theorem State.land_one {x : Landing} (h : s.pgk.landing = [x]) : s.land = if x.at_ < s.tick then s.landOne x else s := by
  unfold State.land
  rw [h]
  by_cases hdue : x.at_ < s.tick <;> simp [hdue]

section
variable {h : Hdr} {x : BitVec 384} {k : KvPool} (hfree : keeperFree s h.fn.val) (hpool : s.pool h.fn.val = some k) (hg : par x.toNat 0 8 ≤ 15)
include hfree hpool hg

theorem exec_kvRingOpen (hok : RingOk s k h.fn.val (ringOf h.fn.val x.toNat)) (hidle : (s.ring (par x.toNat 0 8)).state = 0) :
    ∃ t, exec (.kvRingOpen h x) s = .next t ∧ kvRan t h 0x4007 x (0, 0, 0, 0) none ∧ t.ring (par x.toNat 0 8) = ringOf h.fn.val x.toNat ∧
      (t.seq (ringOf h.fn.val x.toNat).guest0).guest = true ∧ (t.seq (ringOf h.fn.val x.toNat).guest1).guest = true ∧ t.mem = s.mem := by
  obtain ⟨u, hopen, htick, hmem, hring, hbound0, hbound1⟩ :=
    State.kvRingOpen_effect (s := s.handed h.fn.val (hostCmd s h 0x4007 x)) (x := x.toNat) hpool hg (hok.handed _) hidle
  obtain ⟨hexec, hran⟩ := keeper_fin x hfree (op := 0x4007) (congrArg (kvFin _) hopen) htick
  exact ⟨_, hexec, hran, hring, hbound0, hbound1, hmem⟩

theorem exec_kvRingStep (hok : StepOk s h.fn.val (par x.toNat 0 8) (par x.toNat 1 8)) :
    ∃ t, exec (.kvRingStep h x) s = .next t ∧ kvRan t h 0x4008 x (0, 0, 0, 0) none ∧ (t.ring (par x.toNat 0 8)).sending = some (par x.toNat 1 8,
      (s.ring (par x.toNat 0 8)).shardSeq (par x.toNat 1 8), s.heldPages k ((s.ring (par x.toNat 0 8)).shardSeq (par x.toNat 1 8))) ∧ t.mem = s.mem ∧ t.pgk.seqs = s.pgk.seqs := by
  obtain ⟨u, hstep, htick, hmem, hseqs, hsend⟩ := State.kvRingStep_effect (s := s.handed h.fn.val (hostCmd s h 0x4008 x)) (x := x.toNat) hpool hg (hok.handed _)
  obtain ⟨hexec, hran⟩ := keeper_fin x hfree (op := 0x4008) (congrArg (kvFin _) hstep) htick
  exact ⟨_, hexec, hran, hsend, hmem, hseqs⟩

theorem exec_kvPartialSend (hok : PartialOk s h.fn.val (par x.toNat 0 8) (par x.toNat 1 8) (par x.toNat 2 8) (par x.toNat 8 64) (par x.toNat 16 32)) :
    ∃ t, exec (.kvPartialSend h x) s = .next t ∧ kvRan t h 0x4009 x (0, 0, 0, 0) none ∧ t.mem = s.mem ∧ t.pgk.rings = s.pgk.rings := by
  obtain ⟨u, hsend, hkept⟩ := State.kvPartialSend_ok (s := s.handed h.fn.val (hostCmd s h 0x4009 x)) (x := x.toNat) hpool hg (hok.handed _)
  obtain ⟨hexec, hran⟩ := keeper_fin x hfree (op := 0x4009) (congrArg (kvFin _) hsend) hkept.tick
  exact ⟨_, hexec, hran, hkept.mem, hkept.rings⟩

omit hpool in
theorem exec_kvRingClose (hstate : (s.ring (par x.toNat 0 8)).state ≠ 0) (hpart : (s.ring (par x.toNat 0 8)).part = h.fn.val) :
    ∃ t, exec (.kvRingClose h x) s = .next t ∧ kvRan t h 0x400A x (0, 0, 0, 0) none ∧ t.pgk.rings = s.pgk.rings.set (par x.toNat 0 8) {} ∧ t.mem = s.mem := by
  obtain ⟨u, hclose, htick, hmem, hrings⟩ := State.kvRingClose_effect (s := s.handed h.fn.val (hostCmd s h 0x400A x)) (x := x.toNat) hg hstate hpart
  obtain ⟨hexec, hran⟩ := keeper_fin x hfree (op := 0x400A) (congrArg (kvFin _) hclose) htick
  exact ⟨_, hexec, hran, hrings, hmem⟩

end

/-- A send that has ended signals its tally. -/
theorem State.sendEnded_signal (s : State) (g m n : Nat) (pages : List Nat) (tally : Nat) : (((s.sendEnded g m n pages).signalTally tally 1).ring g).sending = none ∧
    (((s.sendEnded g m n pages).signalTally tally 1).ring g).lastSent = m ∧ ((s.sendEnded g m n pages).signalTally tally 1).mem = s.mem ∧
    ((s.sendEnded g m n pages).signalTally tally 1).tly.ops = s.tly.ops ++ [{ tally := tally, isSet := false, value := 1, due := s.tick }] := by
  have hunpin := State.unpinned_pagesOnly s (s.ring g).part pages
  have hself : ((s.sendEnded g m n pages).signalTally tally 1).ring g = _ := Tab.get_upd_self _ _ _
  refine ⟨congrArg RingCtx.sending hself, congrArg RingCtx.lastSent hself, hunpin.mem, ?_⟩
  change (s.unpinned (s.ring g).part pages).tly.ops ++ [{ tally := tally, isSet := false, value := 1, due := (s.unpinned (s.ring g).part pages).tick }] = _
  rw [hunpin]

/-- Settles O30: ring commands, sends that end, and arrivals. -/
theorem keeperRingsComplete : Obligations.KeeperRingsComplete := by
  unfold Obligations.KeeperRingsComplete
  refine ⟨?_, ?_, ?_, ?_, fun x s u hstate hkind => State.landOne_shard hstate hkind, fun x s hstate hkind => State.landOne_partial hstate hkind,
    fun x s => State.land_one⟩
  · intro h x k s p g hfree hpool hg
    refine ⟨?_, ?_, ?_, ?_⟩
    · intro c hsize hpos heast hwest hhome hguest0 hguest1 harrive hsent hbase hstride harea hidle hopen hapart hfree0 hfree1
      exact exec_kvRingOpen hfree hpool hg ⟨hsize, hpos, heast, hwest, hhome, hguest0, hguest1, harrive, hsent, hbase, hstride, harea, hopen, hapart, hfree0, hfree1⟩ hidle
    · intro c m n _ hstate hpart hidle hstep hhave hopen hup
      exact exec_kvRingStep hfree hpool hg ⟨hstate, hpart, hidle, hstep, hhave, hopen, hup⟩
    · intro c src lines _ hstep hdir harea hlines hstate hpart hup
      exact exec_kvPartialSend hfree hpool hg ⟨hstep, hdir, harea, hlines, hstate, hpart, hup⟩
    · intro hstate hpart
      exact exec_kvRingClose hfree hg hstate hpart
  · intro g m n pages s _ hsend hgone
    exact ⟨_, exec_ringSendDone hsend hgone, State.sendEnded_signal s g.val m n pages _⟩
  · intro g p i m s u hfirst hmsg hreplay hjournal hstate hwest hland hshard hopen
    exact exec_ringArrival hreplay hjournal hstate hland hfirst hmsg hwest hshard hopen
  · intro g p i m s hfirst hmsg hreplay hjournal hstate hland hopen
    exact exec_partialArrival hreplay hjournal hstate hland hfirst hmsg hopen

end Sys2Proof.Machine
end

section
/-! Carry records: settles O32. -/

namespace Sys2Proof.Machine

open Sys2Proof.Claims

variable {s : State}

/-! ### Reading back what was written on both copies -/

theorem Memory.read_congr {m m' : Memory} {a n : Nat} (h : ∀ i < n, m.get (a + i) = m'.get (a + i)) : Memory.read m a n = Memory.read m' a n := by
  induction n generalizing a with
  | zero => rfl
  | succ n ih =>
    have htail : Memory.read m (a + 1) n = Memory.read m' (a + 1) n := ih fun i hi => by
      have := h (i + 1) (by omega)
      rwa [show a + 1 + i = a + (i + 1) by omega]
    exact congrArg₂ List.cons (h 0 (Nat.succ_pos n)) htail

/-- A write of both copies changes memory, its marks and the record of a comparison only. -/
theorem State.wrBoth_rest (s : State) (a : Nat) (bs : List Byte) :
    s.wrBoth a bs = { s with mem := (s.wrBoth a bs).mem, errs := (s.wrBoth a bs).errs, watch := (s.wrBoth a bs).watch } := by
  unfold State.wrBoth
  dsimp only
  split <;> rfl

theorem State.wrBoth_rods (s : State) (a : Nat) (bs : List Byte) : (s.wrBoth a bs).rods = s.rods := by
  rw [State.wrBoth_rest]

theorem State.wrBoth_tick (s : State) (a : Nat) (bs : List Byte) : (s.wrBoth a bs).tick = s.tick := by
  rw [State.wrBoth_rest]

theorem State.wrBoth_tly (s : State) (a : Nat) (bs : List Byte) : (s.wrBoth a bs).tly = s.tly := by
  rw [State.wrBoth_rest]

/-- What a write does to memory depends on memory and on the pairs that are locked. -/
theorem State.wrBoth_mem_congr {s t : State} (hmem : t.mem = s.mem) (hrods : t.rods = s.rods) (a : Nat) (bs : List Byte) : (t.wrBoth a bs).mem = (s.wrBoth a bs).mem := by
  unfold State.wrBoth State.copyOf State.wr
  dsimp only
  rw [hmem, hrods]
  split <;> rfl

/-- Bytes written to both copies are read back. -/
theorem State.wrBoth_rd (s : State) (a : Nat) (bs : List Byte) (hlen : bs.length ≤ spadSize) : (s.wrBoth a bs).rd a bs.length = bs := by
  have hone : (s.wr a bs).mem.read a bs.length = bs := Memory.read_write s.mem bs a
  unfold State.wrBoth State.rd
  dsimp only
  split
  · next b hb =>
    have hfar : b = a + spadSize := by
      unfold State.copyOf at hb
      dsimp only at hb
      split at hb
      · exact (Option.some.inj hb).symm
      · exact absurd hb nofun
    refine (Memory.read_congr fun i hi => ?_).trans hone
    exact Memory.get_write_out _ _ _ _ (.inl (by omega))
  · exact hone

/-- With no hand-over a write reaches memory. -/
theorem State.putFor_free {a : Nat} {bs : List Byte} (h : s.heldRod a bs.length = none) (job : Option Nat) : s.putFor job a bs = s.wrBoth a bs := by
  unfold State.putFor
  rw [h]

/-! ### Carry commands in the keeper (R196) -/

/-- A carry command in the keeper: its result, or the swap that goes on. -/
def State.carryRun (s : State) (p op x : Nat) (c : KvCmd) : KvRun × State :=
  match s.carryExec p op x with
  | (some rep, t) => kvFin c (rep, t)
  | (none, t) => ({ cmd := c }, t)

section
variable {h : Hdr} {x : BitVec 384} (hfree : keeperFree s h.fn.val)
include hfree

theorem carry_fin {op : Nat} {rep : Rep} {u : State}
    (hop : (s.handed h.fn.val (hostCmd s h op x)).kvExec h.fn.val { cmd := hostCmd s h op x } =
      (s.handed h.fn.val (hostCmd s h op x)).carryRun h.fn.val op x.toNat (hostCmd s h op x))
    (hcarry : (s.handed h.fn.val (hostCmd s h op x)).carryExec h.fn.val op x.toNat = (some rep, u)) (htick : u.tick = s.tick) :
    firmware h s (doKv h op x s) = .next (State.keepRun h.fn.val (kvFin (hostCmd s h op x) (rep, u))) ∧
      kvRan (State.keepRun h.fn.val (kvFin (hostCmd s h op x) (rep, u))) h op x (rep.status, rep.detail, rep.r0, rep.r1) rep.ext := by
  have hrun : (s.handed h.fn.val (hostCmd s h op x)).carryRun h.fn.val op x.toNat (hostCmd s h op x) = kvFin (hostCmd s h op x) (rep, u) := by
    rw [State.carryRun, hcarry]
  exact keeper_fin x hfree (hop.trans hrun) htick

theorem carry_goes_on {op : Nat} {u : State}
    (hop : (s.handed h.fn.val (hostCmd s h op x)).kvExec h.fn.val { cmd := hostCmd s h op x } =
      (s.handed h.fn.val (hostCmd s h op x)).carryRun h.fn.val op x.toNat (hostCmd s h op x))
    (hcarry : (s.handed h.fn.val (hostCmd s h op x)).carryExec h.fn.val op x.toNat = (none, u)) :
    firmware h s (doKv h op x s) = .next (State.keepRun h.fn.val ({ cmd := hostCmd s h op x }, u)) := by
  have hrun : (s.handed h.fn.val (hostCmd s h op x)).carryRun h.fn.val op x.toNat (hostCmd s h op x) = ({ cmd := hostCmd s h op x }, u) := by
    rw [State.carryRun, hcarry]
  rw [keeper_runs x hfree op, hop, hrun]

end

/-- The stream that a command names is there and does not execute. -/
structure CarryNamed (s : State) (k : CarryDecl) (p x : Nat) : Prop where
  decl : s.carryDecl p = some k
  has : k.has (par x 0 16) = true
  isOpen : (s.stream (par x 0 16)).isOpen = true
  gen : (s.stream (par x 0 16)).gen.toNat = par x 2 16
  still : (s.stream (par x 0 16)).executing = false

theorem CarryNamed.handed {k : CarryDecl} {p x : Nat} (h : CarryNamed s k p x) (cmd : KvCmd) : CarryNamed (s.handed p cmd) k p x where
  decl := h.decl
  has := h.has
  isOpen := h.isOpen
  gen := h.gen
  still := h.still

/-- Memory reads without an error, and no hand-over holds a scratchpad. -/
structure Undisturbed (s : State) : Prop where
  errs : s.errs.cells = []
  held : ∀ a m, s.heldRod a m = none

theorem Undisturbed.handed (h : Undisturbed s) (p : Nat) (cmd : KvCmd) : Undisturbed (s.handed p cmd) := ⟨h.errs, h.held⟩

theorem Undisturbed.blockRead (h : Undisturbed s) (a n : Nat) (job : Option Nat) : s.blockRead a n job = (s.rd a n, s) := State.blockRead_clean s h.errs a n (h.held a n) job

/-- Whether a scratchpad is held depends on the rods only. -/
theorem State.heldRod_congr {s t : State} (hrods : t.rods = s.rods) (a n : Nat) : t.heldRod a n = s.heldRod a n := by
  unfold State.heldRod
  rw [hrods]

theorem Undisturbed.putFor (h : Undisturbed s) {t : State} (hrods : t.rods = s.rods) (job : Option Nat) (a : Nat) (bs : List Byte) : t.putFor job a bs = t.wrBoth a bs :=
  State.putFor_free ((State.heldRod_congr hrods _ _).trans (h.held _ _)) job

/-- A stream as CARRY_OPEN makes it. -/
def newStream (p : Nat) (gen : BitVec 16) (w tally : Nat) : Stream := { isOpen := true, motion := 3, part := p, gen := gen, width := w, resTally := tally }

/-- A stream as CARRY_RESET leaves it. -/
def Stream.wasReset (t : Stream) : Stream := { t with lastReset := t.stepsDone.setWidth 32, motion := 3 }

/-- A stream as CARRY_IMPORT leaves it, by the header of its record. -/
def Stream.imported (t : Stream) (g : Nat) : Stream :=
  { t with active := bit g 48, stepsDone := BitVec.ofNat 64 (fld g 64 64), chunks := BitVec.ofNat 32 (fld g 128 32), lastReset := BitVec.ofNat 32 (fld g 160 32), motion := 3 }

/-- Where the active bank of a stream's record begins. -/
def State.bankAt (s : State) (k : CarryDecl) (n : Nat) : Nat := s.recordAt k n + 64 + (if (s.stream n).active then 4 * (s.stream n).width else 0)

section
variable {p x : Nat} {k : CarryDecl}

theorem State.carryExec_open (hdecl : s.carryDecl p = some k) (hhas : k.has (par x 0 16) = true) (hwidth : widthOk k.maxWidth (par x 2 16) = true) (hmode : par x 4 8 = 0)
    (htally : s.partTally p (par x 6 16) = true) (hclosed : (s.stream (par x 0 16)).isOpen = false) :
    s.carryExec p 0x4020 x = (some { r0 := ((s.stream (par x 0 16)).gen + 1).toNat },
      (s.updStream (par x 0 16) fun _ => newStream p ((s.stream (par x 0 16)).gen + 1) (par x 2 16) (par x 6 16)).wr (k.home (par x 0 16))
        ((newStream p ((s.stream (par x 0 16)).gen + 1) (par x 2 16) (par x 6 16)).header (par x 0 16) ++ List.replicate (12 * par x 2 16) 0)) := by
  have hbanks : 4 * par x 2 16 + 4 * par x 2 16 + 4 * par x 2 16 = 12 * par x 2 16 := by omega
  unfold State.carryExec
  simp [hdecl, hhas, hwidth, hmode, htally, hclosed, hbanks, newStream]

theorem State.wr_mem_congr {s t : State} (hmem : t.mem = s.mem) (a : Nat) (bs : List Byte) : (t.wr a bs).mem = (s.wr a bs).mem :=
  congrArg (fun m : Memory => m.write a bs) hmem

theorem State.carryExec_open_effect {t0 : Stream} (ht0 : s.stream (par x 0 16) = t0) (hdecl : s.carryDecl p = some k) (hhas : k.has (par x 0 16) = true)
    (hwidth : widthOk k.maxWidth (par x 2 16) = true) (hmode : par x 4 8 = 0) (htally : s.partTally p (par x 6 16) = true) (hclosed : t0.isOpen = false) :
    ∃ u : State, s.carryExec p 0x4020 x = (some { r0 := (t0.gen + 1).toNat }, u) ∧ u.tick = s.tick ∧
      u.stream (par x 0 16) = newStream p (t0.gen + 1) (par x 2 16) (par x 6 16) ∧
      u.mem = (s.wr (k.home (par x 0 16)) ((u.stream (par x 0 16)).header (par x 0 16) ++ List.replicate (12 * par x 2 16) 0)).mem := by
  subst ht0
  generalize hu : (s.updStream (par x 0 16) fun _ => newStream p ((s.stream (par x 0 16)).gen + 1) (par x 2 16) (par x 6 16)) = u
  have hself : u.stream (par x 0 16) = newStream p ((s.stream (par x 0 16)).gen + 1) (par x 2 16) (par x 6 16) := hu ▸ State.updStream_stream_self _ _ _
  have htick : u.tick = s.tick := hu ▸ rfl
  have hmem : u.mem = s.mem := hu ▸ rfl
  have hopen := State.carryExec_open hdecl hhas hwidth hmode htally hclosed
  rw [hu, ← hself] at hopen
  refine ⟨_, hopen, htick, hself, ?_⟩
  rw [State.wr_stream]
  exact State.wr_mem_congr hmem _ _

theorem State.carryExec_query (hdecl : s.carryDecl p = some k) (hhas : k.has (par x 0 16) = true) (hopen : (s.stream (par x 0 16)).isOpen = true) :
    s.carryExec p 0x4025 x = (some { ext := some (s.stream (par x 0 16)).bytes }, s) := by
  unfold State.carryExec
  simp [hdecl, hhas, hopen]

section
variable (hok : CarryNamed s k p x)
include hok

theorem State.carryExec_close : s.carryExec p 0x4021 x = (some {}, s.updStream (par x 0 16) fun t => { t with isOpen := false, resident := false }) := by
  obtain ⟨hdecl, hhas, hopen, hgen, hstill⟩ := hok
  unfold State.carryExec
  simp [hdecl, hhas, hopen, hgen, hstill]

theorem State.carryExec_swapOut (hres : (s.stream (par x 0 16)).resident = true) : s.carryExec p 0x4022 x = (none, s.updStream (par x 0 16) fun t => { t with motion := 2 }) := by
  obtain ⟨hdecl, hhas, hopen, hgen, hstill⟩ := hok
  unfold State.carryExec
  simp [hdecl, hhas, hopen, hgen, hstill, hres]

theorem State.carryExec_swapIn (hres : (s.stream (par x 0 16)).resident = false)
    (hslot : s.slotOk k (par x 4 8) (par x 8 32) (recordBytes (s.stream (par x 0 16)).width) = true)
    (hfree : s.slotTaken (par x 4 8) (par x 8 32) (recordBytes (s.stream (par x 0 16)).width) = false) :
    s.carryExec p 0x4023 x = (none, s.updStream (par x 0 16) fun t => { t with motion := 1, rod := par x 4 8, slot := par x 8 32 }) := by
  obtain ⟨hdecl, hhas, hopen, hgen, hstill⟩ := hok
  unfold State.carryExec
  simp [hdecl, hhas, hopen, hgen, hstill, hres, hslot, hfree]

variable (hquiet : Undisturbed s)
include hquiet

theorem State.carryExec_reset : s.carryExec p 0x4024 x = (some {},
    ((s.updStream (par x 0 16) fun _ => (s.stream (par x 0 16)).wasReset).wrBoth (s.recordAt k (par x 0 16)) ((s.stream (par x 0 16)).wasReset.header (par x 0 16))).wrBoth
      (s.bankAt k (par x 0 16)) (s.rd (s.recordAt k (par x 0 16) + 64 + 8 * (s.stream (par x 0 16)).width) (4 * (s.stream (par x 0 16)).width))) := by
  have hput (t : State) (hrods : t.rods = s.rods) := hquiet.putFor hrods none
  obtain ⟨hdecl, hhas, hopen, hgen, hstill⟩ := hok
  unfold State.carryExec
  simp [hdecl, hhas, hopen, hgen, hstill, hquiet.blockRead, Stream.wasReset, State.bankAt]
  rw [hput (s.updStream _ _) rfl, hput _ (State.wrBoth_rods (s.updStream _ _) _ _)]

theorem State.carryExec_export (halign : lineAligned (par x 8 64) = true) (harea : s.partAll p (par x 8 64) (recordBytes (s.stream (par x 0 16)).width) = true) :
    s.carryExec p 0x4026 x = (some {}, s.wrBoth (par x 8 64)
      ((s.stream (par x 0 16)).header (par x 0 16) ++ s.rd (s.recordAt k (par x 0 16) + 64) (12 * (s.stream (par x 0 16)).width))) := by
  obtain ⟨hdecl, hhas, hopen, hgen, hstill⟩ := hok
  unfold State.carryExec
  simp [hdecl, hhas, hopen, hgen, hstill, halign, harea, hquiet.blockRead, hquiet.putFor rfl]

theorem State.carryExec_import (halign : lineAligned (par x 8 64) = true) (harea : s.partAll p (par x 8 64) (recordBytes (s.stream (par x 0 16)).width) = true)
    (hname : fld (s.rdN (par x 8 64) 64) 0 12 = par x 0 16) (hwidth : fld (s.rdN (par x 8 64) 64) 32 16 = (s.stream (par x 0 16)).width)
    (h12 : fld (s.rdN (par x 8 64) 64) 12 4 = 0) (h49 : fld (s.rdN (par x 8 64) 64) 49 15 = 0) (h192 : fld (s.rdN (par x 8 64) 64) 192 320 = 0) :
    s.carryExec p 0x4027 x = (some {}, (s.updStream (par x 0 16) fun _ => (s.stream (par x 0 16)).imported (s.rdN (par x 8 64) 64)).wrBoth
      (s.recordAt k (par x 0 16))
      (((s.stream (par x 0 16)).imported (s.rdN (par x 8 64) 64)).header (par x 0 16) ++ (s.rd (par x 8 64) (recordBytes (s.stream (par x 0 16)).width)).drop 64)) := by
  have hput (t : State) (hrods : t.rods = s.rods) := hquiet.putFor hrods none
  have hhead : leNat ((s.rd (par x 8 64) (recordBytes (s.stream (par x 0 16)).width)).take 64) = s.rdN (par x 8 64) 64 := by
    rw [State.rd, Memory.read_take, recordBytes, Nat.min_eq_left (by omega)]
    rfl
  obtain ⟨hdecl, hhas, hopen, hgen, hstill⟩ := hok
  unfold State.carryExec
  simp [hdecl, hhas, hopen, hgen, hstill, halign, harea, hquiet.blockRead, hhead, hname, hwidth, h12, h49, h192, Stream.imported]
  rw [hput (s.updStream _ _) rfl]

theorem State.carryExec_reset_effect : ∃ u : State, s.carryExec p 0x4024 x = (some {}, u) ∧ u.tick = s.tick ∧
    (u.stream (par x 0 16)).lastReset = (s.stream (par x 0 16)).stepsDone.setWidth 32 ∧
    ((s.stream (par x 0 16)).width ≤ 5440 → u.rd (s.bankAt k (par x 0 16)) (4 * (s.stream (par x 0 16)).width) =
      s.rd (s.recordAt k (par x 0 16) + 64 + 8 * (s.stream (par x 0 16)).width) (4 * (s.stream (par x 0 16)).width)) := by
  refine ⟨_, State.carryExec_reset hok hquiet, ?_, ?_, fun hwidth => ?_⟩
  · rw [State.wrBoth_rest, State.wrBoth_rest]
    rfl
  · rw [State.wrBoth_rest, State.wrBoth_rest]
    exact congrArg Stream.lastReset (State.updStream_stream_self s _ _)
  · have hlen := Memory.read_length s.mem (s.recordAt k (par x 0 16) + 64 + 8 * (s.stream (par x 0 16)).width) (4 * (s.stream (par x 0 16)).width)
    exact (congrArg (State.rd _ _) hlen.symm).trans (State.wrBoth_rd _ _ _ (hlen.trans_le (by unfold spadSize; omega)))

theorem State.carryExec_export_effect (halign : lineAligned (par x 8 64) = true) (harea : s.partAll p (par x 8 64) (recordBytes (s.stream (par x 0 16)).width) = true) :
    ∃ u : State, s.carryExec p 0x4026 x = (some {}, u) ∧ u.tick = s.tick ∧ u.cry = s.cry ∧ u.mem = (s.wrBoth (par x 8 64)
      ((s.stream (par x 0 16)).header (par x 0 16) ++ s.rd (s.recordAt k (par x 0 16) + 64) (12 * (s.stream (par x 0 16)).width))).mem := by
  refine ⟨_, State.carryExec_export hok hquiet halign harea, ?_, ?_, rfl⟩ <;> rw [State.wrBoth_rest]

theorem State.carryExec_import_effect (halign : lineAligned (par x 8 64) = true) (harea : s.partAll p (par x 8 64) (recordBytes (s.stream (par x 0 16)).width) = true)
    (hname : fld (s.rdN (par x 8 64) 64) 0 12 = par x 0 16) (hwidth : fld (s.rdN (par x 8 64) 64) 32 16 = (s.stream (par x 0 16)).width)
    (h12 : fld (s.rdN (par x 8 64) 64) 12 4 = 0) (h49 : fld (s.rdN (par x 8 64) 64) 49 15 = 0) (h192 : fld (s.rdN (par x 8 64) 64) 192 320 = 0) :
    ∃ u : State, s.carryExec p 0x4027 x = (some {}, u) ∧ u.tick = s.tick ∧ u.stream (par x 0 16) = (s.stream (par x 0 16)).imported (s.rdN (par x 8 64) 64) := by
  refine ⟨_, State.carryExec_import hok hquiet halign harea hname hwidth h12 h49 h192, ?_, ?_⟩ <;> rw [State.wrBoth_rest]
  · rfl
  · exact State.updStream_stream_self s _ _

end

end

/-- The numbers of an imported header are read back from the stream. -/
theorem Stream.imported_numbers (t : Stream) (g : Nat) : (t.imported g).stepsDone.toNat = fld g 64 64 ∧ (t.imported g).chunks.toNat = fld g 128 32 ∧
    (t.imported g).lastReset.toNat = fld g 160 32 :=
  ⟨(BitVec.toNat_ofNat ..).trans (Nat.mod_mod _ _), (BitVec.toNat_ofNat ..).trans (Nat.mod_mod _ _), (BitVec.toNat_ofNat ..).trans (Nat.mod_mod _ _)⟩

/-! ### Carry commands of a host (R196) -/

section
variable {h : Hdr} {x : BitVec 384} {k : CarryDecl} (hfree : keeperFree s h.fn.val)
include hfree

theorem exec_carryOpen {t0 : Stream} (ht0 : s.stream (par x.toNat 0 16) = t0) (hdecl : s.carryDecl h.fn.val = some k) (hhas : k.has (par x.toNat 0 16) = true)
    (hwidth : widthOk k.maxWidth (par x.toNat 2 16) = true) (hmode : par x.toNat 4 8 = 0) (htally : s.partTally h.fn.val (par x.toNat 6 16) = true) (hclosed : t0.isOpen = false) :
    ∃ t, exec (.carryOpen h x) s = .next t ∧ kvRan t h 0x4020 x (0, 0, (t0.gen + 1).toNat, 0) none ∧
      t.stream (par x.toNat 0 16) = newStream h.fn.val (t0.gen + 1) (par x.toNat 2 16) (par x.toNat 6 16) ∧
      t.mem = (s.wr (k.home (par x.toNat 0 16)) ((t.stream (par x.toNat 0 16)).header (par x.toNat 0 16) ++ List.replicate (12 * par x.toNat 2 16) 0)).mem := by
  obtain ⟨u, hcarry, htick, hstream, hmem⟩ :=
    State.carryExec_open_effect (s := s.handed h.fn.val (hostCmd s h 0x4020 x)) ht0 hdecl hhas hwidth hmode htally hclosed
  obtain ⟨hexec, hran⟩ := carry_fin hfree (op := 0x4020) rfl hcarry htick
  exact ⟨_, hexec, hran, hstream, hmem⟩

theorem exec_carryQuery (hdecl : s.carryDecl h.fn.val = some k) (hhas : k.has (par x.toNat 0 16) = true) (hopen : (s.stream (par x.toNat 0 16)).isOpen = true) :
    ∃ t, exec (.carryQuery h x) s = .next t ∧ kvRan t h 0x4025 x (0, 0, 0, 0) (some (s.stream (par x.toNat 0 16)).bytes) ∧ t.cry = s.cry := by
  obtain ⟨hexec, hran⟩ := carry_fin hfree (op := 0x4025) rfl (State.carryExec_query (s := s.handed h.fn.val (hostCmd s h 0x4025 x)) hdecl hhas hopen) rfl
  exact ⟨_, hexec, hran, rfl⟩

section
variable (hok : CarryNamed s k h.fn.val x.toNat)
include hok

theorem exec_carryClose : ∃ t, exec (.carryClose h x) s = .next t ∧ kvRan t h 0x4021 x (0, 0, 0, 0) none ∧
    t.cry.streams = s.cry.streams.set (par x.toNat 0 16) { s.stream (par x.toNat 0 16) with isOpen := false, resident := false } ∧ t.mem = s.mem := by
  obtain ⟨hexec, hran⟩ := carry_fin hfree (op := 0x4021) rfl (State.carryExec_close (hok.handed _)) rfl
  exact ⟨_, hexec, hran, rfl, rfl⟩

theorem exec_carrySwapOut (hres : (s.stream (par x.toNat 0 16)).resident = true) : ∃ t, exec (.carrySwapOut h x) s = .next t ∧
    (t.stream (par x.toNat 0 16)).motion = 2 ∧ (∃ r, t.pgk.runs.get h.fn.val = some r ∧ r.res = none) ∧ t.mem = s.mem := by
  have hexec := carry_goes_on hfree (op := 0x4022) rfl (State.carryExec_swapOut (hok.handed (hostCmd s h 0x4022 x)) hres)
  exact ⟨_, hexec, congrArg Stream.motion (State.updStream_stream_self _ _ _), ⟨_, Tab.get_set_self _ _ _, rfl⟩, rfl⟩

theorem exec_carrySwapIn (hres : (s.stream (par x.toNat 0 16)).resident = false)
    (hslot : s.slotOk k (par x.toNat 4 8) (par x.toNat 8 32) (recordBytes (s.stream (par x.toNat 0 16)).width) = true)
    (hfreeSlot : s.slotTaken (par x.toNat 4 8) (par x.toNat 8 32) (recordBytes (s.stream (par x.toNat 0 16)).width) = false) :
    ∃ t, exec (.carrySwapIn h x) s = .next t ∧ (t.stream (par x.toNat 0 16)).motion = 1 ∧ (t.stream (par x.toNat 0 16)).rod = par x.toNat 4 8 ∧
      (t.stream (par x.toNat 0 16)).slot = par x.toNat 8 32 ∧ t.mem = s.mem := by
  have hexec := carry_goes_on hfree (op := 0x4023) rfl (State.carryExec_swapIn (hok.handed (hostCmd s h 0x4023 x)) hres hslot hfreeSlot)
  have hself : ((s.handed h.fn.val (hostCmd s h 0x4023 x)).updStream (par x.toNat 0 16) fun t =>
      { t with motion := 1, rod := par x.toNat 4 8, slot := par x.toNat 8 32 }).stream (par x.toNat 0 16) = _ := State.updStream_stream_self _ _ _
  exact ⟨_, hexec, congrArg Stream.motion hself, congrArg Stream.rod hself, congrArg Stream.slot hself, rfl⟩

variable (hquiet : Undisturbed s)
include hquiet

theorem exec_carryReset : ∃ t, exec (.carryReset h x) s = .next t ∧ kvRan t h 0x4024 x (0, 0, 0, 0) none ∧
    (t.stream (par x.toNat 0 16)).lastReset = (s.stream (par x.toNat 0 16)).stepsDone.setWidth 32 ∧
    ((s.stream (par x.toNat 0 16)).width ≤ 5440 → t.rd (s.bankAt k (par x.toNat 0 16)) (4 * (s.stream (par x.toNat 0 16)).width) =
      s.rd (s.recordAt k (par x.toNat 0 16) + 64 + 8 * (s.stream (par x.toNat 0 16)).width) (4 * (s.stream (par x.toNat 0 16)).width)) := by
  obtain ⟨u, hcarry, htick, hlast, hrd⟩ := State.carryExec_reset_effect (hok.handed (hostCmd s h 0x4024 x)) (hquiet.handed _ _)
  obtain ⟨hexec, hran⟩ := carry_fin hfree (op := 0x4024) rfl hcarry htick
  exact ⟨_, hexec, hran, hlast, hrd⟩

theorem exec_carryExport (halign : lineAligned (par x.toNat 8 64) = true)
    (harea : s.partAll h.fn.val (par x.toNat 8 64) (recordBytes (s.stream (par x.toNat 0 16)).width) = true) :
    ∃ t, exec (.carryExport h x) s = .next t ∧ kvRan t h 0x4026 x (0, 0, 0, 0) none ∧ t.cry = s.cry ∧ t.mem = (s.wrBoth (par x.toNat 8 64)
      ((s.stream (par x.toNat 0 16)).header (par x.toNat 0 16) ++ s.rd (s.recordAt k (par x.toNat 0 16) + 64) (12 * (s.stream (par x.toNat 0 16)).width))).mem := by
  obtain ⟨u, hcarry, htick, hcry, hmem⟩ := State.carryExec_export_effect (hok.handed (hostCmd s h 0x4026 x)) (hquiet.handed _ _) halign harea
  obtain ⟨hexec, hran⟩ := carry_fin hfree (op := 0x4026) rfl hcarry htick
  exact ⟨_, hexec, hran, hcry, hmem.trans (State.wrBoth_mem_congr (s := s) (t := s.handed h.fn.val (hostCmd s h 0x4026 x)) rfl rfl _ _)⟩

theorem exec_carryImport (halign : lineAligned (par x.toNat 8 64) = true)
    (harea : s.partAll h.fn.val (par x.toNat 8 64) (recordBytes (s.stream (par x.toNat 0 16)).width) = true)
    (hname : fld (s.rdN (par x.toNat 8 64) 64) 0 12 = par x.toNat 0 16) (hwidth : fld (s.rdN (par x.toNat 8 64) 64) 32 16 = (s.stream (par x.toNat 0 16)).width)
    (h12 : fld (s.rdN (par x.toNat 8 64) 64) 12 4 = 0) (h49 : fld (s.rdN (par x.toNat 8 64) 64) 49 15 = 0) (h192 : fld (s.rdN (par x.toNat 8 64) 64) 192 320 = 0) :
    ∃ t, exec (.carryImport h x) s = .next t ∧ kvRan t h 0x4027 x (0, 0, 0, 0) none ∧
      t.stream (par x.toNat 0 16) = (s.stream (par x.toNat 0 16)).imported (s.rdN (par x.toNat 8 64) 64) := by
  obtain ⟨u, hcarry, htick, hstream⟩ :=
    State.carryExec_import_effect (hok.handed (hostCmd s h 0x4027 x)) (hquiet.handed _ _) halign harea hname hwidth h12 h49 h192
  obtain ⟨hexec, hran⟩ := carry_fin hfree (op := 0x4027) rfl hcarry htick
  exact ⟨_, hexec, hran, hstream⟩

end

end

/-! ### The last slot of a swap (R194, R195) -/

/-- The swap of a stream has ended. -/
def State.swapEnded (s : State) (n : Nat) (resident : Bool) : State := s.updStream n fun t => { t with resident := resident, motion := 0 }

theorem State.swapEnded_stream (s : State) (n : Nat) (resident : Bool) : ((s.swapEnded n resident).stream n).resident = resident ∧ ((s.swapEnded n resident).stream n).motion = 0 :=
  have hself : (s.swapEnded n resident).stream n = _ := State.updStream_stream_self _ _ _
  ⟨congrArg Stream.resident hself, congrArg Stream.motion hself⟩

theorem State.swapEnded_signal (s : State) (n : Nat) (resident : Bool) (tally : Nat) : (((s.swapEnded n resident).signalTally tally 1).stream n).resident = resident ∧
    (((s.swapEnded n resident).signalTally tally 1).stream n).motion = 0 ∧ ((s.swapEnded n resident).signalTally tally 1).mem = s.mem ∧
    ((s.swapEnded n resident).signalTally tally 1).tly.ops = s.tly.ops ++ [{ tally := tally, isSet := false, value := 1, due := s.tick }] :=
  ⟨(s.swapEnded_stream n resident).1, (s.swapEnded_stream n resident).2, rfl, rfl⟩

section
variable {n : Nat} {k : CarryDecl} (hdecl : s.carryDecl (s.stream n).part = some k) (hquiet : Undisturbed s)
include hdecl hquiet

theorem State.swapDone_in (hin : (s.stream n).motion = 1) : s.swapDone n =
    ((s.wrBoth (spadAddr (s.stream n).rod (s.stream n).slot) (s.rd (k.home n) (recordBytes (s.stream n).width))).swapEnded n true).signalTally (s.stream n).resTally 1 := by
  unfold State.swapDone
  simp only [hdecl, hin, if_true, hquiet.blockRead, hquiet.putFor rfl]
  rfl

theorem State.swapDone_out (hout : (s.stream n).motion = 2) : s.swapDone n =
    (s.wr (k.home n) ((s.stream n).header n ++ s.rd (spadAddr (s.stream n).rod (s.stream n).slot + 64) (12 * (s.stream n).width))).swapEnded n false := by
  have hin : ¬ (2 : BitVec 2) = 1 := by decide
  unfold State.swapDone
  simp only [hdecl, hout, if_neg hin, if_true, hquiet.blockRead]
  rfl

end

/-- What a run that is kept leaves as it was. -/
theorem State.keepRun_rest (p : Nat) (a : KvRun × State) : (State.keepRun p a).cry = a.2.cry ∧ (State.keepRun p a).tly = a.2.tly ∧ (State.keepRun p a).mem = a.2.mem := ⟨rfl, rfl, rfl⟩

/-- A swap that a command of the keeper waits for. -/
theorem exec_carrySwapDone {n : BitVec 12} {r : KvRun} (hrun : s.pgk.runs.get (s.stream n.toNat).part = some r) (hres : r.res = none)
    (hname : par r.cmd.params.toNat 0 16 = n.toNat) (hop : (r.cmd.op == 0x4022 || r.cmd.op == 0x4023) = true) :
    exec (.carrySwapDone n) s = .next (State.keepRun (s.stream n.toNat).part ({ r with res := some (0, 0, 0, 0) }, s.swapDone n.toNat)) := by
  change execCarrySwapDone n s = _
  unfold execCarrySwapDone
  simp only [hrun, hop, hres, hname, Option.isNone_none, beq_self_eq_true, Bool.and_self, if_true]
  rfl

section
variable {n : BitVec 12} {r : KvRun} {k : CarryDecl} (hrun : s.pgk.runs.get (s.stream n.toNat).part = some r) (hres : r.res = none)
  (hname : par r.cmd.params.toNat 0 16 = n.toNat) (hdecl : s.carryDecl (s.stream n.toNat).part = some k) (hquiet : Undisturbed s)
include hrun hres hname hdecl hquiet

theorem exec_carrySwapDone_in (hop : r.cmd.op = 0x4023) (hin : (s.stream n.toNat).motion = 1) : ∃ t, exec (.carrySwapDone n) s = .next t ∧
    (t.stream n.toNat).resident = true ∧ (t.stream n.toNat).motion = 0 ∧
    t.tly.ops = s.tly.ops ++ [{ tally := (s.stream n.toNat).resTally, isSet := false, value := 1, due := s.tick }] ∧
    t.mem = (s.wrBoth (spadAddr (s.stream n.toNat).rod (s.stream n.toNat).slot) (s.rd (k.home n.toNat) (recordBytes (s.stream n.toNat).width))).mem := by
  have hexec := exec_carrySwapDone hrun hres hname (by simp [hop])
  rw [State.swapDone_in hdecl hquiet hin] at hexec
  generalize hu : s.wrBoth (spadAddr (s.stream n.toNat).rod (s.stream n.toNat).slot) (s.rd (k.home n.toNat) (recordBytes (s.stream n.toNat).width)) = u at hexec ⊢
  have htick : u.tick = s.tick := (congrArg State.tick hu).symm.trans (State.wrBoth_tick _ _ _)
  have htly : u.tly = s.tly := (congrArg State.tly hu).symm.trans (State.wrBoth_tly _ _ _)
  obtain ⟨hresident, hmotion, hmem, hops⟩ := u.swapEnded_signal n.toNat true (s.stream n.toNat).resTally
  rw [htly, htick] at hops
  generalize (u.swapEnded n.toNat true).signalTally (s.stream n.toNat).resTally 1 = v at hexec hresident hmotion hmem hops
  obtain ⟨hcry, hkept, hsame⟩ := State.keepRun_rest (s.stream n.toNat).part ({ r with res := some (0, 0, 0, 0) }, v)
  refine ⟨_, hexec, ?_⟩
  rw [State.stream, hcry, hkept, hsame]
  exact ⟨hresident, hmotion, hops, hmem⟩

theorem exec_carrySwapDone_out (hop : r.cmd.op = 0x4022) (hout : (s.stream n.toNat).motion = 2) : ∃ t, exec (.carrySwapDone n) s = .next t ∧
    (t.stream n.toNat).resident = false ∧ (t.stream n.toNat).motion = 0 ∧ t.tly = s.tly ∧
    t.mem = (s.wr (k.home n.toNat) ((s.stream n.toNat).header n.toNat ++
      s.rd (spadAddr (s.stream n.toNat).rod (s.stream n.toNat).slot + 64) (12 * (s.stream n.toNat).width))).mem := by
  have hexec := exec_carrySwapDone hrun hres hname (by simp [hop])
  rw [State.swapDone_out hdecl hquiet hout] at hexec
  generalize hu : s.wr (k.home n.toNat) ((s.stream n.toNat).header n.toNat ++
    s.rd (spadAddr (s.stream n.toNat).rod (s.stream n.toNat).slot + 64) (12 * (s.stream n.toNat).width)) = u at hexec ⊢
  have htly : u.tly = s.tly := (congrArg State.tly hu).symm
  obtain ⟨hresident, hmotion⟩ := u.swapEnded_stream n.toNat false
  have hrest : (u.swapEnded n.toNat false).tly = u.tly ∧ (u.swapEnded n.toNat false).mem = u.mem := ⟨rfl, rfl⟩
  generalize u.swapEnded n.toNat false = v at hexec hresident hmotion hrest
  obtain ⟨hcry, hkept, hsame⟩ := State.keepRun_rest (s.stream n.toNat).part ({ r with res := some (0, 0, 0, 0) }, v)
  refine ⟨_, hexec, ?_⟩
  rw [State.stream, hcry, hkept, hsame]
  exact ⟨hresident, hmotion, hrest.1.trans htly, hrest.2⟩

end

/-- Settles O32: carry commands of a host, and the last slot of a swap. -/
theorem carryCommandsComplete : Obligations.CarryCommandsComplete := by
  unfold Obligations.CarryCommandsComplete
  refine ⟨?_, ?_⟩
  · intro h x k s p n t0 named hfree hdecl hhas herrs hheld
    have hquiet : Undisturbed s := ⟨herrs, hheld⟩
    have hnamed (hn : named) : CarryNamed s k p x.toNat := ⟨hdecl, hhas, hn.1, hn.2.1, hn.2.2⟩
    refine ⟨?_, ?_, ?_, ?_, ?_, ?_, ?_, ?_⟩
    · exact fun hwidth hmode htally hclosed => exec_carryOpen hfree rfl hdecl hhas hwidth hmode htally hclosed
    · exact fun hn => exec_carryClose hfree (hnamed hn)
    · exact fun hopen hgen hres hstill => exec_carrySwapOut hfree ⟨hdecl, hhas, hopen, hgen, hstill⟩ hres
    · exact fun hn hres hslot hfreeSlot => exec_carrySwapIn hfree (hnamed hn) hres hslot hfreeSlot
    · exact fun hn => exec_carryReset hfree (hnamed hn) hquiet
    · exact fun hopen => exec_carryQuery hfree hdecl hhas hopen
    · exact fun hn halign harea => exec_carryExport hfree (hnamed hn) hquiet halign harea
    · intro d g hn halign harea hname hwidth h12 h49 h192
      obtain ⟨t, hexec, hran, hstream⟩ := exec_carryImport hfree (hnamed hn) hquiet halign harea hname hwidth h12 h49 h192
      obtain ⟨hsteps, hchunks, hlast⟩ := t0.imported_numbers g
      refine ⟨t, hexec, hran, ?_⟩
      rw [hstream]
      exact ⟨rfl, hsteps, hchunks, hlast⟩
  · intro n r k s t0 hrun hres hname hdecl herrs hheld _
    exact ⟨exec_carrySwapDone_in hrun hres hname hdecl ⟨herrs, hheld⟩, exec_carrySwapDone_out hrun hres hname hdecl ⟨herrs, hheld⟩⟩

end Sys2Proof.Machine
end

section
/-! Camera ports and record streams: settles O35. -/

namespace Sys2Proof.Machine

open Sys2Proof.Claims

variable {s : State}

/-! ### Packets of a camera port (R290, R294 to R297) -/

/-- A data type that carries an image is none of the short packets and not embedded data. -/
theorem dtBits_image {dt : Nat} (h : dtBits dt ≠ 0) : 3 < dt ∧ dt ≠ 0x12 := by
  unfold dtBits at h
  split at h <;> omega

section
variable {port : Fin 16} {vc : BitVec 2} (hlanes : (s.sns.ports.get port.val).lanes ≠ 0)
include hlanes

theorem exec_csiFrameStart_of_one {num : BitVec 16} {p : Nat}
    (hone : ((s.noteEcc port.val 0).abandonInjection port.val).streamsAt port.val vc.toNat = [p]) :
    exec (.csiFrameStart port vc num 0) s = .next (((s.noteEcc port.val 0).abandonInjection port.val).frameStart p num.toNat).settle := by
  change execCsiFrameStart port vc num 0 s = _
  rw [execCsiFrameStart, if_neg hlanes]
  dsimp only
  rw [hone]
  rfl

theorem exec_csiFrameStart_of_none {num : BitVec 16}
    (hnone : ((s.noteEcc port.val 0).abandonInjection port.val).streamsAt port.val vc.toNat = []) :
    exec (.csiFrameStart port vc num 0) s = .next (((s.noteEcc port.val 0).abandonInjection port.val).discardPkt port.val false).settle := by
  change execCsiFrameStart port vc num 0 s = _
  rw [execCsiFrameStart, if_neg hlanes]
  dsimp only
  rw [hnone]
  rfl

theorem exec_csiFrameEnd_of_one {p : Nat} (hone : (s.noteEcc port.val 0).streamsAt port.val vc.toNat = [p]) :
    exec (.csiFrameEnd port vc 0) s = .next ((s.noteEcc port.val 0).frameEnd p).settle := by
  change execCsiFrameEnd port vc 0 s = _
  rw [execCsiFrameEnd, if_neg hlanes]
  dsimp only
  rw [hone]
  rfl

theorem exec_csiLine_of_one {k : CsiPkt} {p : Nat} (hecc : k.ecc = 0) (hvc : k.vc.toNat ≤ 3) (hdt : dtBits k.dt.toNat ≠ 0)
    (hone : ((s.noteEcc port.val 0).streamsAt port.val k.vc.toNat).filter (fun p => camDt ((s.noteEcc port.val 0).point p).desc.toNat == k.dt.toNat) = [p]) :
    exec (.csiLine port k) s = .next ((s.noteEcc port.val 0).lineIn p k.data k.crcOk) := by
  obtain ⟨hlong, himage⟩ := dtBits_image hdt
  change execCsiLine port k s = _
  rw [execCsiLine, if_neg hlanes, hecc]
  simp only [beq_eq_false_iff_ne.mpr himage, Bool.false_or, hone]
  simp [not_lt.mpr hvc, hdt, not_le.mpr hlong, himage]

theorem exec_csiPhyLockChange (b : Bool) :
    exec (.csiPhyLockChange port b) s = .next { s with sns.ports := s.sns.ports.upd port.val fun q => { q with locked := b } } :=
  if_neg hlanes

end

/-! ### Injected patterns and region lists (R305, R306, R308) -/

theorem exec_patternInjection_of_one {port : Fin 16} {p : Nat} (hone : (s.streamsOn fun q => camPort q.desc.toNat == port.val) = [p])
    (hidle : (s.point p).frame = none) (hdue : (s.point p).injDue = true) : exec (.patternInjection port) s = .next (s.inject p).settle := by
  change execPatternInjection port s = _
  rw [execPatternInjection]
  simp [hone, hidle, hdue]

theorem exec_snsRoiWrite {n : Fin 64} {st : Fin 32} {data : List Byte} {j : Nat} (hjob : (s.rods.get n.val).job = some j) (hlen : data.length = 64)
    (hpart : (s.jobRec j).map JobRec.part = some (s.pointPart st.val)) (hraised : s.saf.raised = []) :
    exec (.snsRoiWrite n st data) s = .next (s.updPoint st.val fun q =>
      { q with rois := BitVec.ofNat 512 (leNat data), roisOld := q.roisFor s.tick, roisAt := some s.tick }) := by
  change execSnsRoiWrite n st data s = _
  rw [execSnsRoiWrite, hjob]
  dsimp only
  rw [State.roiWrite, if_pos (by simp [hlen, hpart])]
  exact congrArg Host.Outcome.next (State.settle_quiet (s.updPoint _ _) hraised)

/-! ### Admission (R234) -/

theorem exec_inputAdmit {p : Byte} {a : Arrival} {rest : List Arrival} (hwait : (s.point p.toNat).waiting = a :: rest) (hlive : s.pointLive p.toNat = true) :
    ((s.point p.toNat).lastAdm = some s.tick → exec (.inputAdmit p) s = .next s.settle) ∧
      ((s.point p.toNat).lastAdm ≠ some s.tick →
        exec (.inputAdmit p) s = .next ((s.updPoint p.toNat fun q => { q with waiting := rest }).admitAt p.toNat a).settle) := by
  have hadmit : s.admitInput p.toNat = if (s.point p.toNat).lastAdm = some s.tick then s else (s.updPoint p.toNat fun q => { q with waiting := rest }).admitAt p.toNat a := by
    rw [State.admitInput]
    simp only [hwait, hlive]
    rfl
  refine ⟨fun hnow => ?_, fun hlater => ?_⟩
  · rw [if_pos hnow] at hadmit
    exact congrArg (fun t : State => (.next t.settle : Out)) hadmit
  · rw [if_neg hlater] at hadmit
    exact congrArg (fun t : State => (.next t.settle : Out)) hadmit

/-! ### Records (R310 to R315) -/

theorem exec_recordDecodeStart {dec : Fin 3} {n : Fin 32} {j : RecordJob} {rest : List RecordJob} {k : Nat} (hqueue : (s.point (32 + n.val)).queue = j :: rest)
    (hidle : (s.point (32 + n.val)).decode = none) (hbound : (s.binding (32 + n.val)).isSome = true) (hreplay : s.jrn.r.running = false)
    (hplan : s.pln.state = .running) (hquiet : Undisturbed s) (hraised : s.saf.raised = []) (hlimit : j.bytes ≤ fld (s.point (32 + n.val)).desc.toNat 96 32)
    (htake : recordRefuse (s.point (32 + n.val)).desc.toNat j.bytes (s.rd j.addr j.bytes) = none)
    (hslot : (s.updPoint (32 + n.val) fun q => { q with queue := rest }).freeSlot (32 + n.val) = some k) :
    exec (.recordDecodeStart dec n) s = .next ((s.updPoint (32 + n.val) fun q => { q with queue := rest }).updPoint (32 + n.val) fun q =>
      { q with decode := some { job := j, slot := k, dec := dec.val } }) := by
  have hread (m : Nat) : (s.updPoint (32 + n.val) fun q => { q with queue := rest }).blockRead j.addr m =
      (s.rd j.addr m, s.updPoint (32 + n.val) fun q => { q with queue := rest }) := (Undisturbed.mk (s := s.updPoint _ _) hquiet.errs hquiet.held).blockRead _ _ _
  have hgo : ((s.binding (32 + n.val)).isNone || s.jrn.r.running) = false := by
    rw [hreplay, Bool.or_false, Option.isNone_eq_false_iff, hbound]
  change execRecordDecodeStart dec n s = _
  rw [execRecordDecodeStart]
  simp only [hqueue, hidle, hgo, hplan, if_neg (not_lt.mpr hlimit), hread, htake, hslot]
  exact congrArg Host.Outcome.next (State.settle_quiet (State.updPoint _ _ _) hraised)

theorem exec_recordDecodeEnd {n : Fin 32} {r : DecodeRun} (hrun : (s.point (32 + n.val)).decode = some r) (hquiet : Undisturbed s) (hraised : s.saf.raised = []) :
    let p := 32 + n.val
    let o := decodeRecord (s.point p).desc.toNat (s.rd r.job.addr r.job.bytes)
    exec (.recordDecodeEnd n) s =
      .next ((s.wr (s.slotAddr p r.slot) (slotHeader p (o.1 != 0) false 0 r.job.seq 0 0 o.1 o.2.1 o.2.2.1 0 0 ++ o.2.2.2)).updPoint p fun q =>
        { q with decode := none, waiting := q.waiting ++ [{ slot := some r.slot, seq := r.job.seq, trunc := o.1 != 0 }] }) := by
  intro p o
  change execRecordDecodeEnd n s = _
  rw [execRecordDecodeEnd]
  simp only [hrun, hquiet.blockRead]
  exact congrArg Host.Outcome.next (State.settle_quiet (State.updPoint _ _ _) hraised)

theorem exec_decodeBudget {n : Fin 32} {r : DecodeRun} (hrun : (s.point (32 + n.val)).decode = some r) :
    exec (.decodeBudget n) s = .next ((s.updPoint (32 + n.val) fun q => { q with decode := none }).absent (32 + n.val) r.job.seq 0x500A) := by
  change execDecodeBudget n s = _
  rw [execDecodeBudget, hrun]

/-- Settles O35: packets of a camera port, admission of inputs, and records through their decoders. -/
theorem cameraCompletes : Obligations.CameraCompletes := by
  unfold Obligations.CameraCompletes
  refine ⟨⟨?_, ?_, ?_, ?_, ?_, ?_⟩, ?_, ?_, ?_, ?_⟩
  · exact fun port vc num s hlanes => ⟨fun p => exec_csiFrameStart_of_one hlanes, exec_csiFrameStart_of_none hlanes⟩
  · exact fun port k p s hlanes hecc hvc hdt hone => exec_csiLine_of_one hlanes hecc hvc hdt hone
  · exact fun port vc p s hlanes hone => exec_csiFrameEnd_of_one hlanes hone
  · exact fun port p s hone hidle hdue => exec_patternInjection_of_one hone hidle hdue
  · exact fun port b s hlanes => exec_csiPhyLockChange hlanes b
  · exact fun n st data j s hjob hlen hpart hraised => exec_snsRoiWrite hjob hlen hpart hraised
  · exact fun p a rest s hwait hlive => exec_inputAdmit hwait hlive
  · intro dec n j rest k s p d hqueue hidle hbound hreplay hplan herrs hheld hraised hlimit htake hslot
    exact exec_recordDecodeStart hqueue hidle hbound hreplay hplan ⟨herrs, hheld⟩ hraised hlimit htake hslot
  · exact fun n r s hrun herrs hheld hraised => exec_recordDecodeEnd hrun ⟨herrs, hheld⟩ hraised
  · exact fun n r s hrun => exec_decodeBudget hrun

end Sys2Proof.Machine
end

section
/-! Pre-emption requests, code lines and starts of jobs. -/

namespace Sys2Proof.Machine

open Sys2Proof.Claims

variable {s : State}

/-! ### Pre-emption requests (R216) -/

/-- A running job is asked to save. -/
def JobRun.asked (q : JobRun) : JobRun := { q with preemptReq := true }

/-- Every job of a list is asked to save. -/
def State.askAll (s : State) (js : List JobRec) : State := js.foldl (fun s r => s.updJob r.job JobRun.asked) s

theorem State.updJob_asked (s : State) (i j : Nat) (h : i = j ∨ (s.jobRun j).preemptReq = true) : ((s.updJob i JobRun.asked).jobRun j).preemptReq = true := by
  by_cases hij : i = j
  · rw [hij]
    exact congrArg JobRun.preemptReq (State.updJob_jobRun_self s j _)
  · have hsame : (s.updJob i JobRun.asked).jobRun j = s.jobRun j := Tab.get_upd_ne _ _ (Ne.symm hij)
    rw [hsame]
    exact h.resolve_left hij

theorem State.askAll_asked (js : List JobRec) (s : State) (j : Nat) (h : j ∈ js.map JobRec.job ∨ (s.jobRun j).preemptReq = true) :
    ((s.askAll js).jobRun j).preemptReq = true := by
  induction js generalizing s with
  | nil => exact h.resolve_left (List.not_mem_nil)
  | cons r js ih =>
    refine ih _ ?_
    rcases h with h | h
    · rcases List.mem_cons.mp h with h | h
      · exact .inr (State.updJob_asked s r.job j (.inl h.symm))
      · exact .inl h
    · exact .inr (State.updJob_asked s r.job j (.inr h))

theorem State.askAll_rest (js : List JobRec) (s : State) : s.askAll js = { s with pln.jobs := (s.askAll js).pln.jobs } := by
  induction js generalizing s with
  | nil => rfl
  | cons r js ih => exact (ih (s.updJob r.job JobRun.asked)).trans rfl

theorem exec_preemptRequest {pl : Plan} (hplan : s.pln.plan = some pl) :
    exec .preemptRequest s = .next (s.askAll (s.jobList.filter fun r => (s.jobRun r.job).state == .running && !pl.mayRun r (pl.nextWin s.pln.window))) := by
  change execPreemptRequest s = _
  rw [execPreemptRequest, hplan]
  rfl

/-! ### What a job's start, save and reload leave alone -/

/-- Only memory, the rods and the trace have changed. -/
def RodData (s t : State) : Prop := t = { s with mem := t.mem, errs := t.errs, watch := t.watch, rods := t.rods, trc := t.trc }

theorem RodData.rfl' (s : State) : RodData s s := rfl

theorem RodData.trans {s t u : State} (h : RodData s t) (k : RodData t u) : RodData s u := by
  unfold RodData at *
  rw [k, h]

theorem RodData.foldl {α : Type} {f : State → α → State} (hf : ∀ s x, RodData s (f s x)) (l : List α) (s : State) : RodData s (l.foldl f s) := by
  induction l generalizing s with
  | nil => exact .rfl' s
  | cons x l ih => exact (hf s x).trans (ih _)

theorem RodData.pln {s t : State} (h : RodData s t) : t.pln = s.pln := by
  rw [h]

theorem RodData.saf {s t : State} (h : RodData s t) : t.saf = s.saf := by
  rw [h]

theorem State.wr_rodData (s : State) (a : Nat) (bs : List Byte) : RodData s (s.wr a bs) := rfl

theorem State.updRod_rodData (s : State) (n : Nat) (f : Rod → Rod) : RodData s (s.updRod n f) := rfl

theorem State.freeRods_rodData (s : State) (j : Nat) : RodData s (s.freeRods j) := rfl

theorem State.wrBoth_rodData (s : State) (a : Nat) (bs : List Byte) : RodData s (s.wrBoth a bs) := by
  unfold RodData
  rw [State.wrBoth_rest]

theorem State.wrZero_rodData (s : State) (a n : Nat) : RodData s (s.wrZero a n) := rfl

/-- A load set writes memory, and no rod. -/
theorem State.applyLoad_rods (s : State) (e : LoadSet) : (s.applyLoad e).rods = s.rods := by
  unfold State.applyLoad
  dsimp only
  split
  · split <;> rfl
  · exact State.wrBoth_rods _ _ _

theorem State.applyLoad_rodData (s : State) (e : LoadSet) : RodData s (s.applyLoad e) := by
  unfold State.applyLoad
  dsimp only
  split
  · split
    · exact (State.wrZero_rodData ..).trans (State.wrZero_rodData ..)
    · exact State.wrZero_rodData ..
  · exact State.wrBoth_rodData ..

theorem State.trace_rodData (s : State) (src level type a b : Nat) : RodData s (s.trace src level type a b) := by
  obtain ⟨x, hx⟩ := State.trace_eq s src level type a b
  rw [hx]
  rfl

theorem State.traceJob_rodData (s : State) (n j kind : Nat) : RodData s (s.traceJob n j kind) := by
  unfold State.traceJob
  split
  · exact .rfl' s
  · exact State.trace_rodData ..

theorem State.count_rodData (s : State) (n k v : Nat) : RodData s (s.count n k v) := by
  unfold State.count
  split
  · exact .rfl' s
  · exact State.updRod_rodData ..

theorem State.endSegment_rodData (s : State) (n j kind : Nat) : RodData s (s.endSegment n j kind) := by
  unfold State.endSegment
  split
  · exact .rfl' s
  · exact State.updRod_rodData ..

/-! ### Code lines without an error (R94) -/

/-- Memory has no error mark and no rod a jammed bank. -/
structure Unmarred (s : State) : Prop where
  errs : s.errs.cells = []
  upset : ∀ n, (s.rod n).upset.banks = []

theorem Unmarred.of_cells (herrs : s.errs.cells = []) (hcells : ∀ c ∈ s.rods.cells, c.2.upset.banks = []) : Unmarred s :=
  ⟨herrs, fun n => Tab.get_of_forall (P := fun r : Rod => r.upset.banks = []) rfl hcells n⟩

theorem Unmarred.spadRead (h : Unmarred s) (n off len : Nat) : s.spadRead n off len = (some (s.rd (spadAddr n off) len), s) :=
  State.spadRead_clean s h.errs n off len (State.jammed_clean s h.upset _ _)

/-- Only the trace and, of the rods, counts and code lines have changed. -/
structure Fetched (s t : State) : Prop where
  rest : t = { s with rods := t.rods, trc := t.trc }
  rod : ∀ n, ∃ cnt code, t.rod n = { s.rod n with cnt := cnt, code := code }

theorem Fetched.rfl' (s : State) : Fetched s s := ⟨rfl, fun _ => ⟨_, _, rfl⟩⟩

theorem Fetched.trans {s t u : State} (h : Fetched s t) (k : Fetched t u) : Fetched s u := by
  refine ⟨by rw [k.rest, h.rest], fun n => ?_⟩
  obtain ⟨_, _, ht⟩ := h.rod n
  obtain ⟨cnt, code, hu⟩ := k.rod n
  exact ⟨cnt, code, by rw [hu, ht]⟩

theorem Fetched.unmarred {s t : State} (h : Fetched s t) (hs : Unmarred s) : Unmarred t := by
  refine ⟨by rw [h.rest]; exact hs.errs, fun n => ?_⟩
  obtain ⟨_, _, hrod⟩ := h.rod n
  rw [hrod]
  exact hs.upset n

theorem Fetched.pln {s t : State} (h : Fetched s t) : t.pln = s.pln := by
  rw [h.rest]

theorem Fetched.saf {s t : State} (h : Fetched s t) : t.saf = s.saf := by
  rw [h.rest]

theorem Fetched.mem {s t : State} (h : Fetched s t) : t.mem = s.mem := by
  rw [h.rest]

theorem Fetched.updRod (s : State) (k : Nat) {f : Rod → Rod} (hf : ∀ r, ∃ cnt code, f r = { r with cnt := cnt, code := code }) : Fetched s (s.updRod k f) := by
  refine ⟨rfl, fun n => ?_⟩
  by_cases hn : n = k
  · rw [hn, State.rod_updRod]
    exact hf _
  · rw [State.rod_updRod_ne s f hn]
    exact ⟨_, _, rfl⟩

theorem State.trace_fetched (s : State) (src level type a b : Nat) : Fetched s (s.trace src level type a b) := by
  obtain ⟨x, hx⟩ := State.trace_eq s src level type a b
  rw [hx]
  exact ⟨rfl, fun _ => ⟨_, _, rfl⟩⟩

theorem State.traceJob_fetched (s : State) (n j kind : Nat) : Fetched s (s.traceJob n j kind) := by
  unfold State.traceJob
  split
  · exact .rfl' s
  · exact State.trace_fetched ..

theorem State.count_fetched (s : State) (n k v : Nat) : Fetched s (s.count n k v) := by
  unfold State.count
  split
  · exact .rfl' s
  · exact Fetched.updRod s n fun _ => ⟨_, _, rfl⟩

/-- `State.spadRead` by another name, which the elaborator does not unfold. -/
theorem exists_spadRead_unmarred :
    ∃ read : State → Nat → Nat → Nat → Option (List Byte) × State,
      read = State.spadRead ∧ ∀ s, Unmarred s → ∀ n off len, read s n off len = (some (s.rd (spadAddr n off) len), s) :=
  ⟨_, rfl, fun _ => Unmarred.spadRead⟩

theorem State.readLines_fetched {n : Nat} (ls : List Nat) (h : Unmarred s) : ∃ (new : List (Nat × List Byte)) (t : State), s.readLines n ls = (some new, t) ∧ Fetched s t := by
  obtain ⟨read, hread, hsome⟩ := exists_spadRead_unmarred
  delta State.readLines State.readLines._f
  rw [← hread]
  induction ls generalizing s with
  | nil => exact ⟨[], s, rfl, .rfl' s⟩
  | cons l ls ih =>
    have hcount := State.count_fetched s n 18 1
    obtain ⟨rest, t, hrest, ht⟩ := ih (hcount.unmarred h)
    refine ⟨(l, s.rd (spadAddr n ((s.rod n).codeBase + 64 * l)) 64) :: rest, t, ?_, hcount.trans ht⟩
    dsimp only [List.brecOn, List.brecOn.go] at hrest ⊢
    rw [hsome s h]
    dsimp only
    rw [hrest]

theorem State.holdCode_fetched (n : Nat) (h : Unmarred s) : Fetched s (s.holdCode n).2 := by
  obtain ⟨new, t, hread, ht⟩ := State.readLines_fetched (n := n) ((s.rod n).codeWant.filter fun l => !(s.rod n).code.any fun c => c.1 == l) h
  unfold State.holdCode
  dsimp only
  split
  · exact .rfl' s
  · rw [hread]
    exact ht.trans (Fetched.updRod t n fun _ => ⟨_, _, rfl⟩)

/-- A sequencer that has read its code lines holds those it wants (R94). -/
theorem State.holdCode_holds {n : Nat} {s t : State} (h : s.holdCode n = (true, t)) : (t.rod n).holds (t.rod n).codeWant = true ∧ t.mem = s.mem := by
  obtain ⟨hmem, ce, cnt, hrod, hread, hkept⟩ := State.holdCode_true h
  have hwant : (t.rod n).codeWant = (s.rod n).codeWant := by
    rw [hrod]
    rfl
  refine ⟨?_, hmem⟩
  cases hheld : (s.rod n).holds (s.rod n).codeWant with
  | true => rw [hkept hheld, hheld]
  | false =>
    rw [hwant, Rod.holds, hread hheld, List.all_eq_true]
    intro l hl
    simp only [List.any_eq_true, List.mem_filter, List.mem_append, List.mem_map, List.contains_eq_mem, decide_eq_true_eq, beq_iff_eq]
    by_cases hold : ∃ c ∈ (s.rod n).code, c.1 = l
    · obtain ⟨c, hc, hcl⟩ := hold
      exact ⟨c, ⟨.inl hc, hcl ▸ hl⟩, hcl⟩
    · refine ⟨(l, _), ⟨.inr ⟨l, ⟨hl, ?_⟩, rfl⟩, hl⟩, rfl⟩
      simpa using fun a b hc ha => hold ⟨(a, b), hc, ha⟩

/-! ### Starts (R93, R212) -/

/-- A rod that its job has taken. -/
def JobRod.taken (e : JobRod) (j : Nat) (q : Rod) : Rod := { e.started q with job := some j }

/-- The rods of a list taken by a job. -/
def State.takeAll (s : State) (j : Nat) (l : List JobRod) : State := l.foldl (fun s e => s.updRod e.rod (e.taken j)) s

theorem State.takeRods_unlocked {pl : Plan} {r : JobRec} (hlock : r.locked = false) : s.takeRods pl r JobRod.started = s.takeAll r.job (pl.rodsOf r) := by
  unfold State.takeRods
  rw [hlock]
  rfl

theorem State.takeAll_rest (l : List JobRod) (s : State) (j : Nat) : s.takeAll j l = { s with rods := (s.takeAll j l).rods } := by
  induction l generalizing s with
  | nil => rfl
  | cons e l ih => exact (ih (s.updRod e.rod (e.taken j))).trans rfl

theorem State.takeAll_other {l : List JobRod} {n : Nat} (h : n ∉ l.map JobRod.rod) (s : State) (j : Nat) : (s.takeAll j l).rod n = s.rod n := by
  induction l generalizing s with
  | nil => rfl
  | cons e l ih =>
    obtain ⟨hne, hl⟩ := not_or.mp fun hmem => h (List.mem_cons.mpr hmem)
    exact (ih hl _).trans (State.rod_updRod_ne s _ hne)

theorem State.takeAll_rod {l : List JobRod} (hnodup : (l.map JobRod.rod).Nodup) {e : JobRod} (he : e ∈ l) (s : State) (j : Nat) :
    (s.takeAll j l).rod e.rod = e.taken j (s.rod e.rod) := by
  induction l generalizing s with
  | nil => exact nomatch he
  | cons d l ih =>
    obtain ⟨hd, hl⟩ := List.nodup_cons.mp hnodup
    rcases List.mem_cons.mp he with rfl | he
    · exact (State.takeAll_other hd _ j).trans (State.rod_updRod s _ _)
    · have hne : e.rod ≠ d.rod := fun h => hd (h ▸ List.mem_map_of_mem he)
      exact (ih hl he _).trans (congrArg (e.taken j) (State.rod_updRod_ne s _ hne))

theorem State.takeAll_upset (l : List JobRod) {s : State} (h : ∀ n, (s.rod n).upset.banks = []) (j n : Nat) : ((s.takeAll j l).rod n).upset.banks = [] := by
  induction l generalizing s with
  | nil => exact h n
  | cons e l ih =>
    refine ih fun k => ?_
    by_cases hk : k = e.rod
    · rw [hk, State.rod_updRod]
      exact h e.rod
    · rw [State.rod_updRod_ne s _ hk]
      exact h k

/-- A job's rods trace its start and read their first code lines. -/
def State.beginRods (s : State) (j : Nat) (l : List Nat) : State := l.foldl (fun s n => ((s.traceJob n j 0).holdCode n).2) s

theorem State.beginRods_fetched (l : List Nat) (h : Unmarred s) (j : Nat) : Fetched s (s.beginRods j l) := by
  induction l generalizing s with
  | nil => exact .rfl' s
  | cons n l ih =>
    have htrace := State.traceJob_fetched s n j 0
    have hone := htrace.trans (State.holdCode_fetched n (htrace.unmarred h))
    exact hone.trans (ih (hone.unmarred h))

/-- A job's run as it starts. -/
def JobRun.begun (q : JobRun) : JobRun := { q with state := .running, exits := {}, signalled := {}, preemptReq := false }

theorem exec_jobRunStart {j : BitVec 10} {pl : Plan} {r : JobRec} (hplan : s.pln.plan = some pl) (hrec : s.jobRec j.toNat = some r) (hrun : s.pln.state = .running)
    (hcan : s.canStart pl r = true) (hfirst : s.outranked pl r = false) :
    exec (.jobRunStart j) s = .next (((s.takeRods pl r JobRod.started).updJob r.job JobRun.begun).beginRods r.job r.rods).settle := by
  change execJobRunStart j s = _
  rw [execJobRunStart, hplan, hrec]
  dsimp only
  rw [if_pos (by simp [hrun, hcan, hfirst])]
  rfl

theorem exec_jobRunStart_effect {j : BitVec 10} {pl : Plan} {r : JobRec} (hplan : s.pln.plan = some pl) (hrec : s.jobRec j.toNat = some r)
    (hrun : s.pln.state = .running) (hcan : s.canStart pl r = true) (hfirst : s.outranked pl r = false) (hlock : r.locked = false)
    (hnodup : ((pl.rodsOf r).map JobRod.rod).Nodup) (hclean : Unmarred s) (hraised : s.saf.raised = []) :
    ∃ t, exec (.jobRunStart j) s = .next t ∧ (t.jobRun r.job).state = .running ∧
      ∀ e ∈ pl.rodsOf r, (t.rod e.rod).job = some r.job ∧ (t.rod e.rod).seq = .ready ∧ (t.rod e.rod).pc = BitVec.ofNat 16 e.pc := by
  have hexec := exec_jobRunStart hplan hrec hrun hcan hfirst
  rw [State.takeRods_unlocked hlock] at hexec
  have hrest := State.takeAll_rest (pl.rodsOf r) s r.job
  have htaken : Unmarred ((s.takeAll r.job (pl.rodsOf r)).updJob r.job JobRun.begun) :=
    ⟨(congrArg (fun u : State => u.errs.cells) hrest).trans hclean.errs, State.takeAll_upset _ hclean.upset _⟩
  have hbegun := State.beginRods_fetched r.rods htaken r.job
  have hquiet : (((s.takeAll r.job (pl.rodsOf r)).updJob r.job JobRun.begun).beginRods r.job r.rods).saf.raised = [] :=
    (congrArg Saf.raised hbegun.saf).trans ((congrArg (fun u : State => u.saf.raised) hrest).trans hraised)
  rw [State.settle_quiet _ hquiet] at hexec
  refine ⟨_, hexec, ?_, fun e he => ?_⟩
  · rw [State.jobRun, hbegun.pln]
    exact congrArg JobRun.state (State.updJob_jobRun_self _ _ _)
  · obtain ⟨cnt, code, hrod⟩ := hbegun.rod e.rod
    have htake : ((s.takeAll r.job (pl.rodsOf r)).updJob r.job JobRun.begun).rod e.rod = e.taken r.job (s.rod e.rod) := State.takeAll_rod hnodup he s r.job
    rw [hrod, htake]
    exact ⟨rfl, rfl, rfl⟩

end Sys2Proof.Machine
end

section
/-! Context saves, restores, reloads and self-test slices: settles O21. -/

namespace Sys2Proof.Machine

open Sys2Proof.Claims

variable {s : State}

/-! ### Context saves and restores (R79, R114) -/

theorem State.saveRod_rodData (s : State) (n gen part saves : Nat) : RodData s (s.saveRod n gen part saves) :=
  (((State.applyLoad_rodData s _).trans (RodData.foldl (fun t _ => State.wr_rodData t _ _) _ _)).trans (RodData.foldl (fun t _ => State.wr_rodData t _ _) _ _)).trans
    (State.wr_rodData _ _ _)

theorem State.saved_rodData (s : State) (n j saves : Nat) : RodData s (s.saved n j saves) := by
  unfold State.saved
  extract_lets g p u off v
  have hu : RodData s u := State.saveRod_rodData ..
  have hv : RodData s v := by
    unfold v
    split
    · exact hu.trans (State.wr_rodData ..)
    · exact hu
  exact (((hv.trans (State.count_rodData ..)).trans (State.traceJob_rodData ..)).trans (State.endSegment_rodData ..)).trans (State.updRod_rodData ..)

/-- Rods of a job save their contexts. -/
def State.saveAll (s : State) (j saves : Nat) (l : List Nat) : State := l.foldl (fun s k => s.saved k j saves) s

/-- The rods of a job have saved, and it has lost them. -/
def State.preempted (s : State) (j saves : Nat) (l : List Nat) : State :=
  ((s.saveAll j saves l).freeRods j).updJob j fun q => { q with state := .preempted, preemptAt := (s.saveAll j saves l).pln.preempts, saves := q.saves + 1, preemptReq := false }

/-- The same, counted. -/
def State.preemptDone (s : State) (j saves : Nat) (l : List Nat) : State :=
  { s.preempted j saves l with pln.preempts := (s.preempted j saves l).pln.preempts + 1 }

theorem State.preempted_run (s : State) (j saves : Nat) (l : List Nat) :
    ((s.preempted j saves l).jobRun j).state = .preempted ∧ ((s.preempted j saves l).jobRun j).saves = (s.jobRun j).saves + 1 := by
  have hpln : ((s.saveAll j saves l).freeRods j).pln = s.pln :=
    ((RodData.foldl (fun t k => State.saved_rodData t k j saves) l s).trans (State.freeRods_rodData _ j)).pln
  have hself : (s.preempted j saves l).jobRun j = _ := State.updJob_jobRun_self _ j _
  rw [hself, State.jobRun, hpln]
  exact ⟨rfl, rfl⟩

theorem exec_contextSaveDone {j : BitVec 10} {r : JobRec} (hrec : s.jobRec j.toNat = some r) (hrun : (s.jobRun j.toNat).state = .running)
    (hlive : (r.rods.filter fun k => ((s.jobRun j.toNat).exits.get k).isNone) ≠ [])
    (hsaving : ∀ k ∈ r.rods, ((s.jobRun j.toNat).exits.get k).isNone = true → (s.rod k).seq = .saving) :
    ∃ t, exec (.contextSaveDone j) s = .next t ∧ (t.jobRun j.toNat).state = .preempted ∧ (t.jobRun j.toNat).saves = (s.jobRun j.toNat).saves + 1 := by
  have hall : ((r.rods.filter fun k => ((s.jobRun j.toNat).exits.get k).isNone).all fun k => (s.rod k).seq == .saving) = true := by
    rw [List.all_eq_true]
    intro k hk
    obtain ⟨hmem, hnone⟩ := List.mem_filter.mp hk
    exact beq_iff_eq.mpr (hsaving k hmem hnone)
  obtain ⟨hstate, hsaves⟩ := s.preempted_run j.toNat ((s.jobRun j.toNat).saves + 1) (r.rods.filter fun k => ((s.jobRun j.toNat).exits.get k).isNone)
  refine ⟨s.preemptDone j.toNat ((s.jobRun j.toNat).saves + 1) (r.rods.filter fun k => ((s.jobRun j.toNat).exits.get k).isNone), ?_, hstate, hsaves⟩
  change execContextSaveDone j s = _
  rw [execContextSaveDone]
  dsimp only
  rw [hrec]
  dsimp only
  rw [if_pos (by rw [hall, hrun, Bool.and_true, Bool.and_eq_true]; exact ⟨beq_self_eq_true _, by simpa using hlive⟩)]
  rfl

theorem Unmarred.updRod (h : Unmarred s) (k : Nat) {f : Rod → Rod} (hf : ∀ r, (f r).upset = r.upset) : Unmarred (s.updRod k f) := by
  refine ⟨h.errs, fun n => ?_⟩
  by_cases hn : n = k
  · rw [hn, State.rod_updRod, hf]
    exact h.upset k
  · rw [State.rod_updRod_ne s f hn]
    exact h.upset n

/-- A rod as its context `x` gives it back, with its accumulators and lane registers. -/
def Rod.restored (q : Rod) (x : Nat) (acc : Tab Acc) (lanes : Tab Word) : Rod :=
  { q.ofContext x with acc := acc, lanes := lanes, seq := .ready, state := 1, tileTicks := 0, ctxSaved := false }

section
variable {n j : Nat} {x : Nat} (hclean : Unmarred s) (hx : s.rdN (spadAddr n (s.rod n).ctxSaveBase.toNat + 64 * 4160) 1024 = x)
  (hgen : fld x 1152 16 = (s.jobRun j).gen.toNat) (hpart : fld x 1168 4 = s.jobPart j)
include hclean hx hgen hpart

/-- A rod that restores has its context back, and reads its code lines. -/
theorem State.restoreRod_clean : ∃ (acc : Tab Acc) (lanes : Tab Word),
    s.restoreRod n j = (((s.count n 18 saveLines).updRod n fun q => q.restored x acc lanes).holdCode n).2 := by
  obtain ⟨read, hread, hsome⟩ := exists_spadRead_unmarred
  have hdef : @State.restoreRod = @State.restoreRod := rfl
  conv at hdef => rhs; delta State.restoreRod
  rw [← hread] at hdef
  rw [hdef]
  dsimp only
  rw [hsome s hclean]
  dsimp only
  rw [hx, if_neg (by simp [hgen, hpart])]
  exact ⟨_, _, rfl⟩

theorem State.restoreRod_effect : ∃ t : State, s.restoreRod n j = t ∧ (t.rod n).seq = .ready ∧ (t.rod n).pc = BitVec.ofNat 16 (fld x 0 16) ∧
    (t.rod n).descBase = BitVec.ofNat 32 (fld x 64 32) ∧ t.mem = s.mem ∧ t.saf = s.saf := by
  obtain ⟨acc, lanes, hrestore⟩ := State.restoreRod_clean hclean hx hgen hpart
  have hcount := State.count_fetched s n 18 saveLines
  have hheld := State.holdCode_fetched n ((hcount.unmarred hclean).updRod n (f := fun q => q.restored x acc lanes) fun _ => rfl)
  obtain ⟨cnt, code, hrod⟩ := hheld.rod n
  rw [State.rod_updRod] at hrod
  refine ⟨_, hrestore, ?_, ?_, ?_, hheld.mem.trans hcount.mem, hheld.saf.trans hcount.saf⟩ <;> rw [hrod] <;> rfl

end

theorem exec_contextRestoreDone {j : BitVec 10} {n : Nat}
    (hone : ((List.range 64).filter fun n => (s.rod n).job == some j.toNat && (s.rod n).seq == .restoring) = [n]) :
    exec (.contextRestoreDone j) s = .next (s.restoreRod n j.toNat).settle := by
  change execContextRestoreDone j s = _
  rw [execContextRestoreDone, hone, List.foldl_cons, List.foldl_nil]

theorem exec_contextRestoreDone_effect {j : BitVec 10} {n : Nat} {x : Nat}
    (hone : ((List.range 64).filter fun n => (s.rod n).job == some j.toNat && (s.rod n).seq == .restoring) = [n]) (hclean : Unmarred s) (hraised : s.saf.raised = [])
    (hx : s.rdN (spadAddr n (s.rod n).ctxSaveBase.toNat + 64 * 4160) 1024 = x) (hgen : fld x 1152 16 = (s.jobRun j.toNat).gen.toNat)
    (hpart : fld x 1168 4 = s.jobPart j.toNat) :
    ∃ t, exec (.contextRestoreDone j) s = .next t ∧ (t.rod n).seq = .ready ∧ (t.rod n).pc = BitVec.ofNat 16 (fld x 0 16) ∧
      (t.rod n).descBase = BitVec.ofNat 32 (fld x 64 32) ∧ t.mem = s.mem := by
  obtain ⟨t, hrestore, hseq, hpc, hdesc, hmem, hsaf⟩ := State.restoreRod_effect hclean hx hgen hpart
  refine ⟨t, ?_, hseq, hpc, hdesc, hmem⟩
  rw [exec_contextRestoreDone hone, hrestore, State.settle_quiet _ ((congrArg Saf.raised hsaf).trans hraised)]

/-! ### Reloads (R218) -/

theorem State.reload_free {j : Nat} {e : LoadSet} (h : s.heldRod (spadAddr e.rod e.off) (64 * e.lines) = none) : s.reload j e = s.applyLoad e := by
  unfold State.reload
  rw [h]

theorem State.foldl_reload_free {j : Nat} (l : List LoadSet) (h : ∀ e ∈ l, s.heldRod (spadAddr e.rod e.off) (64 * e.lines) = none) :
    l.foldl (fun s e => s.reload j e) s = l.foldl State.applyLoad s := by
  induction l generalizing s with
  | nil => rfl
  | cons e l ih =>
    obtain ⟨hfree, hrest⟩ := List.forall_mem_cons.mp h
    rw [List.foldl_cons, List.foldl_cons, State.reload_free hfree]
    exact ih fun d hd => (State.heldRod_congr (State.applyLoad_rods s e) _ _).trans (hrest d hd)

/-- A job's run after its reload. -/
def JobRun.reloaded (q : JobRun) : JobRun :=
  { q with state := .released, restarts := q.restarts + 1, restarted := true, disturbed := true, relock := false, exits := {} }

theorem exec_reloadComplete {j : BitVec 10} {pl : Plan} {r : JobRec} (hplan : s.pln.plan = some pl) (hrec : s.jobRec j.toNat = some r)
    (htorn : (s.jobRun j.toNat).state = .teardown) (hlock : (s.jobRun j.toNat).relock = false) (hraised : s.saf.raised = [])
    (hfree : ∀ e ∈ pl.loadsOf r, s.heldRod (spadAddr e.rod e.off) (64 * e.lines) = none) :
    exec (.reloadComplete j) s = .next (((pl.loadsOf r).foldl State.applyLoad s).updJob j.toNat JobRun.reloaded) := by
  have hload : RodData s ((pl.loadsOf r).foldl State.applyLoad s) := RodData.foldl State.applyLoad_rodData _ s
  change execReloadComplete j s = _
  rw [execReloadComplete, hplan, hrec]
  dsimp only
  rw [if_pos htorn, State.foldl_reload_free _ hfree, hlock]
  exact congrArg Host.Outcome.next (State.settle_quiet (State.updJob _ _ _) ((congrArg Saf.raised hload.saf).trans hraised))

theorem exec_reloadComplete_effect {j : BitVec 10} {pl : Plan} {r : JobRec} (hplan : s.pln.plan = some pl) (hrec : s.jobRec j.toNat = some r)
    (htorn : (s.jobRun j.toNat).state = .teardown) (hlock : (s.jobRun j.toNat).relock = false) (hraised : s.saf.raised = [])
    (hfree : ∀ e ∈ pl.loadsOf r, s.heldRod (spadAddr e.rod e.off) (64 * e.lines) = none) :
    ∃ t, exec (.reloadComplete j) s = .next t ∧ (t.jobRun j.toNat).state = .released ∧ (t.jobRun j.toNat).restarts = (s.jobRun j.toNat).restarts + 1 ∧
      t.mem = ((pl.loadsOf r).foldl State.applyLoad s).mem := by
  have hload : RodData s ((pl.loadsOf r).foldl State.applyLoad s) := RodData.foldl State.applyLoad_rodData _ s
  have hself := State.updJob_jobRun_self ((pl.loadsOf r).foldl State.applyLoad s) j.toNat JobRun.reloaded
  refine ⟨_, exec_reloadComplete hplan hrec htorn hlock hraised hfree, ?_⟩
  rw [hself, State.jobRun, hload.pln]
  exact ⟨rfl, rfl, rfl⟩

/-! ### Self-test slices (R225) -/

/-- The test area of a rod, to be set to zero. -/
def State.sliceArea (s : State) (n : Nat) : LoadSet :=
  let t := (s.pln.plan.bind fun pl => pl.selftests.find? fun e => e.rod == n).getD {}
  { rod := n, off := t.base, lines := t.lines, zero := true }

/-- A slice that ends keeps its rod's last result. -/
theorem State.endSlice_selftest (s : State) (n : Nat) : ((s.endSlice n).pln.selftest.get n).result = (s.pln.selftest.get n).result ∧
    ((s.endSlice n).pln.selftest.get n).running = false := by
  have hload := State.applyLoad_rodData s (s.sliceArea n)
  have hself : (s.endSlice n).pln.selftest = (s.applyLoad (s.sliceArea n)).pln.selftest.upd n fun q => { q with running := false } := rfl
  rw [hself, hload.pln, Tab.get_upd_self]
  exact ⟨rfl, rfl⟩

/-- A slice's result is written. -/
def State.sliceResult (s : State) (n : Nat) (result : BitVec 2) : State := { s with pln.selftest := s.pln.selftest.upd n fun q => { q with result := result } }

theorem exec_selftestSliceStop {n : Fin 64} (hrun : (s.pln.selftest.get n.val).running = true) :
    ∃ t, exec (.selftestSliceStop n) s = .next t ∧ (t.pln.selftest.get n.val).result = 3 ∧ (t.pln.selftest.get n.val).running = false := by
  have hresult : ((s.sliceResult n.val 3).pln.selftest.get n.val).result = 3 := congrArg SelfTestRun.result (Tab.get_upd_self _ _ _)
  obtain ⟨hkept, hstop⟩ := (s.sliceResult n.val 3).endSlice_selftest n.val
  exact ⟨_, if_pos hrun, hkept.trans hresult, hstop⟩

theorem exec_selftestSegmentDone {n : Fin 64} (hrun : (s.pln.selftest.get n.val).running = true) (hraised : s.saf.raised = []) :
    exec (.selftestSegmentDone n true false) s = .next { s with
      pln.selftest := s.pln.selftest.upd n.val fun q => { q with result := 1, segment := q.segment + 1, passes := q.passes } } := by
  change execSelftestSegmentDone n true false s = _
  rw [execSelftestSegmentDone]
  dsimp only
  rw [if_pos hrun]
  exact congrArg Host.Outcome.next (State.settle_quiet _ (by exact hraised))

/-- Settles O21: pre-emption, starts, saves, restores, reloads, code lines, and self-test slices. -/
theorem jobRunsComplete : Obligations.JobRunsComplete := by
  unfold Obligations.JobRunsComplete
  refine ⟨?_, ?_, ?_, ?_, ?_, ?_, ?_, ?_⟩
  · intro pl s hplan
    have hrest := State.askAll_rest (s.jobList.filter fun r => (s.jobRun r.job).state == .running && !pl.mayRun r (pl.nextWin s.pln.window)) s
    refine ⟨_, exec_preemptRequest hplan, fun r hr hrun hloses => State.askAll_asked _ _ _ (.inl (List.mem_map_of_mem (List.mem_filter.mpr ⟨hr, ?_⟩))), ?_, ?_, ?_⟩
    · rw [hrun, hloses]
      rfl
    · rw [hrest]
    · rw [hrest]
    · rw [hrest]
  · intro j pl r s hplan hrec hrun hcan hfirst hlock hnodup herrs hraised hcells
    exact exec_jobRunStart_effect hplan hrec hrun hcan hfirst hlock hnodup (.of_cells herrs hcells) hraised
  · exact fun j r s hrec hrun hlive hsaving => exec_contextSaveDone hrec hrun hlive hsaving
  · intro j n s hone herrs hraised _ hcells x hgen hpart
    exact exec_contextRestoreDone_effect hone (.of_cells herrs hcells) hraised rfl hgen hpart
  · exact fun j pl r s hplan hrec htorn hlock hraised hfree => exec_reloadComplete_effect hplan hrec htorn hlock hraised hfree
  · exact fun n s t => State.holdCode_holds
  · exact fun n s hrun => exec_selftestSliceStop hrun
  · exact fun n s hrun hraised => exec_selftestSegmentDone hrun hraised

end Sys2Proof.Machine
end

section
/-! The setup of a descriptor and its end in a unit: settles O27. -/

namespace Sys2Proof.Machine

open Sys2Proof.Claims

variable {s : State}

/-! ### Reads of a setup that meet nothing (R74, R75) -/

theorem Unmarred.touch (h : Unmarred s) (n : Nat) (ts : List (Nat × Nat)) : s.touch n ts = (true, s) := by
  have hfree : (ts.any fun t => s.jammed t.1 t.2) = false := by
    simp only [List.any_eq_false, State.jammed_clean s h.upset, Bool.false_eq_true, not_false_eq_true, implies_true]
  rw [State.touch, hfree, h.errs]
  rfl

/-- `State.touch` by another name, which the elaborator does not unfold. -/
theorem exists_touch_unmarred :
    ∃ touch : State → Nat → List (Nat × Nat) → Bool × State, touch = State.touch ∧ ∀ s, Unmarred s → ∀ n ts, touch s n ts = (true, s) :=
  ⟨_, rfl, fun _ => Unmarred.touch⟩

theorem Unmarred.count (h : Unmarred s) (n k v : Nat) : Unmarred (s.count n k v) := (State.count_fetched s n k v).unmarred h

/-- What a range check of rod `n` looks at: the plan, the memory fitted, and the rod's job. -/
structure SameJob (s t : State) (n : Nat) : Prop where
  rest : t = { s with rods := t.rods }
  job : (t.rod n).job = (s.rod n).job

theorem SameJob.mayHold {s t : State} {n : Nat} (h : SameJob s t n) (a len : Nat) : t.mayHold n a len = s.mayHold n a len := by
  unfold State.mayHold
  rw [h.job, h.rest]
  rfl

theorem SameJob.mayTouch {s t : State} {n : Nat} (h : SameJob s t n) (dma : Bool) (a : Int) : t.mayTouch n dma a = s.mayTouch n dma a := by
  unfold State.mayTouch
  rw [h.job, h.rest]
  rfl

theorem SameJob.outOfRange {s t : State} {n : Nat} (h : SameJob s t n) (d : Desc) (e : DescEnv) : t.outOfRange n d e = s.outOfRange n d e := by
  unfold State.outOfRange State.spanOk
  simp only [h.mayTouch, h.job]
  rw [h.rest]
  rfl

theorem State.count_sameJob (s : State) (n k v : Nat) : SameJob s (s.count n k v) n := by
  unfold State.count
  split
  · exact ⟨rfl, rfl⟩
  · exact ⟨rfl, (congrArg Rod.job (State.rod_updRod s n _)).trans rfl⟩

theorem State.count_trc (s : State) (n k v : Nat) : (s.count n k v).trc = s.trc := by
  rw [(State.count_sameJob s n k v).rest]

/-! ### Setup (R97) -/

section
variable {n op : Nat} {i : Issued} {rest : List Issued} {d : Desc}

theorem begun_unmarred (herrs : s.errs.cells = []) (hupset : ∀ c ∈ s.rods.cells, c.2.upset = {}) : Unmarred (begun s n op i rest) :=
  (Unmarred.of_cells herrs fun c hc => congrArg Upset.banks (hupset c hc)).updRod n fun _ => rfl

/-- A descriptor that passes every check of its setup is carried out in its unit. -/
theorem State.start_setUp (h : setUp s n op i rest d) (k : Desc → DescEnv → State → State) :
    s.start n op k = .next ((ran s n op i rest d).lockstep n (k d ((begun s n op i rest).descEnv n))).settle := by
  obtain ⟨hqueue, hop, hidle, hjob, hlead, herrs, hupset, hraised, htrace, hshift, hfields, harrays, hbounds, hrange⟩ := h
  have hclean : Unmarred (begun s n op i rest) := begun_unmarred herrs hupset
  have hgo : ¬ (decide (i.op ≠ op) || ((s.rod n).units.get (unitOf op)).run.isSome || (s.rod n).job.isNone || (s.rod n).follower n) = true := by
    simp [hop, hidle, hlead, Option.isSome_iff_ne_none.mp hjob]
  have hbegun : (s.updRod n fun r => { r with units := r.units.upd (unitOf op) fun q => { q with run := some i, queue := rest } }) = begun s n op i rest := rfl
  have hsame (v : Nat) := State.count_sameJob (begun s n op i rest) n 18 v
  have hmay (v : Nat) : ((d.arrays (d.channels ((begun s n op i rest).descEnv n)) (d.statRecs ((begun s n op i rest).descEnv n))).any fun a =>
      a.1 % a.2.2 != 0 || !((begun s n op i rest).count n 18 v).mayHold n a.1 a.2.1) = false := by
    rw [List.any_eq_false]
    intro a ha
    obtain ⟨halign, hheld⟩ := harrays a ha
    rw [(hsame v).mayHold, hheld, halign]
    exact Bool.false_ne_true
  have hrange' (v : Nat) : ((begun s n op i rest).count n 18 v).outOfRange n d ((begun s n op i rest).descEnv n) = false :=
    ((hsame v).outOfRange d _).trans hrange
  have hoff (v : Nat) : ((begun s n op i rest).count n 18 v).trc.state = .off := (congrArg Trc.state (State.count_trc _ n 18 v)).trans htrace
  have hnoted (v : Nat) : Unmarred (((begun s n op i rest).count n 18 v).updRod n fun r => { r with units := r.units.upd (unitOf op) fun q => { q with id := d.id } }) :=
    (hclean.count n 18 v).updRod n fun _ => rfl
  obtain ⟨read, hread, hsome⟩ := exists_spadRead_unmarred
  obtain ⟨touch, htouch, hmet⟩ := exists_touch_unmarred
  have hdef : @State.start = @State.start := rfl
  conv at hdef => rhs; delta State.start
  rw [← hread, ← htouch] at hdef
  rw [hdef]
  dsimp only
  rw [hqueue]
  dsimp only
  rw [if_neg hgo, hbegun, hsome _ hclean]
  have hword : leNat ((begun s n op i rest).rd (spadAddr n i.off) 128) = s.rdN (spadAddr n i.off) 128 := rfl
  dsimp only at hshift ⊢
  rw [hword, hshift]
  dsimp only
  rw [hmet _ hclean]
  dsimp only
  rw [if_neg (by rw [hfields, hmay]; exact Bool.false_ne_true), if_neg (by rw [hbounds, hrange']; exact Bool.false_ne_true), State.trace_off _ (hoff _), hmet _ (hnoted _), List.length_map]
  rfl

end

/-- DESC_END of a unit that pins nothing and left no fault to its end. -/
theorem exec_descEnd {n : Fin 64} {u : Fin 4} {i : Issued} (hrun : ((s.rod n.val).units.get u.val).run = some i) (hpins : ((s.rod n.val).units.get u.val).pins = [])
    (hend : ((s.rod n.val).units.get u.val).atEnd = []) (htrace : s.trc.state = .off) (hraised : s.saf.raised = []) :
    exec (.descEnd n u) s = .next ((s.count n.val (9 + u.val) 1).updRod n.val fun r =>
      { r with units := r.units.upd u.val fun q => { q with run := none, pins := [], atEnd := [], stats := [] } }) := by
  have hquiet : (s.count n.val (9 + u.val) 1).saf.raised = [] := (congrArg Saf.raised (State.count_fetched s n.val (9 + u.val) 1).saf).trans hraised
  change execDescEnd n u s = _
  rw [execDescEnd]
  dsimp only
  rw [hrun]
  dsimp only
  rw [hpins, hend, State.trace_off s htrace]
  exact congrArg Host.Outcome.next (State.settle_quiet (State.updRod _ _ _) hquiet)

/-- A move waits for a slot of its engine (R207). -/
theorem exec_dmaMove_waits {n : Fin 64} (h : s.moveWaits n.val = true) : exec (.dmaMove n) s = .next s := if_pos h

theorem exec_dmaMove_setUp {n : Fin 64} {i : Issued} {rest : List Issued} {d : Desc} (h : setUp s n.val 11 i rest d) (hserved : s.moveWaits n.val = false) :
    exec (.dmaMove n) s = .next ((ran s n.val 11 i rest d).lockstep n.val fun t => t.dmaMove n.val d ((begun s n.val 11 i rest).descEnv n.val)).settle := by
  change execDmaMove n s = _
  rw [execDmaMove, if_neg (by rw [hserved]; exact Bool.false_ne_true)]
  exact State.start_setUp h fun d e t => t.dmaMove n.val d e

/-- Settles O27: each operation in its unit, and the end of a descriptor. -/
theorem unitsCarryOutTheirDescriptors : Obligations.UnitsCarryOutTheirDescriptors := by
  unfold Obligations.UnitsCarryOutTheirDescriptors
  refine ⟨fun n i rest d s => ⟨?_, ?_, ?_, ?_, ?_, ?_, ?_, ?_, ?_, ?_, ?_, ?_⟩, ?_⟩
  · exact fun h => State.start_setUp h fun d e t => t.matmul n.val d e
  · exact fun h => State.start_setUp h fun d e t => t.matmul n.val d e
  · exact fun h => State.start_setUp h fun d e t => t.elemwise n.val d e
  · exact fun h => State.start_setUp h fun d e t => t.poolUnit n.val d e
  · exact fun h => State.start_setUp h fun d e t => t.cropResize n.val d e
  · exact fun h => State.start_setUp h fun d e t => t.chArgmax n.val d e
  · exact fun h => State.start_setUp h fun d e t => t.attnScore n.val d e
  · exact fun h => State.start_setUp h fun d e t => t.attnMerge n.val d e
  · exact fun h => State.start_setUp h fun d e t => t.scan n.val d e
  · exact fun h => State.start_setUp h fun d e t => t.convert n.val d e
  · exact fun h hserved => exec_dmaMove_setUp h hserved
  · exact fun h => exec_dmaMove_waits h
  · exact fun n u i s hrun hpins hend htrace hraised => exec_descEnd hrun hpins hend htrace hraised

end Sys2Proof.Machine
end
